-- ==== Sys2Proof/Word.lean ====
section
/-!
DEFINITION. The word types of the model: bytes, 32-bit register words, 64-bit words, and the sparse map that holds
every addressed store of the device (registers, HBM, SRAM, register files).
-/
namespace Sys2Proof

/-- One byte (R10). -/
abbrev Byte := BitVec 8

/-- A 32-bit register word (R12). -/
abbrev W32 := BitVec 32

/-- A 64-bit word. -/
abbrev W64 := BitVec 64

/-- A sparse store: keys strictly rising, and no entry equal to what an unlisted key reads as. `SMap Byte` is a list of
`Host.Cell`. -/
abbrev SMap (α : Type) := List (Nat × α)

end Sys2Proof
end

