-- ==== Sys2Proof/Syntax.lean ====
section
/-!
DEFINITION. The commands of the device: one constructor per row of spec/opcode_table.json, in the table's order. The
table gives no operand fields, so the operands are the model's (log entry 1): what the row's rule says arrives from
outside (a lane and its block, a register offset and a value, a descriptor's tag), and, for a step that checks stored or
received bits, the bit errors that the check finds (log entry 2).
-/
namespace Sys2Proof

/-- What an error-correcting check finds at one event: nothing, a correctable error or an uncorrectable one
(R94, R105, R120, R144). -/
inductive Ecc where
  | clean | corrected | uncorrectable
  deriving DecidableEq, Repr

/-- What the checks of the words of one read find: how many words a correctable and how many an uncorrectable error (R94, R105). -/
structure WordErrs where
  ce : Nat
  ue : Nat
  deriving DecidableEq, Repr

/-- A read whose words are clean, one with one corrected word, and one with one uncorrectable word. -/
def WordErrs.clean : WordErrs := ⟨0, 0⟩
def WordErrs.corrected : WordErrs := ⟨1, 0⟩
def WordErrs.uncorrectable : WordErrs := ⟨0, 1⟩

/-- What the checks that one bundle meets find: at its tick-program entry, at the register-file reads of the MAC slot, the vector slot
and SEND (R94), for each AG at an SRAM read, with whether a suspect tag fails parity (R104, R105), and at the words of output queues
0 to 3 (R144). -/
structure Checks where
  tp : Ecc
  mac : WordErrs
  vec : WordErrs
  send : WordErrs
  ags : List (WordErrs × Bool)
  oq : List (Nat × Ecc)
  deriving DecidableEq, Repr

/-- The spaces of the function that a host request names: the registers of BAR0, the doorbells and MSI-X structures of BAR4, and
configuration space (R431, R433). BAR2 has commands of its own. -/
inductive Space where
  | bar0 | bar4 | config
  deriving DecidableEq, Repr

/-- The bytes of a space. -/
def Space.bytes : Space → Nat
  | .bar0 => 0x4000000
  | .bar4 => 0x10000
  | .config => 0x1000

/-- Checks that find nothing. -/
def Checks.clean : Checks := ⟨.clean, .clean, .clean, .clean, [], []⟩

/-- What a link check finds on one token (R120): the codes of its eight data words and, ninth, of its sideband, and the bits that
differ from the token as sent, data below sideband. Bits under a code that is not uncorrectable arrive as sent. -/
structure LinkErr where
  codes : List Ecc
  flips : BitVec 528
  deriving DecidableEq, Repr

/-- A token that arrives as sent. -/
def LinkErr.clean : LinkErr := ⟨[], 0⟩

/-- The commands. A constructor's docstring names its row and the rule the table gives for it. -/
inductive Instr where
  /-- REGISTER_WRITE (R18). -/
  | registerWrite (space : Space) (off size : Nat) (value : W64)
  /-- W1C_STATUS_WRITE (R14). -/
  | w1cStatusWrite (off : Nat) (value : W32)
  /-- RC_COUNTER_READ (R15). -/
  | rcCounterRead (space : Space) (off size : Nat)
  /-- PAIR_LOW_WORD_READ (R12). -/
  | pairLowWordRead (off : Nat)
  /-- LANE_TICK_HEADER (R44). -/
  | laneTickHeader (lane : Nat) (sync : BitVec 2) (raw : W64)
  /-- DATA_BLOCK (R61). -/
  | dataBlock (lane : Nat) (sync : BitVec 2) (raw : W64)
  /-- CRC16_VERDICT (R43). -/
  | crc16Verdict (lane : Nat)
  /-- INGEST_RELEASE_TICK (R54). -/
  | ingestReleaseTick
  /-- GRP_EN_WRITE (R67). -/
  | grpEnWrite (value : W32)
  /-- SNAP_GO (R75). -/
  | snapGo
  /-- CLR_CNT_ING (R63). -/
  | clrCntIng
  /-- REPLAY_CTRL_WRITE (R73). -/
  | replayCtrlWrite (value : W32)
  /-- REPLAY_READ (R74). -/
  | replayRead (record lane : Nat)
  /-- HOT_BUNDLE_ISSUE (R96). -/
  | hotBundleIssue (site : Nat) (chk : Checks)
  /-- WARM_BUNDLE_ISSUE (R97). -/
  | warmBundleIssue (site : Nat) (chk : Checks)
  /-- MAC8 (R79). -/
  | mac8 (site asrc aseg : Nat) (wsel : Bool) (acc : Nat) (ecc : WordErrs)
  /-- MAC4 (R79). -/
  | mac4 (site asrc aseg : Nat) (wsel : Bool) (acc : Nat) (ecc : WordErrs)
  /-- OMAC8 (R81). -/
  | omac8 (site asrc aseg : Nat) (wsel : Bool) (acc : Nat) (ecc : WordErrs)
  /-- OMAC4 (R81). -/
  | omac4 (site asrc aseg : Nat) (wsel : Bool) (acc : Nat) (ecc : WordErrs)
  /-- LDW (R84). -/
  | ldw (site asrc : Nat) (wsel : Bool) (ecc : WordErrs)
  /-- LDO (R84). -/
  | ldo (site asrc : Nat) (ecc : WordErrs)
  /-- GEND (R82). -/
  | gend (site asrc aseg acc gsz dst : Nat) (ecc : WordErrs)
  /-- VECTOR_INSTRUCTION (R85). -/
  | vectorInstruction (site : Nat) (vec : BitVec 80) (ctrl : BitVec 16) (ecc : WordErrs)
  /-- SCALAR_OPERATION (R95). -/
  | scalarOperation (site : Nat) (slot : BitVec 24)
  /-- RECV (R99). -/
  | recv (site queue rvr rblk : Nat)
  /-- SEND (R99). -/
  | send (site queue svr sblk : Nat) (ecc : WordErrs) (oq : Ecc)
  /-- MU_READ (R103). -/
  | muRead (site ag pat : Nat) (step : Bool) (ecc : WordErrs) (tagBad : Bool) (oq : Ecc)
  /-- MU_WRITE (R103). -/
  | muWrite (site ag pat : Nat) (step : Bool)
  /-- MU_XFER (R483). -/
  | muXfer (site ag pat : Nat) (step store : Bool)
  /-- MU_ACCESS_GRANT (R109). -/
  | muAccessGrant (site : Nat) (ags : List (WordErrs × Bool)) (oq : List (Nat × Ecc))
  /-- XFER_COMPLETE (R483). -/
  | xferComplete (site ag : Nat)
  /-- CONFIG_BUFFER_DRAIN (R110). -/
  | configBufferDrain (site : Nat)
  /-- HRT_TBL_READ (R112). -/
  | hrtTblRead (site : Nat) (ecc : WordErrs)
  /-- HRT_TBL_WRITE (R488). -/
  | hrtTblWrite (site : Nat)
  /-- GRATE_TBL_READ (R145). -/
  | grateTblRead (site : Nat) (ecc : Ecc)
  /-- GRATE_TBL_WRITE (R145). -/
  | grateTblWrite (site : Nat)
  /-- AMX_SEL_WRITE (R193). -/
  | amxSelWrite (site : Nat) (value : W32)
  /-- TOKEN_CROSSING (R121). -/
  | tokenCrossing (site : Nat) (linkErr : List (Nat × LinkErr)) (tblErr : List (Nat × Ecc))
  /-- STEER_FIRE_HOT (R126). -/
  | steerFireHot (site : Nat) (ecc : Ecc) (so : List (Nat × Ecc))
  /-- STEER_FIRE_WARM (R127). -/
  | steerFireWarm (site : Nat) (so : List (Nat × Ecc))
  /-- CREDIT_RETURN (R133). -/
  | creditReturn (sender : Nat)
  /-- QSAMP_SAMPLE (R141). -/
  | qsampSample
  /-- QSAMP_RECORD (R141). -/
  | qsampRecord
  /-- CLR_CNT_FAB (R143). -/
  | clrCntFab
  /-- EMPTY (R139). -/
  | cfgEmpty (course : Nat) (token : BitVec 512)
  /-- SHADOW_WRITE (R223). -/
  | shadowWrite (course : Nat) (token : BitVec 512)
  /-- LIVE_WRITE (R223). -/
  | liveWrite (course : Nat) (token : BitVec 512)
  /-- SCAN_REQ (R223). -/
  | scanReq (course : Nat) (token : BitVec 512)
  /-- SCAN_DATA (R223). -/
  | scanData (course : Nat) (token : BitVec 512)
  /-- MARK (R217). -/
  | cfgMark (course : Nat) (token : BitVec 512)
  /-- SHADOW_CLEAR (R223). -/
  | shadowClear (course : Nat) (token : BitVec 512)
  /-- HOT_WINDOW_CLOSE (R184). -/
  | hotWindowClose (site : Nat)
  /-- WARM_WINDOW_CLOSE (R184). -/
  | warmWindowClose (site : Nat)
  /-- SCALE_PUBLISH (R190). -/
  | scalePublish (site : Nat)
  /-- LOAD_IMAGE_FULL (R208). -/
  | loadImageFull (tag : Nat)
  /-- LOAD_IMAGE_STAGE (R209). -/
  | loadImageStage (tag : Nat)
  /-- SWAP_EPOCH (R213). -/
  | swapEpoch (tag : Nat)
  /-- HOT_EPOCH_SWITCH (R214). -/
  | hotEpochSwitch
  /-- STOKER_MARK_ENQUEUE (R217). -/
  | stokerMarkEnqueue
  /-- WARM_UNIT_SWITCH (R218). -/
  | warmUnitSwitch (site : Nat)
  /-- WARM_GRATE_SWITCH (R218). -/
  | warmGrateSwitch (site : Nat)
  /-- CREDIT_EPOCH_START (R219). -/
  | creditEpochStart (sender : Nat)
  /-- SWAP_TIMEOUT (R220). -/
  | swapTimeout
  /-- SWAP_EPOCH_COMPLETE (R221). -/
  | swapEpochComplete
  /-- HALT (R226). -/
  | haltWrite
  /-- RUN_WRITE (R227). -/
  | runWrite
  /-- HEARTH_HALT (R226). -/
  | hearthHalt
  /-- HEARTH_RELEASE (R227). -/
  | hearthRelease
  /-- SCAN_OUT (R228). -/
  | scanOut (tag : Nat)
  /-- SCAN_IN (R229). -/
  | scanIn (tag : Nat)
  /-- TRG_DECISION (R245). -/
  | trgDecision
  /-- TRIG_OUT_PULSE_END (R259). -/
  | trigOutPulseEnd (out : Nat)
  /-- TRIGGER_RECORD_POST (R258). -/
  | triggerRecordPost
  /-- SCORE_TAKE (R247). -/
  | scoreTake (course : Nat)
  /-- CAPTURE_TAKE (R269). -/
  | captureTake (course : Nat)
  /-- ACQ_WRITE_RESUME (R274). -/
  | acqWriteResume (pool : Nat)
  /-- RECORD_COMPLETE (R272). -/
  | recordComplete (pool : Nat)
  /-- TRIG_IN_EDGE (R250). -/
  | trigInEdge (input : Nat) (rising : Bool) (frac : Byte)
  /-- FORCE_HIT (R251). -/
  | forceHit
  /-- TRG_COMMIT (R257). -/
  | trgCommit (value : W32)
  /-- COMMIT_APPLY (R257). -/
  | commitApply
  /-- POOL_RELEASE_WRITE (R273). -/
  | poolReleaseWrite (pool : Nat) (value : W64)
  /-- POOL_CTRL_WRITE (R275). -/
  | poolCtrlWrite (pool : Nat) (value : W32)
  /-- POOL_STOP (R275). -/
  | poolStop (pool : Nat)
  /-- POOL_START (R275). -/
  | poolStart (pool : Nat)
  /-- CHIMNEY_SLOT_LAUNCH (R260). -/
  | chimneySlotLaunch (port : Nat)
  /-- CHIMNEY_TRIGGER_RECEIVE (R263). -/
  | chimneyTriggerReceive (port : Nat) (msg : W64) (frac : Byte)
  /-- ECHO_REQ (R264). -/
  | echoReq (port : Nat) (msg : W64) (frac : Byte)
  /-- ECHO_RSP (R264). -/
  | echoRsp (port : Nat) (msg : W64) (frac : Byte)
  /-- USER (R266). -/
  | chmUser (port : Nat) (msg : W64)
  /-- CHM_ECHO_GO (R264). -/
  | chmEchoGo (port : Nat)
  /-- CHM_ECHO_TIMEOUT (R264). -/
  | chmEchoTimeout (port : Nat)
  /-- TXQ_PUSH (R265). -/
  | txqPush (port : Nat)
  /-- RXQ_POP (R266). -/
  | rxqPop (port : Nat)
  /-- SET (R279). -/
  | timSet
  /-- ADJ_GO (R279). -/
  | timAdjGo
  /-- RATE_WRITE (R279). -/
  | rateWrite (value : W32)
  /-- NOW_TIME_READ (R277). -/
  | nowTimeRead
  /-- TP_FRAME_TRANSMIT (R286). -/
  | tpFrameTransmit (port : Nat) (boundary : Nat)
  /-- TSQ_POP (R288). -/
  | tsqPop (port : Nat)
  /-- TP_FRAME_RECEIVE (R289). -/
  | tpFrameReceive (port : Nat) (frame : List Byte) (frac : Byte)
  /-- SYNC_SEND (R290). -/
  | syncSend (value : W32)
  /-- FRC_LOAD (R291). -/
  | frcLoad
  /-- SQ_DOORBELL (R299). -/
  | sqDoorbell (queue : Nat) (value : W32)
  /-- CQ_DOORBELL (R299). -/
  | cqDoorbell (queue : Nat) (value : W32)
  /-- DESCRIPTOR_FETCH (R300). -/
  | descriptorFetch (queue : Nat)
  /-- DESCRIPTOR_START (R301). -/
  | descriptorStart
  /-- RUN (R314). -/
  | runDesc (tag : Nat)
  /-- CHUNK_ASSIGN (R316). -/
  | chunkAssign (tag : Nat)
  /-- STREAM_PORT_SEND (R133). -/
  | streamPortSend (port : Nat)
  /-- STREAM_PORT_DRAIN (R315). -/
  | streamPortDrain (port : Nat)
  /-- SUMMARY_ENTER (R316). -/
  | summaryEnter (tag : Nat)
  /-- RUN_COMPLETE (R315). -/
  | runComplete (tag : Nat)
  /-- COPY (R305). -/
  | copyDesc (tag : Nat)
  /-- FILL (R305). -/
  | fillDesc (tag : Nat)
  /-- FENCE (R310). -/
  | fenceDesc (tag : Nat)
  /-- FENCE_COMPLETE (R310). -/
  | fenceComplete (tag : Nat)
  /-- BARRIER (R311). -/
  | barrierDesc (tag : Nat)
  /-- BARRIER_COMPLETE (R311). -/
  | barrierComplete (tag : Nat)
  /-- BARRIER_TIMEOUT (R312). -/
  | barrierTimeout (tag : Nat)
  /-- TIMESTAMP (R304). -/
  | timestampDesc (tag : Nat)
  /-- SNAPSHOT (R305). -/
  | snapshotDesc (tag : Nat)
  /-- READ_DIGESTS (R341). -/
  | readDigests (tag : Nat)
  /-- ATTEST (R305). -/
  | attestDesc (tag : Nat)
  /-- RESYNC (R323). -/
  | resyncDesc (tag : Nat)
  /-- RESYNC_GO (R323). -/
  | resyncGo
  /-- COMPLETION_POST (R306). -/
  | completionPost (queue : Nat)
  /-- CQ_IRQ_TIMEOUT (R309). -/
  | cqIrqTimeout (queue : Nat)
  /-- CQ_ENABLE (R306). -/
  | cqEnable (queue : Nat) (value : W32)
  /-- SQ_DISABLE (R320). -/
  | sqDisable (queue : Nat)
  /-- STK_DISABLE (R320). -/
  | stkDisable (value : W32)
  /-- FUNC_EN_WRITE (R321). -/
  | funcEnWrite (value : W32)
  /-- BUS_MASTER_CHANGE (R322). -/
  | busMasterChange (on : Bool)
  /-- DAMPER_UPDATE (R456). -/
  | damperUpdate
  /-- HOT_DIGEST_WINDOW_CLOSE (R338). -/
  | hotDigestWindowClose
  /-- WARM_DIGEST_WINDOW_CLOSE (R339). -/
  | warmDigestWindowClose (point : Nat)
  /-- ZL_FRAME_SEND (R345). -/
  | zlFrameSend (link : Nat)
  /-- ZL_FRAME_RECEIVE (R346): the eight lane blocks as received, sync header above the scrambled part with its first bit lowest. -/
  | zlFrameReceive (link : Nat) (lanes : List (BitVec 2640)) (age : Nat)
  /-- ZL_CONTAINER_RELEASE (R345). -/
  | zlContainerRelease (link slot : Nat)
  /-- ZL_RETRY_TIMEOUT (R352). -/
  | zlRetryTimeout (link : Nat)
  /-- ZL_ECHO_GO (R347). -/
  | zlEchoGo (link : Nat)
  /-- ZL_ECHO_TIMEOUT (R347). -/
  | zlEchoTimeout (link : Nat)
  /-- FREEZE (R348). -/
  | zlFreeze (link : Nat)
  /-- ZL_LINK_DISABLE (R348). -/
  | zlLinkDisable (link : Nat)
  /-- ATTACH (R365). -/
  | twinAttach
  /-- TWIN_IN_SYNC (R365). -/
  | twinInSync
  /-- RESTART (R366). -/
  | twinRestart
  /-- TWIN_RESTART_CHECK (R366). -/
  | twinRestartCheck
  /-- DETACH (R367). -/
  | twinDetach
  /-- TWIN_DETACHED (R367). -/
  | twinDetached
  /-- TWIN_PROMOTE (R363). -/
  | twinPromote
  /-- TWIN_DEMOTE (R364). -/
  | twinDemote
  /-- HBM_SECTOR_READ (R377): the bit errors that the read meets, and those of a hard fault that the sector has from now on. -/
  | hbmSectorRead (master addr : Nat) (err : BitVec 288) (hard : Option (BitVec 288))
  /-- HBM_SECTOR_WRITE (R382). -/
  | hbmSectorWrite (master addr : Nat) (mask : W32) (data : BitVec 256) (poison : Bool)
  /-- MERGE_TIMEOUT (R383). -/
  | mergeTimeout (sector : Nat)
  /-- READ_MODIFY_WRITE (R384): why the entry leaves its buffer (0 timeout, 1 eviction, 2 a read of its sector), and the bit errors
  that the read meets. -/
  | readModifyWrite (sector cause : Nat) (err : BitVec 288)
  /-- HBM_REFRESH (R375). -/
  | hbmRefresh (pchan bank : Nat)
  /-- HBM_BUCKET_LEAK (R381). -/
  | hbmBucketLeak (stack : Nat)
  /-- MEM_INJ_WRITE (R388). -/
  | memInjWrite (value : W32)
  /-- CLR_CNT_MEM (R387). -/
  | clrCntMem
  /-- BAR2_READ (R372). -/
  | bar2Read (off len : Nat)
  /-- BAR2_WRITE (R436). -/
  | bar2Write (off : Nat) (bytes : List Byte) (poisoned : Bool)
  /-- FAULT_STATUS_SET (R391). -/
  | faultStatusSet (source : Nat) (upset : Option Nat)
  /-- ERR_PULSE_END (R400). -/
  | errPulseEnd
  /-- BLOCK_RESTART (R448). -/
  | blockRestart (source : Nat)
  /-- HCE_BUCKET_LEAK (R393). -/
  | hceBucketLeak
  /-- ENTER (R401). -/
  | safeEnter
  /-- EXIT (R402). -/
  | safeExit
  /-- FLT_INJ_WRITE (R405). -/
  | fltInjWrite (value : W32)
  /-- CLR_CNT_FLT (R391). -/
  | clrCntFlt
  /-- FLT_PARITY_SCAN (R406). -/
  | fltParityScan (word : Nat) (parityOk : Bool)
  /-- GET_INFO (R426). -/
  | getInfo
  /-- MAILBOX_ATTEST (R424). -/
  | mailboxAttest
  /-- GET_KEM_CERT (R421). -/
  | getKemCert
  /-- ENROLL_OWNER (R419). -/
  | enrollOwner
  /-- FUSE_OFF_VENDOR (R420). -/
  | fuseOffVendor
  /-- DEBUG_CHALLENGE (R425). -/
  | debugChallenge
  /-- DEBUG_UNLOCK (R425). -/
  | debugUnlock
  /-- DEBUG_LOCK (R425). -/
  | debugLock
  /-- READ_LOG (R396). -/
  | readLog
  /-- SET_SVN (R426). -/
  | setSvn
  /-- TREE_REGENERATED (R417). -/
  | treeRegenerated
  /-- GLITCH_DETECT (R413). -/
  | glitchDetect
  /-- PERST_N_ASSERT (R440). -/
  | perstAssert (ns : Nat)
  /-- PERST_N_DEASSERT (R441). -/
  | perstDeassert
  /-- CHIP_RESET (R397). -/
  | chipReset
  /-- CHIP_RESET_WRITE (R448). -/
  | chipResetWrite
  /-- POWER_ON_RESET (R449). -/
  | powerOnReset
  /-- HBM_FILL_DONE (R385). -/
  | hbmFillDone (failed : BitVec 6)
  /-- CORE_RELEASE (R447). -/
  | coreRelease
  /-- ASHPIT_RELEASE (R397). -/
  | ashpitRelease
  /-- FLR (R442). -/
  | flr
  /-- PCIE_LINK_DOWN (R429). -/
  | pcieLinkDown
  /-- PCIE_LINK_UP (R428). -/
  | pcieLinkUp (width speed : Nat) (flit : Bool) (both : Nat)
  /-- COMPLETION_TIMEOUT (R430). -/
  | completionTimeout (tag off len : Nat) (refused : Bool)
  /-- MSIX_SEND (R439). -/
  | msixSend (vector : Nat)
  /-- RAIL_OUT_OF_TOLERANCE (R444). -/
  | railOutOfTolerance (rail : Nat) (high : Bool)
  /-- PLL_UNLOCK (R450). -/
  | pllUnlock (pll : Nat)
  /-- REFCLK_LOSS (R451). -/
  | refclkLoss
  /-- AVS_STEP (R452). -/
  | avsStep (up ack : Bool)
  /-- TEMP_THRESHOLD (R453). -/
  | tempThreshold (celsius : Int)
  /-- CDC_TIMEOUT (R461). -/
  | cdcTimeout (crossing : Nat)
  /-- CDC_RESYNC (R462). -/
  | cdcResync (crossing words : Nat)
  /-- COMPANION_LOSS (R464). -/
  | companionLoss (tx : Nat)
  /-- PROBE_PULSE (R463). -/
  | probePulse (tx : Nat)
  /-- TRANSMITTER_ON (R463). -/
  | transmitterOn (tx : Nat)
  /-- CLAMP_TRIP (R465). -/
  | clampTrip (tx : Nat)
  /-- FLUE_FAULT (R465). -/
  | flueFault (flue : Nat)
  /-- LANE_SIGNAL_LOSS (R45). -/
  | laneSignalLoss (lane : Nat)
  /-- CHIMNEY_BLOCK_RECEIVE (R260). -/
  | chimneyBlockReceive (port : Nat) (sync : BitVec 2) (payload : W64)
  /-- TP_BLOCK_LOCK (R285). -/
  | tpBlockLock (port : Nat) (locked signal : Bool)
  /-- PRBS31_CHECK (R70). -/
  | prbs31Check (lane : Nat) (bits : List Bool)
  /-- LOADER_PASS_END (R207). -/
  | loaderPassEnd
  /-- DMA_COMPLETE (R305). -/
  | dmaComplete (tag : Option Nat)
  /-- FIREBOX_REQUEST_DONE (R426). -/
  | fireboxRequestDone
  /-- RAIL_RETURN (R444). -/
  | railReturn (rail : Nat)
  /-- PLL_RELOCK (R450). -/
  | pllRelock (pll : Nat)
  /-- REFCLK_RETURN (R451). -/
  | refclkReturn
  /-- HOT_REFRESH (R375). -/
  | hotRefresh (stack : Nat) (celsius : Nat)
  /-- COMPANION_PRESENT (R464). -/
  | companionPresent (tx : Nat)
  /-- BAR2_RESIZE (R436). -/
  | bar2Resize (log2GiB : Nat)
  /-- EXTEST (R479). -/
  | extest (instr : Nat)
  deriving DecidableEq, Repr

end Sys2Proof
end

