-- ==== Sys2Proof/Config.lean ====
section
/-!
DEFINITION. Values that spec/ leaves open. Each is an opaque constant without a body, so nothing can be proved about the
value it takes; a field of State counts the draws (log entries 5 and 6).
-/
namespace Sys2Proof

/-- The k-th free value of w bits that a run draws (R19; log entry 5). -/
opaque Config.freeBits (w : Nat) : Nat → BitVec w

/-- The 256-bit PUF root key that the helper data reconstruct (R412). -/
opaque Config.pufRoot : BitVec 4096 → BitVec 256

/-- The identity trees, by the keys "ID-SEED" and "ID-I" (R412, R414): how identifiers and private seeds derive from them is not in
spec/. Tree 0 is the top tree, and tree b + 1 is bottom tree b. The identifier of a tree; the private value of a chain of a leaf; and the
randomiser of a leaf's signature. -/
opaque Config.treeIdent : List (BitVec 8) → List (BitVec 8) → Nat → BitVec 128
opaque Config.otsSecret : List (BitVec 8) → List (BitVec 8) → Nat → Nat → Nat → BitVec 256
opaque Config.otsRandom : List (BitVec 8) → List (BitVec 8) → Nat → Nat → BitVec 256

/-- The header of the firmware in a slot of the boot flash, with offsets from the slot's start: the length of the object before its
signature block, its SVN and its version; none where the slot holds no firmware (R412). The layout of the header is not in spec/. -/
opaque Config.firmwareHeader : SMap (BitVec 8) → Option (Nat × Nat × BitVec 32)

/-- The scan key that the key "SCAN" and an image digest give (R423). -/
opaque Config.scanKey : List (BitVec 8) → BitVec 256 → List (BitVec 8)

/-- The bits of IDCODE that R479 does not give: version, manufacturer and the bit below it. -/
opaque Config.idcodeRest : BitVec 16

/-- The Vendor ID of configuration space, which spec/ does not give, and the identifier of the capability for 128.0 GT/s (R431). -/
opaque Config.vendorId : BitVec 16
opaque Config.pl128Id : BitVec 16

/-- The relay grates that a crossing route meets on the peer chip, by the peer's PLACE_MAP and the route entry's numbers (R225; log entry
25). -/
opaque Config.peerRelays : Nat → List Nat → Nat

/-- The n-th draw of the Firebox's random source for a nonce (R425). -/
opaque Config.nonce : Nat → BitVec 256

/-- An operation of V3 where spec/ fixes only its accuracy: operation code and FP32 operand (R180, R181). -/
opaque Config.special : Nat → BitVec 32 → BitVec 32

/-- The quotient that QNT8 rounds where the entry's scale is not a positive normal number, which R169 excludes and no rule
gives a result for: lane bits and scale bits. -/
opaque Config.openQuotient : Nat → Nat → Int

end Sys2Proof
end

