-- ==== Sys2Proof/Machine/Bits.lean ====
section
/-!
DEFINITION. Bit fields, byte order, sparse stores, saturating counts and the CRC and scrambler bit functions, used by every
family. All of them work on natural numbers or byte lists and are structurally recursive.
-/
namespace Sys2Proof.Machine

/-! ### Bit fields -/

/-- Bits [lsb+w-1 : lsb] of a number (R9). -/
def bitsAt (v lsb w : Nat) : Nat := (v >>> lsb) % 2 ^ w

/-- Bit i of a number. -/
def bitAt (v i : Nat) : Bool := v.testBit i

/-- The number with bits [lsb+w-1 : lsb] replaced by the low w bits of x. -/
def putBits (v lsb w x : Nat) : Nat := v - (bitsAt v lsb w) * 2 ^ lsb + (x % 2 ^ w) * 2 ^ lsb

/-- One bit as a number. -/
def b2n (b : Bool) : Nat := if b then 1 else 0

/-- A two's complement number of w bits as an integer. -/
def sint (w v : Nat) : Int := if v % 2 ^ w < 2 ^ (w - 1) then (v % 2 ^ w : Nat) else (v % 2 ^ w : Nat) - (2 ^ w : Nat)

/-- An integer as a two's complement number of w bits. -/
def unsint (w : Nat) (x : Int) : Nat := (x % (2 ^ w : Nat)).toNat

/-- The integer clamped to [lo, hi]. -/
def clampInt (lo hi x : Int) : Int := if x < lo then lo else if x > hi then hi else x

/-- A counter of w bits raised by k, holding at its maximum. -/
def satAdd (w v k : Nat) : Nat := min (v + k) (2 ^ w - 1)

/-- A register field: the BAR0 offset of its register, its lowest bit and its width (R9, R11). -/
structure Fld where
  off : Nat
  lsb : Nat
  width : Nat
  deriving DecidableEq, Repr

/-- The access codes of R13. -/
inductive Access where
  | ro | rw | w1c | wo | rc | rs
  deriving DecidableEq, Repr

/-- One field of a register map row: its place, its access code and its reset value. -/
structure FieldRow where
  lsb : Nat
  width : Nat
  acc : Access
  reset : Nat
  deriving DecidableEq, Repr

/-- One register of a map: first BAR0 offset, bytes, and up to two index dimensions (count and stride of each). -/
structure RegRow where
  base : Nat
  bytes : Nat
  n1 : Nat
  s1 : Nat
  n2 : Nat
  s2 : Nat
  fields : List FieldRow
  deriving DecidableEq, Repr

/-- The word (0 or 1) of the row's register that a 4-byte-aligned offset names, if the row holds it. -/
def RegRow.wordAt (r : RegRow) (off : Nat) : Option Nat :=
  if off < r.base then none else
  let d := off - r.base
  let i := if r.s1 = 0 then 0 else d / r.s1
  let e := if r.s1 = 0 then d else d % r.s1
  let j := if r.s2 = 0 then 0 else e / r.s2
  let f := if r.s2 = 0 then e else e % r.s2
  if i < r.n1 ∧ j < r.n2 ∧ f < r.bytes then some (f / 4) else none

/-- The fields of one 32-bit word of a register: those of a 64-bit register are cut at bit 32. -/
def fieldsOfWord (fs : List FieldRow) (w : Nat) : List FieldRow :=
  fs.filterMap fun f =>
    let lo := max f.lsb (32 * w)
    let hi := min (f.lsb + f.width) (32 * w + 32)
    if lo < hi then some ⟨lo - 32 * w, hi - lo, f.acc, bitsAt f.reset (lo - f.lsb) (hi - lo)⟩ else none

/-- The row and word of an offset in a list of rows. -/
def findRow : List RegRow → Nat → Option (RegRow × Nat)
  | [], _ => none
  | r :: rs, off => match r.wordAt off with
    | some w => some (r, w)
    | none => findRow rs off

/-! ### Sparse stores -/

/-- The value a sparse store holds at a key; an unlisted key reads as d gives. -/
def mget {α : Type} (d : Nat → α) : SMap α → Nat → α
  | [], k => d k
  | (k', v) :: m, k => if k' = k then v else mget d m k

/-- The store with one key set. The keys stay strictly rising, and a value equal to the unlisted one removes the entry. -/
def mput {α : Type} [DecidableEq α] (d : Nat → α) : SMap α → Nat → α → SMap α
  | [], k, v => if v = d k then [] else [(k, v)]
  | (k', v') :: m, k, v =>
    if v = d k then (if k' = k then mput d m k v else (k', v') :: mput d m k v)
    else if k < k' then (k, v) :: (k', v') :: m
    else if k = k' then (k, v) :: m
    else (k', v') :: mput d m k v

/-- The canonical form of a sparse store: keys strictly rising, and no entry equal to what an unlisted key reads as. -/
def mwf {α : Type} [DecidableEq α] (d : Nat → α) : SMap α → Bool
  | [] => true
  | (k, v) :: m => decide (v ≠ d k) && (match m with | [] => true | (k', _) :: _ => decide (k < k')) && mwf d m

/-- Reading n consecutive keys from k on. -/
def mgetRange {α : Type} (d : Nat → α) (m : SMap α) (k : Nat) : Nat → List α
  | 0 => []
  | n + 1 => mget d m k :: mgetRange d m (k + 1) n

/-- Writing consecutive keys from k on. -/
def mputRange {α : Type} [DecidableEq α] (d : Nat → α) : SMap α → Nat → List α → SMap α
  | m, _, [] => m
  | m, k, v :: vs => mputRange d (mput d m k v) (k + 1) vs

/-! ### Lists as vectors -/

/-- The list with its i-th element replaced, unchanged where there is none. -/
def listSet {α : Type} : List α → Nat → α → List α
  | [], _, _ => []
  | _ :: t, 0, v => v :: t
  | h :: t, n + 1, v => h :: listSet t n v

/-- The i-th element of a list, or d where there is none. -/
def listGet {α : Type} (d : α) : List α → Nat → α
  | [], _ => d
  | h :: _, 0 => h
  | _ :: t, n + 1 => listGet d t n

/-- The least natural number below n that satisfies p, if one does. -/
def leastBelow (n : Nat) (p : Nat → Bool) : Option Nat := (List.range n).find? p

/-- The numbers below n that satisfy p, as the bits of a mask. -/
def maskOf (n : Nat) (p : Nat → Bool) : Nat := ((List.range n).map fun i => if p i then 2 ^ i else 0).sum

/-! ### Byte order (R10) -/

/-- The n low bytes of a number, least significant first. -/
def leBytes : Nat → Nat → List Byte
  | 0, _ => []
  | n + 1, v => BitVec.ofNat 8 v :: leBytes n (v / 256)

/-- The number that bytes spell, least significant first. -/
def ofLe : List Byte → Nat
  | [] => 0
  | b :: bs => b.toNat + 256 * ofLe bs

/-- The n low bytes of a number, most significant first. -/
def beBytes (n v : Nat) : List Byte := (leBytes n v).reverse

/-- The number that bytes spell, most significant first. -/
def ofBe (bs : List Byte) : Nat := ofLe bs.reverse

/-- Bytes XORed pairwise. -/
def xorBytes (a b : List Byte) : List Byte := List.zipWith (· ^^^ ·) a b

/-- The bits of a number, bit 0 first. -/
def bitsLsb : Nat → Nat → List Bool
  | 0, _ => []
  | n + 1, v => (v % 2 == 1) :: bitsLsb n (v / 2)

/-- The number whose bits are given, bit 0 first. -/
def ofBitsLsb : List Bool → Nat
  | [] => 0
  | b :: bs => b2n b + 2 * ofBitsLsb bs

/-! ### CRCs and scramblers -/

/-- One bit into a CRC register of w bits whose most significant bit leaves first. -/
def crcBit (w poly reg : Nat) (b : Bool) : Nat :=
  let fb := (reg.testBit (w - 1)) != b
  let sh := (reg * 2) % 2 ^ w
  if fb then sh ^^^ poly else sh

/-- A CRC register after a list of bits, the first bit first. -/
def crcBits (w poly : Nat) : Nat → List Bool → Nat
  | reg, [] => reg
  | reg, b :: bs => crcBits w poly (crcBit w poly reg b) bs

/-- One bit into a reflected CRC register, whose least significant bit leaves first. -/
def crcBitR (poly reg : Nat) (b : Bool) : Nat :=
  let fb := (reg.testBit 0) != b
  let sh := reg / 2
  if fb then sh ^^^ poly else sh

/-- A reflected CRC register after a list of bits. -/
def crcBitsR (poly : Nat) : Nat → List Bool → Nat
  | reg, [] => reg
  | reg, b :: bs => crcBitsR poly (crcBitR poly reg b) bs

/-- The bits of a byte, most significant first. -/
def byteBitsMsb (b : Byte) : List Bool := (bitsLsb 8 b.toNat).reverse

/-- The bits of a list of bytes, each byte least significant bit first. -/
def bytesBitsLsb (bs : List Byte) : List Bool := bs.flatMap fun b => bitsLsb 8 b.toNat

/-- The bits of a list of bytes, each byte most significant bit first. -/
def bytesBitsMsb (bs : List Byte) : List Bool := bs.flatMap byteBitsMsb

/-- Self-synchronous descrambling of received bits by x^58 + x^39 + 1 (R39): the plain bits and the new 58 bits of line
history, the last received bit as bit 0. -/
def descramble : Nat → List Bool → List Bool × Nat
  | h, [] => ([], h)
  | h, b :: bs =>
    let p := b != ((h.testBit 57) != (h.testBit 38))
    let r := descramble ((h * 2 + b2n b) % 2 ^ 58) bs
    (p :: r.1, r.2)

end Sys2Proof.Machine
end

