-- ==== Sys2Proof/Machine/RegNames.lean ====
section
/-!
DEFINITION. The names of the registers and fields of the device, transcribed from the register maps of spec/: a register is
its BAR0 offset (R434 and the chapter's offset table), a field the place of its bits in that register (R16).
-/
namespace Sys2Proof.Machine

/-- GLB.DEV_ID: BAR0 offset. -/
def glbDevId : Nat := 0x0
def glbDevId_Device : Fld := ⟨glbDevId, 16, 16⟩
def glbDevId_Stepping : Fld := ⟨glbDevId, 8, 8⟩
def glbDevId_Grade : Fld := ⟨glbDevId, 4, 4⟩
/-- GLB.PCIE_STATUS: BAR0 offset. -/
def glbPcieStatus : Nat := 0x4
def glbPcieStatus_Width : Fld := ⟨glbPcieStatus, 10, 5⟩
def glbPcieStatus_Speed : Fld := ⟨glbPcieStatus, 7, 3⟩
def glbPcieStatus_Flit : Fld := ⟨glbPcieStatus, 6, 1⟩
def glbPcieStatus_BadAccess : Fld := ⟨glbPcieStatus, 4, 1⟩
def glbPcieStatus_LinkLost : Fld := ⟨glbPcieStatus, 3, 1⟩
def glbPcieStatus_Bm : Fld := ⟨glbPcieStatus, 2, 1⟩
def glbPcieStatus_Mse : Fld := ⟨glbPcieStatus, 1, 1⟩
def glbPcieStatus_LinkUp : Fld := ⟨glbPcieStatus, 0, 1⟩
/-- GLB.HOT_SCHED: BAR0 offset. -/
def glbHotSched : Nat := 0x200
def glbHotSched_Valid : Fld := ⟨glbHotSched, 31, 1⟩
def glbHotSched_Epoch : Fld := ⟨glbHotSched, 20, 4⟩
def glbHotSched_V : Fld := ⟨glbHotSched, 13, 5⟩
def glbHotSched_H : Fld := ⟨glbHotSched, 8, 5⟩
def glbHotSched_Plog : Fld := ⟨glbHotSched, 0, 3⟩
/-- GLB.HOT_LAT: BAR0 offset. -/
def glbHotLat : Nat := 0x204
def glbHotLat_L : Fld := ⟨glbHotLat, 20, 10⟩
def glbHotLat_D : Fld := ⟨glbHotLat, 16, 4⟩
def glbHotLat_Span : Fld := ⟨glbHotLat, 0, 10⟩
/-- GLB.HOT_T0: BAR0 offset. -/
def glbHotT0 : Nat := 0x208
def glbHotT0_T0 : Fld := ⟨glbHotT0, 0, 58⟩
/-- GLB.LAT_INFO: BAR0 offset. -/
def glbLatInfo : Nat := 0x210
def glbLatInfo_Relays : Fld := ⟨glbLatInfo, 27, 5⟩
def glbLatInfo_V3pad : Fld := ⟨glbLatInfo, 24, 2⟩
def glbLatInfo_ReserveMin : Fld := ⟨glbLatInfo, 16, 8⟩
def glbLatInfo_Present : Fld := ⟨glbLatInfo, 8, 8⟩
def glbLatInfo_Compiled : Fld := ⟨glbLatInfo, 0, 8⟩
/-- GLB.IMG_STATE: BAR0 offset. -/
def glbImgState : Nat := 0x220
def glbImgState_Epoch : Fld := ⟨glbImgState, 20, 4⟩
def glbImgState_StagedEpoch : Fld := ⟨glbImgState, 16, 4⟩
def glbImgState_ReleasePending : Fld := ⟨glbImgState, 8, 1⟩
def glbImgState_SwapPending : Fld := ⟨glbImgState, 7, 1⟩
def glbImgState_Staged : Fld := ⟨glbImgState, 6, 1⟩
def glbImgState_Loaded : Fld := ⟨glbImgState, 5, 1⟩
def glbImgState_Running : Fld := ⟨glbImgState, 4, 1⟩
def glbImgState_Halted : Fld := ⟨glbImgState, 0, 1⟩
/-- GLB.LOAD_STATUS: BAR0 offset. -/
def glbLoadStatus : Nat := 0x224
def glbLoadStatus_Section : Fld := ⟨glbLoadStatus, 8, 8⟩
def glbLoadStatus_Code : Fld := ⟨glbLoadStatus, 0, 8⟩
/-- GLB.LOAD_LOC: BAR0 offset. -/
def glbLoadLoc : Nat := 0x228
def glbLoadLoc_ConsSite : Fld := ⟨glbLoadLoc, 9, 9⟩
def glbLoadLoc_SrcSite : Fld := ⟨glbLoadLoc, 0, 9⟩
/-- GLB.PLACE_MAP: BAR0 offset. -/
def glbPlaceMap : Nat := 0x22c
def glbPlaceMap_Map : Fld := ⟨glbPlaceMap, 0, 25⟩
/-- GLB.HEARTH_CTRL: BAR0 offset. -/
def glbHearthCtrl : Nat := 0x230
def glbHearthCtrl_Run : Fld := ⟨glbHearthCtrl, 1, 1⟩
def glbHearthCtrl_Halt : Fld := ⟨glbHearthCtrl, 0, 1⟩
/-- GLB.SWAP_CTRL: BAR0 offset. -/
def glbSwapCtrl : Nat := 0x234
def glbSwapCtrl_Timeout : Fld := ⟨glbSwapCtrl, 0, 24⟩
/-- GLB.RUN_TICK: BAR0 offset. -/
def glbRunTick : Nat := 0x238
def glbRunTick_Tick : Fld := ⟨glbRunTick, 0, 58⟩
/-- GLB.SWAP_TICK: BAR0 offset. -/
def glbSwapTick : Nat := 0x240
def glbSwapTick_K : Fld := ⟨glbSwapTick, 0, 58⟩
/-- GLB.SWAP_GAP: BAR0 offset. -/
def glbSwapGap : Nat := 0x248
def glbSwapGap_Discarded : Fld := ⟨glbSwapGap, 4, 16⟩
def glbSwapGap_W : Fld := ⟨glbSwapGap, 0, 4⟩
/-- GLB.HALT_TICK: BAR0 offset. -/
def glbHaltTick : Nat := 0x250
def glbHaltTick_Tick : Fld := ⟨glbHaltTick, 0, 58⟩
/-- GLB.IMG_DIGEST: BAR0 offset. -/
def glbImgDigest (i : Nat) : Nat := 0x260 + 0x4 * i
def glbImgDigest_Digest (i : Nat) : Fld := ⟨(glbImgDigest i), 0, 32⟩
/-- GLB.STAGED_DIGEST: BAR0 offset. -/
def glbStagedDigest (i : Nat) : Nat := 0x280 + 0x4 * i
def glbStagedDigest_Digest (i : Nat) : Fld := ⟨(glbStagedDigest i), 0, 32⟩
/-- GLB.SETTLE: BAR0 offset. -/
def glbSettle : Nat := 0x2a0
def glbSettle_Settle : Fld := ⟨glbSettle, 0, 16⟩
/-- GLB.REPRO_SIG: BAR0 offset. -/
def glbReproSig : Nat := 0x300
def glbReproSig_Stepping : Fld := ⟨glbReproSig, 24, 8⟩
def glbReproSig_Vgrid : Fld := ⟨glbReproSig, 16, 5⟩
def glbReproSig_ArithRev : Fld := ⟨glbReproSig, 8, 8⟩
/-- GLB.REPRO_CHK: BAR0 offset. -/
def glbReproChk : Nat := 0x304
def glbReproChk_Mismatch : Fld := ⟨glbReproChk, 8, 1⟩
def glbReproChk_ImgArithRev : Fld := ⟨glbReproChk, 0, 8⟩
/-- GLB.FW_VERSION: BAR0 offset. -/
def glbFwVersion : Nat := 0x308
def glbFwVersion_Version : Fld := ⟨glbFwVersion, 0, 32⟩
/-- GLB.FUSE_MAP: BAR0 offset. -/
def glbFuseMap : Nat := 0x30c
def glbFuseMap_Disabled : Fld := ⟨glbFuseMap, 0, 25⟩
/-- GLB.TWIN_DIG: BAR0 offset. -/
def glbTwinDig : Nat := 0x310
def glbTwinDig_Digest : Fld := ⟨glbTwinDig, 0, 64⟩
/-- PWR.STATUS: BAR0 offset. -/
def pwrStatus : Nat := 0x10000
def pwrStatus_Holdover : Fld := ⟨pwrStatus, 2, 1⟩
def pwrStatus_AvsErr : Fld := ⟨pwrStatus, 1, 1⟩
def pwrStatus_WrRefused : Fld := ⟨pwrStatus, 0, 1⟩
/-- PWR.RESET_CTRL: BAR0 offset. -/
def pwrResetCtrl : Nat := 0x10004
def pwrResetCtrl_Chip : Fld := ⟨pwrResetCtrl, 0, 1⟩
/-- PWR.RAILS: BAR0 offset. -/
def pwrRails : Nat := 0x10008
def pwrRails_Hbm : Fld := ⟨pwrRails, 7, 6⟩
def pwrRails_Good : Fld := ⟨pwrRails, 0, 7⟩
/-- PWR.PLL_STATUS: BAR0 offset. -/
def pwrPllStatus : Nat := 0x1000c
def pwrPllStatus_Hbm : Fld := ⟨pwrPllStatus, 15, 6⟩
def pwrPllStatus_Flue : Fld := ⟨pwrPllStatus, 1, 14⟩
def pwrPllStatus_Core : Fld := ⟨pwrPllStatus, 0, 1⟩
/-- PWR.AVS: BAR0 offset. -/
def pwrAvs : Nat := 0x10010
def pwrAvs_Target : Fld := ⟨pwrAvs, 16, 16⟩
def pwrAvs_Meas : Fld := ⟨pwrAvs, 0, 16⟩
/-- PWR.TEMP: BAR0 offset. -/
def pwrTemp : Nat := 0x10014
def pwrTemp_High : Fld := ⟨pwrTemp, 16, 8⟩
def pwrTemp_Max : Fld := ⟨pwrTemp, 0, 8⟩
/-- PWR.POWER_CAP: BAR0 offset. -/
def pwrPowerCap : Nat := 0x10018
def pwrPowerCap_Watts : Fld := ⟨pwrPowerCap, 0, 10⟩
/-- PWR.CURRENT_CAP: BAR0 offset. -/
def pwrCurrentCap : Nat := 0x1001c
def pwrCurrentCap_Amps : Fld := ⟨pwrCurrentCap, 0, 14⟩
/-- PWR.SLEW: BAR0 offset. -/
def pwrSlew : Nat := 0x10020
def pwrSlew_Step : Fld := ⟨pwrSlew, 0, 6⟩
/-- PWR.HOT_CEIL: BAR0 offset. -/
def pwrHotCeil : Nat := 0x10024
def pwrHotCeil_Watts : Fld := ⟨pwrHotCeil, 16, 10⟩
def pwrHotCeil_Amps : Fld := ⟨pwrHotCeil, 0, 10⟩
/-- PWR.MODEL_COURSE: BAR0 offset. -/
def pwrModelCourse : Nat := 0x10028
def pwrModelCourse_Amps : Fld := ⟨pwrModelCourse, 16, 16⟩
def pwrModelCourse_Watts : Fld := ⟨pwrModelCourse, 0, 16⟩
/-- PWR.MODEL_DMA: BAR0 offset. -/
def pwrModelDma : Nat := 0x1002c
def pwrModelDma_Amps : Fld := ⟨pwrModelDma, 16, 16⟩
def pwrModelDma_Watts : Fld := ⟨pwrModelDma, 0, 16⟩
/-- PWR.MODEL_BASE: BAR0 offset. -/
def pwrModelBase : Nat := 0x10030
def pwrModelBase_Amps : Fld := ⟨pwrModelBase, 16, 16⟩
def pwrModelBase_Watts : Fld := ⟨pwrModelBase, 0, 16⟩
/-- PWR.EST: BAR0 offset. -/
def pwrEst : Nat := 0x10034
def pwrEst_Amps : Fld := ⟨pwrEst, 16, 16⟩
def pwrEst_Watts : Fld := ⟨pwrEst, 0, 16⟩
/-- PWR.CDC_STATUS: BAR0 offset. -/
def pwrCdcStatus : Nat := 0x10038
def pwrCdcStatus_Pcie : Fld := ⟨pwrCdcStatus, 20, 1⟩
def pwrCdcStatus_Hbm : Fld := ⟨pwrCdcStatus, 14, 6⟩
def pwrCdcStatus_Flue : Fld := ⟨pwrCdcStatus, 0, 14⟩
/-- PWR.CDC_DROP: BAR0 offset. -/
def pwrCdcDrop : Nat := 0x1003c
def pwrCdcDropF : Fld := ⟨pwrCdcDrop, 0, 32⟩
/-- PWR.ALLOW: BAR0 offset. -/
def pwrAllow (i : Nat) : Nat := 0x10100 + 0x4 * i
def pwrAllow_Cycles (i : Nat) : Fld := ⟨(pwrAllow i), 0, 7⟩
/-- FLT.CTRL: BAR0 offset. -/
def fltCtrl : Nat := 0x20000
def fltCtrl_Vector : Fld := ⟨fltCtrl, 16, 8⟩
def fltCtrl_ClrCnt : Fld := ⟨fltCtrl, 0, 1⟩
/-- FLT.STATUS: BAR0 offset. -/
def fltStatus : Nat := 0x20004
def fltStatus_PulseActive : Fld := ⟨fltStatus, 3, 1⟩
def fltStatus_SelfFault : Fld := ⟨fltStatus, 2, 1⟩
def fltStatus_Safe : Fld := ⟨fltStatus, 1, 1⟩
def fltStatus_WrRefused : Fld := ⟨fltStatus, 0, 1⟩
/-- FLT.PIN_CTRL: BAR0 offset. -/
def fltPinCtrl : Nat := 0x20008
def fltPinCtrl_Hold : Fld := ⟨fltPinCtrl, 31, 1⟩
def fltPinCtrl_Level : Fld := ⟨fltPinCtrl, 30, 1⟩
def fltPinCtrl_Pulse : Fld := ⟨fltPinCtrl, 0, 8⟩
/-- FLT.SAFE_CTRL: BAR0 offset. -/
def fltSafeCtrl : Nat := 0x2000c
def fltSafeCtrl_Exit : Fld := ⟨fltSafeCtrl, 1, 1⟩
def fltSafeCtrl_Enter : Fld := ⟨fltSafeCtrl, 0, 1⟩
/-- FLT.INJ: BAR0 offset. -/
def fltInj : Nat := 0x20010
def fltInj_Armed : Fld := ⟨fltInj, 31, 1⟩
def fltInj_Mode : Fld := ⟨fltInj, 29, 2⟩
def fltInj_Site : Fld := ⟨fltInj, 8, 9⟩
def fltInj_Source : Fld := ⟨fltInj, 0, 8⟩
/-- FLT.RESET_CAUSE: BAR0 offset. -/
def fltResetCause : Nat := 0x20014
def fltResetCause_Ashpit : Fld := ⟨fltResetCause, 31, 1⟩
def fltResetCause_Source : Fld := ⟨fltResetCause, 0, 8⟩
/-- FLT.HCE_CFG: BAR0 offset. -/
def fltHceCfg : Nat := 0x20018
def fltHceCfg_Leak : Fld := ⟨fltHceCfg, 16, 16⟩
def fltHceCfg_Size : Fld := ⟨fltHceCfg, 0, 16⟩
/-- FLT.HCE_BUCKET: BAR0 offset. -/
def fltHceBucket : Nat := 0x2001c
def fltHceBucket_Level : Fld := ⟨fltHceBucket, 0, 16⟩
/-- FLT.SRC_STATUS: BAR0 offset. -/
def fltSrcStatus (i : Nat) : Nat := 0x20040 + 0x4 * i
def fltSrcStatusF (i : Nat) : Fld := ⟨(fltSrcStatus i), 0, 32⟩
/-- FLT.FE_SOURCE: BAR0 offset. -/
def fltFeSource (i : Nat) : Nat := 0x20100 + 0x40 * i
def fltFeSource_Valid (i : Nat) : Fld := ⟨(fltFeSource i), 31, 1⟩
def fltFeSource_Multi (i : Nat) : Fld := ⟨(fltFeSource i), 30, 1⟩
def fltFeSource_Source (i : Nat) : Fld := ⟨(fltFeSource i), 0, 8⟩
/-- FLT.FE_FRC: BAR0 offset. -/
def fltFeFrc (i : Nat) : Nat := 0x20108 + 0x40 * i
def fltFeFrc_Frc (i : Nat) : Fld := ⟨(fltFeFrc i), 0, 64⟩
/-- FLT.FE_INFO: BAR0 offset. -/
def fltFeInfo (i : Nat) (j : Nat) : Nat := 0x20110 + 0x40 * i + 0x4 * j
def fltFeInfoF (i : Nat) (j : Nat) : Fld := ⟨(fltFeInfo i j), 0, 32⟩
/-- FLT.REACT: BAR0 offset. -/
def fltReact (i : Nat) : Nat := 0x20400 + 0x4 * i
def fltReact_Class (i : Nat) : Fld := ⟨(fltReact i), 30, 2⟩
def fltReact_Integrity (i : Nat) : Fld := ⟨(fltReact i), 29, 1⟩
def fltReact_Level (i : Nat) : Fld := ⟨(fltReact i), 28, 1⟩
def fltReact_InjOk (i : Nat) : Fld := ⟨(fltReact i), 27, 1⟩
def fltReact_Chip (i : Nat) : Fld := ⟨(fltReact i), 7, 1⟩
def fltReact_Safe (i : Nat) : Fld := ⟨(fltReact i), 6, 1⟩
def fltReact_Block (i : Nat) : Fld := ⟨(fltReact i), 5, 1⟩
def fltReact_Halt (i : Nat) : Fld := ⟨(fltReact i), 4, 1⟩
def fltReact_Pin (i : Nat) : Fld := ⟨(fltReact i), 3, 1⟩
def fltReact_Trap (i : Nat) : Fld := ⟨(fltReact i), 2, 1⟩
def fltReact_Irq (i : Nat) : Fld := ⟨(fltReact i), 1, 1⟩
def fltReact_Evt (i : Nat) : Fld := ⟨(fltReact i), 0, 1⟩
/-- FLT.CNT: BAR0 offset. -/
def fltCnt (i : Nat) : Nat := 0x20800 + 0x4 * i
def fltCntF (i : Nat) : Fld := ⟨(fltCnt i), 0, 32⟩
/-- SEC.CTRL: BAR0 offset. -/
def secCtrl : Nat := 0x30000
def secCtrl_IrqEn : Fld := ⟨secCtrl, 8, 1⟩
def secCtrl_Vector : Fld := ⟨secCtrl, 0, 8⟩
/-- SEC.STATUS: BAR0 offset. -/
def secStatus : Nat := 0x30004
def secStatus_Done : Fld := ⟨secStatus, 2, 1⟩
def secStatus_Busy : Fld := ⟨secStatus, 1, 1⟩
def secStatus_WrRefused : Fld := ⟨secStatus, 0, 1⟩
/-- SEC.CMD: BAR0 offset. -/
def secCmd : Nat := 0x30008
def secCmd_Code : Fld := ⟨secCmd, 0, 8⟩
/-- SEC.RESULT: BAR0 offset. -/
def secResult : Nat := 0x3000c
def secResult_Code : Fld := ⟨secResult, 0, 8⟩
/-- SEC.ADDR: BAR0 offset. -/
def secAddr : Nat := 0x30010
def secAddr_Addr : Fld := ⟨secAddr, 0, 64⟩
/-- SEC.LEN: BAR0 offset. -/
def secLen : Nat := 0x30018
def secLen_Bytes : Fld := ⟨secLen, 0, 16⟩
/-- SEC.IDSTATE: BAR0 offset. -/
def secIdstate : Nat := 0x3001c
def secIdstate_Lifecycle : Fld := ⟨secIdstate, 30, 2⟩
def secIdstate_Debug : Fld := ⟨secIdstate, 27, 3⟩
def secIdstate_Tree : Fld := ⟨secIdstate, 24, 3⟩
def secIdstate_Block : Fld := ⟨secIdstate, 10, 11⟩
def secIdstate_Leaf : Fld := ⟨secIdstate, 0, 10⟩
/-- TIM.CTRL: BAR0 offset. -/
def timCtrl : Nat := 0x40000
def timCtrl_AdjGo : Fld := ⟨timCtrl, 1, 1⟩
def timCtrl_Set : Fld := ⟨timCtrl, 0, 1⟩
/-- TIM.STATUS: BAR0 offset. -/
def timStatus : Nat := 0x40004
def timStatus_WrRefused : Fld := ⟨timStatus, 0, 1⟩
/-- TIM.RATE: BAR0 offset. -/
def timRate : Nat := 0x40008
def timRate_Rate : Fld := ⟨timRate, 0, 32⟩
/-- TIM.ADJ: BAR0 offset. -/
def timAdj : Nat := 0x40010
def timAdj_Adj : Fld := ⟨timAdj, 0, 64⟩
/-- TIM.SET_TIME: BAR0 offset. -/
def timSetTime (i : Nat) : Nat := 0x40018 + 0x4 * i
def timSetTimeF (i : Nat) : Fld := ⟨(timSetTime i), 0, 32⟩
/-- TIM.NOW_FRC: BAR0 offset. -/
def timNowFrc : Nat := 0x40028
def timNowFrc_Frc : Fld := ⟨timNowFrc, 0, 64⟩
/-- TIM.NOW_TIME: BAR0 offset. -/
def timNowTime (i : Nat) : Nat := 0x40030 + 0x4 * i
def timNowTimeF (i : Nat) : Fld := ⟨(timNowTime i), 0, 32⟩
/-- TIM.REF_FRC: BAR0 offset. -/
def timRefFrc : Nat := 0x40040
def timRefFrc_Ref : Fld := ⟨timRefFrc, 0, 64⟩
/-- TIM.BASE_TIME: BAR0 offset. -/
def timBaseTime (i : Nat) : Nat := 0x40048 + 0x4 * i
def timBaseTimeF (i : Nat) : Fld := ⟨(timBaseTime i), 0, 32⟩
/-- TIM.CONV_FRC: BAR0 offset. -/
def timConvFrc : Nat := 0x40058
def timConvFrc_Frc : Fld := ⟨timConvFrc, 0, 64⟩
/-- TIM.CONV_TIME: BAR0 offset. -/
def timConvTime (i : Nat) : Nat := 0x40060 + 0x4 * i
def timConvTimeF (i : Nat) : Fld := ⟨(timConvTime i), 0, 32⟩
/-- TIM.CHM_ASYM: BAR0 offset. -/
def timChmAsym (i : Nat) : Nat := 0x40070 + 0x4 * i
def timChmAsym_Asym (i : Nat) : Fld := ⟨(timChmAsym i), 0, 32⟩
/-- TIM.SYNC_CTRL: BAR0 offset. -/
def timSyncCtrl : Nat := 0x40080
def timSyncCtrl_Forward : Fld := ⟨timSyncCtrl, 3, 1⟩
def timSyncCtrl_Self : Fld := ⟨timSyncCtrl, 2, 1⟩
def timSyncCtrl_Start : Fld := ⟨timSyncCtrl, 1, 1⟩
def timSyncCtrl_Go : Fld := ⟨timSyncCtrl, 0, 1⟩
/-- TIM.SYNC_STAT: BAR0 offset. -/
def timSyncStat : Nat := 0x40084
def timSyncStat_Loaded : Fld := ⟨timSyncStat, 31, 1⟩
def timSyncStat_StartLate : Fld := ⟨timSyncStat, 30, 1⟩
def timSyncStat_Refused : Fld := ⟨timSyncStat, 29, 1⟩
def timSyncStat_Skipped : Fld := ⟨timSyncStat, 28, 1⟩
def timSyncStat_Link : Fld := ⟨timSyncStat, 16, 7⟩
def timSyncStat_Resid : Fld := ⟨timSyncStat, 8, 8⟩
/-- TIM.SYNC_TX: BAR0 offset. -/
def timSyncTx : Nat := 0x40088
def timSyncTx_Links : Fld := ⟨timSyncTx, 0, 24⟩
/-- TIM.SYNC_ACCEPT: BAR0 offset. -/
def timSyncAccept : Nat := 0x4008c
def timSyncAccept_Links : Fld := ⟨timSyncAccept, 0, 24⟩
/-- TIM.SYNC_START: BAR0 offset. -/
def timSyncStart : Nat := 0x40090
def timSyncStart_Tick : Fld := ⟨timSyncStart, 0, 58⟩
/-- TIM.SYNC_JUMP: BAR0 offset. -/
def timSyncJump : Nat := 0x40098
def timSyncJump_K : Fld := ⟨timSyncJump, 0, 64⟩
/-- TIM.TP_CTRL: BAR0 offset. -/
def timTpCtrl (i : Nat) : Nat := 0x40400 + 0x100 * i
def timTpCtrl_RxEn (i : Nat) : Fld := ⟨(timTpCtrl i), 1, 1⟩
def timTpCtrl_TxEn (i : Nat) : Fld := ⟨(timTpCtrl i), 0, 1⟩
/-- TIM.TP_STATUS: BAR0 offset. -/
def timTpStatus (i : Nat) : Nat := 0x40404 + 0x100 * i
def timTpStatus_TxDescErr (i : Nat) : Fld := ⟨(timTpStatus i), 4, 1⟩
def timTpStatus_TsqOvf (i : Nat) : Fld := ⟨(timTpStatus i), 3, 1⟩
def timTpStatus_TsqNe (i : Nat) : Fld := ⟨(timTpStatus i), 2, 1⟩
def timTpStatus_BlockLock (i : Nat) : Fld := ⟨(timTpStatus i), 1, 1⟩
def timTpStatus_Signal (i : Nat) : Fld := ⟨(timTpStatus i), 0, 1⟩
/-- TIM.TP_TX_ADJ: BAR0 offset. -/
def timTpTxAdj (i : Nat) : Nat := 0x40408 + 0x100 * i
def timTpTxAdj_Adj (i : Nat) : Fld := ⟨(timTpTxAdj i), 0, 32⟩
/-- TIM.TP_RX_ADJ: BAR0 offset. -/
def timTpRxAdj (i : Nat) : Nat := 0x4040c + 0x100 * i
def timTpRxAdj_Adj (i : Nat) : Fld := ⟨(timTpRxAdj i), 0, 32⟩
/-- TIM.TP_TX_BASE: BAR0 offset. -/
def timTpTxBase (i : Nat) : Nat := 0x40410 + 0x100 * i
def timTpTxBase_Addr (i : Nat) : Fld := ⟨(timTpTxBase i), 5, 35⟩
/-- TIM.TP_TX_SIZE: BAR0 offset. -/
def timTpTxSize (i : Nat) : Nat := 0x40418 + 0x100 * i
def timTpTxSize_Entries (i : Nat) : Fld := ⟨(timTpTxSize i), 0, 13⟩
/-- TIM.TP_TX_TAIL: BAR0 offset. -/
def timTpTxTail (i : Nat) : Nat := 0x4041c + 0x100 * i
def timTpTxTail_Index (i : Nat) : Fld := ⟨(timTpTxTail i), 0, 12⟩
/-- TIM.TP_TX_HEAD: BAR0 offset. -/
def timTpTxHead (i : Nat) : Nat := 0x40420 + 0x100 * i
def timTpTxHead_Index (i : Nat) : Fld := ⟨(timTpTxHead i), 0, 12⟩
/-- TIM.TP_RX_BASE: BAR0 offset. -/
def timTpRxBase (i : Nat) : Nat := 0x40428 + 0x100 * i
def timTpRxBase_Addr (i : Nat) : Fld := ⟨(timTpRxBase i), 5, 35⟩
/-- TIM.TP_RX_SIZE: BAR0 offset. -/
def timTpRxSize (i : Nat) : Nat := 0x40430 + 0x100 * i
def timTpRxSize_Entries (i : Nat) : Fld := ⟨(timTpRxSize i), 0, 13⟩
/-- TIM.TP_RX_TAIL: BAR0 offset. -/
def timTpRxTail (i : Nat) : Nat := 0x40434 + 0x100 * i
def timTpRxTail_Index (i : Nat) : Fld := ⟨(timTpRxTail i), 0, 12⟩
/-- TIM.TP_RX_HEAD: BAR0 offset. -/
def timTpRxHead (i : Nat) : Nat := 0x40438 + 0x100 * i
def timTpRxHead_Index (i : Nat) : Fld := ⟨(timTpRxHead i), 0, 12⟩
/-- TIM.TP_TSQ_W: BAR0 offset. -/
def timTpTsqW (i : Nat) (j : Nat) : Nat := 0x40440 + 0x100 * i + 0x4 * j
def timTpTsqWF (i : Nat) (j : Nat) : Fld := ⟨(timTpTsqW i j), 0, 32⟩
/-- TIM.TP_TSQ_POP: BAR0 offset. -/
def timTpTsqPop (i : Nat) : Nat := 0x40450 + 0x100 * i
def timTpTsqPop_Pop (i : Nat) : Fld := ⟨(timTpTsqPop i), 0, 1⟩
/-- TIM.TP_TX_FRAMES: BAR0 offset. -/
def timTpTxFrames (i : Nat) : Nat := 0x40460 + 0x100 * i
def timTpTxFramesF (i : Nat) : Fld := ⟨(timTpTxFrames i), 0, 32⟩
/-- TIM.TP_RX_FRAMES: BAR0 offset. -/
def timTpRxFrames (i : Nat) : Nat := 0x40464 + 0x100 * i
def timTpRxFramesF (i : Nat) : Fld := ⟨(timTpRxFrames i), 0, 32⟩
/-- TIM.TP_RX_FCS_ERR: BAR0 offset. -/
def timTpRxFcsErr (i : Nat) : Nat := 0x40468 + 0x100 * i
def timTpRxFcsErrF (i : Nat) : Fld := ⟨(timTpRxFcsErr i), 0, 32⟩
/-- TIM.TP_RX_DROP: BAR0 offset. -/
def timTpRxDrop (i : Nat) : Nat := 0x4046c + 0x100 * i
def timTpRxDropF (i : Nat) : Fld := ⟨(timTpRxDrop i), 0, 32⟩
/-- TIM.TP_TX_LATE: BAR0 offset. -/
def timTpTxLate (i : Nat) : Nat := 0x40470 + 0x100 * i
def timTpTxLateF (i : Nat) : Fld := ⟨(timTpTxLate i), 0, 32⟩
/-- TIM.TP_ONESTEP_ERR: BAR0 offset. -/
def timTpOnestepErr (i : Nat) : Nat := 0x40474 + 0x100 * i
def timTpOnestepErrF (i : Nat) : Fld := ⟨(timTpOnestepErr i), 0, 32⟩
/-- TIM.TP_TSQ_LOST: BAR0 offset. -/
def timTpTsqLost (i : Nat) : Nat := 0x40478 + 0x100 * i
def timTpTsqLostF (i : Nat) : Fld := ⟨(timTpTsqLost i), 0, 32⟩
/-- ING.CTRL: BAR0 offset. -/
def ingCtrl : Nat := 0x80000
def ingCtrl_SnapGo : Fld := ⟨ingCtrl, 2, 1⟩
def ingCtrl_ClrCnt : Fld := ⟨ingCtrl, 1, 1⟩
def ingCtrl_En : Fld := ⟨ingCtrl, 0, 1⟩
/-- ING.STATUS: BAR0 offset. -/
def ingStatus : Nat := 0x80004
def ingStatus_SnapShort : Fld := ⟨ingStatus, 4, 1⟩
def ingStatus_SnapBusy : Fld := ⟨ingStatus, 3, 1⟩
def ingStatus_ReplayActive : Fld := ⟨ingStatus, 2, 1⟩
def ingStatus_AlignViolation : Fld := ⟨ingStatus, 1, 1⟩
def ingStatus_WrRefused : Fld := ⟨ingStatus, 0, 1⟩
/-- ING.ALIGN: BAR0 offset. -/
def ingAlign : Nat := 0x80008
def ingAlign_Effective : Fld := ⟨ingAlign, 16, 4⟩
def ingAlign_Delay : Fld := ⟨ingAlign, 0, 4⟩
/-- ING.GRP_EN: BAR0 offset. -/
def ingGrpEn : Nat := 0x8000c
def ingGrpEn_FibEn : Fld := ⟨ingGrpEn, 0, 32⟩
/-- ING.REPLAY_BASE: BAR0 offset. -/
def ingReplayBase : Nat := 0x80010
def ingReplayBase_Addr : Fld := ⟨ingReplayBase, 12, 28⟩
/-- ING.REPLAY_CTRL: BAR0 offset. -/
def ingReplayCtrl : Nat := 0x80018
def ingReplayCtrl_En : Fld := ⟨ingReplayCtrl, 31, 1⟩
def ingReplayCtrl_Loop : Fld := ⟨ingReplayCtrl, 30, 1⟩
def ingReplayCtrl_Ticks : Fld := ⟨ingReplayCtrl, 0, 24⟩
/-- ING.REPLAY_STAT: BAR0 offset. -/
def ingReplayStat : Nat := 0x8001c
def ingReplayStat_Underrun : Fld := ⟨ingReplayStat, 0, 32⟩
/-- ING.REPLAY_START: BAR0 offset. -/
def ingReplayStart : Nat := 0x80020
def ingReplayStart_Start : Fld := ⟨ingReplayStart, 0, 64⟩
/-- ING.SNAP_BASE: BAR0 offset. -/
def ingSnapBase : Nat := 0x80028
def ingSnapBase_Addr : Fld := ⟨ingSnapBase, 12, 28⟩
/-- ING.SNAP_CTRL: BAR0 offset. -/
def ingSnapCtrl : Nat := 0x80030
def ingSnapCtrl_Ticks : Fld := ⟨ingSnapCtrl, 0, 24⟩
/-- ING.SNAP_STAT: BAR0 offset. -/
def ingSnapStat : Nat := 0x80034
def ingSnapStat_Written : Fld := ⟨ingSnapStat, 0, 24⟩
/-- ING.GRP_TICK: BAR0 offset. -/
def ingGrpTick : Nat := 0x80038
def ingGrpTick_Tick : Fld := ⟨ingGrpTick, 0, 24⟩
/-- ING.REPLAY_FIRST: BAR0 offset. -/
def ingReplayFirst : Nat := 0x8003c
def ingReplayFirst_First : Fld := ⟨ingReplayFirst, 0, 24⟩
/-- ING.CH_CFG: BAR0 offset. -/
def ingChCfg (i : Nat) : Nat := 0x80040 + 0x10 * i
def ingChCfg_En (i : Nat) : Fld := ⟨(ingChCfg i), 31, 1⟩
def ingChCfg_Fmt (i : Nat) : Fld := ⟨(ingChCfg i), 29, 2⟩
def ingChCfg_Fibres (i : Nat) : Fld := ⟨(ingChCfg i), 5, 3⟩
def ingChCfg_FirstFibre (i : Nat) : Fld := ⟨(ingChCfg i), 0, 5⟩
/-- ING.CH_TICK_OFFSET: BAR0 offset. -/
def ingChTickOffset (i : Nat) : Nat := 0x80044 + 0x10 * i
def ingChTickOffset_Offset (i : Nat) : Fld := ⟨(ingChTickOffset i), 0, 24⟩
/-- ING.CH_WORDS: BAR0 offset. -/
def ingChWords (i : Nat) : Nat := 0x80048 + 0x10 * i
def ingChWords_FirstWord (i : Nat) : Fld := ⟨(ingChWords i), 16, 11⟩
def ingChWords_Words (i : Nat) : Fld := ⟨(ingChWords i), 0, 9⟩
/-- ING.CH_STAT: BAR0 offset. -/
def ingChStat (i : Nat) : Nat := 0x8004c + 0x10 * i
def ingChStat_SuspectTicks (i : Nat) : Fld := ⟨(ingChStat i), 0, 32⟩
/-- ING.EQ_PRESET: BAR0 offset. -/
def ingEqPreset (i : Nat) : Nat := 0x80200 + 0x4 * i
def ingEqPreset_Ctle (i : Nat) : Fld := ⟨(ingEqPreset i), 12, 4⟩
def ingEqPreset_Vga (i : Nat) : Fld := ⟨(ingEqPreset i), 8, 4⟩
def ingEqPreset_TiaBw (i : Nat) : Fld := ⟨(ingEqPreset i), 4, 4⟩
def ingEqPreset_CdrBw (i : Nat) : Fld := ⟨(ingEqPreset i), 0, 4⟩
/-- ING.LANE_CTRL: BAR0 offset. -/
def ingLaneCtrl (i : Nat) : Nat := 0x81000 + 0x40 * i
def ingLaneCtrl_ExpId (i : Nat) : Fld := ⟨(ingLaneCtrl i), 16, 8⟩
def ingLaneCtrl_Preset (i : Nat) : Fld := ⟨(ingLaneCtrl i), 8, 4⟩
def ingLaneCtrl_Loop (i : Nat) : Fld := ⟨(ingLaneCtrl i), 4, 2⟩
def ingLaneCtrl_PrbsChk (i : Nat) : Fld := ⟨(ingLaneCtrl i), 3, 1⟩
def ingLaneCtrl_PrbsGen (i : Nat) : Fld := ⟨(ingLaneCtrl i), 2, 1⟩
def ingLaneCtrl_En (i : Nat) : Fld := ⟨(ingLaneCtrl i), 0, 1⟩
/-- ING.LANE_STATUS: BAR0 offset. -/
def ingLaneStatus (i : Nat) : Nat := 0x81004 + 0x40 * i
def ingLaneStatus_Arrival (i : Nat) : Fld := ⟨(ingLaneStatus i), 16, 10⟩
def ingLaneStatus_AlignOk (i : Nat) : Fld := ⟨(ingLaneStatus i), 4, 1⟩
def ingLaneStatus_PrbsLock (i : Nat) : Fld := ⟨(ingLaneStatus i), 3, 1⟩
def ingLaneStatus_TickLock (i : Nat) : Fld := ⟨(ingLaneStatus i), 2, 1⟩
def ingLaneStatus_BlockLock (i : Nat) : Fld := ⟨(ingLaneStatus i), 1, 1⟩
def ingLaneStatus_Signal (i : Nat) : Fld := ⟨(ingLaneStatus i), 0, 1⟩
/-- ING.LANE_HDR_OBS: BAR0 offset. -/
def ingLaneHdrObs (i : Nat) : Nat := 0x81008 + 0x40 * i
def ingLaneHdrObs_Status (i : Nat) : Fld := ⟨(ingLaneHdrObs i), 56, 8⟩
def ingLaneHdrObs_Tick (i : Nat) : Fld := ⟨(ingLaneHdrObs i), 32, 24⟩
def ingLaneHdrObs_Cycle (i : Nat) : Fld := ⟨(ingLaneHdrObs i), 24, 6⟩
def ingLaneHdrObs_DevTick (i : Nat) : Fld := ⟨(ingLaneHdrObs i), 0, 24⟩
/-- ING.LANE_SYNC_ERR: BAR0 offset. -/
def ingLaneSyncErr (i : Nat) : Nat := 0x81010 + 0x40 * i
def ingLaneSyncErrF (i : Nat) : Fld := ⟨(ingLaneSyncErr i), 0, 32⟩
/-- ING.LANE_CRC_ERR: BAR0 offset. -/
def ingLaneCrcErr (i : Nat) : Nat := 0x81014 + 0x40 * i
def ingLaneCrcErrF (i : Nat) : Fld := ⟨(ingLaneCrcErr i), 0, 32⟩
/-- ING.LANE_HDR_ERR: BAR0 offset. -/
def ingLaneHdrErr (i : Nat) : Nat := 0x81018 + 0x40 * i
def ingLaneHdrErrF (i : Nat) : Fld := ⟨(ingLaneHdrErr i), 0, 32⟩
/-- ING.LANE_SRC_ERR: BAR0 offset. -/
def ingLaneSrcErr (i : Nat) : Nat := 0x8101c + 0x40 * i
def ingLaneSrcErrF (i : Nat) : Fld := ⟨(ingLaneSrcErr i), 0, 32⟩
/-- ING.LANE_LOCK_LOSS: BAR0 offset. -/
def ingLaneLockLoss (i : Nat) : Nat := 0x81020 + 0x40 * i
def ingLaneLockLossF (i : Nat) : Fld := ⟨(ingLaneLockLoss i), 0, 32⟩
/-- ING.LANE_PRBS_ERR: BAR0 offset. -/
def ingLanePrbsErr (i : Nat) : Nat := 0x81028 + 0x40 * i
def ingLanePrbsErr_Count (i : Nat) : Fld := ⟨(ingLanePrbsErr i), 0, 48⟩
/-- ING.LANE_PRBS_BITS: BAR0 offset. -/
def ingLanePrbsBits (i : Nat) : Nat := 0x81030 + 0x40 * i
def ingLanePrbsBits_Count (i : Nat) : Fld := ⟨(ingLanePrbsBits i), 0, 48⟩
/-- TRG.CTRL: BAR0 offset. -/
def trgCtrl : Nat := 0x100000
def trgCtrl_En : Fld := ⟨trgCtrl, 31, 1⟩
def trgCtrl_Cq : Fld := ⟨trgCtrl, 10, 4⟩
def trgCtrl_NohotLat : Fld := ⟨trgCtrl, 0, 10⟩
/-- TRG.STATUS: BAR0 offset. -/
def trgStatus : Nat := 0x100004
def trgStatus_CommitPending : Fld := ⟨trgStatus, 1, 1⟩
def trgStatus_WrRefused : Fld := ⟨trgStatus, 0, 1⟩
/-- TRG.COMMIT: BAR0 offset. -/
def trgCommit : Nat := 0x100008
def trgCommit_Tick : Fld := ⟨trgCommit, 0, 24⟩
/-- TRG.FORCE: BAR0 offset. -/
def trgForce : Nat := 0x10000c
def trgForce_Hit : Fld := ⟨trgForce, 0, 1⟩
/-- TRG.SUSPECT_TRIG: BAR0 offset. -/
def trgSuspectTrig : Nat := 0x100020
def trgSuspectTrigF : Fld := ⟨trgSuspectTrig, 0, 32⟩
/-- TRG.POISON_SCORE: BAR0 offset. -/
def trgPoisonScore : Nat := 0x100024
def trgPoisonScoreF : Fld := ⟨trgPoisonScore, 0, 32⟩
/-- TRG.EXT_LATE: BAR0 offset. -/
def trgExtLate : Nat := 0x100028
def trgExtLateF : Fld := ⟨trgExtLate, 0, 32⟩
/-- TRG.BLIND_TICKS: BAR0 offset. -/
def trgBlindTicks : Nat := 0x10002c
def trgBlindTicksF : Fld := ⟨trgBlindTicks, 0, 32⟩
/-- TRG.SD_CFG: BAR0 offset. -/
def trgSdCfg (i : Nat) : Nat := 0x100100 + 0x10 * i
def trgSdCfg_En (i : Nat) : Fld := ⟨(trgSdCfg i), 31, 1⟩
def trgSdCfg_Pol (i : Nat) : Fld := ⟨(trgSdCfg i), 5, 1⟩
def trgSdCfg_Ch (i : Nat) : Fld := ⟨(trgSdCfg i), 0, 4⟩
/-- TRG.SD_THRESH: BAR0 offset. -/
def trgSdThresh (i : Nat) : Nat := 0x100104 + 0x10 * i
def trgSdThresh_Thresh (i : Nat) : Fld := ⟨(trgSdThresh i), 0, 32⟩
/-- TRG.SD_HITS: BAR0 offset. -/
def trgSdHits (i : Nat) : Nat := 0x100108 + 0x10 * i
def trgSdHitsF (i : Nat) : Fld := ⟨(trgSdHits i), 0, 32⟩
/-- TRG.TU_CFG: BAR0 offset. -/
def trgTuCfg (i : Nat) : Nat := 0x100400 + 0x20 * i
def trgTuCfg_ChmEn (i : Nat) : Fld := ⟨(trgTuCfg i), 31, 1⟩
def trgTuCfg_ChmPorts (i : Nat) : Fld := ⟨(trgTuCfg i), 27, 4⟩
def trgTuCfg_ChmSlot (i : Nat) : Fld := ⟨(trgTuCfg i), 23, 4⟩
def trgTuCfg_Line (i : Nat) : Fld := ⟨(trgTuCfg i), 19, 4⟩
def trgTuCfg_Mode (i : Nat) : Fld := ⟨(trgTuCfg i), 0, 2⟩
/-- TRG.TU_MASKA_LO: BAR0 offset. -/
def trgTuMaskaLo (i : Nat) : Nat := 0x100404 + 0x20 * i
def trgTuMaskaLoF (i : Nat) : Fld := ⟨(trgTuMaskaLo i), 0, 32⟩
/-- TRG.TU_MASKA_HI: BAR0 offset. -/
def trgTuMaskaHi (i : Nat) : Nat := 0x100408 + 0x20 * i
def trgTuMaskaHiF (i : Nat) : Fld := ⟨(trgTuMaskaHi i), 0, 32⟩
/-- TRG.TU_MASKB_LO: BAR0 offset. -/
def trgTuMaskbLo (i : Nat) : Nat := 0x10040c + 0x20 * i
def trgTuMaskbLoF (i : Nat) : Fld := ⟨(trgTuMaskbLo i), 0, 32⟩
/-- TRG.TU_MASKB_HI: BAR0 offset. -/
def trgTuMaskbHi (i : Nat) : Nat := 0x100410 + 0x20 * i
def trgTuMaskbHiF (i : Nat) : Fld := ⟨(trgTuMaskbHi i), 0, 32⟩
/-- TRG.TU_TIMING: BAR0 offset. -/
def trgTuTiming (i : Nat) : Nat := 0x100414 + 0x20 * i
def trgTuTiming_Window (i : Nat) : Fld := ⟨(trgTuTiming i), 16, 16⟩
def trgTuTiming_Holdoff (i : Nat) : Fld := ⟨(trgTuTiming i), 0, 16⟩
/-- TRG.TU_FIRED: BAR0 offset. -/
def trgTuFired (i : Nat) : Nat := 0x100418 + 0x20 * i
def trgTuFiredF (i : Nat) : Fld := ⟨(trgTuFired i), 0, 32⟩
/-- TRG.TU_IGNORED: BAR0 offset. -/
def trgTuIgnored (i : Nat) : Nat := 0x10041c + 0x20 * i
def trgTuIgnoredF (i : Nat) : Fld := ⟨(trgTuIgnored i), 0, 32⟩
/-- TRG.TIN_CFG: BAR0 offset. -/
def trgTinCfg (i : Nat) : Nat := 0x100600 + 0x10 * i
def trgTinCfg_En (i : Nat) : Fld := ⟨(trgTinCfg i), 31, 1⟩
def trgTinCfg_Fall (i : Nat) : Fld := ⟨(trgTinCfg i), 30, 1⟩
def trgTinCfg_RefCh (i : Nat) : Fld := ⟨(trgTinCfg i), 0, 4⟩
/-- TRG.TIN_SKEW: BAR0 offset. -/
def trgTinSkew (i : Nat) : Nat := 0x100604 + 0x10 * i
def trgTinSkew_Skew (i : Nat) : Fld := ⟨(trgTinSkew i), 0, 32⟩
/-- TRG.TIN_EDGES: BAR0 offset. -/
def trgTinEdges (i : Nat) : Nat := 0x100608 + 0x10 * i
def trgTinEdgesF (i : Nat) : Fld := ⟨(trgTinEdges i), 0, 32⟩
/-- TRG.TOUT: BAR0 offset. -/
def trgTout (i : Nat) : Nat := 0x100680 + 0x4 * i
def trgTout_En (i : Nat) : Fld := ⟨(trgTout i), 31, 1⟩
def trgTout_Inv (i : Nat) : Fld := ⟨(trgTout i), 30, 1⟩
def trgTout_Tu (i : Nat) : Fld := ⟨(trgTout i), 12, 3⟩
def trgTout_Width (i : Nat) : Fld := ⟨(trgTout i), 0, 12⟩
/-- TRG.POOL_CTRL: BAR0 offset. -/
def trgPoolCtrl (i : Nat) : Nat := 0x102000 + 0x80 * i
def trgPoolCtrl_En (i : Nat) : Fld := ⟨(trgPoolCtrl i), 31, 1⟩
def trgPoolCtrl_Cq (i : Nat) : Fld := ⟨(trgPoolCtrl i), 24, 4⟩
def trgPoolCtrl_TuMask (i : Nat) : Fld := ⟨(trgPoolCtrl i), 16, 8⟩
def trgPoolCtrl_Deadband (i : Nat) : Fld := ⟨(trgPoolCtrl i), 0, 16⟩
/-- TRG.POOL_STATUS: BAR0 offset. -/
def trgPoolStatus (i : Nat) : Nat := 0x102004 + 0x80 * i
def trgPoolStatus_Stopped (i : Nat) : Fld := ⟨(trgPoolStatus i), 2, 1⟩
def trgPoolStatus_Capturing (i : Nat) : Fld := ⟨(trgPoolStatus i), 1, 1⟩
def trgPoolStatus_Armed (i : Nat) : Fld := ⟨(trgPoolStatus i), 0, 1⟩
/-- TRG.POOL_RING_BASE: BAR0 offset. -/
def trgPoolRingBase (i : Nat) : Nat := 0x102008 + 0x80 * i
def trgPoolRingBase_Addr (i : Nat) : Fld := ⟨(trgPoolRingBase i), 12, 28⟩
/-- TRG.POOL_RING_SIZE: BAR0 offset. -/
def trgPoolRingSize (i : Nat) : Nat := 0x102010 + 0x80 * i
def trgPoolRingSize_Size (i : Nat) : Fld := ⟨(trgPoolRingSize i), 12, 28⟩
/-- TRG.POOL_TBL_BASE: BAR0 offset. -/
def trgPoolTblBase (i : Nat) : Nat := 0x102018 + 0x80 * i
def trgPoolTblBase_Addr (i : Nat) : Fld := ⟨(trgPoolTblBase i), 6, 34⟩
/-- TRG.POOL_TBL_SIZE: BAR0 offset. -/
def trgPoolTblSize (i : Nat) : Nat := 0x102020 + 0x80 * i
def trgPoolTblSize_Entries (i : Nat) : Fld := ⟨(trgPoolTblSize i), 0, 16⟩
/-- TRG.POOL_PRE: BAR0 offset. -/
def trgPoolPre (i : Nat) : Nat := 0x102024 + 0x80 * i
def trgPoolPre_Elems (i : Nat) : Fld := ⟨(trgPoolPre i), 0, 24⟩
/-- TRG.POOL_POST: BAR0 offset. -/
def trgPoolPost (i : Nat) : Nat := 0x102028 + 0x80 * i
def trgPoolPost_Elems (i : Nat) : Fld := ⟨(trgPoolPost i), 0, 24⟩
/-- TRG.POOL_CAP: BAR0 offset. -/
def trgPoolCap (i : Nat) : Nat := 0x10202c + 0x80 * i
def trgPoolCap_E (i : Nat) : Fld := ⟨(trgPoolCap i), 0, 15⟩
/-- TRG.POOL_WR_PTR: BAR0 offset. -/
def trgPoolWrPtr (i : Nat) : Nat := 0x102030 + 0x80 * i
def trgPoolWrPtr_Addr (i : Nat) : Fld := ⟨(trgPoolWrPtr i), 0, 40⟩
/-- TRG.POOL_RELEASE: BAR0 offset. -/
def trgPoolRelease (i : Nat) : Nat := 0x102038 + 0x80 * i
def trgPoolRelease_Record (i : Nat) : Fld := ⟨(trgPoolRelease i), 0, 64⟩
/-- TRG.POOL_NEXT: BAR0 offset. -/
def trgPoolNext (i : Nat) : Nat := 0x102040 + 0x80 * i
def trgPoolNext_Record (i : Nat) : Fld := ⟨(trgPoolNext i), 0, 64⟩
/-- TRG.POOL_NOT_ARMED: BAR0 offset. -/
def trgPoolNotArmed (i : Nat) : Nat := 0x102048 + 0x80 * i
def trgPoolNotArmedF (i : Nat) : Fld := ⟨(trgPoolNotArmed i), 0, 32⟩
/-- TRG.POOL_BUSY: BAR0 offset. -/
def trgPoolBusy (i : Nat) : Nat := 0x10204c + 0x80 * i
def trgPoolBusyF (i : Nat) : Fld := ⟨(trgPoolBusy i), 0, 32⟩
/-- TRG.POOL_TBL_FULL: BAR0 offset. -/
def trgPoolTblFull (i : Nat) : Nat := 0x102050 + 0x80 * i
def trgPoolTblFullF (i : Nat) : Fld := ⟨(trgPoolTblFull i), 0, 32⟩
/-- TRG.POOL_OVERFLOW: BAR0 offset. -/
def trgPoolOverflow (i : Nat) : Nat := 0x102054 + 0x80 * i
def trgPoolOverflowF (i : Nat) : Fld := ⟨(trgPoolOverflow i), 0, 32⟩
/-- CHM.CTRL: BAR0 offset. -/
def chmCtrl : Nat := 0x140000
def chmCtrl_Shadow : Fld := ⟨chmCtrl, 17, 1⟩
def chmCtrl_AcceptShadow : Fld := ⟨chmCtrl, 16, 1⟩
def chmCtrl_RefCh : Fld := ⟨chmCtrl, 12, 4⟩
def chmCtrl_SrcId : Fld := ⟨chmCtrl, 8, 4⟩
def chmCtrl_En : Fld := ⟨chmCtrl, 0, 4⟩
/-- CHM.STATUS: BAR0 offset. -/
def chmStatus : Nat := 0x140004
def chmStatus_WrRefused : Fld := ⟨chmStatus, 0, 1⟩
/-- CHM.SYSLAT: BAR0 offset. -/
def chmSyslat : Nat := 0x140008
def chmSyslat_Cycles : Fld := ⟨chmSyslat, 0, 24⟩
/-- CHM.PORT_STATUS: BAR0 offset. -/
def chmPortStatus (i : Nat) : Nat := 0x140100 + 0x40 * i
def chmPortStatus_EchoTimeout (i : Nat) : Fld := ⟨(chmPortStatus i), 3, 1⟩
def chmPortStatus_EchoValid (i : Nat) : Fld := ⟨(chmPortStatus i), 2, 1⟩
def chmPortStatus_BlockLock (i : Nat) : Fld := ⟨(chmPortStatus i), 1, 1⟩
def chmPortStatus_Signal (i : Nat) : Fld := ⟨(chmPortStatus i), 0, 1⟩
/-- CHM.PORT_ECHO: BAR0 offset. -/
def chmPortEcho (i : Nat) : Nat := 0x140104 + 0x40 * i
def chmPortEcho_Go (i : Nat) : Fld := ⟨(chmPortEcho i), 0, 1⟩
/-- CHM.PORT_RTT: BAR0 offset. -/
def chmPortRtt (i : Nat) : Nat := 0x140108 + 0x40 * i
def chmPortRttF (i : Nat) : Fld := ⟨(chmPortRtt i), 0, 32⟩
/-- CHM.PORT_ONEWAY: BAR0 offset. -/
def chmPortOneway (i : Nat) : Nat := 0x14010c + 0x40 * i
def chmPortOnewayF (i : Nat) : Fld := ⟨(chmPortOneway i), 0, 32⟩
/-- CHM.PORT_TXQ_MSG: BAR0 offset. -/
def chmPortTxqMsg (i : Nat) : Nat := 0x140110 + 0x40 * i
def chmPortTxqMsg_Msg (i : Nat) : Fld := ⟨(chmPortTxqMsg i), 0, 64⟩
/-- CHM.PORT_TXQ_LAUNCH: BAR0 offset. -/
def chmPortTxqLaunch (i : Nat) : Nat := 0x140118 + 0x40 * i
def chmPortTxqLaunch_Frc (i : Nat) : Fld := ⟨(chmPortTxqLaunch i), 0, 64⟩
/-- CHM.PORT_TXQ_STAT: BAR0 offset. -/
def chmPortTxqStat (i : Nat) : Nat := 0x140120 + 0x40 * i
def chmPortTxqStat_Push (i : Nat) : Fld := ⟨(chmPortTxqStat i), 31, 1⟩
def chmPortTxqStat_Level (i : Nat) : Fld := ⟨(chmPortTxqStat i), 0, 5⟩
/-- CHM.PORT_RXQ_STAT: BAR0 offset. -/
def chmPortRxqStat (i : Nat) : Nat := 0x140124 + 0x40 * i
def chmPortRxqStat_Pop (i : Nat) : Fld := ⟨(chmPortRxqStat i), 31, 1⟩
def chmPortRxqStat_Level (i : Nat) : Fld := ⟨(chmPortRxqStat i), 0, 5⟩
/-- CHM.PORT_RXQ_MSG: BAR0 offset. -/
def chmPortRxqMsg (i : Nat) : Nat := 0x140128 + 0x40 * i
def chmPortRxqMsg_Msg (i : Nat) : Fld := ⟨(chmPortRxqMsg i), 0, 64⟩
/-- CHM.PORT_RXQ_TIME: BAR0 offset. -/
def chmPortRxqTime (i : Nat) : Nat := 0x140130 + 0x40 * i
def chmPortRxqTime_Frc (i : Nat) : Fld := ⟨(chmPortRxqTime i), 0, 64⟩
/-- CHM.PORT_CRC_ERR: BAR0 offset. -/
def chmPortCrcErr (i : Nat) : Nat := 0x140138 + 0x40 * i
def chmPortCrcErrF (i : Nat) : Fld := ⟨(chmPortCrcErr i), 0, 32⟩
/-- CHM.PORT_LATE: BAR0 offset. -/
def chmPortLate (i : Nat) : Nat := 0x14013c + 0x40 * i
def chmPortLateF (i : Nat) : Fld := ⟨(chmPortLate i), 0, 32⟩
/-- CHM.PORT_SHADOW_DROP: BAR0 offset. -/
def chmPortShadowDrop (i : Nat) : Nat := 0x140200 + 0x10 * i
def chmPortShadowDropF (i : Nat) : Fld := ⟨(chmPortShadowDrop i), 0, 32⟩
/-- CHM.PORT_TX_LATE: BAR0 offset. -/
def chmPortTxLate (i : Nat) : Nat := 0x140204 + 0x10 * i
def chmPortTxLateF (i : Nat) : Fld := ⟨(chmPortTxLate i), 0, 32⟩
/-- CHM.PORT_RX_DROP: BAR0 offset. -/
def chmPortRxDrop (i : Nat) : Nat := 0x140208 + 0x10 * i
def chmPortRxDropF (i : Nat) : Fld := ⟨(chmPortRxDrop i), 0, 32⟩
/-- ZL.SYS: BAR0 offset. -/
def zlSys : Nat := 0x180000
def zlSys_Seat : Fld := ⟨zlSys, 0, 4⟩
/-- ZL.STATUS: BAR0 offset. -/
def zlStatus : Nat := 0x180004
def zlStatus_WrRefused : Fld := ⟨zlStatus, 0, 1⟩
/-- ZL.TWIN_CTRL: BAR0 offset. -/
def zlTwinCtrl : Nat := 0x180008
def zlTwinCtrl_LoadEpoch : Fld := ⟨zlTwinCtrl, 12, 4⟩
def zlTwinCtrl_ForceEpoch : Fld := ⟨zlTwinCtrl, 11, 1⟩
def zlTwinCtrl_Detach : Fld := ⟨zlTwinCtrl, 5, 1⟩
def zlTwinCtrl_Restart : Fld := ⟨zlTwinCtrl, 4, 1⟩
def zlTwinCtrl_Attach : Fld := ⟨zlTwinCtrl, 3, 1⟩
def zlTwinCtrl_Role : Fld := ⟨zlTwinCtrl, 0, 2⟩
/-- ZL.TWIN_STATUS: BAR0 offset. -/
def zlTwinStatus : Nat := 0x18000c
def zlTwinStatus_DivCause : Fld := ⟨zlTwinStatus, 20, 4⟩
def zlTwinStatus_Miss : Fld := ⟨zlTwinStatus, 16, 4⟩
def zlTwinStatus_CoverageGap : Fld := ⟨zlTwinStatus, 7, 1⟩
def zlTwinStatus_PeerLost : Fld := ⟨zlTwinStatus, 6, 1⟩
def zlTwinStatus_DualLead : Fld := ⟨zlTwinStatus, 5, 1⟩
def zlTwinStatus_Promoted : Fld := ⟨zlTwinStatus, 4, 1⟩
def zlTwinStatus_State : Fld := ⟨zlTwinStatus, 0, 3⟩
/-- ZL.JOIN: BAR0 offset. -/
def zlJoin : Nat := 0x180010
def zlJoin_Tick : Fld := ⟨zlJoin, 0, 58⟩
/-- ZL.DIV_TICK: BAR0 offset. -/
def zlDivTick : Nat := 0x180018
def zlDivTick_Tick : Fld := ⟨zlDivTick, 0, 58⟩
/-- ZL.DIV_LOCAL: BAR0 offset. -/
def zlDivLocal : Nat := 0x180020
def zlDivLocal_Digest : Fld := ⟨zlDivLocal, 0, 64⟩
/-- ZL.DIV_PEER: BAR0 offset. -/
def zlDivPeer : Nat := 0x180028
def zlDivPeer_Digest : Fld := ⟨zlDivPeer, 0, 64⟩
/-- ZL.SETTLE_DIFF: BAR0 offset. -/
def zlSettleDiff : Nat := 0x180030
def zlSettleDiffF : Fld := ⟨zlSettleDiff, 0, 32⟩
/-- ZL.DIG_MISS: BAR0 offset. -/
def zlDigMiss : Nat := 0x180034
def zlDigMissF : Fld := ⟨zlDigMiss, 0, 32⟩
/-- ZL.HB_MISS: BAR0 offset. -/
def zlHbMiss : Nat := 0x180038
def zlHbMissF : Fld := ⟨zlHbMiss, 0, 32⟩
/-- ZL.LINK_CFG: BAR0 offset. -/
def zlLinkCfg (i : Nat) : Nat := 0x180100 + 0x80 * i
def zlLinkCfg_En (i : Nat) : Fld := ⟨(zlLinkCfg i), 31, 1⟩
def zlLinkCfg_Freeze (i : Nat) : Fld := ⟨(zlLinkCfg i), 30, 1⟩
def zlLinkCfg_Preset (i : Nat) : Fld := ⟨(zlLinkCfg i), 8, 4⟩
/-- ZL.LINK_STATUS: BAR0 offset. -/
def zlLinkStatus (i : Nat) : Nat := 0x180104 + 0x80 * i
def zlLinkStatus_PeerSeat (i : Nat) : Fld := ⟨(zlLinkStatus i), 28, 4⟩
def zlLinkStatus_PeerRole (i : Nat) : Fld := ⟨(zlLinkStatus i), 26, 2⟩
def zlLinkStatus_EchoTimeout (i : Nat) : Fld := ⟨(zlLinkStatus i), 6, 1⟩
def zlLinkStatus_LinkDown (i : Nat) : Fld := ⟨(zlLinkStatus i), 5, 1⟩
def zlLinkStatus_Frozen (i : Nat) : Fld := ⟨(zlLinkStatus i), 4, 1⟩
def zlLinkStatus_EchoValid (i : Nat) : Fld := ⟨(zlLinkStatus i), 3, 1⟩
def zlLinkStatus_FrameLock (i : Nat) : Fld := ⟨(zlLinkStatus i), 2, 1⟩
def zlLinkStatus_LaneLock (i : Nat) : Fld := ⟨(zlLinkStatus i), 1, 1⟩
def zlLinkStatus_Signal (i : Nat) : Fld := ⟨(zlLinkStatus i), 0, 1⟩
/-- ZL.LINK_MODE_MAP: BAR0 offset. -/
def zlLinkModeMap (i : Nat) : Nat := 0x180108 + 0x80 * i
def zlLinkModeMap_Reliable (i : Nat) : Fld := ⟨(zlLinkModeMap i), 1, 38⟩
/-- ZL.LINK_LZ: BAR0 offset. -/
def zlLinkLz (i : Nat) : Nat := 0x180110 + 0x80 * i
def zlLinkLz_Lz (i : Nat) : Fld := ⟨(zlLinkLz i), 0, 10⟩
/-- ZL.LINK_DZ: BAR0 offset. -/
def zlLinkDz (i : Nat) : Nat := 0x180114 + 0x80 * i
def zlLinkDz_Dz (i : Nat) : Fld := ⟨(zlLinkDz i), 0, 32⟩
/-- ZL.LINK_ASYM: BAR0 offset. -/
def zlLinkAsym (i : Nat) : Nat := 0x180118 + 0x80 * i
def zlLinkAsym_Asym (i : Nat) : Fld := ⟨(zlLinkAsym i), 0, 32⟩
/-- ZL.LINK_RTT: BAR0 offset. -/
def zlLinkRtt (i : Nat) : Nat := 0x18011c + 0x80 * i
def zlLinkRtt_Rtt (i : Nat) : Fld := ⟨(zlLinkRtt i), 0, 32⟩
/-- ZL.LINK_ECHO: BAR0 offset. -/
def zlLinkEcho (i : Nat) : Nat := 0x180120 + 0x80 * i
def zlLinkEcho_Go (i : Nat) : Fld := ⟨(zlLinkEcho i), 0, 1⟩
/-- ZL.LINK_FEC_CE: BAR0 offset. -/
def zlLinkFecCe (i : Nat) : Nat := 0x180124 + 0x80 * i
def zlLinkFecCeF (i : Nat) : Fld := ⟨(zlLinkFecCe i), 0, 32⟩
/-- ZL.LINK_FEC_UE: BAR0 offset. -/
def zlLinkFecUe (i : Nat) : Nat := 0x180128 + 0x80 * i
def zlLinkFecUeF (i : Nat) : Fld := ⟨(zlLinkFecUe i), 0, 32⟩
/-- ZL.LINK_CRC_ERR: BAR0 offset. -/
def zlLinkCrcErr (i : Nat) : Nat := 0x18012c + 0x80 * i
def zlLinkCrcErrF (i : Nat) : Fld := ⟨(zlLinkCrcErr i), 0, 32⟩
/-- ZL.LINK_RETRY: BAR0 offset. -/
def zlLinkRetry (i : Nat) : Nat := 0x180130 + 0x80 * i
def zlLinkRetryF (i : Nat) : Fld := ⟨(zlLinkRetry i), 0, 32⟩
/-- ZL.LINK_LATE: BAR0 offset. -/
def zlLinkLate (i : Nat) : Nat := 0x180134 + 0x80 * i
def zlLinkLateF (i : Nat) : Fld := ⟨(zlLinkLate i), 0, 32⟩
/-- ZL.LINK_TX_UNDERRUN: BAR0 offset. -/
def zlLinkTxUnderrun (i : Nat) : Nat := 0x180138 + 0x80 * i
def zlLinkTxUnderrunF (i : Nat) : Fld := ⟨(zlLinkTxUnderrun i), 0, 32⟩
/-- ZL.LINK_LOCK_LOSS: BAR0 offset. -/
def zlLinkLockLoss (i : Nat) : Nat := 0x18013c + 0x80 * i
def zlLinkLockLossF (i : Nat) : Fld := ⟨(zlLinkLockLoss i), 0, 32⟩
/-- STK.CTRL: BAR0 offset. -/
def stkCtrl : Nat := 0x200000
def stkCtrl_Balance : Fld := ⟨stkCtrl, 1, 1⟩
def stkCtrl_En : Fld := ⟨stkCtrl, 0, 1⟩
/-- STK.STATUS: BAR0 offset. -/
def stkStatus : Nat := 0x200004
def stkStatus_ResyncDone : Fld := ⟨stkStatus, 3, 1⟩
def stkStatus_DbErr : Fld := ⟨stkStatus, 2, 1⟩
def stkStatus_BmOff : Fld := ⟨stkStatus, 1, 1⟩
def stkStatus_WrRefused : Fld := ⟨stkStatus, 0, 1⟩
/-- STK.FUNC_EN: BAR0 offset. -/
def stkFuncEn : Nat := 0x200008
def stkFuncEn_Service : Fld := ⟨stkFuncEn, 3, 1⟩
def stkFuncEn_Loader : Fld := ⟨stkFuncEn, 2, 1⟩
def stkFuncEn_Run : Fld := ⟨stkFuncEn, 1, 1⟩
def stkFuncEn_Dma : Fld := ⟨stkFuncEn, 0, 1⟩
/-- STK.INFLIGHT: BAR0 offset. -/
def stkInflight : Nat := 0x20000c
def stkInflight_Count : Fld := ⟨stkInflight, 0, 10⟩
/-- STK.EVT_ROUTE: BAR0 offset. -/
def stkEvtRoute : Nat := 0x200010
def stkEvtRoute_En : Fld := ⟨stkEvtRoute, 16, 4⟩
def stkEvtRoute_ZlCq : Fld := ⟨stkEvtRoute, 12, 4⟩
def stkEvtRoute_FltCq : Fld := ⟨stkEvtRoute, 8, 4⟩
def stkEvtRoute_ChmCq : Fld := ⟨stkEvtRoute, 4, 4⟩
def stkEvtRoute_IngCq : Fld := ⟨stkEvtRoute, 0, 4⟩
/-- STK.DAMPER_CYC: BAR0 offset. -/
def stkDamperCyc : Nat := 0x200014
def stkDamperCycF : Fld := ⟨stkDamperCyc, 0, 32⟩
/-- STK.CHOICES: BAR0 offset. -/
def stkChoices : Nat := 0x200018
def stkChoicesF : Fld := ⟨stkChoices, 0, 32⟩
/-- STK.EVT_LOST: BAR0 offset. -/
def stkEvtLost : Nat := 0x20001c
def stkEvtLostF : Fld := ⟨stkEvtLost, 0, 32⟩
/-- STK.RESYNC_ADDR: BAR0 offset. -/
def stkResyncAddr : Nat := 0x200020
def stkResyncAddr_Addr : Fld := ⟨stkResyncAddr, 0, 64⟩
/-- STK.RESYNC_CTRL: BAR0 offset. -/
def stkResyncCtrl : Nat := 0x200028
def stkResyncCtrl_Go : Fld := ⟨stkResyncCtrl, 0, 1⟩
/-- STK.RESYNC_SEQ: BAR0 offset. -/
def stkResyncSeq : Nat := 0x20002c
def stkResyncSeq_Seq : Fld := ⟨stkResyncSeq, 0, 32⟩
/-- STK.SQ_BASE: BAR0 offset. -/
def stkSqBase (i : Nat) : Nat := 0x200100 + 0x40 * i
def stkSqBase_Addr (i : Nat) : Fld := ⟨(stkSqBase i), 0, 64⟩
/-- STK.SQ_CFG: BAR0 offset. -/
def stkSqCfg (i : Nat) : Nat := 0x200108 + 0x40 * i
def stkSqCfg_Prio (i : Nat) : Fld := ⟨(stkSqCfg i), 8, 1⟩
def stkSqCfg_Log2size (i : Nat) : Fld := ⟨(stkSqCfg i), 0, 5⟩
/-- STK.SQ_CTRL: BAR0 offset. -/
def stkSqCtrl (i : Nat) : Nat := 0x20010c + 0x40 * i
def stkSqCtrl_En (i : Nat) : Fld := ⟨(stkSqCtrl i), 0, 1⟩
/-- STK.SQ_HEAD: BAR0 offset. -/
def stkSqHead (i : Nat) : Nat := 0x200110 + 0x40 * i
def stkSqHead_Index (i : Nat) : Fld := ⟨(stkSqHead i), 0, 16⟩
/-- STK.SQ_TAIL: BAR0 offset. -/
def stkSqTail (i : Nat) : Nat := 0x200114 + 0x40 * i
def stkSqTail_Index (i : Nat) : Fld := ⟨(stkSqTail i), 0, 16⟩
/-- STK.SQ_STAT: BAR0 offset. -/
def stkSqStat (i : Nat) : Nat := 0x200118 + 0x40 * i
def stkSqStat_Inflight (i : Nat) : Fld := ⟨(stkSqStat i), 16, 10⟩
def stkSqStat_WaitTag (i : Nat) : Fld := ⟨(stkSqStat i), 3, 1⟩
def stkSqStat_WaitFence (i : Nat) : Fld := ⟨(stkSqStat i), 2, 1⟩
def stkSqStat_WaitRes (i : Nat) : Fld := ⟨(stkSqStat i), 1, 1⟩
def stkSqStat_Active (i : Nat) : Fld := ⟨(stkSqStat i), 0, 1⟩
/-- STK.SQ_CANCELLED: BAR0 offset. -/
def stkSqCancelled (i : Nat) : Nat := 0x20011c + 0x40 * i
def stkSqCancelledF (i : Nat) : Fld := ⟨(stkSqCancelled i), 0, 32⟩
/-- STK.CQ_BASE: BAR0 offset. -/
def stkCqBase (i : Nat) : Nat := 0x200600 + 0x40 * i
def stkCqBase_Addr (i : Nat) : Fld := ⟨(stkCqBase i), 0, 64⟩
/-- STK.CQ_CFG: BAR0 offset. -/
def stkCqCfg (i : Nat) : Nat := 0x200608 + 0x40 * i
def stkCqCfg_En (i : Nat) : Fld := ⟨(stkCqCfg i), 31, 1⟩
def stkCqCfg_IrqEn (i : Nat) : Fld := ⟨(stkCqCfg i), 30, 1⟩
def stkCqCfg_Vector (i : Nat) : Fld := ⟨(stkCqCfg i), 16, 8⟩
def stkCqCfg_Count (i : Nat) : Fld := ⟨(stkCqCfg i), 8, 8⟩
def stkCqCfg_Log2size (i : Nat) : Fld := ⟨(stkCqCfg i), 0, 5⟩
/-- STK.CQ_HEAD: BAR0 offset. -/
def stkCqHead (i : Nat) : Nat := 0x20060c + 0x40 * i
def stkCqHead_Index (i : Nat) : Fld := ⟨(stkCqHead i), 0, 16⟩
/-- STK.CQ_TAIL: BAR0 offset. -/
def stkCqTail (i : Nat) : Nat := 0x200610 + 0x40 * i
def stkCqTail_Index (i : Nat) : Fld := ⟨(stkCqTail i), 0, 16⟩
/-- STK.CQ_STAT: BAR0 offset. -/
def stkCqStat (i : Nat) : Nat := 0x200614 + 0x40 * i
def stkCqStat_Held (i : Nat) : Fld := ⟨(stkCqStat i), 16, 9⟩
def stkCqStat_Ovf (i : Nat) : Fld := ⟨(stkCqStat i), 2, 1⟩
def stkCqStat_Phase (i : Nat) : Fld := ⟨(stkCqStat i), 1, 1⟩
def stkCqStat_Full (i : Nat) : Fld := ⟨(stkCqStat i), 0, 1⟩
/-- STK.CQ_LOST: BAR0 offset. -/
def stkCqLost (i : Nat) : Nat := 0x200618 + 0x40 * i
def stkCqLostF (i : Nat) : Fld := ⟨(stkCqLost i), 0, 32⟩
/-- STK.CQ_POSTED: BAR0 offset. -/
def stkCqPosted (i : Nat) : Nat := 0x20061c + 0x40 * i
def stkCqPostedF (i : Nat) : Fld := ⟨(stkCqPosted i), 0, 32⟩
/-- MEM.CTRL: BAR0 offset. -/
def memCtrl : Nat := 0x280000
def memCtrl_ClrCnt : Fld := ⟨memCtrl, 0, 1⟩
/-- MEM.STATUS: BAR0 offset. -/
def memStatus : Nat := 0x280004
def memStatus_FeValid : Fld := ⟨memStatus, 3, 1⟩
def memStatus_Decode : Fld := ⟨memStatus, 2, 1⟩
def memStatus_InitDone : Fld := ⟨memStatus, 1, 1⟩
def memStatus_WrRefused : Fld := ⟨memStatus, 0, 1⟩
/-- MEM.MERGE_CFG: BAR0 offset. -/
def memMergeCfg : Nat := 0x280008
def memMergeCfg_Timeout : Fld := ⟨memMergeCfg, 0, 12⟩
/-- MEM.INJ: BAR0 offset. -/
def memInj : Nat := 0x28000c
def memInj_Stack : Fld := ⟨memInj, 3, 3⟩
def memInj_Armed : Fld := ⟨memInj, 2, 1⟩
def memInj_Mode : Fld := ⟨memInj, 0, 2⟩
/-- MEM.BAR2_BASE: BAR0 offset. -/
def memBar2Base : Nat := 0x280010
def memBar2Base_Addr : Fld := ⟨memBar2Base, 30, 10⟩
/-- MEM.FE_ADDR: BAR0 offset. -/
def memFeAddr : Nat := 0x280018
def memFeAddr_Addr : Fld := ⟨memFeAddr, 0, 40⟩
/-- MEM.FE_INFO: BAR0 offset. -/
def memFeInfo : Nat := 0x280020
def memFeInfo_Kind : Fld := ⟨memFeInfo, 30, 2⟩
def memFeInfo_Access : Fld := ⟨memFeInfo, 28, 2⟩
def memFeInfo_Master : Fld := ⟨memFeInfo, 24, 4⟩
def memFeInfo_Site : Fld := ⟨memFeInfo, 15, 9⟩
def memFeInfo_Stack : Fld := ⟨memFeInfo, 12, 3⟩
def memFeInfo_Channel : Fld := ⟨memFeInfo, 7, 5⟩
def memFeInfo_Pseudo : Fld := ⟨memFeInfo, 6, 1⟩
/-- MEM.FE_FRC: BAR0 offset. -/
def memFeFrc : Nat := 0x280028
def memFeFrc_Frc : Fld := ⟨memFeFrc, 0, 64⟩
/-- MEM.DECODE_ERR: BAR0 offset. -/
def memDecodeErr : Nat := 0x280030
def memDecodeErrF : Fld := ⟨memDecodeErr, 0, 32⟩
/-- MEM.STACK_CFG: BAR0 offset. -/
def memStackCfg (i : Nat) : Nat := 0x280100 + 0x40 * i
def memStackCfg_Leak (i : Nat) : Fld := ⟨(memStackCfg i), 16, 16⟩
def memStackCfg_BucketSize (i : Nat) : Fld := ⟨(memStackCfg i), 0, 16⟩
/-- MEM.STACK_STATUS: BAR0 offset. -/
def memStackStatus (i : Nat) : Nat := 0x280104 + 0x40 * i
def memStackStatus_Failed (i : Nat) : Fld := ⟨(memStackStatus i), 9, 1⟩
def memStackStatus_HotRefresh (i : Nat) : Fld := ⟨(memStackStatus i), 8, 1⟩
def memStackStatus_Temp (i : Nat) : Fld := ⟨(memStackStatus i), 0, 8⟩
/-- MEM.STACK_BUCKET: BAR0 offset. -/
def memStackBucket (i : Nat) : Nat := 0x280108 + 0x40 * i
def memStackBucket_Level (i : Nat) : Fld := ⟨(memStackBucket i), 0, 16⟩
/-- MEM.STACK_CE: BAR0 offset. -/
def memStackCe (i : Nat) : Nat := 0x28010c + 0x40 * i
def memStackCeF (i : Nat) : Fld := ⟨(memStackCe i), 0, 32⟩
/-- MEM.STACK_UE: BAR0 offset. -/
def memStackUe (i : Nat) : Nat := 0x280110 + 0x40 * i
def memStackUeF (i : Nat) : Fld := ⟨(memStackUe i), 0, 32⟩
/-- MEM.STACK_BUCKET_OVF: BAR0 offset. -/
def memStackBucketOvf (i : Nat) : Nat := 0x280114 + 0x40 * i
def memStackBucketOvfF (i : Nat) : Fld := ⟨(memStackBucketOvf i), 0, 32⟩
/-- MEM.STACK_POISON_WR: BAR0 offset. -/
def memStackPoisonWr (i : Nat) : Nat := 0x280118 + 0x40 * i
def memStackPoisonWrF (i : Nat) : Fld := ⟨(memStackPoisonWr i), 0, 32⟩
/-- MEM.STACK_POISON_KEPT: BAR0 offset. -/
def memStackPoisonKept (i : Nat) : Nat := 0x28011c + 0x40 * i
def memStackPoisonKeptF (i : Nat) : Fld := ⟨(memStackPoisonKept i), 0, 32⟩
/-- MEM.STACK_MERGE_RMW: BAR0 offset. -/
def memStackMergeRmw (i : Nat) : Nat := 0x280120 + 0x40 * i
def memStackMergeRmwF (i : Nat) : Fld := ⟨(memStackMergeRmw i), 0, 32⟩
/-- MEM.STACK_MERGE_EVICT: BAR0 offset. -/
def memStackMergeEvict (i : Nat) : Nat := 0x280124 + 0x40 * i
def memStackMergeEvictF (i : Nat) : Fld := ⟨(memStackMergeEvict i), 0, 32⟩
/-- OPT.STATUS: BAR0 offset. -/
def optStatus : Nat := 0x300000
def optStatus_WrRefused : Fld := ⟨optStatus, 0, 1⟩
/-- OPT.TX_CTRL: BAR0 offset. -/
def optTxCtrl (i : Nat) : Nat := 0x300100 + 0x20 * i
def optTxCtrl_Permit (i : Nat) : Fld := ⟨(optTxCtrl i), 0, 1⟩
/-- OPT.TX_STATE: BAR0 offset. -/
def optTxState (i : Nat) : Nat := 0x300104 + 0x20 * i
def optTxState_Pulse (i : Nat) : Fld := ⟨(optTxState i), 4, 1⟩
def optTxState_Companion (i : Nat) : Fld := ⟨(optTxState i), 3, 1⟩
def optTxState_State (i : Nat) : Fld := ⟨(optTxState i), 0, 3⟩
/-- OPT.TX_POWER: BAR0 offset. -/
def optTxPower (i : Nat) : Nat := 0x300108 + 0x20 * i
def optTxPower_Microwatts (i : Nat) : Fld := ⟨(optTxPower i), 0, 16⟩
/-- OPT.TX_APR_CNT: BAR0 offset. -/
def optTxAprCnt (i : Nat) : Nat := 0x30010c + 0x20 * i
def optTxAprCntF (i : Nat) : Fld := ⟨(optTxAprCnt i), 0, 32⟩
/-- OPT.TX_CLAMP_CNT: BAR0 offset. -/
def optTxClampCnt (i : Nat) : Nat := 0x300110 + 0x20 * i
def optTxClampCntF (i : Nat) : Fld := ⟨(optTxClampCnt i), 0, 32⟩
/-- OPT.FLUE: BAR0 offset. -/
def optFlue (i : Nat) : Nat := 0x300800 + 0x4 * i
def optFlue_Fault (i : Nat) : Fld := ⟨(optFlue i), 2, 1⟩
def optFlue_SupplyOpen (i : Nat) : Fld := ⟨(optFlue i), 1, 1⟩
def optFlue_PllLock (i : Nat) : Fld := ⟨(optFlue i), 0, 1⟩
/-- GR.ID: BAR0 offset. -/
def grId (i : Nat) : Nat := 0x800000 + 0x4000 * i
def grId_Relay (i : Nat) : Fld := ⟨(grId i), 17, 1⟩
def grId_Kind (i : Nat) : Fld := ⟨(grId i), 16, 1⟩
def grId_Vcourse (i : Nat) : Fld := ⟨(grId i), 8, 5⟩
def grId_Column (i : Nat) : Fld := ⟨(grId i), 4, 4⟩
/-- GR.CFG: BAR0 offset. -/
def grCfg (i : Nat) : Nat := 0x800004 + 0x4000 * i
def grCfg_Epoch (i : Nat) : Fld := ⟨(grCfg i), 16, 4⟩
def grCfg_Plog (i : Nat) : Fld := ⟨(grCfg i), 3, 3⟩
def grCfg_Mode (i : Nat) : Fld := ⟨(grCfg i), 0, 2⟩
/-- GR.STATUS: BAR0 offset. -/
def grStatus (i : Nat) : Nat := 0x800008 + 0x4000 * i
def grStatus_WrRefused (i : Nat) : Fld := ⟨(grStatus i), 1, 1⟩
def grStatus_Fault (i : Nat) : Fld := ⟨(grStatus i), 0, 1⟩
/-- GR.FAULT_INFO0: BAR0 offset. -/
def grFaultInfo0 (i : Nat) : Nat := 0x800010 + 0x4000 * i
def grFaultInfo0_Code (i : Nat) : Fld := ⟨(grFaultInfo0 i), 24, 8⟩
def grFaultInfo0_Bundle (i : Nat) : Fld := ⟨(grFaultInfo0 i), 14, 10⟩
def grFaultInfo0_Input (i : Nat) : Fld := ⟨(grFaultInfo0 i), 10, 4⟩
def grFaultInfo0_Queue (i : Nat) : Fld := ⟨(grFaultInfo0 i), 6, 4⟩
/-- GR.FAULT_INFO1: BAR0 offset. -/
def grFaultInfo1 (i : Nat) : Nat := 0x800014 + 0x4000 * i
def grFaultInfo1_Tick (i : Nat) : Fld := ⟨(grFaultInfo1 i), 0, 32⟩
/-- GR.COLLIDE: BAR0 offset. -/
def grCollide (i : Nat) : Nat := 0x800020 + 0x4000 * i
def grCollideF (i : Nat) : Fld := ⟨(grCollide i), 0, 32⟩
/-- GR.STRAY: BAR0 offset. -/
def grStray (i : Nat) : Nat := 0x800024 + 0x4000 * i
def grStrayF (i : Nat) : Fld := ⟨(grStray i), 0, 32⟩
/-- GR.SEQ_ERR: BAR0 offset. -/
def grSeqErr (i : Nat) : Nat := 0x800028 + 0x4000 * i
def grSeqErrF (i : Nat) : Fld := ⟨(grSeqErr i), 0, 32⟩
/-- GR.STEER_EMPTY: BAR0 offset. -/
def grSteerEmpty (i : Nat) : Nat := 0x80002c + 0x4000 * i
def grSteerEmptyF (i : Nat) : Fld := ⟨(grSteerEmpty i), 0, 32⟩
/-- GR.CREDIT_UNDER: BAR0 offset. -/
def grCreditUnder (i : Nat) : Nat := 0x800030 + 0x4000 * i
def grCreditUnderF (i : Nat) : Fld := ⟨(grCreditUnder i), 0, 32⟩
/-- GR.CREDIT_OVER: BAR0 offset. -/
def grCreditOver (i : Nat) : Nat := 0x800034 + 0x4000 * i
def grCreditOverF (i : Nat) : Fld := ⟨(grCreditOver i), 0, 32⟩
/-- GR.EPOCH_ERR: BAR0 offset. -/
def grEpochErr (i : Nat) : Nat := 0x800038 + 0x4000 * i
def grEpochErrF (i : Nat) : Fld := ⟨(grEpochErr i), 0, 32⟩
/-- GR.HOT_QFULL: BAR0 offset. -/
def grHotQfull (i : Nat) : Nat := 0x80003c + 0x4000 * i
def grHotQfullF (i : Nat) : Fld := ⟨(grHotQfull i), 0, 32⟩
/-- GR.LINK_CE: BAR0 offset. -/
def grLinkCe (i : Nat) : Nat := 0x800040 + 0x4000 * i
def grLinkCeF (i : Nat) : Fld := ⟨(grLinkCe i), 0, 32⟩
/-- GR.LINK_UE: BAR0 offset. -/
def grLinkUe (i : Nat) : Nat := 0x800044 + 0x4000 * i
def grLinkUeF (i : Nat) : Fld := ⟨(grLinkUe i), 0, 32⟩
/-- GR.TBL_CE: BAR0 offset. -/
def grTblCe (i : Nat) : Nat := 0x800048 + 0x4000 * i
def grTblCeF (i : Nat) : Fld := ⟨(grTblCe i), 0, 32⟩
/-- GR.TBL_UE: BAR0 offset. -/
def grTblUe (i : Nat) : Nat := 0x80004c + 0x4000 * i
def grTblUeF (i : Nat) : Fld := ⟨(grTblUe i), 0, 32⟩
/-- GR.TBL_SEL: BAR0 offset. -/
def grTblSel (i : Nat) : Nat := 0x800100 + 0x4000 * i
def grTblSel_Table (i : Nat) : Fld := ⟨(grTblSel i), 0, 2⟩
/-- GR.TBL_ADDR: BAR0 offset. -/
def grTblAddr (i : Nat) : Nat := 0x800104 + 0x4000 * i
def grTblAddr_Index (i : Nat) : Fld := ⟨(grTblAddr i), 0, 10⟩
/-- GR.TBL_CMD: BAR0 offset. -/
def grTblCmd (i : Nat) : Nat := 0x800108 + 0x4000 * i
def grTblCmd_Write (i : Nat) : Fld := ⟨(grTblCmd i), 1, 1⟩
def grTblCmd_Read (i : Nat) : Fld := ⟨(grTblCmd i), 0, 1⟩
/-- GR.TBL_DATA: BAR0 offset. -/
def grTblData (i : Nat) (j : Nat) : Nat := 0x800120 + 0x4000 * i + 0x4 * j
def grTblDataF (i : Nat) (j : Nat) : Fld := ⟨(grTblData i j), 0, 32⟩
/-- GR.QSTAT: BAR0 offset. -/
def grQstat (i : Nat) (j : Nat) : Nat := 0x800200 + 0x4000 * i + 0x4 * j
def grQstat_Credits (i : Nat) (j : Nat) : Fld := ⟨(grQstat i j), 16, 7⟩
def grQstat_Epoch (i : Nat) (j : Nat) : Fld := ⟨(grQstat i j), 12, 4⟩
def grQstat_Occ (i : Nat) (j : Nat) : Fld := ⟨(grQstat i j), 0, 7⟩
/-- FAB.CTRL: BAR0 offset. -/
def fabCtrl : Nat := 0xf00000
def fabCtrl_ClrCnt : Fld := ⟨fabCtrl, 0, 1⟩
/-- FAB.STATUS: BAR0 offset. -/
def fabStatus : Nat := 0xf00004
def fabStatus_WrRefused : Fld := ⟨fabStatus, 0, 1⟩
/-- FAB.QSAMP_BASE: BAR0 offset. -/
def fabQsampBase : Nat := 0xf00010
def fabQsampBase_Addr : Fld := ⟨fabQsampBase, 13, 27⟩
/-- FAB.QSAMP_CTRL: BAR0 offset. -/
def fabQsampCtrl : Nat := 0xf00018
def fabQsampCtrl_En : Fld := ⟨fabQsampCtrl, 31, 1⟩
def fabQsampCtrl_Cycle : Fld := ⟨fabQsampCtrl, 16, 6⟩
def fabQsampCtrl_Interval : Fld := ⟨fabQsampCtrl, 0, 16⟩
/-- FAB.QSAMP_RING: BAR0 offset. -/
def fabQsampRing : Nat := 0xf0001c
def fabQsampRing_Records : Fld := ⟨fabQsampRing, 0, 16⟩
/-- FAB.QSAMP_WR: BAR0 offset. -/
def fabQsampWr : Nat := 0xf00020
def fabQsampWr_Index : Fld := ⟨fabQsampWr, 0, 16⟩
/-- FAB.QSAMP_RD: BAR0 offset. -/
def fabQsampRd : Nat := 0xf00024
def fabQsampRd_Index : Fld := ⟨fabQsampRd, 0, 16⟩
/-- FAB.QSAMP_DROP: BAR0 offset. -/
def fabQsampDrop : Nat := 0xf00028
def fabQsampDropF : Fld := ⟨fabQsampDrop, 0, 32⟩
/-- FAB.QSAMP_SEL: BAR0 offset. -/
def fabQsampSel (i : Nat) : Nat := 0xf00100 + 0x4 * i
def fabQsampSel_En (i : Nat) : Fld := ⟨(fabQsampSel i), 31, 1⟩
def fabQsampSel_Site (i : Nat) : Fld := ⟨(fabQsampSel i), 4, 9⟩
def fabQsampSel_Queue (i : Nat) : Fld := ⟨(fabQsampSel i), 0, 4⟩
/-- HRT.SITE_ID: BAR0 offset. -/
def hrtSiteId (i : Nat) : Nat := 0x1000000 + 0x8000 * i
def hrtSiteId_Disabled (i : Nat) : Fld := ⟨(hrtSiteId i), 17, 1⟩
def hrtSiteId_Kind (i : Nat) : Fld := ⟨(hrtSiteId i), 16, 1⟩
def hrtSiteId_Vcourse (i : Nat) : Fld := ⟨(hrtSiteId i), 8, 5⟩
def hrtSiteId_Column (i : Nat) : Fld := ⟨(hrtSiteId i), 4, 4⟩
/-- HRT.UNIT_CFG: BAR0 offset. -/
def hrtUnitCfg (i : Nat) : Nat := 0x1000004 + 0x8000 * i
def hrtUnitCfg_Epoch (i : Nat) : Fld := ⟨(hrtUnitCfg i), 16, 4⟩
def hrtUnitCfg_Plen (i : Nat) : Fld := ⟨(hrtUnitCfg i), 6, 10⟩
def hrtUnitCfg_Plog (i : Nat) : Fld := ⟨(hrtUnitCfg i), 3, 3⟩
def hrtUnitCfg_Mode (i : Nat) : Fld := ⟨(hrtUnitCfg i), 0, 2⟩
/-- HRT.UNIT_STATUS: BAR0 offset. -/
def hrtUnitStatus (i : Nat) : Nat := 0x1000008 + 0x8000 * i
def hrtUnitStatus_WrRefused (i : Nat) : Fld := ⟨(hrtUnitStatus i), 5, 1⟩
def hrtUnitStatus_Fault (i : Nat) : Fld := ⟨(hrtUnitStatus i), 4, 1⟩
def hrtUnitStatus_Stalled (i : Nat) : Fld := ⟨(hrtUnitStatus i), 3, 1⟩
def hrtUnitStatus_DamperHold (i : Nat) : Fld := ⟨(hrtUnitStatus i), 2, 1⟩
def hrtUnitStatus_Running (i : Nat) : Fld := ⟨(hrtUnitStatus i), 1, 1⟩
def hrtUnitStatus_Halted (i : Nat) : Fld := ⟨(hrtUnitStatus i), 0, 1⟩
/-- HRT.LAT_PAD: BAR0 offset. -/
def hrtLatPad (i : Nat) : Nat := 0x100000c + 0x8000 * i
def hrtLatPad_V3pad (i : Nat) : Fld := ⟨(hrtLatPad i), 0, 2⟩
/-- HRT.FAULT_INFO0: BAR0 offset. -/
def hrtFaultInfo0 (i : Nat) : Nat := 0x1000010 + 0x8000 * i
def hrtFaultInfo0_Code (i : Nat) : Fld := ⟨(hrtFaultInfo0 i), 24, 8⟩
def hrtFaultInfo0_Bundle (i : Nat) : Fld := ⟨(hrtFaultInfo0 i), 14, 10⟩
def hrtFaultInfo0_Bank (i : Nat) : Fld := ⟨(hrtFaultInfo0 i), 9, 5⟩
def hrtFaultInfo0_Agport (i : Nat) : Fld := ⟨(hrtFaultInfo0 i), 7, 2⟩
/-- HRT.FAULT_INFO1: BAR0 offset. -/
def hrtFaultInfo1 (i : Nat) : Nat := 0x1000014 + 0x8000 * i
def hrtFaultInfo1_Tick (i : Nat) : Fld := ⟨(hrtFaultInfo1 i), 0, 32⟩
/-- HRT.MEM_CE: BAR0 offset. -/
def hrtMemCe (i : Nat) : Nat := 0x1000020 + 0x8000 * i
def hrtMemCeF (i : Nat) : Fld := ⟨(hrtMemCe i), 0, 32⟩
/-- HRT.MEM_UE: BAR0 offset. -/
def hrtMemUe (i : Nat) : Nat := 0x1000024 + 0x8000 * i
def hrtMemUeF (i : Nat) : Fld := ⟨(hrtMemUe i), 0, 32⟩
/-- HRT.TP_CE: BAR0 offset. -/
def hrtTpCe (i : Nat) : Nat := 0x1000028 + 0x8000 * i
def hrtTpCeF (i : Nat) : Fld := ⟨(hrtTpCe i), 0, 32⟩
/-- HRT.TP_UE: BAR0 offset. -/
def hrtTpUe (i : Nat) : Nat := 0x100002c + 0x8000 * i
def hrtTpUeF (i : Nat) : Fld := ⟨(hrtTpUe i), 0, 32⟩
/-- HRT.COLLIDE: BAR0 offset. -/
def hrtCollide (i : Nat) : Nat := 0x1000030 + 0x8000 * i
def hrtCollideF (i : Nat) : Fld := ⟨(hrtCollide i), 0, 32⟩
/-- HRT.OVERRUN: BAR0 offset. -/
def hrtOverrun (i : Nat) : Nat := 0x1000034 + 0x8000 * i
def hrtOverrunF (i : Nat) : Fld := ⟨(hrtOverrun i), 0, 32⟩
/-- HRT.SAT: BAR0 offset. -/
def hrtSat (i : Nat) : Nat := 0x1000038 + 0x8000 * i
def hrtSatF (i : Nat) : Fld := ⟨(hrtSat i), 0, 32⟩
/-- HRT.UFL: BAR0 offset. -/
def hrtUfl (i : Nat) : Nat := 0x100003c + 0x8000 * i
def hrtUflF (i : Nat) : Fld := ⟨(hrtUfl i), 0, 32⟩
/-- HRT.STALL_CYC: BAR0 offset. -/
def hrtStallCyc (i : Nat) : Nat := 0x1000040 + 0x8000 * i
def hrtStallCycF (i : Nat) : Fld := ⟨(hrtStallCyc i), 0, 32⟩
/-- HRT.ILLEGAL: BAR0 offset. -/
def hrtIllegal (i : Nat) : Nat := 0x1000044 + 0x8000 * i
def hrtIllegalF (i : Nat) : Fld := ⟨(hrtIllegal i), 0, 32⟩
/-- HRT.AMX_SEL: BAR0 offset. -/
def hrtAmxSel (i : Nat) : Nat := 0x1000060 + 0x8000 * i
def hrtAmxSel_Entry (i : Nat) : Fld := ⟨(hrtAmxSel i), 0, 5⟩
/-- HRT.AMX_PERIOD: BAR0 offset. -/
def hrtAmxPeriod (i : Nat) : Nat := 0x1000064 + 0x8000 * i
def hrtAmxPeriod_Window (i : Nat) : Fld := ⟨(hrtAmxPeriod i), 0, 32⟩
/-- HRT.AMX_TENSOR: BAR0 offset. -/
def hrtAmxTensor (i : Nat) : Nat := 0x1000068 + 0x8000 * i
def hrtAmxTensor_Absmax (i : Nat) : Fld := ⟨(hrtAmxTensor i), 0, 32⟩
/-- HRT.AMX_Q: BAR0 offset. -/
def hrtAmxQ (i : Nat) (j : Nat) : Nat := 0x100006c + 0x8000 * i + 0x4 * j
def hrtAmxQ_Absmax (i : Nat) (j : Nat) : Fld := ⟨(hrtAmxQ i j), 0, 32⟩
/-- HRT.AMX_FLAGS: BAR0 offset. -/
def hrtAmxFlags (i : Nat) : Nat := 0x100007c + 0x8000 * i
def hrtAmxFlags_Valid (i : Nat) : Fld := ⟨(hrtAmxFlags i), 5, 1⟩
def hrtAmxFlags_Fed (i : Nat) : Fld := ⟨(hrtAmxFlags i), 4, 1⟩
def hrtAmxFlags_Held (i : Nat) : Fld := ⟨(hrtAmxFlags i), 3, 1⟩
def hrtAmxFlags_Clamped (i : Nat) : Fld := ⟨(hrtAmxFlags i), 2, 1⟩
def hrtAmxFlags_Ufl (i : Nat) : Fld := ⟨(hrtAmxFlags i), 1, 1⟩
def hrtAmxFlags_Sat (i : Nat) : Fld := ⟨(hrtAmxFlags i), 0, 1⟩
/-- HRT.TBL_SEL: BAR0 offset. -/
def hrtTblSel (i : Nat) : Nat := 0x1000100 + 0x8000 * i
def hrtTblSel_Table (i : Nat) : Fld := ⟨(hrtTblSel i), 0, 3⟩
/-- HRT.TBL_ADDR: BAR0 offset. -/
def hrtTblAddr (i : Nat) : Nat := 0x1000104 + 0x8000 * i
def hrtTblAddr_Index (i : Nat) : Fld := ⟨(hrtTblAddr i), 0, 17⟩
/-- HRT.TBL_CMD: BAR0 offset. -/
def hrtTblCmd (i : Nat) : Nat := 0x1000108 + 0x8000 * i
def hrtTblCmd_Write (i : Nat) : Fld := ⟨(hrtTblCmd i), 1, 1⟩
def hrtTblCmd_Read (i : Nat) : Fld := ⟨(hrtTblCmd i), 0, 1⟩
/-- HRT.TBL_DATA: BAR0 offset. -/
def hrtTblData (i : Nat) (j : Nat) : Nat := 0x1000120 + 0x8000 * i + 0x4 * j
def hrtTblDataF (i : Nat) (j : Nat) : Fld := ⟨(hrtTblData i j), 0, 32⟩

end Sys2Proof.Machine
end

