-- ==== Sys2Proof/Machine/State.lean ====
section
/-!
DEFINITION. The state of the device as plain data, its reset value, and the reasons a step can stop. Registers whose fields
the register maps hold stand in `regs`, one 32-bit word per BAR0 offset; everything the maps do not show (queues, buffers,
register files, operations in flight) has a field of its own.
-/
namespace Sys2Proof.Machine

/-! ### The part (R1 to R3, R455) -/

/-- The grades of R1. -/
inductive Grade where
  | a | b
  deriving DecidableEq, Repr

/-- The steppings of R2. -/
inductive Stepping where
  | a0 | b0
  deriving DecidableEq, Repr

/-- What fuses and stepping fix for one part: nothing writes it. -/
structure Part where
  grade : Grade
  stepping : Stepping
  /-- Bit c is set when physical course c is disabled (GLB.FUSE_MAP). -/
  fuseMap : BitVec 25
  /-- PWR.MODEL_COURSE, MODEL_DMA and MODEL_BASE as fused (R455). -/
  modelCourse : W32
  modelDma : W32
  modelBase : W32
  /-- LEAF_BLOCKS bits whose second cell does not take, and OWNER_KEY_HASH bits that do not take: their programming fails
  verification (R416, R419). -/
  weakBlocks : BitVec 1024
  weakHash : BitVec 256
  deriving DecidableEq, Repr

/-! ### HBM (R369 to R388) -/

/-- One merge-buffer entry: a sector, its held bytes and their mask, the core cycle of its allocation (R382, R383), and the master
and site that allocated it. -/
structure MergeEnt where
  sector : Nat
  data : BitVec 256
  mask : BitVec 32
  born : Nat
  master : Nat
  site : Nat
  deriving DecidableEq, Repr

/-- A request for one sector that waits at its pseudo-channel (R373): the master, the address, the byte mask, data and poison of a
write, and the bit errors that a read meets. -/
structure HbmReq where
  master : Nat
  addr : Nat
  put : Option (W32 × BitVec 256 × Bool)
  err : BitVec 288
  deriving DecidableEq, Repr

/-- HBM and its controllers. -/
structure Mem where
  /-- The data bytes of the six stacks, by device address. An unlisted byte is 0 (R385). -/
  hbm : SMap Byte
  /-- Check symbol j of sector n, at key 4n + j, XORed with the correct check symbol of the sector's data; unlisted: 0. -/
  check : SMap Byte
  /-- Held partial writes of all pseudo-channels, oldest first. -/
  merge : List MergeEnt
  /-- The hard faults of the stacks: the bit errors that every read of a sector meets, by sector (R377). -/
  faults : SMap (BitVec 288)
  /-- Requests that wait for a slot of their pseudo-channel, oldest first (R373). -/
  waits : List HbmReq
  /-- For each pseudo-channel: the core cycle, plus one, of its last slot; the class 1 master after which its pointer stands; and 1
  where ACQ's side was served last in class 0 (R373). -/
  slots : SMap Nat
  arb : SMap Nat
  turn : SMap Nat
  /-- Refreshes that are due and not yet taken: pseudo-channel, and whether the postponement limit is reached (R373, R375). -/
  due : List (Nat × Bool)
  /-- The tick from which each stack's leak interval counts (R381). -/
  leakFrom : SMap Nat
  /-- The bytes that the last granted sector read delivered, and whether they carry poison (R377, R378). -/
  out : List Byte
  outPoison : Bool
  deriving DecidableEq, Repr

/-! ### Ingest (R38 to R75) -/

/-- One lane tick in the aligner buffer (R60 to R62). -/
structure LaneTick where
  /-- T', low 24 bits. -/
  dev : Nat
  /-- The lane string: payload of data blocks 1 to 39. -/
  data : BitVec 2496
  /-- Bit b−1 is set when data block b had an invalid sync header. -/
  bad : BitVec 39
  /-- The header passed its checks with SRC_FAULT and CLK_UNLOCK clear. -/
  hdrOk : Bool
  overrange : Bool
  /-- Both locks have been held since the header. -/
  locked : Bool
  /-- How many losses of lock the lane had had when the lane tick began (R62). -/
  gen : Nat
  /-- The next header passed its checks and carried an equal CRC16; none until its verdict. -/
  next : Option Bool
  deriving DecidableEq, Repr

/-- The PRBS31 checker of a lane (R70): the last 31 received bits, how many have been seeded, the run of matching bits while
unlocked, and the errors among the last 1,024 bits while locked (ages in bits). -/
structure Prbs where
  hist : Nat
  seeded : Nat
  run : Nat
  errs : List Nat
  deriving DecidableEq, Repr

/-- One ingest lane receiver. -/
structure Lane where
  /-- The last 58 line bits, the newest as bit 0 (R39). -/
  hist : Nat
  /-- Clause 49 block lock: valid headers in a row while unlocked; headers and invalid headers of the window while locked. -/
  good : Nat
  winCnt : Nat
  winBad : Nat
  /-- Qualifying headers of the last 40 blocks while without tick lock: blocks since, and TICK (R45). -/
  cands : List (Nat × Nat)
  /-- The position of the next block in its lane tick while tick lock is held. -/
  pos : Nat
  /-- TICK of the last passing header, and lane ticks counted since it (R44). -/
  lastTick : Nat
  since : Nat
  fails : Nat
  /-- The CRC16 register over the current lane tick's payload. -/
  crc : Nat
  /-- A CRC verdict that is due: the device tick of its lane tick, whether the CRC agreed, and the cycle in which it is due
  (R43). -/
  verdict : Option (Nat × Bool × Nat)
  /-- The lane ticks held, newest first, at most 12 and the one arriving. -/
  buf : List LaneTick
  /-- A passing header has measured ARRIVAL since EN was last set (R57). -/
  measured : Bool
  /-- Losses of lock so far, and how many of them came before the last clean lane tick that was released: later lane ticks are
  absent until one of them is clean (R62, R65). -/
  losses : Nat
  cleanGen : Nat
  /-- The OFFSET under which the last passing header was keyed (R53). -/
  offset : Nat
  /-- The last released lane tick was clean (R65). -/
  lastClean : Bool
  /-- The fibre bit was 0 and no lane tick has been clean since (R68). -/
  rejoin : Bool
  /-- A loss of lock not yet reported: the device tick it affected (R65). -/
  lossEv : Option Nat
  prbs : Prbs
  deriving DecidableEq, Repr

/-- The receiver before any block. -/
def Lane.init : Lane :=
  ⟨0, 0, 0, 0, [], 0, 0, 0, 0, 0xFFFF, none, [], false, 0, 0, 0, false, false, none, ⟨0, 0, 0, []⟩⟩

/-- A replay record of one lane that ING has read, and the release tick for which it was read (R72, R74). -/
structure ReplayRec where
  tick : Nat
  record : Nat
  lane : Nat
  data : BitVec 2496
  bad : BitVec 39
  suspect : Bool
  overrange : Bool
  deriving DecidableEq, Repr

/-- The ingest block beyond its registers. -/
structure Ing where
  lanes : SMap Lane
  /-- GRP_EN in force, and whether a write awaits the next release tick (R67). -/
  grp : W32
  grpPending : Bool
  /-- The core cycle from which on a tick boundary begins a release tick: the one after CTRL.EN was last set. -/
  enFrom : Nat
  /-- The last release tick released, the core cycle, plus one, of its first cycle, and its stream of words with their suspect
  marks (R50). -/
  relTick : Nat
  relCyc : Nat
  stream : List (BitVec 512 × Bool)
  /-- The SUSPECT and OVERRANGE maps of the last 16 release ticks, newest first (R64). -/
  maps : List (Nat × BitVec 16 × BitVec 16)
  /-- Release ticks from zeroFrom to zeroTo − 1 carry zeros (R59). -/
  zeroFrom : Nat
  zeroTo : Nat
  /-- Replay records read ahead (R74). -/
  replay : List ReplayRec
  /-- Records a snapshot has still to write: none when no snapshot runs, and the next record index (R75). -/
  snapLeft : Nat
  snapIdx : Nat
  /-- The first tick whose release can belong to the snapshot, the core cycle from which it can, and the descriptor that started it,
  if one did (R75, R305). -/
  snapFrom : Nat
  snapCyc : Nat
  snapTag : Option Nat
  /-- The PRBS31 generator of each lane: its 31 bits; 0 before it has sent a bit (R70). -/
  gens : SMap Nat
  /-- The last block, sync header above payload, and the last raw line bits that each monitor-fibre lane has carried in the far-end
  loop of its lane (R70). -/
  monBlock : SMap (BitVec 66)
  monBits : SMap (List Bool)
  deriving DecidableEq, Repr

/-! ### The Stoker's queues (R298 to R309) -/

/-- An entry handed to a completion queue and not yet written to its ring (R306). -/
structure Entry where
  ty : Nat
  tag : Nat
  status : Nat
  sq : Nat
  tick : Nat
  result : Nat
  body : List Byte
  /-- The entry's descriptor had FLAGS.IRQ set (R309). -/
  irq : Bool
  /-- The descriptor in flight that ends when the entry is posted. -/
  rel : Option Nat
  /-- The place in its queue of a descriptor that completes without having started (R310, R311); 0 for every other entry. -/
  place : Nat
  deriving DecidableEq, Repr

/-- One completion queue beyond its registers. -/
structure Cq where
  /-- Entries handed and not yet posted, oldest first: the holding buffer (R308). -/
  held : List Entry
  /-- Entries posted since the last signal, and the tick of the first of them (R309). -/
  unsig : Nat
  unsigTick : Nat
  deriving DecidableEq, Repr

/-- A completion queue that holds nothing. -/
def Cq.init : Cq := ⟨[], 0, 0⟩

/-- A descriptor in flight (R302). -/
structure Fly where
  tag : Nat
  sq : Nat
  /-- Its place in the order of its queue, counted from 0 (R310, R311). -/
  seq : Nat
  bytes : List Byte
  startTick : Nat
  /-- Its operation has begun. -/
  begun : Bool
  /-- Its completion has been handed to its queue and waits to be posted (R302). -/
  ended : Bool
  /-- BARRIER: the places of each queue that it waits for, from the first to before the last (R311). -/
  waits : List (Nat × Nat × Nat)
  /-- BARRIER: the limit tick (R311). -/
  limit : Nat
  /-- Status and result of work whose data has still to land (R305). -/
  outcome : Option (Nat × Nat)
  /-- A function-level reset has abandoned it: it runs to its end and its completion is discarded (R442). -/
  orphan : Bool
  deriving DecidableEq, Repr

/-- One submission queue beyond its registers: descriptors read ahead with their poison (R300), and descriptors passed. -/
structure Sq where
  fetched : List (List Byte × Bool)
  passed : Nat
  deriving DecidableEq, Repr

/-- A queue that has read nothing. -/
def Sq.init : Sq := ⟨[], 0⟩

/-- Suspect and poison tags of an operand or a block (R92). -/
structure Tags where
  sus : Bool
  poi : Bool
  deriving DecidableEq, Repr

/-- One replica of a running graph: the chunks it was given and the tokens its west port has still to send of the last one. -/
structure Replica where
  chunk : Option Nat
  sent : Nat
  drained : Nat
  outChunks : List Nat
  deriving DecidableEq, Repr

/-- A warm graph of the loaded image (R313). -/
structure GraphEnt where
  graph : Nat
  first : Nat
  courses : Nat
  replicas : Nat
  comb : Option Nat
  combCourses : Nat
  order : Nat
  chunk : Nat
  outChunk : Nat
  sumTokens : Nat
  finalTokens : Nat
  stateBytes : Nat
  deriving DecidableEq, Repr

/-- A RUN in progress (R314 to R317). -/
structure Run where
  tag : Nat
  graph : GraphEnt
  inMode : Nat
  elems : Nat
  inAddr : Nat
  outAddr : Nat
  stateAddr : Nat
  param : Nat
  /-- The decoded elements of an EXPAND run, with their suspect and poison marks. -/
  decoded : List (BitVec 16 × Tags)
  /-- REPRO or no balancing: chunk order is fixed (R316). -/
  fixed : Bool
  repro : Bool
  chunks : Nat
  nextChunk : Nat
  replicas : List Replica
  /-- Summaries that have arrived and wait to enter: core cycle of arrival, chunk and tokens with their tags, in arrival order. -/
  arrived : List (Nat × Nat × List (BitVec 512 × Tags))
  /-- A summary that is arriving: replica and tokens so far. -/
  arriving : List (Nat × List (BitVec 512 × Tags))
  entered : List Nat
  /-- Tokens of entered summaries and carried state that the combine port has still to send. -/
  combQueue : List (BitVec 512 × Tags)
  /-- Tokens that the combine port has taken from there. -/
  combSent : Nat
  /-- Bytes of IN, as offset and length, whose read has timed out or was refused (R430). -/
  lost : List (Nat × Nat)
  finals : Nat
  stateLeft : Nat
  choices : Nat
  written : Nat
  sawPoison : Bool
  sawSuspect : Bool
  busOff : Bool
  deriving DecidableEq, Repr

/-- The Stoker beyond its registers. -/
structure Stk where
  sqs : SMap Sq
  cqs : SMap Cq
  flights : List Fly
  runs : List Run
  /-- The queue after which the rotating pointer of DESCRIPTOR_START stands (R301). -/
  rr : Nat
  /-- The last value written to each doorbell, SQ 0 to 15 then CQ 0 to 15 (R437). -/
  doorbells : SMap W32
  /-- The register RESYNC is writing (R323). -/
  resyncBusy : Bool
  deriving DecidableEq, Repr

/-! ### The Ashpit (R389 to R407) -/

/-- One assertion of a fault source that the Ashpit has not yet entered (R391): its FRC, its capture information (R398) and
its rank among instances (R390). -/
structure Assertion where
  src : Nat
  frc : Nat
  info : BitVec 128
  rank : Nat
  deriving DecidableEq, Repr

/-- The Ashpit beyond its registers. -/
structure Flt where
  /-- Assertions not yet entered in SRC_STATUS, oldest first. -/
  pend : List Assertion
  /-- Level sources whose condition outside the core holds, each once, in rising order. -/
  level : List Nat
  /-- The ERR_OUT_N pulse that runs or is about to: its first cycle, and the one after its last (R400). -/
  pulse : Option (Nat × Nat)
  /-- The source whose CHIP reaction is armed, and whether PIN was set with it, so that its chip reset waits for the pulse
  (R397). -/
  chip : Option (Nat × Bool)
  /-- ERR_OUT_N is held from a CHIP pulse until the Ashpit is released (R397). -/
  pinHeld : Bool
  /-- The Ashpit has been released since the last reset (R397). -/
  released : Bool
  /-- The Firebox's fault log: source and FRC, oldest first, at most 64 (R396, R426). -/
  log : List (Nat × Nat)
  /-- The tick from which the Hearth bucket's leak interval counts (R393). -/
  hceFrom : Nat
  /-- Blocks held in reset by a BLOCK reaction: source (256 + lane for a lane of source 16), and the cycle at which the block
  restarts. -/
  blocked : List (Nat × Nat)
  /-- The core cycle, plus one, in which each class's first-error capture was made (R398). -/
  capAt : SMap Nat
  /-- The classes whose capture a CHIP reaction's chip reset has left: only power-on clears it (R397). -/
  kept : List Nat
  /-- The configuration words whose parity bit disagrees with what they hold, numbered as FLT_PARITY_SCAN numbers them; the parity
  bit of every other word agrees (R406). -/
  upset : List Nat
  /-- The core cycle of the tick boundary from which the safe state silences Flues and TRIG_OUT (R401). -/
  safeFrom : Nat
  deriving DecidableEq, Repr

/-! ### The Firebox (R408 to R426) -/

/-- The Firebox: its fuses, its boot flash, and what it keeps between requests. -/
structure Sec where
  /-- OTP fields (R409). Each bit of LEAF_BLOCKS and FW_SVN has two cells, A and B. -/
  vendorHash : BitVec 256
  helper : BitVec 4096
  ownerHash : BitVec 256
  ownerSet : Bool
  vendorOff : Bool
  leafA : BitVec 1024
  leafB : BitVec 1024
  svnA : BitVec 64
  svnB : BitVec 64
  /-- The boot flash (R478): an unlisted byte is erased and reads 0xFF. -/
  flash : SMap Byte
  /-- Firmware of a verified slot runs; its security version and digest (R412). -/
  running : Bool
  svn : Nat
  fwHash : BitVec 256
  /-- The firmware has signalled core release (R412, R447). -/
  signalled : Bool
  /-- A glitch has stopped the Firebox (R413). -/
  stopped : Bool
  /-- Both firmware slots failed (R412); the top-tree table is being rebuilt (R415). -/
  bootFailed : Bool
  topBuild : Bool
  /-- The bottom tree in use: its block, its next leaf, whether it is regenerated and whether block b + 1 is (R416, R417). -/
  block : Nat
  leaf : Nat
  ready : Bool
  nextReady : Bool
  /-- The nonce of the last DEBUG_CHALLENGE, if unused (R425), and how many nonces have been drawn. -/
  nonce : Option (BitVec 256)
  drawn : Nat
  /-- The nonces given out so far, newest first: none is given twice (R425). -/
  past : List (BitVec 256)
  /-- Unlocked debug scopes: bit 0 TABLES, 1 SCAN_PLAIN, 2 FIREBOX_PORT (R425). -/
  scopes : BitVec 3
  /-- An enrolment has programmed and verified the hash, and OWNER_SET follows when the request ends (R419). -/
  enrolling : Bool
  /-- The request being served, with its result code, its RESULT and its output: a mailbox command, or the descriptor of a
  tag. -/
  busy : Option (Option Nat × Nat × Nat × List Byte)
  /-- ATTEST descriptors that wait for the Firebox, in order (R426). -/
  waiting : List Nat
  deriving DecidableEq, Repr

/-! ### PCI Express (R427 to R443) -/

/-- The PCI Express function beyond GLB.PCIE_STATUS. -/
structure Pcie where
  /-- The MSI-X table, four words a vector at keys 4v to 4v + 3; a vector is masked after reset. -/
  table : SMap W32
  pending : BitVec 256
  msixEnable : Bool
  funcMask : Bool
  /-- Messages sent to the host, oldest first: address and data. -/
  sent : List (W64 × W32)
  /-- The BAR2 size as a power of two of GiB (R433). -/
  bar2Log : Nat
  /-- The bits that writes have stored in configuration space, by double word, beside those that other fields hold; an unlisted one
  reads as after reset (R431, R442). -/
  cfg : SMap W32
  /-- The last write request posted to host memory: address, length, and its Relaxed Ordering attribute (R432). -/
  posted : Option (Nat × Nat × Bool)
  /-- The Data Link Layer is up (R429). -/
  up : Bool
  /-- PERST_N is asserted (R440). -/
  perst : Bool
  /-- The function is ready and no longer answers with Request Retry Status (R441). -/
  ready : Bool
  /-- Device Readiness Status messages sent so far (R441). -/
  drs : Nat
  /-- The rate to which the device requests the link to change (R428). -/
  rateReq : Option Nat
  deriving DecidableEq, Repr

/-! ### Power and optics (R444 to R466) -/

/-- One transmit fibre: the cycle from which its next probe pulse counts, the cycle from which its companion has been present,
and the cycle of its last pulse (R463, R464). -/
structure Tx where
  probeFrom : Nat
  presentFrom : Nat
  pulseAt : Option Nat
  deriving DecidableEq, Repr

/-- A transmit fibre that has done nothing. -/
def Tx.init : Tx := ⟨0, 0, none⟩

/-- Supplies, clocks, Damper and optics beyond their registers. -/
structure Pwr where
  /-- The reset scope that last ran was power-on, with HBM training still to do (R448). -/
  hbmLost : Bool
  /-- VDD_CORE below tolerance since this cycle (R449). -/
  coreLowFrom : Option Nat
  txs : SMap Tx
  /-- Cycles of the clamp trips of each Flue in the last second (R465), newest first. -/
  trips : SMap (List Nat)
  /-- The last cycle at which AVS changed the target (R452). -/
  avsFrom : Nat
  /-- The core is released (R447). -/
  released : Bool
  /-- Crossings that a timeout has left failing, in the bit order of PWR.CDC_STATUS (R461). -/
  cdcDead : Nat
  /-- Crossings whose FIFO pointers return to 0 after a reset of a side, with one more than the cycle in which that began or in which
  their clock came back (R462). -/
  cdcSync : SMap Nat
  /-- Fibres that the clamp has put in PROBE in the present cycle (R466). -/
  clamped : List Nat
  /-- VDD_IO is out of tolerance and holds the chip in reset (R444). -/
  ioLow : Bool
  /-- The instruction loaded on the IEEE 1149.1 port (R479): 0 BYPASS, 1 IDCODE, 2 SAMPLE/PRELOAD, 3 EXTEST, 4 the Firebox
  test port. -/
  jtag : Nat
  /-- The boundary register: a cell for each ball of the signal ball table, in its order (R471, R479). -/
  boundary : BitVec 36
  /-- The data register that the port shifts out under IDCODE (R479). -/
  shift : Option W32
  /-- The Damper's hold lines as they stood one and two cycles ago: bit g for group g (R319). -/
  line1 : Nat
  line2 : Nat
  deriving DecidableEq, Repr

/-! ### Triggers and acquisition (R245 to R276) -/

/-- A time tag: device tick, reference channel, sample offset, fraction, and tick time in 1/256 cycle (R249). -/
structure Tag where
  tick : Nat
  ch : Nat
  offset : Nat
  frac : Nat
  tau : Nat
  deriving DecidableEq, Repr

/-- A hit of a source in a device tick (R252), with the FRC cycle from which it is ready (R245). -/
structure Hit where
  tick : Nat
  bit : Nat
  tag : Tag
  ready : Nat
  late : Bool
  suspect : Bool
  deriving DecidableEq, Repr

/-- Marks of a score detector for a device tick (R248). -/
structure DetMark where
  tick : Nat
  det : Nat
  suspect : Bool
  poison : Bool
  deriving DecidableEq, Repr

/-- What a trigger unit remembers: the device tick in which it last fired and the last one it ignores (R254), and the A events
of its window as tick and tick time (R253). -/
structure Tu where
  hold : Option (Nat × Nat)
  events : List (Nat × Nat)
  deriving DecidableEq, Repr

/-- A firing whose record is still to be posted (R258). -/
structure Firing where
  tu : Nat
  tag : Tag
  source : Nat
  flags : Nat
  epoch : Nat
  count : Nat
  record : Option Nat
  /-- The tick in which the unit fired: the cause of the record (R37). -/
  fired : Nat
  deriving DecidableEq, Repr

/-- The configuration that a swap at K replaced, for the device ticks that it still completes (R216): the first device tick that
it does not complete, the first one that the new one handles, its declared latency and alignment delay, its active registers
and units, and the first device tick beyond its own that is not yet decided. -/
structure OldTrg where
  upTo : Nat
  from' : Nat
  lat : Nat
  delay : Nat
  active : SMap W32
  tus : SMap Tu
  next : Nat
  deriving DecidableEq, Repr

/-- TRG beyond its registers. -/
structure Trg where
  hits : List Hit
  marks : List DetMark
  tus : SMap Tu
  /-- The active copies of SD.THRESH and the TU registers, by offset (R257). -/
  active : SMap W32
  commitAt : Option Nat
  firings : List Firing
  /-- The first device tick not yet decided. -/
  next : Nat
  /-- TRIG_OUT pulses that have not ended: cycle of the pad edge and cycle of the end (R259). -/
  pulses : SMap (List (Nat × Nat))
  /-- The epoch of the takes of recent device ticks, newest first (R258). -/
  epochs : List (Nat × Nat)
  /-- What a swap leaves to be completed (R216, R256). -/
  old : Option OldTrg
  /-- The time of the earliest edge of each input in the tick of its last one, plus one, in 1/256 cycle (R250). -/
  edges : SMap Nat
  /-- The time, plus one, of the last active edge of each TRIG_IN, in 1/256 cycle (R474). -/
  edgeAt : SMap Nat
  deriving DecidableEq, Repr

/-- A record being captured (R271, R272). -/
structure Capt where
  record : Nat
  tag : Tag
  tu : Nat
  /-- The FLAGS of its descriptor as far as they are known. -/
  flags : Nat
  epoch : Nat
  /-- Ring position of its first TICK mark, once there is one, and the device tick of it. -/
  start : Option Nat
  firstTick : Nat
  pre : Nat
  post : Nat
  /-- The stream index of the trigger element, counted from pool start. -/
  elem : Nat
  deriving DecidableEq, Repr

/-- A finished record whose descriptor and event are still to be written (R272): its end and the elements written from the
trigger element on. -/
structure DoneRec where
  capt : Capt
  stop : Nat
  written : Nat
  deriving DecidableEq, Repr

/-- A TICK mark (R270): device tick, stream position of its first byte, stream index of its first element, and whether SUSPECT
SAMPLE entries and GAP marks stand in the tick. -/
structure Anchor where
  tick : Nat
  pos : Nat
  elem : Nat
  sus : Bool
  gap : Bool
  deriving DecidableEq, Repr

/-- A capture take that a pool has still to write: release tick, number of its first element, payload, its marks, and whether
the channel had OVERRANGE. -/
structure CapTake where
  rel : Nat
  base : Nat
  data : BitVec 512
  poison : Bool
  void : Bool
  suspect : Bool
  ovr : Bool
  deriving DecidableEq, Repr

/-- One acquisition pool beyond its registers. -/
structure Pool where
  on : Bool
  /-- The tick boundary at which the pool starts, or stops (R275). -/
  startAt : Option Nat
  stopAt : Option Nat
  /-- Bytes written since pool start; the ring address is this modulo RING_SIZE (R270). -/
  pos : Nat
  /-- Bytes accepted and not yet in HBM: the write buffer (R274). -/
  wbuf : List Byte
  /-- Takes of a release tick that wait for the one before it to be complete. -/
  later : List CapTake
  /-- The held value, whether it is suspect, and whether its tick had OVERRANGE. -/
  held : BitVec 16
  heldSus : Bool
  heldOvr : Bool
  /-- The release tick being written, and the number of its next element. -/
  tick : Option Nat
  elem : Nat
  /-- The position of the last stored entry in the tick, plus one (R269). -/
  last : Nat
  first : Bool
  susRun : Bool
  gapRun : Nat
  /-- Elements since pool start, and since the fill last started (R271). -/
  total : Nat
  fill : Nat
  /-- The last 1,024 TICK marks, newest first. -/
  anchors : List Anchor
  capt : Option Capt
  finished : List DoneRec
  /-- Unreleased records, oldest first: number, first byte position, and the REF_CH of the tag (R249, R273). -/
  kept : List (Nat × Nat × Nat)
  /-- Writing has stopped; elements lost so far, and whether it resumes with the next device tick (R274). -/
  stopped : Option Nat
  resume : Bool
  /-- How often writing has stopped since pool start (R274). -/
  stops : Nat
  /-- The causes of BREAKs that found no room and are written when writing resumes, and whether a BREAK has come since the last device tick
  began (R274, R275). -/
  breakDue : List Nat
  broken : Bool
  deriving DecidableEq, Repr

/-- A pool before it is enabled. -/
def Pool.init : Pool :=
  ⟨false, none, none, 0, [], [], 0, false, false, none, 0, 0, true, false, 0, 0, 0, [], none, [], [], none, false, 0, [], false⟩

/-! ### The Chimney (R260 to R266) -/

/-- One Chimney port beyond its registers. -/
structure ChmPort where
  txq : List (W64 × W64)
  rxq : List (W64 × W64)
  /-- TRIGGER messages waiting for their reserved slot: tick and slot of launch, and the trigger time in 1/256 cycle. -/
  trigs : List (Nat × Nat × Nat × Nat × Bool)
  reqPending : Bool
  /-- Requests to answer: their SEQ and receive timestamp in 1/256 cycle (R264). -/
  replies : List (Nat × Nat)
  /-- The echo outstanding: SEQ, launch time in 1/256 cycle, tick of the launch (R264). -/
  echo : Option (Nat × Nat × Nat)
  seq : Nat
  /-- The last message launched and the FRC of its launch. -/
  sent : W64
  sentAt : Nat
  /-- Receive line history and block-lock counts (R39). -/
  hist : Nat
  good : Nat
  winCnt : Nat
  winBad : Nat
  deriving DecidableEq, Repr

/-- A port that has sent and received nothing. -/
def ChmPort.init : ChmPort := ⟨[], [], [], false, [], none, 0, 0, 0, 0, 0, 0, 0⟩

/-! ### Time (R277 to R296) -/

/-- One timing port beyond its registers. -/
structure TpPort where
  /-- Transmit timestamp entries: ID and time form (R288). -/
  tsq : List (Nat × Nat)
  /-- The last frame sent, with its FCS. -/
  sent : List Byte
  deriving DecidableEq, Repr

/-- A SYNC accepted for an FRC load: target and receive timestamp in 1/256 cycle, its START, and its link (R291). -/
structure SyncLoad where
  target : Int
  rx : Int
  startValid : Bool
  start : Nat
  link : Nat
  /-- The core cycle in which it arrived. -/
  at' : Nat
  deriving DecidableEq, Repr

/-- FRC, BASE, REF and RATE as they stood before the first change of this cycle, and BASE as a RATE write of this cycle found it
(R280). -/
structure TimeWas where
  frc : Nat
  base : Nat
  ref : Nat
  rate : Nat
  preRate : Option Nat
  deriving DecidableEq, Repr

/-- TIM beyond its registers. -/
structure Tim where
  tps : SMap TpPort
  load : Option SyncLoad
  was : Option TimeWas
  deriving DecidableEq, Repr

/-! ### Zhevvel Links and twins (R343 to R368) -/

/-- A frame received and not yet released whole: the sender's tick, and per slot the container, its suspect mark and whether
it is delivered (a reliable container of a rejected frame is not). -/
structure RxFrame where
  tick : Nat
  conts : List (BitVec 528 × Bool × Bool)
  deriving DecidableEq, Repr

/-- A frame kept for go-back-N: its FSEQ, its reliable containers by slot, and the tick in which it was last sent. -/
structure KeptFrame where
  fseq : Nat
  conts : List (Nat × BitVec 528)
  sentTick : Nat
  deriving DecidableEq, Repr

/-- One Zhevvel Link beyond its registers. -/
structure ZlLink where
  /-- Sender: the last FSEQ used, frames not acknowledged, FSEQs to resend, go-backs without progress (R352). -/
  fseq : Nat
  kept : List KeptFrame
  resend : List Nat
  goBacks : Nat
  /-- What the frame under construction carries in its reliable slots: the FSEQ it sends again, or new tokens. -/
  turn : Option Nat
  fresh : Bool
  /-- Credits of the i-th receive binding to return in the next headers (R357). -/
  credits : List Nat
  /-- A SYNC, an echo request and an echo answer for the next control container (R347, R354). -/
  syncOut : Option (Bool × Nat)
  reqOut : Bool
  ansOut : Option (Nat × Nat)
  echoSeq : Nat
  /-- The echo outstanding: SEQ, transmit timestamp in 1/256 cycle, tick (R347). -/
  echo : Option (Nat × Nat × Nat)
  /-- The containers taken so far for the frame of the current tick, and the last frame launched: its tick and its 21,104
  bits. -/
  build : List (BitVec 528)
  sentTick : Nat
  sent : BitVec 21104
  /-- The lane blocks of the last frame launched, header above the scrambled part, and the last 58 line bits of each lane in both
  directions, the newest as bit 57 (R344). -/
  lanes : List (BitVec 2640)
  txHist : List Nat
  rxHist : List Nat
  /-- Receiver: frames in a row that held, frames in a row that failed, TICK of the last frame (R346). -/
  goodRun : Nat
  failRun : Nat
  lastTick : Nat
  /-- The next FSEQ to accept, the last accepted, and whether a NAK is owed (R352). -/
  expect : Nat
  accepted : Option Nat
  nak : Bool
  frames : List RxFrame
  /-- The SEQ that each receive port expects next (R349), by port. -/
  rxSeq : SMap Nat
  deriving DecidableEq, Repr

/-- A link before training. The first FSEQ sent is 1, and the first one expected (log entry 97). -/
def ZlLink.init : ZlLink :=
  ⟨0, [], [], 0, none, false, [], none, false, none, 0, none, [], 0, 0, [], [], [], 0, 0, 0, 1, none, false, [], []⟩

/-- A crossing-port binding of the loaded image (R355): SLOTS as a mask of data slots. -/
structure Binding where
  port : Nat
  link : Nat
  rx : Bool
  warm : Bool
  peerSeat : Nat
  slots : Nat
  deriving DecidableEq, Repr

/-- Links and twin state beyond the registers. -/
structure Zl where
  links : SMap ZlLink
  bindings : List Binding
  /-- Own twin digests of recent hot ticks, none where not valid; newest first (R340, R361). -/
  digests : List (Nat × Option (BitVec 64))
  /-- Word 0 of the control containers that this chip took for link 23 in recent ticks, newest first (R361). -/
  own : List (Nat × W64)
  /-- The 8th miss, or a dual lead, takes effect at the next tick boundary (R363, R364). -/
  promoteDue : Bool
  demoteDue : Bool
  /-- The tick in which DETACHING was entered (R367). -/
  detachFrom : Nat
  /-- A common restart is armed (R366). -/
  restartArmed : Bool
  /-- Link 23 sends VOID containers in every data slot after a detach (R367). -/
  voidAll : Bool
  deriving DecidableEq, Repr

/-! ### The Hearth: units (R76 to R110, R167 to R194, R336 to R341) -/

/-- A token: 512 data bits and the fields of its sideband (R118). -/
structure Token where
  data : BitVec 512
  epoch : Nat
  seq : Nat
  poison : Bool
  suspect : Bool
  mark : Bool
  void : Bool
  /-- The edge port that sent it, for the credit it returns to one (log entry 21). -/
  port : Option Nat
  deriving DecidableEq, Repr

/-- A token of zero payload with the POISON bit (R98, R126). -/
def Token.bad : Token := ⟨0, 0, 0, true, false, false, false, none⟩

/-- An accumulator set (R79 to R83): 64 column sums, row sum, 64 side sums, passes, the mode of the first pass (none before
one; true for W4), passes of both modes, OMAC passes, and the OR of the tags read. -/
structure Acc where
  cols : List Int
  row : Int
  side : List Int
  passes : Nat
  mode4 : Option Bool
  mixed : Bool
  omacs : Nat
  tags : Tags
  deriving DecidableEq, Repr

/-- The statistics window of an RQT entry: quarter maxima as FP32 bits, which quarters were fed, SAT and UFL (R183). -/
structure Win where
  q : List Nat
  fed : List Bool
  sat : Bool
  ufl : Bool
  deriving DecidableEq, Repr

/-- An empty window. -/
def Win.empty : Win := ⟨[0, 0, 0, 0], [false, false, false, false], false, false⟩

/-- The closed statistics of an RQT entry (R194): window number, quarter maxima, and the bits of AMX_FLAGS. -/
structure Closed where
  window : Nat
  q : List Nat
  flags : Nat
  deriving DecidableEq, Repr

/-- One RQT entry's statistics beyond its table entry: open window, closed window, and the scales that wait to come into
force (R187). -/
structure Rqt where
  win : Win
  closed : Closed
  next : Option (List Nat)
  deriving DecidableEq, Repr

/-- An entry that has gathered nothing. -/
def Rqt.init : Rqt := ⟨Win.empty, ⟨0, [0, 0, 0, 0], 0⟩, none⟩

/-- A CU's share of one digest window (R338): the point, the window or step, the CRC, and the flags. -/
structure DigPart where
  point : Nat
  window : Nat
  crc : BitVec 64
  sus : Bool
  poi : Bool
  deriving DecidableEq, Repr

/-- A burst in progress (R483): AG, direction, the step and bundle of issue, and the blocks not yet granted as SRAM line and HBM
address. -/
structure Xfer where
  ag : Nat
  store : Bool
  step : Nat
  bundle : Nat
  blocks : List (Nat × Nat)
  deriving DecidableEq, Repr

/-- One unit site. Tables are keyed TABLE·2^17 + INDEX as R488 numbers them; tags are keyed by tag block (CU) or line (MU). -/
structure HUnit where
  tab : SMap (BitVec 256)
  /-- The shadow copy: an entry that nothing has written since the copy was zeroed is not listed, and reads as 0 (R209, R223). -/
  shadow : SMap (Option (BitVec 256))
  tags : SMap Tags
  /-- The weight-tile buffers and the side buffer with the tags of what was loaded (R84, R92). -/
  tile0 : BitVec 8192
  tile1 : BitVec 8192
  tileTags0 : Tags
  tileTags1 : Tags
  side : BitVec 4096
  sideTags : Tags
  accs : SMap Acc
  /-- AG pattern counters: key 4·(8·ag + pattern) + n (R106). -/
  ctrs : SMap Nat
  /-- The warm arbiter's pointer, the AGs of the current bundle already granted, and the core cycle, plus one, in which the
  arbiter last decided (R97, R109). -/
  ptr : Nat
  granted : Nat
  arbCyc : Nat
  cfgBuf : List (Nat × BitVec 256)
  xfers : List Xfer
  /-- Warm issue: the next bundle, the step number, and whether the graph runs (R97). -/
  bundle : Nat
  step : Nat
  graphOn : Bool
  /-- A MARK of the configuration network has arrived (R217). -/
  netMark : Bool
  rqts : SMap Rqt
  /-- Entries of table 2 that the unit itself has changed (adapted scales, moved bases), as they were last written (R106, R187, R327). -/
  moved : SMap (Option (BitVec 256))
  /-- One more than the number of the statistics window that closed last; 0 before one has in this epoch or graph (R184). -/
  wins : Nat
  digs : List DigPart
  /-- Steps that the unit had completed when it last switched, since its graph started (R218, R339). -/
  pastStep : Nat
  /-- The core cycle, plus one, in which FAULT_INFO was last captured (R239). -/
  faultCyc : Nat
  deriving DecidableEq, Repr

/-- No tags. -/
def Tags.clear : Tags := ⟨false, false⟩

/-- An accumulator set of zero. -/
def Acc.init : Acc := ⟨List.replicate 64 0, 0, List.replicate 64 0, 0, none, false, 0, Tags.clear⟩

/-- A site that holds nothing. -/
def HUnit.init : HUnit :=
  ⟨[], [], [], 0, 0, Tags.clear, Tags.clear, 0, Tags.clear, [], [], 0, 0, 0, [], [], 0, 0, false, false, [], [], 0, [], 0, 0⟩

/-! ### The fabric (R113 to R146) -/

/-- One queue: its tokens, oldest first, its epoch, the tokens sent since the epoch began, the credit counter, and whether it
waits for all its credits, as many as its old INIT_CREDIT, after a MARK (R119, R133, R137, R219). -/
structure Queue where
  toks : List Token
  epoch : Nat
  sent : Nat
  credits : Nat
  hold : Option Nat
  deriving DecidableEq, Repr

/-- An empty queue of epoch 0. -/
def Queue.init : Queue := ⟨[], 0, 0, 0, none⟩

/-- One grate: tables keyed TABLE·1024 + INDEX (R145), shadow copies, queues 0 to 12, and the routes that have passed a MARK,
each as 2048·input + mask (R218). -/
structure Grate where
  tab : SMap (BitVec 256)
  shadow : SMap (BitVec 256)
  queues : SMap Queue
  marked : List Nat
  /-- Slot-63 credits of the site that are out, of the injector's 16 (R139): tokens sent that have not left the site's buffer. -/
  cfgOut : Nat
  /-- The core cycle, plus one, in which FAULT_INFO was last captured (R239). -/
  faultCyc : Nat
  deriving DecidableEq, Repr

/-- A grate that holds nothing. -/
def Grate.init : Grate := ⟨[], [], [], [], 0, 0⟩

/-- One edge port (R201): EDGE entries by frame entry, shadow entries, transmit and receive queue, queue words. -/
structure EdgePort where
  edge : SMap Nat
  edgeShadow : SMap Nat
  tx : Queue
  rx : Queue
  txWord : Nat
  rxWord : Nat
  txShadow : Nat
  rxShadow : Nat
  deriving DecidableEq, Repr

/-- An edge port that holds nothing. -/
def EdgePort.init : EdgePort := ⟨[], [], Queue.init, Queue.init, 0, 0, 0, 0⟩

/-- What a delayed effect of the Hearth does when it lands. -/
inductive Act where
  /-- A pass adds its column sums, row sum and side sums into an accumulator set (R79 to R84). -/
  | mac (site acc : Nat) (w4 omac : Bool) (cols : List Int) (row : Int) (side : List Int) (tags : Tags)
  /-- A weight tile or the side buffer is replaced (R84). -/
  | tile (site : Nat) (wsel : Bool) (data : BitVec 8192) (tags : Tags)
  | sideBuf (site : Nat) (data : BitVec 4096) (tags : Tags)
  /-- Scalar registers are written (R95). -/
  | scal (site reg : Nat) (value : W32)
  /-- GEND takes its set (R84); then its results are written through VW1. -/
  | take (site aseg acc gsz dst bundle : Nat) (p0 p1 : BitVec 4096) (tags : Tags)
  | results (site aseg dst : Nat) (lanes : List (BitVec 32)) (tags : Tags)
  /-- A vector instruction's V5 stage has begun, and later writes through VW0 (R85). The RQT entry is the one at issue in a warm
  unit, and none in a hot unit, which reads it now (R187). -/
  | vfive (site : Nat) (vec : BitVec 80) (ctrl : BitVec 16) (x : List (BitVec 32)) (mask : BitVec 128)
      (cmp : Option (BitVec 128)) (tags : Tags) (rq : Option (BitVec 256))
  | vwrite (site dst : Nat) (bytes : List (Option Byte)) (cmp : Option (Nat × BitVec 128 × BitVec 128)) (tags : Tags)
  /-- A received token is written through VW2 (R99). -/
  | recv (site vr blk : Nat) (data : BitVec 512) (tags : Tags)
  /-- A token enters a unit output queue (R99, R103): with depth0 set the queue's word was uncorrectable (R144), and with late set the
  entry has waited for a dequeue of its cycle (R131). -/
  | send (site queue bundle port : Nat) (depth0 : Bool) (tok : Token) (late : Bool)
  /-- An MU access reaches its banks (R103). -/
  | muRead (site ag line bundle issue : Nat) (ecc : WordErrs) (tagBad depth0 : Bool)
  | muWrite (site ag line bundle issue : Nat) (tok : Token)
  /-- A block of a storing burst is read from its banks and goes to HBM (R483). -/
  | xferStore (site ag line bundle addr : Nat) (ecc : WordErrs) (tagBad : Bool)
  /-- A token becomes present at a mesh input of a grate (R122). -/
  | arrive (site input : Nat) (tok : Token)
  /-- A token enters a queue of a grate, or a receiving queue of an edge port, having crossed by an input of a site (R122). -/
  | enqueue (site queue input : Nat) (depth0 : Bool) (tok : Token) (late : Bool)
  | edgeIn (key input site : Nat) (tok : Token) (late : Bool)
  /-- A token that came over a link, and found a crossing port's receive queue full, looks at it again at the end of its cycle (R131). -/
  | linkIn (key : Nat) (warm : Bool) (tok : Token)
  deriving DecidableEq, Repr

/-- A delayed effect and the running Hearth cycle in which it lands. -/
structure Flight where
  due : Nat
  act : Act
  deriving DecidableEq, Repr

/-- A digest point of the loaded image (R336) with its history, newest first (R341). -/
structure DigPoint where
  point : Nat
  region : Nat
  graph : Nat
  depth : Nat
  hist : List (Nat × Nat × BitVec 64)
  deriving DecidableEq, Repr

/-- What the loaded or staged image fixes beyond registers and tables. -/
structure ImgInfo where
  base : Nat
  v : Nat
  h : Nat
  plog : Nat
  d : Nat
  lat : Nat
  span : Nat
  settle : Nat
  compiled : Nat
  v3pad : Nat
  relays : Nat
  reserveMin : Nat
  arith : Nat
  ceilW : Nat
  ceilA : Nat
  encrypted : Bool
  digest : BitVec 256
  /-- Column modes of each virtual course (R198). -/
  grid : List (List Nat)
  /-- Channel entries of INGEST: c, first fibre, fibres minus 1, format; and the virtual courses of its ports (R489). -/
  channels : List (Nat × Nat × Nat × Nat)
  ports : List Nat
  /-- TRIGGER entries: TRG offset and value (R276). -/
  trigger : List (Nat × Nat)
  graphs : List GraphEnt
  points : List DigPoint
  cross : List Binding
  footprint : Option (List Byte)
  /-- UNIT_CFG.PLEN of each virtual site, and E_c of each capture channel. -/
  plens : List Nat
  caps : List Nat
  deriving DecidableEq, Repr

/-- The load in progress (R207 to R209): the tag of its descriptor, the pass (1 and 3 the first and second pass, 2 a FULL load
that waits for the halt), the descriptor, the placement record, and what the first pass found. -/
structure Load where
  tag : Nat
  full : Bool
  pass : Nat
  desc : List Byte
  place : List Byte
  info : Option ImgInfo
  deriving DecidableEq, Repr

/-- A SWAP_EPOCH in progress (R213 to R221). -/
structure Swap where
  tag : Nat
  k : Nat
  startTick : Nat
  marksSent : Bool
  hotDone : Bool
  warmDone : Bool
  deriving DecidableEq, Repr

/-- A scan that SCAN_OUT has written (R228, R229): the contents of each block before any sealing, the frozen Hearth state that they stand for, with
the running cycle of the halt and the ticks that it came after T0. The layout of the contents after each block's header is specific
to the stepping. -/
structure ScanRec where
  contents : List (List Byte)
  units : SMap HUnit
  grates : SMap Grate
  edges : SMap EdgePort
  present : List (Nat × Nat × Token)
  flights : List Flight
  credits : List (Nat × Nat)
  hcyc : Nat
  ran : Nat
  deriving DecidableEq, Repr, Inhabited

/-- The Hearth with its loader. -/
structure Hearth where
  units : SMap HUnit
  grates : SMap Grate
  /-- Edge ports by 32·kind + index: kind 0 ingest, 1 TRG and ACQ, 2 and 3 Stoker west and east, 4 crossing; the index of
  kinds 0 to 3 is the physical course. -/
  edges : SMap EdgePort
  /-- Tokens present at mesh inputs in this cycle: site, input, token (R121). -/
  present : List (Nat × Nat × Token)
  flights : List Flight
  /-- MU accesses that hold banks in this cycle: site, bank, and the issue cycle and AG of the holder (R108). -/
  banks : List (Nat × Nat × Nat × Nat)
  /-- Register bytes written in this cycle: site, register, port rank (R91). -/
  vwrites : List (Nat × Nat × Nat × List Bool)
  img : Option ImgInfo
  staged : Option ImgInfo
  load : Option Load
  swap : Option Swap
  /-- T0 of each epoch, by its number, modulo 2^58 as a tick index is (R151, R214). -/
  t0s : SMap Nat
  /-- A halt takes effect at this tick; a release at this tick (R226, R227). -/
  haltAt : Option Nat
  runAt : Option Nat
  /-- A FULL load whose release is pending, by descriptor tag (R208). -/
  runTag : Option Nat
  /-- FRC at the last halt, as FRC counts now: an FRC load moves it (R226, R256, R294). -/
  haltFrc : Nat
  /-- Halts that have ended: FRC at the halt and at the release, as FRC counts now, newest first, at most 16 (R256, R294). -/
  halts : List (Nat × Nat)
  scans : List ScanRec
  /-- The swap gap: release ticks gapFrom to gapTo − 1 (R215). -/
  gapFrom : Nat
  gapTo : Nat
  /-- The twin digest of the last tick with a take, and that tick plus one (R340). -/
  twinCrc : BitVec 64
  twinTick : Nat
  /-- Queue histograms of the sampler, 16 bins each, the tick of the first sample, and the ticks sampled (R141). -/
  hist : List (List Nat)
  histFrom : Nat
  histTicks : Nat
  /-- Credits on their way back: sender key, and the running cycle in which they are due (R133). -/
  credits : List (Nat × Nat)
  /-- Entries that SCAN_REQ has made ready as scan data, oldest first: site, TARGET, TABLE and INDEX (R139, R223). -/
  scanReady : List (Nat × Nat × Nat × Nat)
  /-- The last token that the scan collector of each course has taken (R139). -/
  collected : SMap (BitVec 512)
  /-- The digest points of the last image that was unloaded: its warm histories stay until a RUN of their graph starts (R341). -/
  pastPoints : List DigPoint
  deriving DecidableEq, Repr

/-! ### The whole device -/

/-- The reasons a step can stop with a fault: none. Every fault of the device is an effect on its own state (an Ashpit source,
a status bit, poison), so no command raises one here. Safe. -/
inductive Fault where
  deriving DecidableEq, Repr

/-- The reasons a command can be refused a meaning. -/
inductive Refusal where
  /-- Raised by exec for a command that has no meaning yet, by its mnemonic. Safe: nothing can be proved about it. -/
  | notModelled (mnemonic : String)
  deriving DecidableEq, Repr

/-- The state of the device. -/
structure State where
  part : Part
  /-- Commands that wait, first in, first out. -/
  pending : List Instr
  /-- FRC (R6). -/
  frc : W64
  /-- Core cycles that have passed, and those in which the Hearth ran: the clocks of the model's own timers. -/
  cyc : Nat
  hcyc : Nat
  /-- Register words by BAR0 offset; an unlisted word holds its reset value (R16). -/
  regs : SMap W32
  /-- Captured high words of 64-bit pairs, by the offset of the high word (R12). -/
  hiCap : SMap (Option W32)
  /-- The response to the last read, and whether it was Unsupported Request (R435). -/
  readData : W64
  readUr : Bool
  /-- The last configuration request was answered with Request Retry Status (R441). -/
  readRetry : Bool
  /-- The last BAR2 read's bytes and its EP bit (R372). -/
  bar2Data : List Byte
  bar2Ep : Bool
  /-- Status bits the device set in this cycle, and counts it added in this cycle, by offset (R14, R15). -/
  setNow : SMap W32
  incNow : SMap (Nat × Nat)
  /-- How many free values have been drawn: a field of the model's own (R19). -/
  freeIx : Nat
  hostMem : SMap Byte
  mem : Mem
  ing : Ing
  stk : Stk
  flt : Flt
  sec : Sec
  pcie : Pcie
  pwr : Pwr
  trg : Trg
  pools : SMap Pool
  chm : SMap ChmPort
  tim : Tim
  zl : Zl
  hearth : Hearth
  deriving DecidableEq, Repr
/-- The part the model starts with (log entry 3): grade -A, stepping B0, physical course 24 disabled, and each Damper constant
at the least value of its range (R455). Nothing in the model depends on which part this is. -/
def Part.reset : Part := ⟨.a, .b0, 0x1000000, 0x00A00070, 0x00200018, 0x01E00140, 0, 0⟩

/-- HBM right after power-on: every byte 0 with check bits 0 (R385). -/
def Mem.reset : Mem := ⟨[], [], [], [], [], [], [], [], [], [], [], false⟩

/-- Ingest after reset. GRP_EN is all ones. -/
def Ing.reset : Ing := ⟨[], 0xFFFFFFFF, false, 0, 0, 0, [], [], 0, 0, [], 0, 0, 0, 0, none, [], [], []⟩

/-- The Stoker after reset. -/
def Stk.reset : Stk := ⟨[], [], [], [], 15, [], false⟩

/-- The Ashpit before its release. -/
def Flt.cold : Flt := ⟨[], [], none, none, false, false, [], 0, [], [], [], [], 0⟩

/-- The Ashpit when the core is released (R397): it collects, and its pin follows HOLD. -/
def Flt.reset : Flt := { Flt.cold with released := true }

/-- The Firebox of a part with unprogrammed fuses and an erased boot flash, with nothing running (log entry 4). -/
def Sec.cold : Sec :=
  ⟨0, 0, 0, false, false, 0, 0, 0, 0, [], false, 0, 0, false, false, false, false, 0, 0, false, false, none, 0, [], 0, false, none, []⟩

/-- The Firebox when the core is released: firmware runs and has signalled release, and tree 0 is being regenerated
(R412, R417, R447; log entry 4). -/
def Sec.reset : Sec := { Sec.cold with running := true, signalled := true }

/-- The PCI Express function after reset: no link, BAR2 of 1 GiB, every vector masked (log entry 4). -/
def Pcie.reset : Pcie := ⟨[], 0, false, false, [], 0, [], none, false, false, false, 0, none⟩

/-- Supplies and optics before core release. -/
def Pwr.cold : Pwr := ⟨true, none, [], [], 0, false, 0, [], [], false, 0, 0, none, 0, 0⟩

/-- Supplies and optics when the core is released: HBM is filled. -/
def Pwr.reset : Pwr := { Pwr.cold with hbmLost := false, released := true }

/-- TRG after reset. -/
def Trg.reset : Trg := ⟨[], [], [], [], none, [], 0, [], [], none, [], []⟩

/-- TIM after reset. -/
def Tim.reset : Tim := ⟨[], none, none⟩

/-- Links and twin after reset. -/
def Zl.reset : Zl := ⟨[], [], [], [], false, false, 0, false, false⟩

/-- The Hearth after reset: nothing loaded, halted. -/
def Hearth.reset : Hearth :=
  ⟨[], [], [], [], [], [], [], none, none, none, none, [], none, none, none, 0, [], [], 0, 0, 0, 0, [], 0, 0, [], [], [], []⟩

/-- The device at the start of a power-on reset (R449): nothing runs, and every register holds its reset value. -/
def State.cold (p : Part) : State where
  part := p
  pending := []
  frc := 0
  cyc := 0
  hcyc := 0
  regs := []
  hiCap := []
  readData := 0
  readUr := false
  readRetry := false
  bar2Data := []
  bar2Ep := false
  setNow := []
  incNow := []
  freeIx := 0
  hostMem := []
  mem := Mem.reset
  ing := Ing.reset
  stk := Stk.reset
  flt := Flt.cold
  sec := Sec.cold
  pcie := Pcie.reset
  pwr := Pwr.cold
  trg := Trg.reset
  pools := []
  chm := []
  tim := Tim.reset
  zl := Zl.reset
  hearth := Hearth.reset

/-- The device right after reset: the cycle of core release after power-on (R447; log entry 13). FRC reads 0, the Hearth is
halted, every register holds the value of its map but for what the power-up sequence has brought about: every rail is within
tolerance, every PLL locked, and the fill done. -/
def State.reset : State :=
  { State.cold Part.reset with
    regs := [(pwrRails, 0x1FFF), (pwrPllStatus, 0x1FFFFF), (memStatus, 2)]
    flt := Flt.reset
    sec := Sec.reset
    pcie := { Pcie.reset with ready := true, drs := 1 }
    pwr := Pwr.reset }

end Sys2Proof.Machine
end

