-- ==== Sys2Proof/Machine/Arith.lean ====
section
/-!
DEFINITION. Numbers of the vector pipelines, the group scaler and the quantiser (R87, R88, R167 to R186, R485): exact values,
the rounding functions of R172, the operations of the stages, and RQT entries.
-/
namespace Sys2Proof.Machine

/-! ### Exact values -/

/-- A value: NaN, an infinity, or m·2^e with a sign, zeros keeping theirs. -/
inductive Fp where
  | nan
  | inf (neg : Bool)
  | fin (neg : Bool) (m : Nat) (e : Int)
  deriving DecidableEq, Repr

/-- The value of an encoding with a significand of p bits and 8 exponent bits: FP32 for p = 24, BF16 for p = 8. A subnormal
reads as a zero of its sign (R87). -/
def Fp.read (p v : Nat) : Fp :=
  let neg := v.testBit (p + 7)
  let ex := bitsAt v (p - 1) 8
  let fr := bitsAt v 0 (p - 1)
  if ex = 255 then (if fr = 0 then .inf neg else .nan)
  else if ex = 0 then .fin neg 0 0
  else .fin neg (2 ^ (p - 1) + fr) ((ex : Int) - 126 - p)

/-- Rounding to nearest even of m/d to p bits, the exponent unbounded: q and k with the result q·2^k (R172). -/
def rneSig (p m d : Nat) : Nat × Int :=
  let scale (k : Int) : Nat × Nat := (m * 2 ^ (-k).toNat, d * 2 ^ k.toNat)
  let k0 : Int := (Nat.log2 m : Int) - Nat.log2 d - p + 1
  let a := scale k0
  let k := if a.1 < a.2 * 2 ^ (p - 1) then k0 - 1 else k0
  let b := scale k
  let q := b.1 / b.2
  let r := b.1 % b.2
  (if b.2 < 2 * r ∨ (b.2 = 2 * r ∧ q % 2 = 1) then q + 1 else q, k)

/-- RNE32 (p = 24) and RNE16 (p = 8) of the magnitude m/d·2^e with a sign (R172). -/
def rneBits (p : Nat) (neg : Bool) (m d : Nat) (e : Int) : Nat :=
  let sgn := if neg then 2 ^ (p + 7) else 0
  if m = 0 ∨ d = 0 then sgn
  else
    let r := rneSig p m d
    let q := if r.1 = 2 ^ p then 2 ^ (p - 1) else r.1
    let k := if r.1 = 2 ^ p then r.2 + 1 else r.2
    let ex := k + e + p + 126
    if ex ≥ 255 then sgn + 255 * 2 ^ (p - 1)
    else if ex ≤ 0 then sgn
    else sgn + ex.toNat * 2 ^ (p - 1) + (q - 2 ^ (p - 1))

/-- The encoding of a value after one rounding; every NaN is the one of R87. -/
def Fp.write (p : Nat) : Fp → Nat
  | .nan => 0x1FF * 2 ^ (p - 2)
  | .inf neg => (if neg then 2 ^ (p + 7) else 0) + 255 * 2 ^ (p - 1)
  | .fin neg m e => rneBits p neg m 1 e

/-- An integer as a value. -/
def Fp.ofInt (x : Int) : Fp := .fin (decide (x < 0)) x.natAbs 0

/-- The exact product. -/
def Fp.mul : Fp → Fp → Fp
  | .nan, _ => .nan
  | _, .nan => .nan
  | .inf a, .inf b => .inf (a != b)
  | .inf a, .fin b m _ => if m = 0 then .nan else .inf (a != b)
  | .fin a m _, .inf b => if m = 0 then .nan else .inf (a != b)
  | .fin a m e, .fin b n f => .fin (a != b) (m * n) (e + f)

/-- The exact sum; a sum of zero from unlike signs is +0. -/
def Fp.add : Fp → Fp → Fp
  | .nan, _ => .nan
  | _, .nan => .nan
  | .inf a, .inf b => if a = b then .inf a else .nan
  | .inf a, .fin _ _ _ => .inf a
  | .fin _ _ _, .inf b => .inf b
  | .fin a m e, .fin b n f =>
    if m = 0 ∧ n = 0 then .fin (a && b) 0 0
    else
      let g := min e f
      let x : Int := m * 2 ^ (e - g).toNat
      let y : Int := n * 2 ^ (f - g).toNat
      let z := (if a then -x else x) + (if b then -y else y)
      .fin (decide (z < 0)) z.natAbs g

/-- The sign inverted. -/
def Fp.neg : Fp → Fp
  | .nan => .nan
  | .inf a => .inf (!a)
  | .fin a m e => .fin (!a) m e

/-- The sign cleared. -/
def Fp.abs : Fp → Fp
  | .nan => .nan
  | .inf _ => .inf false
  | .fin _ m e => .fin false m e

/-- The integer nearest to a magnitude m/d, ties to even. -/
def rneNat (m d : Nat) : Nat :=
  let q := m / d
  let r := m % d
  if d < 2 * r ∨ (d = 2 * r ∧ q % 2 = 1) then q + 1 else q

/-- F2I and F2I32: to INT32, nearest even, saturating; NaN gives 0 (R85). -/
def Fp.toInt32 : Fp → Int
  | .nan => 0
  | .inf neg => if neg then -2147483648 else 2147483647
  | .fin neg m e =>
    let n : Int := rneNat (m * 2 ^ e.toNat) (2 ^ (-e).toNat)
    clampInt (-2147483648) 2147483647 (if neg then -n else n)

/-- A key that orders values: infinities, then the exact value scaled by 2^149. The sign of a zero counts for `zs` only. -/
def Fp.key (zs : Bool) : Fp → Int × Int
  | .nan => (0, 0)
  | .inf neg => (if neg then -1 else 1, 0)
  | .fin neg m e =>
    let x : Int := m * 2 ^ (e + 150).toNat
    (0, if m = 0 then (if neg && zs then -1 else 0) else (if neg then -x else x))

/-- A key at or below another. -/
def keyLe (a b : Int × Int) : Bool := decide (a.1 < b.1 ∨ (a.1 = b.1 ∧ a.2 ≤ b.2))

/-- FMAX and FMIN on FP32 bits (R485). -/
def fMax (x y : Nat) : Nat :=
  let a := Fp.read 24 x
  let b := Fp.read 24 y
  if a = .nan ∨ b = .nan then Fp.write 24 .nan
  else (if keyLe (b.key true) (a.key true) then a else b).write 24
def fMin (x y : Nat) : Nat :=
  let a := Fp.read 24 x
  let b := Fp.read 24 y
  if a = .nan ∨ b = .nan then Fp.write 24 .nan
  else (if keyLe (a.key true) (b.key true) then a else b).write 24

/-- FP32 sum and product of bits (R87). -/
def fAdd (x y : Nat) : Nat := ((Fp.read 24 x).add (Fp.read 24 y)).write 24
def fMul (x y : Nat) : Nat := ((Fp.read 24 x).mul (Fp.read 24 y)).write 24

/-- The fused product and sum, one rounding. -/
def fFma (x y z : Nat) : Nat := (((Fp.read 24 x).mul (Fp.read 24 y)).add (Fp.read 24 z)).write 24

/-- An operation on both BF16 halves of words. -/
def halves (f : Nat → Nat → Nat → Nat) (x y z : Nat) : Nat :=
  f (bitsAt x 0 16) (bitsAt y 0 16) (bitsAt z 0 16) + 2 ^ 16 * f (bitsAt x 16 16) (bitsAt y 16 16) (bitsAt z 16 16)

/-- BMUL and BFMA (R85). -/
def bMul (x y : Nat) : Nat := halves (fun a b _ => ((Fp.read 8 a).mul (Fp.read 8 b)).write 8) x y 0
def bFma (x y z : Nat) : Nat :=
  halves (fun a b c => (((Fp.read 8 a).mul (Fp.read 8 b)).add (Fp.read 8 c)).write 8) x y z

/-- x < c and x = c on FP32 bits; false with a NaN. -/
def fLt (x y : Nat) : Bool :=
  let a := Fp.read 24 x
  let b := Fp.read 24 y
  a != .nan && b != .nan && !keyLe (b.key false) (a.key false)
def fEq (x y : Nat) : Bool :=
  let a := Fp.read 24 x
  let b := Fp.read 24 y
  a != .nan && b != .nan && keyLe (b.key false) (a.key false) && keyLe (a.key false) (b.key false)

/-! ### Conversions (R170, R171) -/

/-- UNPE4M3 and UNPE5M2 of a byte, exactly. -/
def ofE4M3 (b : Nat) : Nat :=
  let neg := b.testBit 7
  let ex := bitsAt b 3 4
  let fr := bitsAt b 0 3
  if ex = 15 ∧ fr = 7 then Fp.write 24 .nan
  else if ex = 0 then rneBits 24 neg fr 1 (-9) else rneBits 24 neg (8 + fr) 1 ((ex : Int) - 10)
def ofE5M2 (b : Nat) : Nat :=
  let neg := b.testBit 7
  let ex := bitsAt b 2 5
  let fr := bitsAt b 0 2
  if ex = 31 then (if fr = 0 then .inf neg else Fp.nan).write 24
  else if ex = 0 then rneBits 24 neg fr 1 (-16) else rneBits 24 neg (4 + fr) 1 ((ex : Int) - 17)

/-! ### Special functions (R88, R89) -/

/-- A value is at least a/b (b > 0); NaN is not. -/
def Fp.atLeast (v : Fp) (a : Int) (b : Nat) : Bool :=
  match v with
  | .nan => false
  | .inf neg => !neg
  | .fin neg m e =>
    let x : Int := m * 2 ^ e.toNat
    let x := if neg then -x else x
    decide (a * 2 ^ (-e).toNat ≤ x * b)

/-! The bounds of the special-function table. Exact values stand as integers in units of 2^-256. The functions below
give those values to within less than 2^-69 of their last place in FP32, and so much is added to each bound. -/

/-- The unit: 1.0. -/
def fixOne : Int := 2 ^ 256

/-- The product and the quotient of values. -/
def fixMul (a b : Int) : Int := a * b / fixOne
def fixDiv (a b : Int) : Int := a * fixOne / b

/-- A finite FP32 encoding as a value; a subnormal is a zero. -/
def fixOf (v : Nat) : Int :=
  let ex := bitsAt v 23 8
  let m : Int := if ex = 0 then 0 else (2 ^ 23 + bitsAt v 0 23) * 2 ^ (ex + 106)
  if v.testBit 31 then -m else m

/-- e^t by its series, n terms, the first with divisor k. -/
def expSeries (t : Int) : Nat → Nat → Int
  | 0, _ => fixOne
  | n + 1, k => fixOne + fixMul t (expSeries t n (k + 1)) / k

/-- artanh(z)/z by its series in z², n terms, the first with divisor k. -/
def atanhSeries (q : Int) : Nat → Nat → Int
  | 0, _ => 0
  | n + 1, k => fixOne / k + fixMul q (atanhSeries q n (k + 2))

/-- The natural logarithm of a value from 1 to 2, and that of 2. -/
def fixLn (m : Int) : Int :=
  let z := fixDiv (m - fixOne) (m + fixOne)
  2 * fixMul z (atanhSeries (fixMul z z) 90 1)
def fixLn2 : Int := fixLn (2 * fixOne)

/-- 2^x. -/
def fixExp2 (x : Int) : Int :=
  let k := x / fixOne
  let e := expSeries (fixMul (x - k * fixOne) fixLn2) 64 1
  if 0 ≤ k then e * 2 ^ k.toNat else e / 2 ^ (-k).toNat

/-- e^x. -/
def fixExp (x : Int) : Int := fixExp2 (fixDiv x fixLn2)

/-- log2 x of a positive value. -/
def fixLog2 (x : Int) : Int :=
  let e : Int := (Nat.log2 x.toNat : Int) - 256
  let m := if 0 ≤ e then x / 2 ^ e.toNat else x * 2 ^ (-e).toNat
  e * fixOne + fixDiv (fixLn m) fixLn2

/-- The exact value of a V3 function of a finite operand; RSQRT to 75 bits and more, rounded down. -/
def fixSpecial (op : Nat) (x : Int) : Int :=
  if op = 1 then fixExp2 x
  else if op = 2 then fixLog2 x
  else if op = 3 then fixDiv fixOne x
  else if op = 4 then (Nat.sqrt (2 ^ 768 / x.toNat) : Nat)
  else if op = 5 then fixDiv fixOne (fixOne + fixExp (-x))
  else
    let e := fixExp (2 * (x.natAbs : Int))
    let t := fixDiv (e - fixOne) (e + fixOne)
    if x < 0 then -t else t

/-- The greatest error that the table allows a V3 function of an operand with an exact value; an ulp is that of the binade of the exact
value (DESIGN CHOICE, log entry 40). -/
def specialBound (op : Nat) (x y : Int) : Int :=
  let ulp : Int := 2 ^ (Nat.log2 y.natAbs - 23)
  let b : Int := if op = 1 then 2 * ulp
    else if op = 2 then if 3 * fixOne ≤ 4 * x ∧ 2 * x ≤ 3 * fixOne then 2 ^ 234 else 2 * ulp
    else if op = 5 then 2 ^ 233
    else if op = 6 then if fixOne ≤ 16 * (x.natAbs : Int) then 3 * ulp else 2 ^ 229
    else ulp
  b + ulp / 2 ^ 70 + 2 ^ 40

/-- A value that a V3 function may have by the bounds of the table: a zero or a normal number whose error keeps its bound. -/
def specialOk (op x v : Nat) : Bool :=
  let y := fixSpecial op (fixOf x)
  let ex := bitsAt v 23 8
  ex != 255 && (ex != 0 || bitsAt v 0 23 == 0)
    && decide (((fixOf v - y).natAbs : Int) ≤ specialBound op (fixOf x) y)

/-- The map of a V3 function where no fixed case holds: the free map of Config where it keeps the bounds, and elsewhere the rounded
exact value. Every map within the bounds is one of these, and no other is (R89; log entry 40). -/
def specialMap (op x : Nat) : Nat :=
  let v := (Config.special op (BitVec.ofNat 32 x)).toNat
  let y := fixSpecial op (fixOf x)
  if specialOk op x v then v else rneBits 24 (decide (y < 0)) y.natAbs 1 (-256)

/-- A V3 function, 1 to 6: the fixed cases of the special-function table, and else the map of the arithmetic revision, which
spec/ binds by its bounds alone (R89). -/
def special (op x : Nat) : Nat :=
  let v := Fp.read 24 x
  let inf := Fp.write 24 (.inf false)
  let ninf := Fp.write 24 (.inf true)
  let nan := Fp.write 24 .nan
  let one := 0x3F800000
  let map := specialMap op (v.write 24)
  let neg := x.testBit 31
  let zero := match v with | .fin _ 0 _ => true | _ => false
  if v = .nan then nan
  else if op = 1 then
    if v.atLeast 128 1 then inf else if !v.atLeast (-126) 1 then 0 else map
  else if op = 2 then
    if zero then ninf else if neg then nan else if v = .inf false then inf else map
  else if op = 3 then
    if zero then (if neg then ninf else inf)
    else if v.abs.atLeast (2 ^ 126) 1 && v.abs != .fin false (2 ^ 23) 103 then (if neg then 2 ^ 31 else 0) else map
  else if op = 4 then
    if zero then (if neg then ninf else inf) else if neg then nan else if v = .inf false then 0 else map
  else if op = 5 then
    if v.atLeast 17 1 then one else if !v.neg.atLeast 88 1 then map else 0
  else if v.abs.atLeast 91 10 then (if neg then 2 ^ 31 + one else one)
  else map

/-! ### The vector instruction (R85, R88, R90, R92) -/

/-- The fields of a vector slot. -/
structure Vec where
  v0 : Nat
  v1 : Nat
  v2 : Nat
  v3 : Nat
  v4 : Nat
  v5 : Nat
  srcA : Nat
  srcB : Nat
  srcC : Nat
  dst : Nat
  mask : Nat
  mdst : Nat
  scb : Bool
  perm : Nat
  qp : Nat
  qseg : Nat
  deriving DecidableEq, Repr

/-- The slot's fields by the VEC table. -/
def Vec.ofBits (w : BitVec 80) : Vec :=
  let g := bitsAt w.toNat
  ⟨g 75 4, g 72 3, g 69 3, g 65 4, g 61 4, g 58 3, g 49 9, g 40 9, g 31 9, g 22 9, g 19 3, g 16 3, w.toNat.testBit 15,
    g 10 5, g 5 5, g 3 2⟩

/-- Register B and register C are read by a stage (R92). -/
def Vec.usesB (f : Vec) : Bool :=
  !f.scb && (decide (f.v0 ∈ [1, 2, 3, 8, 9]) || decide (f.v1 ∈ [1, 2, 3]) || decide (f.v2 ∈ [2, 3]))
def Vec.usesC (f : Vec) : Bool := decide (f.v2 ≠ 0) || decide (f.v3 ∈ [7, 8, 9])

/-- A register's lanes: 128 words of 32 bits, lane i in bytes 4i to 4i + 3. -/
abbrev Lanes := List (BitVec 32)

/-- The lanes as one string of 4,096 bits, lane 0 lowest. -/
def lanesNat : Lanes → Nat
  | [] => 0
  | x :: xs => x.toNat + 2 ^ 32 * lanesNat xs

/-- A function on lane values. -/
def mapL (f : Nat → Nat) (xs : Lanes) : Lanes := xs.map fun x => BitVec.ofNat 32 (f x.toNat)

/-- A function on pairs of lane values. -/
def zipL (f : Nat → Nat → Nat) (xs ys : Lanes) : Lanes := List.zipWith (fun x y => BitVec.ofNat 32 (f x.toNat y.toNat)) xs ys

/-- V0. -/
def stageV0 (op : Nat) (a b : Lanes) (o : Nat) : Lanes :=
  let str := lanesNat a + 2 ^ 4096 * lanesNat b
  let unp (w : Nat) : Lanes :=
    (List.range 128).map fun i => BitVec.ofNat 32 ((Fp.ofInt (bitsAt str (o + w * i) w)).write 24)
  if op = 1 then unp 8 else if op = 2 then unp 12 else if op = 3 then unp 16
  else if op = 4 then mapL (fun x => (Fp.ofInt (sint 32 x)).write 24) a
  else if op = 5 then mapL (fun x => unsint 32 (Fp.read 24 x).toInt32) a
  else if op = 6 then mapL (fun x => (Fp.read 8 (bitsAt x 0 16)).write 24) a
  else if op = 7 then mapL (fun x => (Fp.read 8 (bitsAt x 16 16)).write 24) a
  else if op = 8 then (List.range 128).map fun i => BitVec.ofNat 32 (ofE4M3 (bitsAt str (o + 8 * i) 8))
  else if op = 9 then (List.range 128).map fun i => BitVec.ofNat 32 (ofE5M2 (bitsAt str (o + 8 * i) 8))
  else a

/-- V1; `int` marks lanes that V0 made integers. -/
def stageV1 (op : Nat) (int : Bool) (x b : Lanes) : Lanes :=
  if op = 1 then zipL fMul x b
  else if op = 2 then zipL bMul x b
  else if op = 3 then zipL (fun p q => p * q) x b
  else if op = 4 then
    mapL (fun p => if int then (sint 32 p).natAbs else (Fp.read 24 p).abs.write 24) x
  else if op = 5 then
    mapL (fun p => if int then unsint 32 (-(sint 32 p)) else (Fp.read 24 p).neg.write 24) x
  else x

/-- V2. FFMA and BFMA take the value that V0 delivered, which V1 has passed. -/
def stageV2 (op : Nat) (x b c : Lanes) : Lanes :=
  if op = 1 then zipL fAdd x c
  else if op = 2 then List.zipWith (fun p (q : BitVec 32 × BitVec 32) => BitVec.ofNat 32 (fFma p.toNat q.1.toNat q.2.toNat)) x (b.zip c)
  else if op = 3 then List.zipWith (fun p (q : BitVec 32 × BitVec 32) => BitVec.ofNat 32 (bFma p.toNat q.1.toNat q.2.toNat)) x (b.zip c)
  else if op = 4 then List.zipWith (· + ·) x c
  else if op = 5 then List.zipWith (· - ·) x c
  else if op = 6 then zipL fMax x c
  else if op = 7 then zipL fMin x c
  else x

/-- V3: the lanes, and the mask of a comparison. -/
def stageV3 (op : Nat) (x c : Lanes) (mask : BitVec 128) : Lanes × Option (BitVec 128) :=
  let cmp (f : Nat → Nat → Bool) : BitVec 128 :=
    BitVec.ofNat 128 (ofBitsLsb (List.zipWith (fun p q => f p.toNat q.toNat) x c))
  if 1 ≤ op ∧ op ≤ 6 then (mapL (special op) x, none)
  else if op = 7 then ((x.zip c).zipIdx.map fun e => if mask.toNat.testBit e.2 then e.1.1 else e.1.2, none)
  else if op = 8 then (x, some (cmp fLt))
  else if op = 9 then (x, some (cmp fEq))
  else (x, none)

/-- One level of the tree of R88: neighbours combined. -/
def treeLevel (f : Nat → Nat → Nat) : List Nat → List Nat
  | x :: y :: t => f x y :: treeLevel f t
  | t => t

/-- k levels. -/
def treeLevels (f : Nat → Nat → Nat) : Nat → List Nat → List Nat
  | 0, xs => xs
  | k + 1, xs => treeLevels f k (treeLevel f xs)

/-- A reduction of k levels: results at lanes 2^k·j, and 0 elsewhere. -/
def reduceL (f : Nat → Nat → Nat) (k : Nat) (x : Lanes) : Lanes :=
  let r := treeLevels f k (x.map BitVec.toNat)
  (List.range 128).map fun i => BitVec.ofNat 32 (if i % 2 ^ k = 0 then listGet 0 r (i / 2 ^ k) else 0)

/-- V4. -/
def stageV4 (op : Nat) (x : Lanes) (perm : Nat → Nat) (rot : Nat) : Lanes :=
  if op = 1 then reduceL fAdd 7 x
  else if op = 2 then reduceL fMax 7 x
  else if op = 3 then reduceL fMax 7 (mapL (fun p => (Fp.read 24 p).abs.write 24) x)
  else if op = 4 then reduceL fAdd 5 x
  else if op = 5 then (List.range 128).map fun i => listGet 0 x (perm i % 128)
  else if op = 6 then (List.range 128).map fun i => listGet 0 x ((i + rot) % 128)
  else x

/-- V0 to V4: register values, scalars by number, the permute table entry and the mask; the value at V5's input and the mask
of a comparison. -/
def vecFront (f : Vec) (a b c : Lanes) (scal : Nat → W32) (perm : Nat → Nat) (mask : BitVec 128) :
    Lanes × Option (BitVec 128) :=
  let b := if f.scb then List.replicate 128 (scal (f.srcB % 32)) else b
  let sv := (scal (f.srcC % 32)).toNat
  let x0 := stageV0 f.v0 a b (sv % 8192)
  let x1 := stageV1 f.v1 (f.v0 == 5) x0 b
  let x2 := stageV2 f.v2 x1 b c
  let r := stageV3 f.v3 x2 c mask
  (stageV4 f.v4 r.1 perm (sv % 128), r.2)

/-! ### RQT entries (R179 to R192) -/

/-- The fields of an RQT entry. -/
structure Rq where
  sc : List Nat
  zp : List Nat
  head : Nat
  span : Nat
  clamp : Nat
  tie : Nat
  adapt : Bool
  pub : Nat
  deriving DecidableEq, Repr

/-- The entry's fields by the RQT table. -/
def Rq.ofBits (w : BitVec 256) : Rq :=
  let g := bitsAt w.toNat
  ⟨[g 0 16, g 16 16, g 32 16, g 48 16], [g 64 8, g 72 8, g 80 8, g 88 8], g 96 16, g 112 8, g 120 4, g 124 2,
    w.toNat.testBit 126, g 128 5⟩

/-- The entry with its scales replaced. -/
def rqSetScales (w : BitVec 256) (sc : List Nat) : BitVec 256 :=
  BitVec.ofNat 256 (bitsAt w.toNat 64 192 * 2 ^ 64 + listGet 0 sc 0 % 2 ^ 16 + listGet 0 sc 1 % 2 ^ 16 * 2 ^ 16
    + listGet 0 sc 2 % 2 ^ 16 * 2 ^ 32 + listGet 0 sc 3 % 2 ^ 16 * 2 ^ 48)

/-- A positive normal BF16 (R169). -/
def bfNormal (v : Nat) : Bool := decide (0x0080 ≤ v ∧ v ≤ 0x7F7F)

/-- An entry that R192 refuses. -/
def rqBad (w : BitVec 256) : Bool :=
  let e := Rq.ofBits w
  bitsAt w.toNat 133 123 != 0 || w.toNat.testBit 127 || !e.sc.all bfNormal || !bfNormal e.head || e.span == 0
    || e.clamp == 0 || decide (8 < e.clamp) || e.tie == 3

/-- The quarters that TIE joins with quarter k (R181). -/
def tieGroup (tie k : Nat) : List Nat :=
  if tie = 0 then [k] else if tie = 1 then (if k < 2 then [0, 1] else [2, 3]) else [0, 1, 2, 3]

/-- The groups of an entry, each by its lowest quarter. -/
def tieHeads (tie : Nat) : List Nat := if tie = 0 then [0, 1, 2, 3] else if tie = 1 then [0, 2] else [0]

/-- RNA of m/d with a sign (R172). -/
def rnaInt (neg : Bool) (m d : Nat) : Int :=
  let n : Int := (2 * m + d) / (2 * d)
  if neg then -n else n

/-- QNT8 of one lane: the code, whether it saturated, and whether x is finite and not zero (R179 to R181). -/
def qnt8 (x s z : Nat) : Nat × Bool × Bool :=
  let code (n : Int) : Nat × Bool := ((clampInt 0 255 (n + z)).toNat, decide (n + z < 0 ∨ 255 < n + z))
  match Fp.read 24 x with
  | .nan => (z, true, false)
  | .inf neg => (if neg then 0 else 255, true, false)
  | .fin neg m e =>
    if m = 0 then (z, false, false)
    else
      let n := match Fp.read 8 s with
        | .fin false (k + 1) f => rnaInt neg (m * 2 ^ (e - f).toNat) ((k + 1) * 2 ^ (f - e).toNat)
        | _ => Config.openQuotient x s
      let r := code n
      (r.1, r.2, true)

/-- The effect of QNT8 on a register: the 128 codes, and the counts of SAT and UFL under a mask (R181). -/
def qnt8All (e : Rq) (x : Lanes) (mask : BitVec 128) : List Nat × Nat × Nat :=
  let rs := x.zipIdx.map fun l => qnt8 l.1.toNat (listGet 0 e.sc (l.2 / 32)) (listGet 0 e.zp (l.2 / 32))
  let on (i : Nat) : Bool := mask.toNat.testBit i
  let sat := (rs.zipIdx.filter fun r => on r.2 && r.1.2.1).length
  let fell (k : Nat) : Bool :=
    let mine := rs.zipIdx.filter fun r => on r.2 && decide (r.2 / 32 ∈ tieGroup e.tie k)
    !mine.isEmpty && mine.all (fun r => r.1.1 == listGet 0 e.zp (r.2 / 32)) && mine.any fun r => r.1.2.2
  (rs.map Prod.fst, sat, ((tieHeads e.tie).filter fell).length)

/-- V5's result for one lane under operations other than QNT8. -/
def stageV5 (op x : Nat) : Nat :=
  if op = 2 then (Fp.read 24 x).write 8 else if op = 3 then unsint 32 (Fp.read 24 x).toInt32 else x

/-- The bytes that V5 writes: none where a byte keeps its value (R85, R90). -/
def vecBytes (f : Vec) (e : Rq) (x : Lanes) (mask : BitVec 128) : List (Option Byte) :=
  let on (i : Nat) : Bool := mask.toNat.testBit i
  if f.v5 = 1 then
    let codes := (qnt8All e x mask).1
    (List.range 512).map fun j =>
      let i := j - 128 * f.qseg
      if 128 * f.qseg ≤ j ∧ i < 128 ∧ on i = true then some (BitVec.ofNat 8 (listGet 0 codes i)) else none
  else
    x.zipIdx.flatMap fun l =>
      if on l.2 then (leBytes 4 (stageV5 f.v5 l.1.toNat)).map some else [none, none, none, none]

/-- One window fed with the lanes at V5's input under a mask (R183): |x| by its bits, which order positive numbers. -/
def Win.feed (w : Win) (x : Lanes) (mask : BitVec 128) : Win :=
  let one (w : Win) (l : BitVec 32 × Nat) : Win :=
    match Fp.read 24 l.1.toNat with
    | .nan => w
    | v =>
      if mask.toNat.testBit l.2 then
        let k := l.2 / 32
        { w with q := listSet w.q k (max (listGet 0 w.q k) (v.abs.write 24)), fed := listSet w.fed k true }
      else w
  x.zipIdx.foldl one w

/-- The new scale of a quarter at the close of a window, with HELD and CLAMPED (R186, AMX_FLAGS). With a = +∞ no target t exists, and
whether the clamp has limited the change is not said: the model sets CLAMPED (DESIGN CHOICE, log entry 91). -/
def adaptQuarter (e : Rq) (w : Win) (k : Nat) : Nat × Bool × Bool :=
  let g := tieGroup e.tie k
  let s := listGet 0 e.sc k
  let a := (g.map fun j => listGet 0 w.q j).foldl max 0
  let fed := g.any fun j => listGet false w.fed j
  let lo := max (s - 128 * e.clamp) 0x0080
  let hi := min (s + 128 * e.clamp) 0x7F7F
  if a = 0 ∨ fed = false then (s, true, false)
  else
    match (Fp.read 24 a).mul (Fp.read 8 e.head) with
    | .fin _ m x =>
      let t := min (max (rneBits 8 false m e.span x) 0x0080) 0x7F7F
      let v := min (max t lo) hi
      (v, false, decide (v ≠ t))
    | _ => (hi, false, true)

/-! ### The group scaler (R173 to R176) -/

/-- A 16-bit field of a register given as bytes. -/
def u16At (bs : List Byte) (i : Nat) : Nat := (listGet 0 bs i).toNat + 256 * (listGet 0 bs (i + 1)).toNat

/-- The group result of column c. -/
def groupResult (a : Acc) (p0 p1 : List Byte) (c : Nat) : Nat :=
  let sa := Fp.read 8 (u16At p1 128)
  let za : Int := (listGet 0 p1 130).toNat
  let zw : Int := (listGet 0 p0 (256 + c)).toNat
  let i : Int := listGet 0 a.cols c - zw * a.row - za * u16At p0 (128 + 2 * c) + 32 * a.passes * za * zw
  let prod := ((Fp.ofInt i).mul sa).mul (Fp.read 8 (u16At p0 (2 * c)))
  let y := (match prod with
    | .fin n 0 e => if i = 0 then Fp.fin false 0 e else .fin n 0 e
    | v => v).write 24
  if a.omacs = 0 then y
  else fAdd y (((Fp.ofInt (listGet 0 a.side c)).mul (Fp.read 8 (u16At p1 (2 * c)))).write 24)

end Sys2Proof.Machine
end

