-- ==== Sys2Proof/Machine/Sha.lean ====
section
/-!
DEFINITION. SHA-256 (R196, R408: the engine of FIPS 180-4; log entry 6). The eight working words stand in one number, word a at its
top, and so do the sixteen words of the message schedule, the oldest at the top.
-/
namespace Sys2Proof.Machine

/-- The round constants. -/
def shaK : List Nat :=
  [0x428a2f98, 0x71374491, 0xb5c0fbcf, 0xe9b5dba5, 0x3956c25b, 0x59f111f1, 0x923f82a4, 0xab1c5ed5] ++
  [0xd807aa98, 0x12835b01, 0x243185be, 0x550c7dc3, 0x72be5d74, 0x80deb1fe, 0x9bdc06a7, 0xc19bf174] ++
  [0xe49b69c1, 0xefbe4786, 0x0fc19dc6, 0x240ca1cc, 0x2de92c6f, 0x4a7484aa, 0x5cb0a9dc, 0x76f988da] ++
  [0x983e5152, 0xa831c66d, 0xb00327c8, 0xbf597fc7, 0xc6e00bf3, 0xd5a79147, 0x06ca6351, 0x14292967] ++
  [0x27b70a85, 0x2e1b2138, 0x4d2c6dfc, 0x53380d13, 0x650a7354, 0x766a0abb, 0x81c2c92e, 0x92722c85] ++
  [0xa2bfe8a1, 0xa81a664b, 0xc24b8b70, 0xc76c51a3, 0xd192e819, 0xd6990624, 0xf40e3585, 0x106aa070] ++
  [0x19a4c116, 0x1e376c08, 0x2748774c, 0x34b0bcb5, 0x391c0cb3, 0x4ed8aa4a, 0x5b9cca4f, 0x682e6ff3] ++
  [0x748f82ee, 0x78a5636f, 0x84c87814, 0x8cc70208, 0x90befffa, 0xa4506ceb, 0xbef9a3f7, 0xc67178f2]

/-- The initial hash value. -/
def shaH : Nat := 0x6a09e667bb67ae853c6ef372a54ff53a510e527f9b05688c1f83d9ab5be0cd19

/-- The low 32 bits of a number, the word of 32 bits at a bit, and two copies of a word side by side, for rotations. -/
def shaCut (x : Nat) : Nat := Nat.mod x 4294967296
def shaWord (v lsb : Nat) : Nat := shaCut (Nat.shiftRight v lsb)
def shaTwice (x : Nat) : Nat := Nat.mul x 4294967297

/-- The exclusive or of three numbers. -/
def xor3 (x y z : Nat) : Nat := Nat.xor (Nat.xor x y) z

/-- The small and large sigma functions: rotations right, the small ones with a shift as their third part. -/
def shaS0 (x : Nat) : Nat := shaCut (xor3 (Nat.shiftRight (shaTwice x) 7) (Nat.shiftRight (shaTwice x) 18) (Nat.shiftRight x 3))
def shaS1 (x : Nat) : Nat := shaCut (xor3 (Nat.shiftRight (shaTwice x) 17) (Nat.shiftRight (shaTwice x) 19) (Nat.shiftRight x 10))
def shaRotations (x i j k : Nat) : Nat :=
  shaCut (xor3 (Nat.shiftRight (shaTwice x) i) (Nat.shiftRight (shaTwice x) j) (Nat.shiftRight (shaTwice x) k))
def shaB0 (x : Nat) : Nat := shaRotations x 2 13 22
def shaB1 (x : Nat) : Nat := shaRotations x 6 11 25

/-- Choice and majority. -/
def shaCh (e f g : Nat) : Nat := Nat.xor (Nat.land e (Nat.xor f g)) g
def shaMaj (a b c : Nat) : Nat := Nat.xor (Nat.land a b) (Nat.land c (Nat.xor a b))

/-- The working words after a round whose first temporary is t1 and second is t2. -/
def shaTurn (v t1 t2 : Nat) : Nat :=
  Nat.lor (Nat.shiftLeft (shaCut (Nat.add t1 t2)) 224)
    (Nat.lor (Nat.shiftLeft (Nat.mod (Nat.shiftRight v 160) 79228162514264337593543950336) 128)
      (Nat.lor (Nat.shiftLeft (shaCut (Nat.add (shaWord v 128) t1)) 96)
        (Nat.mod (Nat.shiftRight v 32) 79228162514264337593543950336)))

/-- One round on the working words v with the schedule w and a round constant. -/
def shaRound (v w k : Nat) : Nat :=
  shaTurn v
    (Nat.add (Nat.add (Nat.add (shaWord v 0) (shaB1 (shaWord v 96))) (shaCh (shaWord v 96) (shaWord v 64) (shaWord v 32)))
      (Nat.add k (shaWord w 480)))
    (Nat.add (shaB0 (shaWord v 224)) (shaMaj (shaWord v 224) (shaWord v 192) (shaWord v 160)))

/-- The schedule moved on by one word. -/
def shaSchedule (w : Nat) : Nat :=
  Nat.add (Nat.shiftLeft (Nat.mod w (2 ^ 480)) 32)
    (shaCut (Nat.add (Nat.add (shaS1 (shaWord w 32)) (shaWord w 192)) (Nat.add (shaS0 (shaWord w 448)) (shaWord w 480))))

/-- Rounds with a list of constants. -/
def shaRounds : List Nat → Nat → Nat → Nat
  | [], v, _ => v
  | k :: ks, v, w => shaRounds ks (shaRound v w k) (shaSchedule w)

/-- Sums of n words, word by word. -/
def shaSum : Nat → Nat → Nat → Nat
  | 0, _, _ => 0
  | n + 1, x, y => Nat.add (shaCut (Nat.add x y)) (Nat.mul 4294967296 (shaSum n (Nat.shiftRight x 32) (Nat.shiftRight y 32)))

/-- The hash value after one block of 64 bytes, read as a number. -/
def shaBlock (h m : Nat) : Nat := shaSum 8 h (shaRounds shaK h m)

/-- n blocks of a padded message. -/
def shaBlocks : Nat → Nat → List Byte → Nat
  | 0, h, _ => h
  | n + 1, h, bs => shaBlocks n (shaBlock h (ofBe (bs.take 64))) (bs.drop 64)

/-- A message padded to whole blocks of 64 bytes. -/
def shaPad (bs : List Byte) : List Byte :=
  bs ++ [0x80] ++ List.replicate ((119 - bs.length % 64) % 64) 0 ++ beBytes 8 (8 * bs.length)

/-- SHA-256 of a byte string: 32 bytes. -/
def sha256 (bs : List Byte) : List Byte :=
  let p := shaPad bs
  beBytes 32 (shaBlocks (p.length / 64) shaH p)

/-- A digest as a number whose byte 0 is the digest's first byte (R10). -/
def sha256N (bs : List Byte) : BitVec 256 := BitVec.ofNat 256 (ofLe (sha256 bs))

end Sys2Proof.Machine
end

