-- ==== Sys2Proof/Machine/Hss.lean ====
section
/-!
DEFINITION. HMAC-SHA-256 (R412), the device's own two-level HSS signature (R414), and the verification of an HSS signature under RFC 8554 with the parameters that R411 admits:
L from 1 to 4, LMS_SHA256_M32_H5 to H25 and LMOTS_SHA256_N32_W1 to W8. Integers are big-endian in these formats.
-/
namespace Sys2Proof.Machine

/-- HMAC-SHA-256 for a key of at most 64 bytes. -/
def hmac256 (key msg : List Byte) : List Byte :=
  let k := (key ++ List.replicate 64 0).take 64
  sha256 (k.map (· ^^^ 0x5C) ++ sha256 (k.map (· ^^^ 0x36) ++ msg))

/-! ### LM-OTS (RFC 8554, section 4) -/

/-- What an LM-OTS typecode fixes: the Winternitz width w, the number p of chains, and the checksum's left shift. -/
structure OtsParams where
  w : Nat
  p : Nat
  ls : Nat
  deriving DecidableEq, Repr

/-- LMOTS_SHA256_N32_W1 to W8. -/
def otsParams (t : Nat) : Option OtsParams :=
  match t with
  | 1 => some ⟨1, 265, 7⟩
  | 2 => some ⟨2, 133, 6⟩
  | 3 => some ⟨4, 67, 4⟩
  | 4 => some ⟨8, 34, 0⟩
  | _ => none

/-- The height of LMS_SHA256_M32_H5 to H25. -/
def lmsHeight (t : Nat) : Option Nat := if 5 ≤ t ∧ t ≤ 9 then some (5 * (t - 4)) else none

/-- The digits of width w of a byte string, most significant first. -/
def digits (w : Nat) (bs : List Byte) : List Nat :=
  bs.flatMap fun b => (List.range (8 / w)).map fun i => bitsAt b.toNat (8 - w * (i + 1)) w

/-- The checksum of an LM-OTS digest's digits. -/
def otsChecksum (o : OtsParams) (ds : List Nat) : Nat := ((ds.map fun d => 2 ^ o.w - 1 - d).sum <<< o.ls) % 65536

/-- A chain carried on for n further steps from step j. -/
def otsChain (pre : List Byte) : Nat → Nat → List Byte → List Byte
  | 0, _, x => x
  | n + 1, j, x => otsChain pre n (j + 1) (sha256 (pre ++ beBytes 1 j ++ x))

/-- The ends of the chains that a signature's values start, in order. -/
def otsEnds (o : OtsParams) (id : List Byte) : Nat → List Nat → List Byte → List Byte
  | _, [], _ => []
  | i, d :: ds, y => otsChain (id ++ beBytes 2 i) (2 ^ o.w - 1 - d) d (y.take 32) ++ otsEnds o id (i + 1) ds (y.drop 32)

/-- The public key that an LM-OTS signature gives for a message: identifier and leaf, randomiser, chain values. -/
def otsCandidate (o : OtsParams) (id c y msg : List Byte) : List Byte :=
  let ds := digits o.w (sha256 (id ++ beBytes 2 0x8181 ++ c ++ msg))
  let all := (ds ++ digits o.w (beBytes 2 (otsChecksum o ds))).take o.p
  sha256 (id ++ beBytes 2 0x8080 ++ otsEnds o id 0 all y)

/-! ### Signing (RFC 8554, with LMS_SHA256_M32_H10 and LMOTS_SHA256_N32_W4; R414) -/

/-- The values that LM-OTS signing reveals: each chain as far as its digit says. -/
def otsValues (id : List Byte) (x : Nat → BitVec 256) : Nat → List Nat → List Byte
  | _, [] => []
  | i, d :: ds => otsChain (id ++ beBytes 2 i) d 0 (leBytes 32 (x i).toNat) ++ otsValues id x (i + 1) ds

/-- A tree of height 10 as its holder has it: its identifier, the private value of each leaf's chains, and each leaf's randomiser. -/
structure LmsKey where
  ident : BitVec 128
  secret : Nat → Nat → BitVec 256
  random : Nat → BitVec 256

/-- The identifier's bytes. -/
def LmsKey.id (k : LmsKey) : List Byte := leBytes 16 k.ident.toNat

/-- The LM-OTS public key of leaf q. -/
def LmsKey.otsPublic (k : LmsKey) (q : Nat) : List Byte :=
  sha256 (k.id ++ beBytes 4 q ++ beBytes 2 0x8080 ++ (List.range 67).flatMap fun i =>
    otsChain (k.id ++ beBytes 4 q ++ beBytes 2 i) 15 0 (leBytes 32 (k.secret q i).toNat))

/-- Node r of the tree, d levels above the leaves; leaf q is node 1,024 + q. -/
def LmsKey.node (k : LmsKey) : Nat → Nat → List Byte
  | 0, r => sha256 (k.id ++ beBytes 4 r ++ beBytes 2 0x8282 ++ k.otsPublic (r - 1024))
  | d + 1, r => sha256 (k.id ++ beBytes 4 r ++ beBytes 2 0x8383 ++ k.node d (2 * r) ++ k.node d (2 * r + 1))

/-- The LMS public key: types, identifier and root. -/
def LmsKey.public (k : LmsKey) : List Byte := beBytes 4 6 ++ beBytes 4 3 ++ k.id ++ k.node 10 1

/-- The LMS signature of a message by leaf q: 2,508 bytes. -/
def LmsKey.sign (k : LmsKey) (q : Nat) (msg : List Byte) : List Byte :=
  let id := k.id ++ beBytes 4 q
  let c := leBytes 32 (k.random q).toNat
  let ds := digits 4 (sha256 (id ++ beBytes 2 0x8181 ++ c ++ msg))
  let all := (ds ++ digits 4 (beBytes 2 (otsChecksum ⟨4, 67, 4⟩ ds))).take 67
  beBytes 4 q ++ beBytes 4 3 ++ c ++ otsValues id (k.secret q) 0 all ++ beBytes 4 6
    ++ (List.range 10).flatMap fun d => k.node d (((1024 + q) / 2 ^ d) ^^^ 1)

/-- The two-level HSS signature with global leaf 1,024·b + j: the top tree's leaf b signs the public key of a bottom tree, whose leaf j
signs the message: 5,076 bytes. -/
def hssSign (top bottom : LmsKey) (q : Nat) (msg : List Byte) : List Byte :=
  beBytes 4 1 ++ top.sign (q / 1024) bottom.public ++ bottom.public ++ bottom.sign (q % 1024) msg

/-! ### LMS and HSS (RFC 8554, sections 5 and 6) -/

/-- The root that a node's value and its path up the tree give. -/
def lmsClimb (id : List Byte) : Nat → Nat → List Byte → List Byte → List Byte
  | 0, _, x, _ => x
  | h + 1, node, x, path =>
    let sib := path.take 32
    let pre := id ++ beBytes 4 (node / 2) ++ beBytes 2 0x8383
    lmsClimb id h (node / 2) (sha256 (if node % 2 = 1 then pre ++ sib ++ x else pre ++ x ++ sib)) (path.drop 32)

/-- The length of the LMS signature at the front of a byte string, where its typecodes are admitted ones. -/
def lmsSigLength (sig : List Byte) : Option Nat :=
  match otsParams (ofBe ((sig.drop 4).take 4)) with
  | none => none
  | some o =>
    match lmsHeight (ofBe ((sig.drop (40 + 32 * o.p)).take 4)) with
    | none => none
    | some h => some (44 + 32 * o.p + 32 * h)

/-- An LMS signature verifies a message under a 56-byte LMS public key. -/
def lmsVerify (pub msg sig : List Byte) : Bool :=
  let lt := ofBe (pub.take 4)
  let ot := ofBe ((pub.drop 4).take 4)
  match otsParams ot, lmsHeight lt with
  | some o, some h =>
    let q := ofBe (sig.take 4)
    let ident := (pub.drop 8).take 16
    let id := ident ++ beBytes 4 q
    let y := sig.drop 40
    let tail := y.drop (32 * o.p)
    decide (pub.length = 56 ∧ sig.length = 44 + 32 * o.p + 32 * h ∧ q < 2 ^ h)
      && ofBe ((sig.drop 4).take 4) == ot && ofBe (tail.take 4) == lt
      && (let kc := otsCandidate o id ((sig.drop 8).take 32) y msg
          let leaf := sha256 (ident ++ beBytes 4 (2 ^ h + q) ++ beBytes 2 0x8282 ++ kc)
          lmsClimb ident h (2 ^ h + q) leaf (tail.drop 4) == pub.drop 24)
  | _, _ => false

/-- The levels of an HSS signature below a public key: n signed public keys, and then the signature of the message. -/
def hssLevels : Nat → List Byte → List Byte → List Byte → Bool
  | 0, pub, msg, sig => lmsVerify pub msg sig
  | n + 1, pub, msg, sig =>
    match lmsSigLength sig with
    | none => false
    | some k =>
      let next := (sig.drop k).take 56
      lmsVerify pub next (sig.take k) && hssLevels n next msg (sig.drop (k + 56))

/-- An HSS signature verifies a message under a 60-byte HSS public key (R411). The typecodes of every level are admitted ones. -/
def hssVerify (pub msg sig : List Byte) : Bool :=
  let l := ofBe (pub.take 4)
  decide (1 ≤ l ∧ l ≤ 4) && ofBe (sig.take 4) + 1 == l && hssLevels (l - 1) (pub.drop 4) msg (sig.drop 4)

end Sys2Proof.Machine
end

