-- ==== Sys2Proof/Machine/Kem.lean ====
section
/-!
DEFINITION. ML-KEM-1024 (R408, R421, R422: the engine of FIPS 203), with the functions of FIPS 202 that it uses. Polynomials are lists of
256 coefficients below 3329.
-/
namespace Sys2Proof.Machine

/-! ### Keccak, SHA-3 and SHAKE (FIPS 202) -/

/-- The constants of the 24 rounds. -/
def keccakRc : List W64 :=
  [0x0000000000000001, 0x0000000000008082, 0x800000000000808A, 0x8000000080008000, 0x000000000000808B, 0x0000000080000001] ++
  [0x8000000080008081, 0x8000000000008009, 0x000000000000008A, 0x0000000000000088, 0x0000000080008009, 0x000000008000000A] ++
  [0x000000008000808B, 0x800000000000008B, 0x8000000000008089, 0x8000000000008003, 0x8000000000008002, 0x8000000000000080] ++
  [0x000000000000800A, 0x800000008000000A, 0x8000000080008081, 0x8000000000008080, 0x0000000080000001, 0x8000000080008008]

/-- The rotations of the lanes, lane x + 5y at place x + 5y. -/
def keccakRot : List Nat :=
  [0, 1, 62, 28, 27] ++ [36, 44, 6, 55, 20] ++ [3, 10, 43, 25, 39] ++ [41, 45, 15, 21, 8] ++ [18, 2, 61, 56, 14]

/-- One round on 25 lanes: theta, rho with pi, chi, iota. -/
def keccakRound (a : List W64) (rc : W64) : List W64 :=
  let lane (l : List W64) (i : Nat) : W64 := listGet 0 l i
  let c := (List.range 5).map fun x => lane a x ^^^ lane a (x + 5) ^^^ lane a (x + 10) ^^^ lane a (x + 15) ^^^ lane a (x + 20)
  let d := (List.range 5).map fun x => lane c ((x + 4) % 5) ^^^ (lane c ((x + 1) % 5)).rotateLeft 1
  let t := (List.range 25).map fun i => (lane a i ^^^ lane d (i % 5)).rotateLeft (listGet 0 keccakRot i)
  let b := (List.range 25).map fun i =>
    let x := i % 5
    let y := i / 5
    lane t ((x + 3 * y) % 5 + 5 * x)
  (List.range 25).map fun i =>
    let x := i % 5
    let y := 5 * (i / 5)
    lane b i ^^^ (~~~ (lane b (y + (x + 1) % 5)) &&& lane b (y + (x + 2) % 5)) ^^^ (if i = 0 then rc else 0)

/-- The permutation Keccak-f[1600]. -/
def keccakF (a : List W64) : List W64 := keccakRc.foldl keccakRound a

/-- n lanes of a byte string. -/
def lanesOf : Nat → List Byte → List W64
  | 0, _ => []
  | n + 1, bs => BitVec.ofNat 64 (ofLe (bs.take 8)) :: lanesOf n (bs.drop 8)

/-- n blocks of `rate` bytes absorbed. -/
def keccakAbsorb (rate : Nat) : Nat → List W64 → List Byte → List W64
  | 0, a, _ => a
  | n + 1, a, bs =>
    keccakAbsorb rate n (keccakF (List.zipWith (· ^^^ ·) a (lanesOf 25 (bs.take rate)))) (bs.drop rate)

/-- n blocks of `rate` bytes squeezed. -/
def keccakSqueeze (rate : Nat) : Nat → List W64 → List Byte
  | 0, _ => []
  | n + 1, a => (a.flatMap fun l => leBytes 8 l.toNat).take rate ++ keccakSqueeze rate n (keccakF a)

/-- A sponge with a rate in bytes and a domain byte: n bytes of output. -/
def sponge (rate domain : Nat) (msg : List Byte) (n : Nat) : List Byte :=
  let k := rate - 1 - msg.length % rate
  let pad : List Byte := if k = 0 then leBytes 1 (domain + 0x80) else leBytes 1 domain ++ List.replicate (k - 1) 0 ++ [0x80]
  let p := msg ++ pad
  (keccakSqueeze rate ((n + rate - 1) / rate) (keccakAbsorb rate (p.length / rate) (List.replicate 25 0) p)).take n

def sha3d256 (m : List Byte) : List Byte := sponge 136 0x06 m 32
def sha3d512 (m : List Byte) : List Byte := sponge 72 0x06 m 64
def shake128 (m : List Byte) (n : Nat) : List Byte := sponge 168 0x1F m n
def shake256 (m : List Byte) (n : Nat) : List Byte := sponge 136 0x1F m n

/-! ### Polynomials (FIPS 203, sections 4.2 and 4.3) -/

def kemQ : Nat := 3329

/-- A number to a power modulo q. -/
def powQ (b : Nat) : Nat → Nat
  | 0 => 1
  | n + 1 => b * powQ b n % kemQ

/-- The seven low bits of a number in reverse. -/
def bitRev7 (i : Nat) : Nat := ((List.range 7).map fun k => bitsAt i k 1 * 2 ^ (6 - k)).sum

/-- ζ to the reversed bits of an index, ζ = 17. -/
def kemZeta (i : Nat) : Nat := powQ 17 (bitRev7 i)

def polyPlus (f g : List Nat) : List Nat := List.zipWith (fun a b => (a + b) % kemQ) f g
def polyMinus (f g : List Nat) : List Nat := List.zipWith (fun a b => (a + kemQ - b) % kemQ) f g
def polyTimes (z : Nat) (f : List Nat) : List Nat := f.map fun a => z * a % kemQ

/-- The transform of a block of 2^(d+1) coefficients with ζ index k. -/
def nttBlock : Nat → Nat → List Nat → List Nat
  | 0, _, f => f
  | d + 1, k, f =>
    let lo := f.take (2 ^ (d + 1))
    let t := polyTimes (kemZeta k) (f.drop (2 ^ (d + 1)))
    nttBlock d (2 * k) (polyPlus lo t) ++ nttBlock d (2 * k + 1) (polyMinus lo t)

/-- NTT. -/
def ntt (f : List Nat) : List Nat := nttBlock 7 1 f

/-- The inverse transform of a block of 2^(d+1) values; k numbers the block as in the transform, b is the number of blocks at its level. -/
def invBlock : Nat → Nat → Nat → List Nat → List Nat
  | 0, _, _, f => f
  | d + 1, k, b, f =>
    let lo := invBlock d (2 * k) (2 * b) (f.take (2 ^ (d + 1)))
    let hi := invBlock d (2 * k + 1) (2 * b) (f.drop (2 ^ (d + 1)))
    polyPlus lo hi ++ polyTimes (kemZeta (3 * b - 1 - k)) (polyMinus hi lo)

/-- The inverse NTT. -/
def invNtt (f : List Nat) : List Nat := polyTimes 3303 (invBlock 7 1 1 f)

/-- The product of two transforms, pair by pair from pair i on. -/
def mulPairs : Nat → List Nat → List Nat → List Nat
  | i, a0 :: a1 :: as, b0 :: b1 :: bs =>
    let g := powQ 17 (2 * bitRev7 i + 1)
    ((a0 * b0 + a1 * b1 % kemQ * g) % kemQ) :: ((a0 * b1 + a1 * b0) % kemQ) :: mulPairs (i + 1) as bs
  | _, _, _ => []

/-- The sum of products of two vectors of transforms. -/
def dotNtt : List (List Nat) → List (List Nat) → List Nat
  | a :: as, b :: bs => polyPlus (mulPairs 0 a b) (dotNtt as bs)
  | _, _ => List.replicate 256 0

/-! ### Bytes, compression and sampling (FIPS 203, section 4.2) -/

/-- n numbers of d bits from a byte string. -/
def byteDecode (d n : Nat) (bs : List Byte) : List Nat :=
  let v := ofLe bs
  (List.range n).map fun i => if d = 12 then bitsAt v (12 * i) 12 % kemQ else bitsAt v (d * i) d

/-- The bytes of a list of numbers of d bits. -/
def byteEncode (d : Nat) (f : List Nat) : List Byte := leBytes (d * f.length / 8) (f.foldr (fun x v => x + 2 ^ d * v) 0)

def compress (d x : Nat) : Nat := (2 ^ d * x + kemQ / 2) / kemQ % 2 ^ d
def decompress (d y : Nat) : Nat := (kemQ * y + 2 ^ (d - 1)) / 2 ^ d

/-- The coefficients that three-byte groups of a stream give, where they lie below q. -/
def sampleGroups : List Byte → List Nat
  | c0 :: c1 :: c2 :: cs =>
    let d1 := c0.toNat + 256 * (c1.toNat % 16)
    let d2 := c1.toNat / 16 + 16 * c2.toNat
    (if d1 < kemQ then [d1] else []) ++ (if d2 < kemQ then [d2] else []) ++ sampleGroups cs
  | _ => []

/-- SampleNTT, with the 280 groups that FIPS 203 names as a limit. -/
def sampleNtt (seed : List Byte) : List Nat := ((sampleGroups (shake128 seed 840)) ++ List.replicate 256 0).take 256

/-- SamplePolyCBD for η = 2 from 128 bytes. -/
def sampleCbd (bs : List Byte) : List Nat :=
  let v := ofLe bs
  (List.range 256).map fun i =>
    (bitsAt v (4 * i) 1 + bitsAt v (4 * i + 1) 1 + kemQ - bitsAt v (4 * i + 2) 1 - bitsAt v (4 * i + 3) 1) % kemQ

/-- k polynomials sampled from a seed, with nonces from n on. -/
def kemNoise (seed : List Byte) (k n : Nat) : List (List Nat) :=
  (List.range k).map fun i => sampleCbd (shake256 (seed ++ leBytes 1 (n + i)) 128)

/-- The matrix that a seed gives: entry (i, j), or (j, i) where it is transposed. -/
def kemMatrix (rho : List Byte) (transposed : Bool) : List (List (List Nat)) :=
  (List.range 4).map fun i => (List.range 4).map fun j =>
    sampleNtt (rho ++ (if transposed then leBytes 1 i ++ leBytes 1 j else leBytes 1 j ++ leBytes 1 i))

/-- k pieces of n bytes. -/
def pieces (k n : Nat) (bs : List Byte) : List (List Byte) := (List.range k).map fun i => (bs.drop (n * i)).take n

/-! ### ML-KEM-1024 (FIPS 203, sections 5 and 6) -/

/-- A key pair: the encapsulation key and the decapsulation key. -/
structure KemKeys where
  ek : List Byte
  dk : List Byte
  deriving DecidableEq, Repr

/-- ML-KEM.KeyGen_internal. -/
def kemKeyGen (d z : List Byte) : KemKeys :=
  let g := sha3d512 (d ++ [4])
  let rho := g.take 32
  let s := (kemNoise (g.drop 32) 4 0).map ntt
  let e := (kemNoise (g.drop 32) 4 4).map ntt
  let t := List.zipWith polyPlus ((kemMatrix rho false).map fun row => dotNtt row s) e
  let ek := (t.flatMap (byteEncode 12)) ++ rho
  ⟨ek, s.flatMap (byteEncode 12) ++ ek ++ sha3d256 ek ++ z⟩

/-- K-PKE.Encrypt. -/
def kemEncrypt (ek m r : List Byte) : List Byte :=
  let t := (pieces 4 384 ek).map (byteDecode 12 256)
  let y := (kemNoise r 4 0).map ntt
  let e1 := kemNoise r 4 4
  let e2 := sampleCbd (shake256 (r ++ [8]) 128)
  let u := List.zipWith polyPlus ((kemMatrix (ek.drop 1536) true).map fun row => invNtt (dotNtt row y)) e1
  let mu := (byteDecode 1 256 m).map (decompress 1)
  let v := polyPlus (polyPlus (invNtt (dotNtt t y)) e2) mu
  (u.flatMap fun f => byteEncode 11 (f.map (compress 11))) ++ byteEncode 5 (v.map (compress 5))

/-- K-PKE.Decrypt. -/
def kemDecrypt (dk c : List Byte) : List Byte :=
  let u := (pieces 4 352 c).map fun b => ntt ((byteDecode 11 256 b).map (decompress 11))
  let v := (byteDecode 5 256 (c.drop 1408)).map (decompress 5)
  let s := (pieces 4 384 dk).map (byteDecode 12 256)
  byteEncode 1 ((polyMinus v (invNtt (dotNtt s u))).map (compress 1))

/-- ML-KEM.Decaps_internal: the shared secret, which implicit rejection draws from the ciphertext where it is not one for this key. -/
def kemDecaps (k : KemKeys) (c : List Byte) : List Byte :=
  let m := kemDecrypt k.dk c
  let g := sha3d512 (m ++ sha3d256 k.ek)
  if kemEncrypt k.ek m (g.drop 32) = c then g.take 32 else shake256 (k.dk.drop 3136 ++ c) 32

end Sys2Proof.Machine
end

