-- ==== Sys2Proof/Machine/RegTable.lean ====
section
/-!
DEFINITION. The register table: for every register of spec/ its place, its copies and its fields with access code and reset
value (R13, R16), transcribed block by block from the register maps.
-/
namespace Sys2Proof.Machine

/-- The GLB register map. -/
def regRowsGlb : List RegRow := [
  ⟨0x0, 4, 1, 0x0, 1, 0x0, [⟨16, 16, .ro, 18482⟩, ⟨8, 8, .ro, 0⟩, ⟨4, 4, .ro, 0⟩]⟩,
  ⟨0x4, 4, 1, 0x0, 1, 0x0, [⟨10, 5, .ro, 0⟩, ⟨7, 3, .ro, 0⟩, ⟨6, 1, .ro, 0⟩, ⟨4, 1, .w1c, 0⟩, ⟨3, 1, .w1c, 0⟩, ⟨2, 1, .ro, 0⟩, ⟨1, 1, .ro, 0⟩, ⟨0, 1, .ro, 0⟩]⟩,
  ⟨0x200, 4, 1, 0x0, 1, 0x0, [⟨31, 1, .ro, 0⟩, ⟨20, 4, .ro, 0⟩, ⟨13, 5, .ro, 0⟩, ⟨8, 5, .ro, 0⟩, ⟨0, 3, .ro, 0⟩]⟩,
  ⟨0x204, 4, 1, 0x0, 1, 0x0, [⟨20, 10, .ro, 0⟩, ⟨16, 4, .ro, 0⟩, ⟨0, 10, .ro, 0⟩]⟩,
  ⟨0x208, 8, 1, 0x0, 1, 0x0, [⟨0, 58, .ro, 0⟩]⟩,
  ⟨0x210, 4, 1, 0x0, 1, 0x0, [⟨27, 5, .ro, 0⟩, ⟨24, 2, .ro, 0⟩, ⟨16, 8, .ro, 255⟩, ⟨8, 8, .ro, 0⟩, ⟨0, 8, .ro, 0⟩]⟩,
  ⟨0x220, 4, 1, 0x0, 1, 0x0, [⟨20, 4, .ro, 0⟩, ⟨16, 4, .ro, 0⟩, ⟨8, 1, .ro, 0⟩, ⟨7, 1, .ro, 0⟩, ⟨6, 1, .ro, 0⟩, ⟨5, 1, .ro, 0⟩, ⟨4, 1, .ro, 0⟩, ⟨0, 1, .ro, 1⟩]⟩,
  ⟨0x224, 4, 1, 0x0, 1, 0x0, [⟨8, 8, .ro, 255⟩, ⟨0, 8, .ro, 0⟩]⟩,
  ⟨0x228, 4, 1, 0x0, 1, 0x0, [⟨9, 9, .ro, 511⟩, ⟨0, 9, .ro, 511⟩]⟩,
  ⟨0x22c, 4, 1, 0x0, 1, 0x0, [⟨0, 25, .ro, 0⟩]⟩,
  ⟨0x230, 4, 1, 0x0, 1, 0x0, [⟨1, 1, .wo, 0⟩, ⟨0, 1, .wo, 0⟩]⟩,
  ⟨0x234, 4, 1, 0x0, 1, 0x0, [⟨0, 24, .rw, 1048576⟩]⟩,
  ⟨0x238, 8, 1, 0x0, 1, 0x0, [⟨0, 58, .rw, 0⟩]⟩,
  ⟨0x240, 8, 1, 0x0, 1, 0x0, [⟨0, 58, .ro, 0⟩]⟩,
  ⟨0x248, 4, 1, 0x0, 1, 0x0, [⟨4, 16, .ro, 0⟩, ⟨0, 4, .ro, 0⟩]⟩,
  ⟨0x250, 8, 1, 0x0, 1, 0x0, [⟨0, 58, .ro, 0⟩]⟩,
  ⟨0x260, 4, 8, 0x4, 1, 0x0, [⟨0, 32, .ro, 0⟩]⟩,
  ⟨0x280, 4, 8, 0x4, 1, 0x0, [⟨0, 32, .ro, 0⟩]⟩,
  ⟨0x2a0, 4, 1, 0x0, 1, 0x0, [⟨0, 16, .ro, 0⟩]⟩,
  ⟨0x300, 4, 1, 0x0, 1, 0x0, [⟨24, 8, .ro, 0⟩, ⟨16, 5, .ro, 0⟩, ⟨8, 8, .ro, 1⟩]⟩,
  ⟨0x304, 4, 1, 0x0, 1, 0x0, [⟨8, 1, .ro, 0⟩, ⟨0, 8, .ro, 0⟩]⟩,
  ⟨0x308, 4, 1, 0x0, 1, 0x0, [⟨0, 32, .ro, 0⟩]⟩,
  ⟨0x30c, 4, 1, 0x0, 1, 0x0, [⟨0, 25, .ro, 0⟩]⟩,
  ⟨0x310, 8, 1, 0x0, 1, 0x0, [⟨0, 64, .ro, 0⟩]⟩]
/-- The PWR register map. -/
def regRowsPwr : List RegRow := [
  ⟨0x10000, 4, 1, 0x0, 1, 0x0, [⟨2, 1, .ro, 0⟩, ⟨1, 1, .w1c, 0⟩, ⟨0, 1, .w1c, 0⟩]⟩,
  ⟨0x10004, 4, 1, 0x0, 1, 0x0, [⟨0, 1, .wo, 0⟩]⟩,
  ⟨0x10008, 4, 1, 0x0, 1, 0x0, [⟨7, 6, .ro, 0⟩, ⟨0, 7, .ro, 0⟩]⟩,
  ⟨0x1000c, 4, 1, 0x0, 1, 0x0, [⟨15, 6, .ro, 0⟩, ⟨1, 14, .ro, 0⟩, ⟨0, 1, .ro, 0⟩]⟩,
  ⟨0x10010, 4, 1, 0x0, 1, 0x0, [⟨16, 16, .ro, 0⟩, ⟨0, 16, .rs, 0⟩]⟩,
  ⟨0x10014, 4, 1, 0x0, 1, 0x0, [⟨16, 8, .rw, 100⟩, ⟨0, 8, .rs, 0⟩]⟩,
  ⟨0x10018, 4, 1, 0x0, 1, 0x0, [⟨0, 10, .rw, 650⟩]⟩,
  ⟨0x1001c, 4, 1, 0x0, 1, 0x0, [⟨0, 14, .rw, 11520⟩]⟩,
  ⟨0x10020, 4, 1, 0x0, 1, 0x0, [⟨0, 6, .rw, 34⟩]⟩,
  ⟨0x10024, 4, 1, 0x0, 1, 0x0, [⟨16, 10, .ro, 0⟩, ⟨0, 10, .ro, 0⟩]⟩,
  ⟨0x10028, 4, 1, 0x0, 1, 0x0, [⟨16, 16, .ro, 0⟩, ⟨0, 16, .ro, 0⟩]⟩,
  ⟨0x1002c, 4, 1, 0x0, 1, 0x0, [⟨16, 16, .ro, 0⟩, ⟨0, 16, .ro, 0⟩]⟩,
  ⟨0x10030, 4, 1, 0x0, 1, 0x0, [⟨16, 16, .ro, 0⟩, ⟨0, 16, .ro, 0⟩]⟩,
  ⟨0x10034, 4, 1, 0x0, 1, 0x0, [⟨16, 16, .rs, 0⟩, ⟨0, 16, .rs, 0⟩]⟩,
  ⟨0x10038, 4, 1, 0x0, 1, 0x0, [⟨20, 1, .w1c, 0⟩, ⟨14, 6, .w1c, 0⟩, ⟨0, 14, .w1c, 0⟩]⟩,
  ⟨0x1003c, 4, 1, 0x0, 1, 0x0, [⟨0, 32, .rc, 0⟩]⟩,
  ⟨0x10100, 4, 26, 0x4, 1, 0x0, [⟨0, 7, .rs, 0⟩]⟩]
/-- The FLT register map. -/
def regRowsFlt : List RegRow := [
  ⟨0x20000, 4, 1, 0x0, 1, 0x0, [⟨16, 8, .rw, 0⟩, ⟨0, 1, .wo, 0⟩]⟩,
  ⟨0x20004, 4, 1, 0x0, 1, 0x0, [⟨3, 1, .ro, 0⟩, ⟨2, 1, .ro, 0⟩, ⟨1, 1, .ro, 0⟩, ⟨0, 1, .w1c, 0⟩]⟩,
  ⟨0x20008, 4, 1, 0x0, 1, 0x0, [⟨31, 1, .rw, 0⟩, ⟨30, 1, .ro, 0⟩, ⟨0, 8, .rw, 2⟩]⟩,
  ⟨0x2000c, 4, 1, 0x0, 1, 0x0, [⟨1, 1, .wo, 0⟩, ⟨0, 1, .wo, 0⟩]⟩,
  ⟨0x20010, 4, 1, 0x0, 1, 0x0, [⟨31, 1, .ro, 0⟩, ⟨29, 2, .rw, 0⟩, ⟨8, 9, .rw, 0⟩, ⟨0, 8, .rw, 0⟩]⟩,
  ⟨0x20014, 4, 1, 0x0, 1, 0x0, [⟨31, 1, .w1c, 0⟩, ⟨0, 8, .ro, 0⟩]⟩,
  ⟨0x20018, 4, 1, 0x0, 1, 0x0, [⟨16, 16, .rw, 16⟩, ⟨0, 16, .rw, 64⟩]⟩,
  ⟨0x2001c, 4, 1, 0x0, 1, 0x0, [⟨0, 16, .ro, 0⟩]⟩,
  ⟨0x20040, 4, 8, 0x4, 1, 0x0, [⟨0, 32, .w1c, 0⟩]⟩,
  ⟨0x20100, 4, 3, 0x40, 1, 0x0, [⟨31, 1, .w1c, 0⟩, ⟨30, 1, .ro, 0⟩, ⟨0, 8, .ro, 0⟩]⟩,
  ⟨0x20108, 8, 3, 0x40, 1, 0x0, [⟨0, 64, .ro, 0⟩]⟩,
  ⟨0x20110, 4, 3, 0x40, 4, 0x4, [⟨0, 32, .ro, 0⟩]⟩,
  ⟨0x20400, 4, 256, 0x4, 1, 0x0, [⟨30, 2, .ro, 0⟩, ⟨29, 1, .ro, 0⟩, ⟨28, 1, .ro, 0⟩, ⟨27, 1, .ro, 0⟩, ⟨7, 1, .rw, 0⟩, ⟨6, 1, .rw, 0⟩, ⟨5, 1, .rw, 0⟩, ⟨4, 1, .rw, 0⟩, ⟨3, 1, .rw, 0⟩, ⟨2, 1, .rw, 0⟩, ⟨1, 1, .rw, 0⟩, ⟨0, 1, .rw, 1⟩]⟩,
  ⟨0x20800, 4, 256, 0x4, 1, 0x0, [⟨0, 32, .rc, 0⟩]⟩]
/-- The SEC register map. -/
def regRowsSec : List RegRow := [
  ⟨0x30000, 4, 1, 0x0, 1, 0x0, [⟨8, 1, .rw, 0⟩, ⟨0, 8, .rw, 0⟩]⟩,
  ⟨0x30004, 4, 1, 0x0, 1, 0x0, [⟨2, 1, .w1c, 0⟩, ⟨1, 1, .ro, 0⟩, ⟨0, 1, .w1c, 0⟩]⟩,
  ⟨0x30008, 4, 1, 0x0, 1, 0x0, [⟨0, 8, .wo, 0⟩]⟩,
  ⟨0x3000c, 4, 1, 0x0, 1, 0x0, [⟨0, 8, .ro, 0⟩]⟩,
  ⟨0x30010, 8, 1, 0x0, 1, 0x0, [⟨0, 64, .rw, 0⟩]⟩,
  ⟨0x30018, 4, 1, 0x0, 1, 0x0, [⟨0, 16, .rw, 0⟩]⟩,
  ⟨0x3001c, 4, 1, 0x0, 1, 0x0, [⟨30, 2, .ro, 0⟩, ⟨27, 3, .ro, 0⟩, ⟨24, 3, .ro, 0⟩, ⟨10, 11, .ro, 0⟩, ⟨0, 10, .ro, 0⟩]⟩]
/-- The TIM register map, part 0. -/
def regRowsTim0 : List RegRow := [
  ⟨0x40000, 4, 1, 0x0, 1, 0x0, [⟨1, 1, .wo, 0⟩, ⟨0, 1, .wo, 0⟩]⟩,
  ⟨0x40004, 4, 1, 0x0, 1, 0x0, [⟨0, 1, .w1c, 0⟩]⟩,
  ⟨0x40008, 4, 1, 0x0, 1, 0x0, [⟨0, 32, .rw, 0⟩]⟩,
  ⟨0x40010, 8, 1, 0x0, 1, 0x0, [⟨0, 64, .rw, 0⟩]⟩,
  ⟨0x40018, 4, 3, 0x4, 1, 0x0, [⟨0, 32, .rw, 0⟩]⟩,
  ⟨0x40028, 8, 1, 0x0, 1, 0x0, [⟨0, 64, .ro, 0⟩]⟩,
  ⟨0x40030, 4, 3, 0x4, 1, 0x0, [⟨0, 32, .ro, 0⟩]⟩,
  ⟨0x40040, 8, 1, 0x0, 1, 0x0, [⟨0, 64, .ro, 0⟩]⟩,
  ⟨0x40048, 4, 3, 0x4, 1, 0x0, [⟨0, 32, .ro, 0⟩]⟩,
  ⟨0x40058, 8, 1, 0x0, 1, 0x0, [⟨0, 64, .rw, 0⟩]⟩,
  ⟨0x40060, 4, 3, 0x4, 1, 0x0, [⟨0, 32, .ro, 0⟩]⟩,
  ⟨0x40070, 4, 4, 0x4, 1, 0x0, [⟨0, 32, .rw, 0⟩]⟩,
  ⟨0x40080, 4, 1, 0x0, 1, 0x0, [⟨3, 1, .rw, 0⟩, ⟨2, 1, .rw, 0⟩, ⟨1, 1, .rw, 0⟩, ⟨0, 1, .wo, 0⟩]⟩,
  ⟨0x40084, 4, 1, 0x0, 1, 0x0, [⟨31, 1, .w1c, 0⟩, ⟨30, 1, .w1c, 0⟩, ⟨29, 1, .w1c, 0⟩, ⟨28, 1, .w1c, 0⟩, ⟨16, 7, .ro, 0⟩, ⟨8, 8, .ro, 0⟩]⟩,
  ⟨0x40088, 4, 1, 0x0, 1, 0x0, [⟨0, 24, .rw, 0⟩]⟩,
  ⟨0x4008c, 4, 1, 0x0, 1, 0x0, [⟨0, 24, .rw, 0⟩]⟩,
  ⟨0x40090, 8, 1, 0x0, 1, 0x0, [⟨0, 58, .rw, 0⟩]⟩,
  ⟨0x40098, 8, 1, 0x0, 1, 0x0, [⟨0, 64, .ro, 0⟩]⟩,
  ⟨0x40400, 4, 2, 0x100, 1, 0x0, [⟨1, 1, .rw, 0⟩, ⟨0, 1, .rw, 0⟩]⟩,
  ⟨0x40404, 4, 2, 0x100, 1, 0x0, [⟨4, 1, .w1c, 0⟩, ⟨3, 1, .w1c, 0⟩, ⟨2, 1, .ro, 0⟩, ⟨1, 1, .ro, 0⟩, ⟨0, 1, .ro, 0⟩]⟩,
  ⟨0x40408, 4, 2, 0x100, 1, 0x0, [⟨0, 32, .rw, 0⟩]⟩,
  ⟨0x4040c, 4, 2, 0x100, 1, 0x0, [⟨0, 32, .rw, 0⟩]⟩,
  ⟨0x40410, 8, 2, 0x100, 1, 0x0, [⟨5, 35, .rw, 0⟩]⟩,
  ⟨0x40418, 4, 2, 0x100, 1, 0x0, [⟨0, 13, .rw, 0⟩]⟩]
/-- The TIM register map, part 1. -/
def regRowsTim1 : List RegRow := [
  ⟨0x4041c, 4, 2, 0x100, 1, 0x0, [⟨0, 12, .rw, 0⟩]⟩,
  ⟨0x40420, 4, 2, 0x100, 1, 0x0, [⟨0, 12, .ro, 0⟩]⟩,
  ⟨0x40428, 8, 2, 0x100, 1, 0x0, [⟨5, 35, .rw, 0⟩]⟩,
  ⟨0x40430, 4, 2, 0x100, 1, 0x0, [⟨0, 13, .rw, 0⟩]⟩,
  ⟨0x40434, 4, 2, 0x100, 1, 0x0, [⟨0, 12, .rw, 0⟩]⟩,
  ⟨0x40438, 4, 2, 0x100, 1, 0x0, [⟨0, 12, .ro, 0⟩]⟩,
  ⟨0x40440, 4, 2, 0x100, 4, 0x4, [⟨0, 32, .ro, 0⟩]⟩,
  ⟨0x40450, 4, 2, 0x100, 1, 0x0, [⟨0, 1, .wo, 0⟩]⟩,
  ⟨0x40460, 4, 2, 0x100, 1, 0x0, [⟨0, 32, .rc, 0⟩]⟩,
  ⟨0x40464, 4, 2, 0x100, 1, 0x0, [⟨0, 32, .rc, 0⟩]⟩,
  ⟨0x40468, 4, 2, 0x100, 1, 0x0, [⟨0, 32, .rc, 0⟩]⟩,
  ⟨0x4046c, 4, 2, 0x100, 1, 0x0, [⟨0, 32, .rc, 0⟩]⟩,
  ⟨0x40470, 4, 2, 0x100, 1, 0x0, [⟨0, 32, .rc, 0⟩]⟩,
  ⟨0x40474, 4, 2, 0x100, 1, 0x0, [⟨0, 32, .rc, 0⟩]⟩,
  ⟨0x40478, 4, 2, 0x100, 1, 0x0, [⟨0, 32, .rc, 0⟩]⟩]
/-- Every register of TIM. -/
def regRowsTimAll : List RegRow := regRowsTim0 ++ regRowsTim1
/-- The ING register map, part 0. -/
def regRowsIng0 : List RegRow := [
  ⟨0x80000, 4, 1, 0x0, 1, 0x0, [⟨2, 1, .wo, 0⟩, ⟨1, 1, .wo, 0⟩, ⟨0, 1, .rw, 0⟩]⟩,
  ⟨0x80004, 4, 1, 0x0, 1, 0x0, [⟨4, 1, .w1c, 0⟩, ⟨3, 1, .ro, 0⟩, ⟨2, 1, .ro, 0⟩, ⟨1, 1, .w1c, 0⟩, ⟨0, 1, .w1c, 0⟩]⟩,
  ⟨0x80008, 4, 1, 0x0, 1, 0x0, [⟨16, 4, .ro, 0⟩, ⟨0, 4, .rw, 0⟩]⟩,
  ⟨0x8000c, 4, 1, 0x0, 1, 0x0, [⟨0, 32, .rw, 4294967295⟩]⟩,
  ⟨0x80010, 8, 1, 0x0, 1, 0x0, [⟨12, 28, .rw, 0⟩]⟩,
  ⟨0x80018, 4, 1, 0x0, 1, 0x0, [⟨31, 1, .rw, 0⟩, ⟨30, 1, .rw, 0⟩, ⟨0, 24, .rw, 0⟩]⟩,
  ⟨0x8001c, 4, 1, 0x0, 1, 0x0, [⟨0, 32, .rc, 0⟩]⟩,
  ⟨0x80020, 8, 1, 0x0, 1, 0x0, [⟨0, 64, .rw, 0⟩]⟩,
  ⟨0x80028, 8, 1, 0x0, 1, 0x0, [⟨12, 28, .rw, 0⟩]⟩,
  ⟨0x80030, 4, 1, 0x0, 1, 0x0, [⟨0, 24, .rw, 0⟩]⟩,
  ⟨0x80034, 4, 1, 0x0, 1, 0x0, [⟨0, 24, .ro, 0⟩]⟩,
  ⟨0x80038, 4, 1, 0x0, 1, 0x0, [⟨0, 24, .ro, 0⟩]⟩,
  ⟨0x8003c, 4, 1, 0x0, 1, 0x0, [⟨0, 24, .rw, 0⟩]⟩,
  ⟨0x80040, 4, 16, 0x10, 1, 0x0, [⟨31, 1, .rw, 0⟩, ⟨29, 2, .rw, 0⟩, ⟨5, 3, .rw, 0⟩, ⟨0, 5, .rw, 0⟩]⟩,
  ⟨0x80044, 4, 16, 0x10, 1, 0x0, [⟨0, 24, .rw, 0⟩]⟩,
  ⟨0x80048, 4, 16, 0x10, 1, 0x0, [⟨16, 11, .ro, 0⟩, ⟨0, 9, .ro, 0⟩]⟩,
  ⟨0x8004c, 4, 16, 0x10, 1, 0x0, [⟨0, 32, .rc, 0⟩]⟩,
  ⟨0x80200, 4, 16, 0x4, 1, 0x0, [⟨12, 4, .rw, 0⟩, ⟨8, 4, .rw, 0⟩, ⟨4, 4, .rw, 0⟩, ⟨0, 4, .rw, 0⟩]⟩,
  ⟨0x81000, 4, 256, 0x40, 1, 0x0, [⟨16, 8, .rw, 0⟩, ⟨8, 4, .rw, 0⟩, ⟨4, 2, .rw, 0⟩, ⟨3, 1, .rw, 0⟩, ⟨2, 1, .rw, 0⟩, ⟨0, 1, .rw, 0⟩]⟩,
  ⟨0x81004, 4, 256, 0x40, 1, 0x0, [⟨16, 10, .ro, 0⟩, ⟨4, 1, .ro, 0⟩, ⟨3, 1, .ro, 0⟩, ⟨2, 1, .ro, 0⟩, ⟨1, 1, .ro, 0⟩, ⟨0, 1, .ro, 0⟩]⟩,
  ⟨0x81008, 8, 256, 0x40, 1, 0x0, [⟨56, 8, .rs, 0⟩, ⟨32, 24, .rs, 0⟩, ⟨24, 6, .rs, 0⟩, ⟨0, 24, .rs, 0⟩]⟩,
  ⟨0x81010, 4, 256, 0x40, 1, 0x0, [⟨0, 32, .rc, 0⟩]⟩,
  ⟨0x81014, 4, 256, 0x40, 1, 0x0, [⟨0, 32, .rc, 0⟩]⟩,
  ⟨0x81018, 4, 256, 0x40, 1, 0x0, [⟨0, 32, .rc, 0⟩]⟩]
/-- The ING register map, part 1. -/
def regRowsIng1 : List RegRow := [
  ⟨0x8101c, 4, 256, 0x40, 1, 0x0, [⟨0, 32, .rc, 0⟩]⟩,
  ⟨0x81020, 4, 256, 0x40, 1, 0x0, [⟨0, 32, .rc, 0⟩]⟩,
  ⟨0x81028, 8, 256, 0x40, 1, 0x0, [⟨0, 48, .rc, 0⟩]⟩,
  ⟨0x81030, 8, 256, 0x40, 1, 0x0, [⟨0, 48, .rc, 0⟩]⟩]
/-- Every register of ING. -/
def regRowsIngAll : List RegRow := regRowsIng0 ++ regRowsIng1
/-- The TRG register map, part 0. -/
def regRowsTrg0 : List RegRow := [
  ⟨0x100000, 4, 1, 0x0, 1, 0x0, [⟨31, 1, .rw, 0⟩, ⟨10, 4, .rw, 0⟩, ⟨0, 10, .rw, 96⟩]⟩,
  ⟨0x100004, 4, 1, 0x0, 1, 0x0, [⟨1, 1, .ro, 0⟩, ⟨0, 1, .w1c, 0⟩]⟩,
  ⟨0x100008, 4, 1, 0x0, 1, 0x0, [⟨0, 24, .wo, 0⟩]⟩,
  ⟨0x10000c, 4, 1, 0x0, 1, 0x0, [⟨0, 1, .wo, 0⟩]⟩,
  ⟨0x100020, 4, 1, 0x0, 1, 0x0, [⟨0, 32, .rc, 0⟩]⟩,
  ⟨0x100024, 4, 1, 0x0, 1, 0x0, [⟨0, 32, .rc, 0⟩]⟩,
  ⟨0x100028, 4, 1, 0x0, 1, 0x0, [⟨0, 32, .rc, 0⟩]⟩,
  ⟨0x10002c, 4, 1, 0x0, 1, 0x0, [⟨0, 32, .rc, 0⟩]⟩,
  ⟨0x100100, 4, 32, 0x10, 1, 0x0, [⟨31, 1, .rw, 0⟩, ⟨5, 1, .rw, 0⟩, ⟨0, 4, .rw, 0⟩]⟩,
  ⟨0x100104, 4, 32, 0x10, 1, 0x0, [⟨0, 32, .rw, 0⟩]⟩,
  ⟨0x100108, 4, 32, 0x10, 1, 0x0, [⟨0, 32, .rc, 0⟩]⟩,
  ⟨0x100400, 4, 8, 0x20, 1, 0x0, [⟨31, 1, .rw, 0⟩, ⟨27, 4, .rw, 0⟩, ⟨23, 4, .rw, 0⟩, ⟨19, 4, .rw, 0⟩, ⟨0, 2, .rw, 0⟩]⟩,
  ⟨0x100404, 4, 8, 0x20, 1, 0x0, [⟨0, 32, .rw, 0⟩]⟩,
  ⟨0x100408, 4, 8, 0x20, 1, 0x0, [⟨0, 32, .rw, 0⟩]⟩,
  ⟨0x10040c, 4, 8, 0x20, 1, 0x0, [⟨0, 32, .rw, 0⟩]⟩,
  ⟨0x100410, 4, 8, 0x20, 1, 0x0, [⟨0, 32, .rw, 0⟩]⟩,
  ⟨0x100414, 4, 8, 0x20, 1, 0x0, [⟨16, 16, .rw, 0⟩, ⟨0, 16, .rw, 0⟩]⟩,
  ⟨0x100418, 4, 8, 0x20, 1, 0x0, [⟨0, 32, .rc, 0⟩]⟩,
  ⟨0x10041c, 4, 8, 0x20, 1, 0x0, [⟨0, 32, .rc, 0⟩]⟩,
  ⟨0x100600, 4, 4, 0x10, 1, 0x0, [⟨31, 1, .rw, 0⟩, ⟨30, 1, .rw, 0⟩, ⟨0, 4, .rw, 0⟩]⟩,
  ⟨0x100604, 4, 4, 0x10, 1, 0x0, [⟨0, 32, .rw, 0⟩]⟩,
  ⟨0x100608, 4, 4, 0x10, 1, 0x0, [⟨0, 32, .rc, 0⟩]⟩,
  ⟨0x100680, 4, 4, 0x4, 1, 0x0, [⟨31, 1, .rw, 0⟩, ⟨30, 1, .rw, 0⟩, ⟨12, 3, .rw, 0⟩, ⟨0, 12, .rw, 1⟩]⟩,
  ⟨0x102000, 4, 16, 0x80, 1, 0x0, [⟨31, 1, .rw, 0⟩, ⟨24, 4, .rw, 0⟩, ⟨16, 8, .rw, 0⟩, ⟨0, 16, .rw, 0⟩]⟩]
/-- The TRG register map, part 1. -/
def regRowsTrg1 : List RegRow := [
  ⟨0x102004, 4, 16, 0x80, 1, 0x0, [⟨2, 1, .ro, 0⟩, ⟨1, 1, .ro, 0⟩, ⟨0, 1, .ro, 0⟩]⟩,
  ⟨0x102008, 8, 16, 0x80, 1, 0x0, [⟨12, 28, .rw, 0⟩]⟩,
  ⟨0x102010, 8, 16, 0x80, 1, 0x0, [⟨12, 28, .rw, 0⟩]⟩,
  ⟨0x102018, 8, 16, 0x80, 1, 0x0, [⟨6, 34, .rw, 0⟩]⟩,
  ⟨0x102020, 4, 16, 0x80, 1, 0x0, [⟨0, 16, .rw, 0⟩]⟩,
  ⟨0x102024, 4, 16, 0x80, 1, 0x0, [⟨0, 24, .rw, 0⟩]⟩,
  ⟨0x102028, 4, 16, 0x80, 1, 0x0, [⟨0, 24, .rw, 0⟩]⟩,
  ⟨0x10202c, 4, 16, 0x80, 1, 0x0, [⟨0, 15, .ro, 0⟩]⟩,
  ⟨0x102030, 8, 16, 0x80, 1, 0x0, [⟨0, 40, .ro, 0⟩]⟩,
  ⟨0x102038, 8, 16, 0x80, 1, 0x0, [⟨0, 64, .rw, 0⟩]⟩,
  ⟨0x102040, 8, 16, 0x80, 1, 0x0, [⟨0, 64, .ro, 0⟩]⟩,
  ⟨0x102048, 4, 16, 0x80, 1, 0x0, [⟨0, 32, .rc, 0⟩]⟩,
  ⟨0x10204c, 4, 16, 0x80, 1, 0x0, [⟨0, 32, .rc, 0⟩]⟩,
  ⟨0x102050, 4, 16, 0x80, 1, 0x0, [⟨0, 32, .rc, 0⟩]⟩,
  ⟨0x102054, 4, 16, 0x80, 1, 0x0, [⟨0, 32, .rc, 0⟩]⟩]
/-- Every register of TRG. -/
def regRowsTrgAll : List RegRow := regRowsTrg0 ++ regRowsTrg1
/-- The CHM register map. -/
def regRowsChm : List RegRow := [
  ⟨0x140000, 4, 1, 0x0, 1, 0x0, [⟨17, 1, .ro, 0⟩, ⟨16, 1, .rw, 0⟩, ⟨12, 4, .rw, 0⟩, ⟨8, 4, .rw, 0⟩, ⟨0, 4, .rw, 0⟩]⟩,
  ⟨0x140004, 4, 1, 0x0, 1, 0x0, [⟨0, 1, .w1c, 0⟩]⟩,
  ⟨0x140008, 4, 1, 0x0, 1, 0x0, [⟨0, 24, .rw, 4096⟩]⟩,
  ⟨0x140100, 4, 4, 0x40, 1, 0x0, [⟨3, 1, .w1c, 0⟩, ⟨2, 1, .ro, 0⟩, ⟨1, 1, .ro, 0⟩, ⟨0, 1, .ro, 0⟩]⟩,
  ⟨0x140104, 4, 4, 0x40, 1, 0x0, [⟨0, 1, .wo, 0⟩]⟩,
  ⟨0x140108, 4, 4, 0x40, 1, 0x0, [⟨0, 32, .ro, 0⟩]⟩,
  ⟨0x14010c, 4, 4, 0x40, 1, 0x0, [⟨0, 32, .ro, 0⟩]⟩,
  ⟨0x140110, 8, 4, 0x40, 1, 0x0, [⟨0, 64, .rw, 0⟩]⟩,
  ⟨0x140118, 8, 4, 0x40, 1, 0x0, [⟨0, 64, .rw, 0⟩]⟩,
  ⟨0x140120, 4, 4, 0x40, 1, 0x0, [⟨31, 1, .wo, 0⟩, ⟨0, 5, .ro, 0⟩]⟩,
  ⟨0x140124, 4, 4, 0x40, 1, 0x0, [⟨31, 1, .wo, 0⟩, ⟨0, 5, .ro, 0⟩]⟩,
  ⟨0x140128, 8, 4, 0x40, 1, 0x0, [⟨0, 64, .ro, 0⟩]⟩,
  ⟨0x140130, 8, 4, 0x40, 1, 0x0, [⟨0, 64, .ro, 0⟩]⟩,
  ⟨0x140138, 4, 4, 0x40, 1, 0x0, [⟨0, 32, .rc, 0⟩]⟩,
  ⟨0x14013c, 4, 4, 0x40, 1, 0x0, [⟨0, 32, .rc, 0⟩]⟩,
  ⟨0x140200, 4, 4, 0x10, 1, 0x0, [⟨0, 32, .rc, 0⟩]⟩,
  ⟨0x140204, 4, 4, 0x10, 1, 0x0, [⟨0, 32, .rc, 0⟩]⟩,
  ⟨0x140208, 4, 4, 0x10, 1, 0x0, [⟨0, 32, .rc, 0⟩]⟩]
/-- The ZL register map, part 0. -/
def regRowsZl0 : List RegRow := [
  ⟨0x180000, 4, 1, 0x0, 1, 0x0, [⟨0, 4, .rw, 0⟩]⟩,
  ⟨0x180004, 4, 1, 0x0, 1, 0x0, [⟨0, 1, .w1c, 0⟩]⟩,
  ⟨0x180008, 4, 1, 0x0, 1, 0x0, [⟨12, 4, .rw, 0⟩, ⟨11, 1, .rw, 0⟩, ⟨5, 1, .wo, 0⟩, ⟨4, 1, .wo, 0⟩, ⟨3, 1, .wo, 0⟩, ⟨0, 2, .rw, 0⟩]⟩,
  ⟨0x18000c, 4, 1, 0x0, 1, 0x0, [⟨20, 4, .ro, 0⟩, ⟨16, 4, .ro, 0⟩, ⟨7, 1, .w1c, 0⟩, ⟨6, 1, .w1c, 0⟩, ⟨5, 1, .w1c, 0⟩, ⟨4, 1, .w1c, 0⟩, ⟨0, 3, .ro, 0⟩]⟩,
  ⟨0x180010, 8, 1, 0x0, 1, 0x0, [⟨0, 58, .rw, 0⟩]⟩,
  ⟨0x180018, 8, 1, 0x0, 1, 0x0, [⟨0, 58, .ro, 0⟩]⟩,
  ⟨0x180020, 8, 1, 0x0, 1, 0x0, [⟨0, 64, .ro, 0⟩]⟩,
  ⟨0x180028, 8, 1, 0x0, 1, 0x0, [⟨0, 64, .ro, 0⟩]⟩,
  ⟨0x180030, 4, 1, 0x0, 1, 0x0, [⟨0, 32, .rc, 0⟩]⟩,
  ⟨0x180034, 4, 1, 0x0, 1, 0x0, [⟨0, 32, .rc, 0⟩]⟩,
  ⟨0x180038, 4, 1, 0x0, 1, 0x0, [⟨0, 32, .rc, 0⟩]⟩,
  ⟨0x180100, 4, 24, 0x80, 1, 0x0, [⟨31, 1, .rw, 0⟩, ⟨30, 1, .rw, 0⟩, ⟨8, 4, .rw, 0⟩]⟩,
  ⟨0x180104, 4, 24, 0x80, 1, 0x0, [⟨28, 4, .ro, 0⟩, ⟨26, 2, .ro, 0⟩, ⟨6, 1, .w1c, 0⟩, ⟨5, 1, .ro, 0⟩, ⟨4, 1, .ro, 0⟩, ⟨3, 1, .ro, 0⟩, ⟨2, 1, .ro, 0⟩, ⟨1, 1, .ro, 0⟩, ⟨0, 1, .ro, 0⟩]⟩,
  ⟨0x180108, 8, 24, 0x80, 1, 0x0, [⟨1, 38, .rw, 0⟩]⟩,
  ⟨0x180110, 4, 24, 0x80, 1, 0x0, [⟨0, 10, .rw, 0⟩]⟩,
  ⟨0x180114, 4, 24, 0x80, 1, 0x0, [⟨0, 32, .ro, 0⟩]⟩,
  ⟨0x180118, 4, 24, 0x80, 1, 0x0, [⟨0, 32, .rw, 0⟩]⟩,
  ⟨0x18011c, 4, 24, 0x80, 1, 0x0, [⟨0, 32, .ro, 0⟩]⟩,
  ⟨0x180120, 4, 24, 0x80, 1, 0x0, [⟨0, 1, .wo, 0⟩]⟩,
  ⟨0x180124, 4, 24, 0x80, 1, 0x0, [⟨0, 32, .rc, 0⟩]⟩,
  ⟨0x180128, 4, 24, 0x80, 1, 0x0, [⟨0, 32, .rc, 0⟩]⟩,
  ⟨0x18012c, 4, 24, 0x80, 1, 0x0, [⟨0, 32, .rc, 0⟩]⟩,
  ⟨0x180130, 4, 24, 0x80, 1, 0x0, [⟨0, 32, .rc, 0⟩]⟩,
  ⟨0x180134, 4, 24, 0x80, 1, 0x0, [⟨0, 32, .rc, 0⟩]⟩]
/-- The ZL register map, part 1. -/
def regRowsZl1 : List RegRow := [
  ⟨0x180138, 4, 24, 0x80, 1, 0x0, [⟨0, 32, .rc, 0⟩]⟩,
  ⟨0x18013c, 4, 24, 0x80, 1, 0x0, [⟨0, 32, .rc, 0⟩]⟩]
/-- Every register of ZL. -/
def regRowsZlAll : List RegRow := regRowsZl0 ++ regRowsZl1
/-- The STK register map, part 0. -/
def regRowsStk0 : List RegRow := [
  ⟨0x200000, 4, 1, 0x0, 1, 0x0, [⟨1, 1, .rw, 1⟩, ⟨0, 1, .rw, 0⟩]⟩,
  ⟨0x200004, 4, 1, 0x0, 1, 0x0, [⟨3, 1, .w1c, 0⟩, ⟨2, 1, .w1c, 0⟩, ⟨1, 1, .ro, 0⟩, ⟨0, 1, .w1c, 0⟩]⟩,
  ⟨0x200008, 4, 1, 0x0, 1, 0x0, [⟨3, 1, .rw, 1⟩, ⟨2, 1, .rw, 1⟩, ⟨1, 1, .rw, 1⟩, ⟨0, 1, .rw, 1⟩]⟩,
  ⟨0x20000c, 4, 1, 0x0, 1, 0x0, [⟨0, 10, .ro, 0⟩]⟩,
  ⟨0x200010, 4, 1, 0x0, 1, 0x0, [⟨16, 4, .rw, 0⟩, ⟨12, 4, .rw, 0⟩, ⟨8, 4, .rw, 0⟩, ⟨4, 4, .rw, 0⟩, ⟨0, 4, .rw, 0⟩]⟩,
  ⟨0x200014, 4, 1, 0x0, 1, 0x0, [⟨0, 32, .rc, 0⟩]⟩,
  ⟨0x200018, 4, 1, 0x0, 1, 0x0, [⟨0, 32, .rc, 0⟩]⟩,
  ⟨0x20001c, 4, 1, 0x0, 1, 0x0, [⟨0, 32, .rc, 0⟩]⟩,
  ⟨0x200020, 8, 1, 0x0, 1, 0x0, [⟨0, 64, .rw, 0⟩]⟩,
  ⟨0x200028, 4, 1, 0x0, 1, 0x0, [⟨0, 1, .wo, 0⟩]⟩,
  ⟨0x20002c, 4, 1, 0x0, 1, 0x0, [⟨0, 32, .ro, 0⟩]⟩,
  ⟨0x200100, 8, 16, 0x40, 1, 0x0, [⟨0, 64, .rw, 0⟩]⟩,
  ⟨0x200108, 4, 16, 0x40, 1, 0x0, [⟨8, 1, .rw, 0⟩, ⟨0, 5, .rw, 4⟩]⟩,
  ⟨0x20010c, 4, 16, 0x40, 1, 0x0, [⟨0, 1, .rw, 0⟩]⟩,
  ⟨0x200110, 4, 16, 0x40, 1, 0x0, [⟨0, 16, .ro, 0⟩]⟩,
  ⟨0x200114, 4, 16, 0x40, 1, 0x0, [⟨0, 16, .ro, 0⟩]⟩,
  ⟨0x200118, 4, 16, 0x40, 1, 0x0, [⟨16, 10, .ro, 0⟩, ⟨3, 1, .ro, 0⟩, ⟨2, 1, .ro, 0⟩, ⟨1, 1, .ro, 0⟩, ⟨0, 1, .ro, 0⟩]⟩,
  ⟨0x20011c, 4, 16, 0x40, 1, 0x0, [⟨0, 32, .rc, 0⟩]⟩,
  ⟨0x200600, 8, 16, 0x40, 1, 0x0, [⟨0, 64, .rw, 0⟩]⟩,
  ⟨0x200608, 4, 16, 0x40, 1, 0x0, [⟨31, 1, .rw, 0⟩, ⟨30, 1, .rw, 0⟩, ⟨16, 8, .rw, 0⟩, ⟨8, 8, .rw, 1⟩, ⟨0, 5, .rw, 4⟩]⟩,
  ⟨0x20060c, 4, 16, 0x40, 1, 0x0, [⟨0, 16, .ro, 0⟩]⟩,
  ⟨0x200610, 4, 16, 0x40, 1, 0x0, [⟨0, 16, .ro, 0⟩]⟩,
  ⟨0x200614, 4, 16, 0x40, 1, 0x0, [⟨16, 9, .ro, 0⟩, ⟨2, 1, .w1c, 0⟩, ⟨1, 1, .ro, 0⟩, ⟨0, 1, .ro, 0⟩]⟩,
  ⟨0x200618, 4, 16, 0x40, 1, 0x0, [⟨0, 32, .rc, 0⟩]⟩]
/-- The STK register map, part 1. -/
def regRowsStk1 : List RegRow := [
  ⟨0x20061c, 4, 16, 0x40, 1, 0x0, [⟨0, 32, .rc, 0⟩]⟩]
/-- Every register of STK. -/
def regRowsStkAll : List RegRow := regRowsStk0 ++ regRowsStk1
/-- The MEM register map. -/
def regRowsMem : List RegRow := [
  ⟨0x280000, 4, 1, 0x0, 1, 0x0, [⟨0, 1, .wo, 0⟩]⟩,
  ⟨0x280004, 4, 1, 0x0, 1, 0x0, [⟨3, 1, .w1c, 0⟩, ⟨2, 1, .w1c, 0⟩, ⟨1, 1, .ro, 0⟩, ⟨0, 1, .w1c, 0⟩]⟩,
  ⟨0x280008, 4, 1, 0x0, 1, 0x0, [⟨0, 12, .rw, 256⟩]⟩,
  ⟨0x28000c, 4, 1, 0x0, 1, 0x0, [⟨3, 3, .rw, 0⟩, ⟨2, 1, .ro, 0⟩, ⟨0, 2, .rw, 0⟩]⟩,
  ⟨0x280010, 8, 1, 0x0, 1, 0x0, [⟨30, 10, .rw, 0⟩]⟩,
  ⟨0x280018, 8, 1, 0x0, 1, 0x0, [⟨0, 40, .ro, 0⟩]⟩,
  ⟨0x280020, 4, 1, 0x0, 1, 0x0, [⟨30, 2, .ro, 0⟩, ⟨28, 2, .ro, 0⟩, ⟨24, 4, .ro, 0⟩, ⟨15, 9, .ro, 511⟩, ⟨12, 3, .ro, 0⟩, ⟨7, 5, .ro, 0⟩, ⟨6, 1, .ro, 0⟩]⟩,
  ⟨0x280028, 8, 1, 0x0, 1, 0x0, [⟨0, 64, .ro, 0⟩]⟩,
  ⟨0x280030, 4, 1, 0x0, 1, 0x0, [⟨0, 32, .rc, 0⟩]⟩,
  ⟨0x280100, 4, 6, 0x40, 1, 0x0, [⟨16, 16, .rw, 16⟩, ⟨0, 16, .rw, 64⟩]⟩,
  ⟨0x280104, 4, 6, 0x40, 1, 0x0, [⟨9, 1, .ro, 0⟩, ⟨8, 1, .ro, 0⟩, ⟨0, 8, .rs, 0⟩]⟩,
  ⟨0x280108, 4, 6, 0x40, 1, 0x0, [⟨0, 16, .ro, 0⟩]⟩,
  ⟨0x28010c, 4, 6, 0x40, 1, 0x0, [⟨0, 32, .rc, 0⟩]⟩,
  ⟨0x280110, 4, 6, 0x40, 1, 0x0, [⟨0, 32, .rc, 0⟩]⟩,
  ⟨0x280114, 4, 6, 0x40, 1, 0x0, [⟨0, 32, .rc, 0⟩]⟩,
  ⟨0x280118, 4, 6, 0x40, 1, 0x0, [⟨0, 32, .rc, 0⟩]⟩,
  ⟨0x28011c, 4, 6, 0x40, 1, 0x0, [⟨0, 32, .rc, 0⟩]⟩,
  ⟨0x280120, 4, 6, 0x40, 1, 0x0, [⟨0, 32, .rc, 0⟩]⟩,
  ⟨0x280124, 4, 6, 0x40, 1, 0x0, [⟨0, 32, .rc, 0⟩]⟩]
/-- The OPT register map. -/
def regRowsOpt : List RegRow := [
  ⟨0x300000, 4, 1, 0x0, 1, 0x0, [⟨0, 1, .w1c, 0⟩]⟩,
  ⟨0x300100, 4, 34, 0x20, 1, 0x0, [⟨0, 1, .rw, 1⟩]⟩,
  ⟨0x300104, 4, 34, 0x20, 1, 0x0, [⟨4, 1, .ro, 0⟩, ⟨3, 1, .ro, 0⟩, ⟨0, 3, .ro, 0⟩]⟩,
  ⟨0x300108, 4, 34, 0x20, 1, 0x0, [⟨0, 16, .rs, 0⟩]⟩,
  ⟨0x30010c, 4, 34, 0x20, 1, 0x0, [⟨0, 32, .rc, 0⟩]⟩,
  ⟨0x300110, 4, 34, 0x20, 1, 0x0, [⟨0, 32, .rc, 0⟩]⟩,
  ⟨0x300800, 4, 14, 0x4, 1, 0x0, [⟨2, 1, .ro, 0⟩, ⟨1, 1, .ro, 0⟩, ⟨0, 1, .ro, 0⟩]⟩]
/-- The GR register map. -/
def regRowsGr : List RegRow := [
  ⟨0x800000, 4, 300, 0x4000, 1, 0x0, [⟨17, 1, .ro, 0⟩, ⟨16, 1, .ro, 0⟩, ⟨8, 5, .ro, 31⟩, ⟨4, 4, .ro, 0⟩]⟩,
  ⟨0x800004, 4, 300, 0x4000, 1, 0x0, [⟨16, 4, .ro, 0⟩, ⟨3, 3, .ro, 0⟩, ⟨0, 2, .ro, 0⟩]⟩,
  ⟨0x800008, 4, 300, 0x4000, 1, 0x0, [⟨1, 1, .w1c, 0⟩, ⟨0, 1, .w1c, 0⟩]⟩,
  ⟨0x800010, 4, 300, 0x4000, 1, 0x0, [⟨24, 8, .ro, 0⟩, ⟨14, 10, .ro, 0⟩, ⟨10, 4, .ro, 0⟩, ⟨6, 4, .ro, 0⟩]⟩,
  ⟨0x800014, 4, 300, 0x4000, 1, 0x0, [⟨0, 32, .ro, 0⟩]⟩,
  ⟨0x800020, 4, 300, 0x4000, 1, 0x0, [⟨0, 32, .rc, 0⟩]⟩,
  ⟨0x800024, 4, 300, 0x4000, 1, 0x0, [⟨0, 32, .rc, 0⟩]⟩,
  ⟨0x800028, 4, 300, 0x4000, 1, 0x0, [⟨0, 32, .rc, 0⟩]⟩,
  ⟨0x80002c, 4, 300, 0x4000, 1, 0x0, [⟨0, 32, .rc, 0⟩]⟩,
  ⟨0x800030, 4, 300, 0x4000, 1, 0x0, [⟨0, 32, .rc, 0⟩]⟩,
  ⟨0x800034, 4, 300, 0x4000, 1, 0x0, [⟨0, 32, .rc, 0⟩]⟩,
  ⟨0x800038, 4, 300, 0x4000, 1, 0x0, [⟨0, 32, .rc, 0⟩]⟩,
  ⟨0x80003c, 4, 300, 0x4000, 1, 0x0, [⟨0, 32, .rc, 0⟩]⟩,
  ⟨0x800040, 4, 300, 0x4000, 1, 0x0, [⟨0, 32, .rc, 0⟩]⟩,
  ⟨0x800044, 4, 300, 0x4000, 1, 0x0, [⟨0, 32, .rc, 0⟩]⟩,
  ⟨0x800048, 4, 300, 0x4000, 1, 0x0, [⟨0, 32, .rc, 0⟩]⟩,
  ⟨0x80004c, 4, 300, 0x4000, 1, 0x0, [⟨0, 32, .rc, 0⟩]⟩,
  ⟨0x800100, 4, 300, 0x4000, 1, 0x0, [⟨0, 2, .rw, 0⟩]⟩,
  ⟨0x800104, 4, 300, 0x4000, 1, 0x0, [⟨0, 10, .rw, 0⟩]⟩,
  ⟨0x800108, 4, 300, 0x4000, 1, 0x0, [⟨1, 1, .wo, 0⟩, ⟨0, 1, .wo, 0⟩]⟩,
  ⟨0x800120, 4, 300, 0x4000, 8, 0x4, [⟨0, 32, .rw, 0⟩]⟩,
  ⟨0x800200, 4, 300, 0x4000, 13, 0x4, [⟨16, 7, .rs, 0⟩, ⟨12, 4, .rs, 0⟩, ⟨0, 7, .rs, 0⟩]⟩]
/-- The FAB register map. -/
def regRowsFab : List RegRow := [
  ⟨0xf00000, 4, 1, 0x0, 1, 0x0, [⟨0, 1, .wo, 0⟩]⟩,
  ⟨0xf00004, 4, 1, 0x0, 1, 0x0, [⟨0, 1, .w1c, 0⟩]⟩,
  ⟨0xf00010, 8, 1, 0x0, 1, 0x0, [⟨13, 27, .rw, 0⟩]⟩,
  ⟨0xf00018, 4, 1, 0x0, 1, 0x0, [⟨31, 1, .rw, 0⟩, ⟨16, 6, .rw, 0⟩, ⟨0, 16, .rw, 0⟩]⟩,
  ⟨0xf0001c, 4, 1, 0x0, 1, 0x0, [⟨0, 16, .rw, 0⟩]⟩,
  ⟨0xf00020, 4, 1, 0x0, 1, 0x0, [⟨0, 16, .ro, 0⟩]⟩,
  ⟨0xf00024, 4, 1, 0x0, 1, 0x0, [⟨0, 16, .rw, 0⟩]⟩,
  ⟨0xf00028, 4, 1, 0x0, 1, 0x0, [⟨0, 32, .rc, 0⟩]⟩,
  ⟨0xf00100, 4, 255, 0x4, 1, 0x0, [⟨31, 1, .rw, 0⟩, ⟨4, 9, .rw, 0⟩, ⟨0, 4, .rw, 0⟩]⟩]
/-- The HRT register map, part 0. -/
def regRowsHrt0 : List RegRow := [
  ⟨0x1000000, 4, 300, 0x8000, 1, 0x0, [⟨17, 1, .ro, 0⟩, ⟨16, 1, .ro, 0⟩, ⟨8, 5, .ro, 31⟩, ⟨4, 4, .ro, 0⟩]⟩,
  ⟨0x1000004, 4, 300, 0x8000, 1, 0x0, [⟨16, 4, .ro, 0⟩, ⟨6, 10, .ro, 0⟩, ⟨3, 3, .ro, 0⟩, ⟨0, 2, .ro, 0⟩]⟩,
  ⟨0x1000008, 4, 300, 0x8000, 1, 0x0, [⟨5, 1, .w1c, 0⟩, ⟨4, 1, .w1c, 0⟩, ⟨3, 1, .ro, 0⟩, ⟨2, 1, .ro, 0⟩, ⟨1, 1, .ro, 0⟩, ⟨0, 1, .ro, 1⟩]⟩,
  ⟨0x100000c, 4, 300, 0x8000, 1, 0x0, [⟨0, 2, .rw, 0⟩]⟩,
  ⟨0x1000010, 4, 300, 0x8000, 1, 0x0, [⟨24, 8, .ro, 0⟩, ⟨14, 10, .ro, 0⟩, ⟨9, 5, .ro, 0⟩, ⟨7, 2, .ro, 0⟩]⟩,
  ⟨0x1000014, 4, 300, 0x8000, 1, 0x0, [⟨0, 32, .ro, 0⟩]⟩,
  ⟨0x1000020, 4, 300, 0x8000, 1, 0x0, [⟨0, 32, .rc, 0⟩]⟩,
  ⟨0x1000024, 4, 300, 0x8000, 1, 0x0, [⟨0, 32, .rc, 0⟩]⟩,
  ⟨0x1000028, 4, 300, 0x8000, 1, 0x0, [⟨0, 32, .rc, 0⟩]⟩,
  ⟨0x100002c, 4, 300, 0x8000, 1, 0x0, [⟨0, 32, .rc, 0⟩]⟩,
  ⟨0x1000030, 4, 300, 0x8000, 1, 0x0, [⟨0, 32, .rc, 0⟩]⟩,
  ⟨0x1000034, 4, 300, 0x8000, 1, 0x0, [⟨0, 32, .rc, 0⟩]⟩,
  ⟨0x1000038, 4, 300, 0x8000, 1, 0x0, [⟨0, 32, .rc, 0⟩]⟩,
  ⟨0x100003c, 4, 300, 0x8000, 1, 0x0, [⟨0, 32, .rc, 0⟩]⟩,
  ⟨0x1000040, 4, 300, 0x8000, 1, 0x0, [⟨0, 32, .rc, 0⟩]⟩,
  ⟨0x1000044, 4, 300, 0x8000, 1, 0x0, [⟨0, 32, .rc, 0⟩]⟩,
  ⟨0x1000060, 4, 300, 0x8000, 1, 0x0, [⟨0, 5, .rw, 0⟩]⟩,
  ⟨0x1000064, 4, 300, 0x8000, 1, 0x0, [⟨0, 32, .ro, 0⟩]⟩,
  ⟨0x1000068, 4, 300, 0x8000, 1, 0x0, [⟨0, 32, .ro, 0⟩]⟩,
  ⟨0x100006c, 4, 300, 0x8000, 4, 0x4, [⟨0, 32, .ro, 0⟩]⟩,
  ⟨0x100007c, 4, 300, 0x8000, 1, 0x0, [⟨5, 1, .ro, 0⟩, ⟨4, 1, .ro, 0⟩, ⟨3, 1, .ro, 0⟩, ⟨2, 1, .ro, 0⟩, ⟨1, 1, .ro, 0⟩, ⟨0, 1, .ro, 0⟩]⟩,
  ⟨0x1000100, 4, 300, 0x8000, 1, 0x0, [⟨0, 3, .rw, 0⟩]⟩,
  ⟨0x1000104, 4, 300, 0x8000, 1, 0x0, [⟨0, 17, .rw, 0⟩]⟩,
  ⟨0x1000108, 4, 300, 0x8000, 1, 0x0, [⟨1, 1, .wo, 0⟩, ⟨0, 1, .wo, 0⟩]⟩]
/-- The HRT register map, part 1. -/
def regRowsHrt1 : List RegRow := [
  ⟨0x1000120, 4, 300, 0x8000, 8, 0x4, [⟨0, 32, .rw, 0⟩]⟩]
/-- Every register of HRT. -/
def regRowsHrtAll : List RegRow := regRowsHrt0 ++ regRowsHrt1
/-- The rows that a BAR0 offset may lie in, by its block (R434). -/
def regRowsAt (off : Nat) : List RegRow :=
  if off ≤ 0xffff then regRowsGlb
  else if off ≤ 0x1ffff then regRowsPwr
  else if off ≤ 0x2ffff then regRowsFlt
  else if off ≤ 0x3ffff then regRowsSec
  else if off ≤ 0x7ffff then regRowsTimAll
  else if off ≤ 0xfffff then regRowsIngAll
  else if off ≤ 0x13ffff then regRowsTrgAll
  else if off ≤ 0x17ffff then regRowsChm
  else if off ≤ 0x1fffff then regRowsZlAll
  else if off ≤ 0x27ffff then regRowsStkAll
  else if off ≤ 0x2fffff then regRowsMem
  else if off ≤ 0x7fffff then regRowsOpt
  else if off ≤ 0xefffff then regRowsGr
  else if off ≤ 0xffffff then regRowsFab
  else if off ≤ 0x3ffffff then regRowsHrtAll
  else []

end Sys2Proof.Machine
end

