-- ==== Sys2Proof/Machine/Sources.lean ====
section
/-!
DEFINITION. The fault sources of the Ashpit and what is fixed for each (R389): number, class, kind, marks, and whether a
block reset exists for it.
-/
namespace Sys2Proof.Machine

/-- The classes of R389, with their numbers in REACT.CLASS: 0 C, 1 U, 2 F. -/
inductive SrcClass where
  | c | u | f
  deriving DecidableEq, Repr

/-- What the source list fixes for one source. -/
structure SrcInfo where
  cls : SrcClass
  level : Bool
  integrity : Bool
  inj : Bool
  block : Bool
  deriving DecidableEq, Repr

/-- The number of a class in REACT.CLASS and in the FAULT event. -/
def SrcClass.num : SrcClass → Nat
  | .c => 0
  | .u => 1
  | .f => 2

/-- The unit and grate fault codes that have a source 32 + code (R143, FAULT_INFO0.CODE). -/
def isHearthCode (c : Nat) : Bool := (0x01 ≤ c && c ≤ 0x07) || (0x10 ≤ c && c ≤ 0x19)

/-- The integrity codes of R239. -/
def isIntegrityCode (c : Nat) : Bool := c ∈ [0x03, 0x05, 0x06, 0x07, 0x18, 0x19]

/-- The codes that FLT.INJ reaches (R389, R405). -/
def isInjCode (c : Nat) : Bool := c ∈ [0x05, 0x06, 0x07, 0x18, 0x19]

/-- The source list of R389: none for a reserved number. -/
def srcInfo (n : Nat) : Option SrcInfo :=
  if n = 0 then some ⟨.f, true, false, true, false⟩
  else if n = 1 then some ⟨.c, false, false, false, false⟩
  else if n = 2 then some ⟨.u, false, false, false, false⟩
  else if n ≤ 5 then some ⟨.f, true, false, false, false⟩
  else if n ≤ 8 then some ⟨.u, true, false, false, false⟩
  else if n ≤ 12 then some ⟨.f, true, false, false, false⟩
  else if n = 13 then some ⟨.c, false, false, false, false⟩
  else if n = 14 then some ⟨.u, false, false, false, false⟩
  else if n = 15 then some ⟨.f, false, false, false, false⟩
  else if n = 16 then some ⟨.u, true, false, false, true⟩
  else if n = 17 then some ⟨.u, true, false, false, false⟩
  else if n ≤ 19 then some ⟨.u, false, false, false, false⟩
  else if n ≤ 25 then some ⟨.u, true, false, false, true⟩
  else if n ≤ 29 then some ⟨.u, false, false, false, false⟩
  else if n < 32 then none
  else if n < 64 then
    if isHearthCode (n - 32) then some ⟨.u, false, isIntegrityCode (n - 32), isInjCode (n - 32), false⟩ else none
  else if n < 160 then
    match (n - 64) % 4 with
    | 0 => some ⟨.u, true, false, false, true⟩
    | 1 => some ⟨.u, false, false, false, true⟩
    | 2 => some ⟨.u, true, false, false, true⟩
    | _ => some ⟨.u, false, false, false, false⟩
  else if n < 164 then some ⟨.u, false, false, false, false⟩
  else if n < 170 then some ⟨.c, false, false, false, false⟩
  else if n < 176 then some ⟨.u, true, false, false, false⟩
  else if n < 218 then
    match (n - 176) % 3 with
    | 2 => some ⟨.f, true, false, false, true⟩
    | _ => some ⟨.u, false, false, false, true⟩
  else if n < 224 then some ⟨.f, true, false, false, false⟩
  else none

/-- The reset value of REACT[n] (R394): the fixed fields of the source list and the reactions its class starts with. -/
def reactReset (n : Nat) : Nat :=
  match srcInfo n with
  | none => 0
  | some i =>
    i.cls.num * 2 ^ 30 + (if i.integrity then 2 ^ 29 else 0) + (if i.level then 2 ^ 28 else 0) + (if i.inj then 2 ^ 27 else 0)
      + (match i.cls with | .c => 0x01 | .u => 0x03 | .f => 0x4F)

end Sys2Proof.Machine
end

