-- ==== Sys2Proof/Machine/Ops.lean ====
section
/-!
DEFINITION. The named operations that every family shares: register words and fields, counters, status bits, time, free
values, fault assertions, events, host memory and interrupts.
-/
namespace Sys2Proof.Machine

/-- The outcome of a command. Every command ends in a next state. -/
abbrev Out := Host.Outcome State Fault Refusal

/-! ### Registers -/

/-- The virtual courses of a grade (R1). -/
def Grade.vgrid : Grade → Nat
  | .a => 24
  | .b => 22

/-- The stepping number that DEV_ID, LAT_INFO and REPRO_SIG report (R443, R332). -/
def Stepping.num : Stepping → Nat
  | .a0 => 0xA0
  | .b0 => 0xB0

/-- The reset value of a field by the register table. -/
def FieldRow.bits (f : FieldRow) : Nat := (f.reset % 2 ^ f.width) * 2 ^ f.lsb

/-- The reset word of an offset by the register table alone. -/
def tableReset (off : Nat) : Nat :=
  match findRow (regRowsAt off) off with
  | none => 0
  | some (r, w) => ((fieldsOfWord r.fields w).map FieldRow.bits).sum

/-- The word an offset holds after chip reset (R16): the table's reset values, and what fuses, stepping and the source list
fix. -/
def resetWord (p : Part) (off : Nat) : W32 :=
  if off = glbDevId then
    BitVec.ofNat 32 (0x4832 * 2 ^ 16 + p.stepping.num * 2 ^ 8 + (match p.grade with | .a => 0xA0 | .b => 0xB0))
  else if off = glbLatInfo then BitVec.ofNat 32 (tableReset off + p.stepping.num * 2 ^ 8)
  else if off = glbReproSig then
    BitVec.ofNat 32 (tableReset off + p.stepping.num * 2 ^ 24 + p.grade.vgrid * 2 ^ 16)
  else if off = glbFuseMap then BitVec.ofNat 32 p.fuseMap.toNat
  else if off = pwrModelCourse then p.modelCourse
  else if off = pwrModelDma then p.modelDma
  else if off = pwrModelBase then p.modelBase
  else if fltReact 0 ≤ off ∧ off < fltReact 256 then BitVec.ofNat 32 (reactReset ((off - fltReact 0) / 4))
  else if ingLaneCtrl 0 ≤ off ∧ off < ingLaneCtrl 256 ∧ (off - ingLaneCtrl 0) % 0x40 = 0 then
    BitVec.ofNat 32 ((off - ingLaneCtrl 0) / 0x40 * 2 ^ 16)
  else BitVec.ofNat 32 (tableReset off)

/-- The register word at an offset. -/
def State.word (s : State) (off : Nat) : W32 := mget (resetWord s.part) s.regs off

/-- The state with the register word at an offset replaced. -/
def State.setWord (s : State) (off : Nat) (v : W32) : State := { s with regs := mput (resetWord s.part) s.regs off v }

/-- A register as a number: the 64-bit pair where the field reaches beyond bit 31 (R12). -/
def State.regNat (s : State) (f : Fld) : Nat :=
  if f.lsb + f.width ≤ 32 then (s.word f.off).toNat
  else (s.word f.off).toNat + 2 ^ 32 * (s.word (f.off + 4)).toNat

/-- The value of a field. -/
def State.getF (s : State) (f : Fld) : Nat := bitsAt (s.regNat f) f.lsb f.width

/-- A field of one bit as a truth value. -/
def State.flag (s : State) (f : Fld) : Bool := s.getF f != 0

/-- The state with a field replaced and every other bit as it was. -/
def State.setF (s : State) (f : Fld) (v : Nat) : State :=
  let n := putBits (s.regNat f) f.lsb f.width v
  let s1 := s.setWord f.off (BitVec.ofNat 32 n)
  if f.lsb + f.width ≤ 32 then s1 else s1.setWord (f.off + 4) (BitVec.ofNat 32 (n / 2 ^ 32))

/-- A counter raised by k: it saturates, and the value that it had before this cycle's increments and their sum are remembered for
R15. -/
def State.bump (s : State) (f : Fld) (k : Nat) : State :=
  let s1 := s.setF f (satAdd f.width (s.getF f) k)
  let c := mget (fun _ => (0, 0)) s.incNow f.off
  { s1 with incNow := mput (fun _ => (0, 0)) s1.incNow f.off (if c.2 = 0 then (s.getF f, k) else (c.1, c.2 + k)) }

/-- A W1C status bit set by the device: it is remembered for R14. -/
def State.raise (s : State) (f : Fld) : State :=
  let s1 := s.setF f (2 ^ f.width - 1)
  let v := mget (fun _ => 0) s1.setNow f.off ||| BitVec.ofNat 32 ((2 ^ f.width - 1) * 2 ^ f.lsb)
  { s1 with setNow := mput (fun _ => 0) s1.setNow f.off v }

/-- A number stored in a run of 32-bit words, low word first. -/
def State.setWords (s : State) (off : Nat) : List W32 → State
  | [] => s
  | w :: ws => (s.setWord off w).setWords (off + 4) ws

/-- Every word whose offset satisfies p back at its reset value (R16). -/
def State.resetWords (s : State) (p : Nat → Bool) : State := { s with regs := s.regs.filter fun e => !p e.1 }

/-- The counters whose offsets satisfy p back at 0, their reset value; what this cycle added to them is cleared too. -/
def State.clearCounters (s : State) (p : Nat → Bool) : State :=
  let s1 := s.resetWords p
  { s1 with incNow := s1.incNow.filter fun e => !p e.1 }

/-- The new state where a condition holds, and the state as it was where not: a command that names something the device does
not have, or an event whose condition does not hold, changes nothing (log entry 12). -/
def State.when (s : State) (ok : Bool) (t : State) : State := if ok then t else s

/-! ### Time and running -/

/-- The tick index (R6). -/
def State.tick (s : State) : Nat := s.frc.toNat / 64

/-- The cycle of the tick (R6). -/
def State.cycle (s : State) : Nat := s.frc.toNat % 64

/-- FRC as a timestamp of this cycle uses it: as it stood before an FRC load of the cycle (R280). -/
def State.stampFrc (s : State) : Nat := match s.tim.was with | some w => w.frc | none => s.frc.toNat

/-- The FRC form of an event that a fraction of a cycle places within the current cycle (R281, R282). -/
def State.stamp (s : State) (frac : Byte) : Nat := s.stampFrc * 256 + frac.toNat

/-- The core cycles that 64 cycles of the slower clock of a crossing take: of the Chimney, timing-port and Flue parallel clocks, and of the
controllers (R462). -/
def cdcSpan (k : Nat) : Nat := if k = 10 ∨ k = 11 then 410 else if k = 12 then 246 else if k < 14 then 103 else 192

/-- The handshake of a crossing after a reset of a side has not ended: the writing side sees its FIFO full and the reading side sees it
empty. It ends within 64 cycles of the slower clock after both clocks run (R462; log entry 101). -/
def State.syncing (s : State) (k : Nat) : Bool :=
  match mget (fun _ => 0) s.pwr.cdcSync k with
  | 0 => false
  | c + 1 => !s.flag ⟨pwrPllStatus, 0, 1⟩ || (decide (k < 20) && !s.flag ⟨pwrPllStatus, k + 1, 1⟩) || decide (s.cyc < c + cdcSpan k)

/-- Nothing passes the crossing to a Flue, which a timeout has left failing or whose handshake has not ended, or that to an HBM stack, which
a timeout has left failing (R461, R462). -/
def State.flueDead (s : State) (k : Nat) : Bool := s.pwr.cdcDead.testBit k || s.syncing k
def State.stackDead (s : State) (st : Nat) : Bool := s.pwr.cdcDead.testBit (14 + st)

/-- The Hearth runs (R226, R227). -/
def State.running (s : State) : Bool := s.flag glbImgState_Running

/-- The safe state holds (R401). -/
def State.safe (s : State) : Bool := s.flag fltStatus_Safe

/-! ### Sites (R4, R434) -/

/-- The physical course of a site. -/
def courseOf (site : Nat) : Nat := site / 12

/-- The column of a site. -/
def columnOf (site : Nat) : Nat := site % 12

/-- Columns 2, 5, 8 and 11 hold memory units (R76). -/
def isMu (site : Nat) : Bool := site % 12 % 3 == 2

/-- The fuses mark a physical course as disabled (R332). -/
def State.courseOff (s : State) (course : Nat) : Bool := s.part.fuseMap.toNat.testBit course

/-- A unit site exists and lies in an enabled course. -/
def State.siteOn (s : State) (site : Nat) : Bool := decide (site < 300) && !s.courseOff (courseOf site)

/-- Physical courses in virtual order: those that hold a virtual course of the loaded image (R202, R203). -/
def State.courses (s : State) : List Nat := (List.range 25).filter fun c => (s.getF glbPlaceMap_Map).testBit c

/-- The virtual course mapped to a physical one, 0x1F when none (SITE_ID, GRATE_ID). -/
def State.vcourse (s : State) (course : Nat) : Nat :=
  if course ∈ s.courses then (s.courses.filter (· < course)).length else 0x1F

/-! ### Free values -/

/-- One free value of w bits; the counter moves on (R19). -/
def State.draw (s : State) (w : Nat) : BitVec w × State :=
  (Config.freeBits w s.freeIx, { s with freeIx := s.freeIx + 1 })

/-- n free bytes. -/
def State.drawBytes (s : State) (n : Nat) : List Byte × State :=
  ((List.range n).map fun i => Config.freeBits 8 (s.freeIx + i), { s with freeIx := s.freeIx + n })

/-! ### Faults -/

/-- Source n asserts in this cycle (R391). Before its release the Ashpit collects nothing (R397). -/
def State.assertSrc (s : State) (n : Nat) (info : BitVec 128 := 0) (rank : Nat := 0) : State :=
  if s.flt.released then { s with flt := { s.flt with pend := s.flt.pend ++ [⟨n, s.stampFrc, info, rank⟩] } } else s

/-- The condition of a level source outside the core begins (R389): it asserts now and in every cycle until it ends. -/
def State.levelOn (s : State) (n : Nat) (info : BitVec 128 := 0) : State :=
  if n ∈ s.flt.level then s
  else
    let s1 := s.assertSrc n info
    { s1 with flt := { s1.flt with level := (s1.flt.level.filter (· < n)) ++ [n] ++ (s1.flt.level.filter (n < ·)) } }

/-- The condition of a level source ends. -/
def State.levelOff (s : State) (n : Nat) : State :=
  { s with flt := { s.flt with level := s.flt.level.filter (· != n) } }

/-! ### Host memory and PCI Express -/

/-- What the stored bits of a double word of configuration space read after reset: in Device Control, Enable Relaxed Ordering, extended
tags and Enable No Snoop are on, and read requests may have 512 bytes; in AER, the default severities and masks (PRESUMED, log entry
100). -/
def cfgReset (off : Nat) : W32 :=
  if off = 0x78 then 0x2910
  else if off = 0x108 then 0x400000
  else if off = 0x10C then 0x462030
  else if off = 0x114 then 0xE000
  else 0

/-- The stored bits of a double word of configuration space. -/
def Pcie.word (p : Pcie) (off : Nat) : Nat := (mget cfgReset p.cfg off).toNat

/-- Enable Relaxed Ordering, bit 4 of Device Control (R432). -/
def Pcie.relaxOn (p : Pcie) : Bool := (p.word 0x78).testBit 4

/-- The largest write and read requests that Device Control allows, in bytes (R427, R436). -/
def Pcie.maxPayload (p : Pcie) : Nat := 128 * 2 ^ bitsAt (p.word 0x78) 5 3
def Pcie.maxRead (p : Pcie) : Nat := 128 * 2 ^ bitsAt (p.word 0x78) 12 3

/-- The function is in D3hot (R427). -/
def Pcie.asleep (p : Pcie) : Bool := p.word 0x44 % 4 == 3

/-- A double word of configuration space with its stored bits replaced. -/
def Pcie.setWord (p : Pcie) (off v : Nat) : Pcie := { p with cfg := mput cfgReset p.cfg off (BitVec.ofNat 32 v) }

/-- An error that AER reports as uncorrectable, by its bit: its status bit, the first error pointer where no other stands, and the
detection bits of Device Status (R427; log entry 100). -/
def Pcie.aer (p : Pcie) (i : Nat) : Pcie :=
  let old := p.word 0x104
  let p1 := if old = 0 then p.setWord 0x118 (putBits (p.word 0x118) 0 5 i) else p
  let dev := (if (p.word 0x10C).testBit i then 2 ^ 18 else 2 ^ 17) ||| (if i = 20 then 2 ^ 19 else 0)
  (p1.setWord 0x104 (old ||| 2 ^ i)).setWord 0x78 (p.word 0x78 ||| dev)

/-- The same of the machine: 12 a poisoned request, 14 a completion timeout, 20 an unsupported request. -/
def State.aer (s : State) (i : Nat) : State := { s with pcie := s.pcie.aer i }

/-- Nothing crosses between the core and the PCIe controller (R461). -/
def State.pcieDead (s : State) : Bool := s.pwr.cdcDead.testBit 20

/-- A host-memory access cannot be made: bus mastering is disabled, the link is down (R322, R429), the function is in D3hot, or the
crossing to the PCIe controller fails (R461; log entry 101). -/
def State.busOff (s : State) : Bool := !(s.flag glbPcieStatus_Bm && s.pcie.up) || s.pcie.asleep || s.pcieDead

/-- BAR2 and BAR4 answer: the core is released (R441), the chip is not held in reset (R444), the crossing works (R461), and the
function is not in D3hot (R427). -/
def State.barOn (s : State) : Bool := s.pwr.released && !s.pwr.ioLow && !s.pcieDead && !s.pcie.asleep

/-- Bytes of host memory; an unlisted byte reads as 0 (log entry 7). -/
def State.hostBytes (s : State) (a n : Nat) : List Byte := mgetRange (fun _ => 0) s.hostMem a n

/-- Bytes written to host memory by one request. It carries Relaxed Ordering only as a data write of COPY, FILL or RUN, and only while
Device Control enables it (R432). -/
def State.hostPut (s : State) (a : Nat) (bs : List Byte) (data : Bool) : State :=
  { s with
    hostMem := mputRange (fun _ => 0) s.hostMem a bs
    pcie := { s.pcie with posted := some (a, bs.length, data && s.pcie.relaxOn) } }

/-- Bit 63 of an address word: host memory (R297). -/
def isHostAddr (aw : Nat) : Bool := aw.testBit 63

/-- A device address word with a bit of [62:40] set is out of range (R297). -/
def badAddrWord (aw : Nat) : Bool := !isHostAddr aw && bitsAt aw 40 23 != 0

/-- A message of a vector goes out when nothing holds it back (R439); like every host access it needs the link (R429). -/
def State.trySend (s : State) (v : Nat) : State :=
  let w i := mget (fun k => if k % 4 = 3 then (1 : W32) else 0) s.pcie.table (4 * v + i)
  if s.pcie.pending.toNat.testBit v && !(w 3).toNat.testBit 0 && !s.pcie.funcMask && s.pcie.msixEnable
      && !s.busOff then
    { s with pcie := { s.pcie with pending := s.pcie.pending &&& ~~~(BitVec.ofNat 256 (2 ^ v)),
                                   sent := s.pcie.sent ++ [((w 1) ++ (w 0), w 2)] } }
  else s

/-- A vector is signalled: its pending bit is set (R439). The message goes out in MSIX_SEND. -/
def State.signal (s : State) (v : Nat) : State :=
  { s with pcie := { s.pcie with pending := s.pcie.pending ||| BitVec.ofNat 256 (2 ^ (v % 256)) } }

/-! ### Events (R306 to R308) -/

/-- A completion queue beyond its registers. -/
def State.cq (s : State) (q : Nat) : Cq := mget (fun _ => Cq.init) s.stk.cqs q

/-- The state with a completion queue replaced. -/
def State.setCq (s : State) (q : Nat) (c : Cq) : State :=
  { s with stk := { s.stk with cqs := mput (fun _ => Cq.init) s.stk.cqs q c } }

/-- An event entry that arises while event posting is stopped or its route is off (R307, R320). -/
def State.evtLost (s : State) : State := (s.bump stkEvtLostF 1).assertSrc 27

/-- An entry is handed to a completion queue. An event that finds 256 entries held is discarded (R308). -/
def State.hand (s : State) (q : Nat) (e : Entry) : State :=
  let c := s.cq q
  if e.ty ≠ 0 ∧ 256 ≤ c.held.length then
    (((s.bump (stkCqLostF q) 1).raise (stkCqStat_Ovf q)).assertSrc 27)
  else
    s.setCq q { c with held := c.held ++ [e] }

/-- An event with its type, BARRIER source number, cause tick and 32-byte body, handed to a queue that a block names. -/
def State.event (s : State) (q ty src tick : Nat) (body : List Byte) : State :=
  if s.flag stkCtrl_En then s.hand q ⟨ty, 0x200, 0, src, tick, 0, body, false, none, 0⟩ else s.evtLost

/-- An event through STK.EVT_ROUTE, whose enable bit and queue a route index selects: 0 ING, 1 CHM, 2 FLT, 3 ZL (R307). -/
def State.routed (s : State) (route ty src tick : Nat) (body : List Byte) : State :=
  let q := bitsAt (s.getF ⟨stkEvtRoute, 0, 16⟩) (4 * route) 4
  if (s.getF stkEvtRoute_En).testBit route then s.event q ty src tick body else s.evtLost

/-- A body of 32 bytes: the given bytes, then zeros. -/
def body32 (bs : List Byte) : List Byte := (bs ++ List.replicate 32 0).take 32

/-! ### Write refusal (R18) -/

/-- The write-refused status of the block that an offset lies in, where the block has one. -/
def wrRefused (off : Nat) : Option Fld :=
  if off ≤ 0xffff then none
  else if off ≤ 0x1ffff then some pwrStatus_WrRefused
  else if off ≤ 0x2ffff then some fltStatus_WrRefused
  else if off ≤ 0x3ffff then some secStatus_WrRefused
  else if off ≤ 0x7ffff then some timStatus_WrRefused
  else if off ≤ 0xfffff then some ingStatus_WrRefused
  else if off ≤ 0x13ffff then some trgStatus_WrRefused
  else if off ≤ 0x17ffff then some chmStatus_WrRefused
  else if off ≤ 0x1fffff then some zlStatus_WrRefused
  else if off ≤ 0x27ffff then some stkStatus_WrRefused
  else if off ≤ 0x2fffff then some memStatus_WrRefused
  else if off ≤ 0x7fffff then some optStatus_WrRefused
  else if off ≤ 0xefffff then some (grStatus_WrRefused ((off - 0x800000) / 0x4000))
  else if off ≤ 0xffffff then some fabStatus_WrRefused
  else if off ≤ 0x3ffffff then some (hrtUnitStatus_WrRefused ((off - 0x1000000) / 0x8000))
  else none

/-- A write at an offset was refused. -/
def State.refuse (s : State) (off : Nat) : State :=
  match wrRefused off with
  | none => s
  | some f => s.raise f

/-- A field write under a condition (R18): refused when the condition fails and the value would change. -/
def State.setIf (s : State) (ok : Bool) (f : Fld) (v : Nat) : State :=
  if ok then s.setF f v
  else if s.getF f = v % 2 ^ f.width then s
  else s.refuse f.off

end Sys2Proof.Machine
end

