-- ==== Sys2Proof/Machine/Hbm.lean ====
section
/-!
DEFINITION. Operations on HBM: the address map, the sector code, poison, merge buffers, counting and capture, the channel arbiter
(R369 to R388), what ACQ has waiting for it (R28, R270), and the access to an address word that the Stoker's structures use (R297,
R322).
-/
namespace Sys2Proof.Machine

/-! ### Addresses (R370, R371) -/

/-- The first address beyond HBM (R371). -/
def hbmLimit : Nat := 0x4800000000

/-- The pseudo-channel index of a sector (R370): eight sectors to a granule. -/
def pcOf (sec : Nat) : Nat := sec / 8 % 384

/-- The stack of a sector (R370). -/
def stackOf (sec : Nat) : Nat := pcOf sec % 6

/-- The channel of a sector within its stack (R370). -/
def channelOf (sec : Nat) : Nat := pcOf sec / 6 % 32

/-- The pseudo-channel of a sector within its channel (R370). -/
def pseudoOf (sec : Nat) : Nat := pcOf sec / 192

/-- The byte offset of an address within its pseudo-channel (R370). -/
def pcOffset (a : Nat) : Nat := 256 * (a / 256 / 384) + a % 256

/-- A stack that failed training, or whose PLL has lost lock, which is treated alike (R386, R450). -/
def State.stackBad (s : State) (st : Nat) : Bool :=
  s.flag (memStackStatus_Failed st) || !(s.getF pwrPllStatus_Hbm).testBit st

/-- An access to a sector is a decode error: above the range, or in a failed stack (R371, R386); an access that fails at once on the
stack's crossing is taken as one too (R461; log entry 101). -/
def State.secBad (s : State) (sec : Nat) : Bool :=
  decide (hbmLimit ≤ 32 * sec) || s.stackBad (stackOf sec) || s.stackDead (stackOf sec)

/-! ### The sector code (R376) -/

/-- Multiplication by x in GF(2^8) with x^8 + x^4 + x^3 + x^2 + 1. -/
def gfX (a : Nat) : Nat := if a < 128 then 2 * a else (2 * a - 256) ^^^ 0x1D

/-- α^k. -/
def gfPow : Nat → Nat
  | 0 => 1
  | k + 1 => gfX (gfPow k)

/-- The product in GF(2^8), over the n low bits of b. -/
def gfMulBits : Nat → Nat → Nat → Nat
  | 0, _, _ => 0
  | n + 1, a, b => (if b % 2 = 1 then a else 0) ^^^ gfMulBits n (gfX a) (b / 2)

/-- The product in GF(2^8). -/
def gfMul (a b : Nat) : Nat := gfMulBits 8 a b

/-- The power of x that symbol i stands at: data bytes 0 to 31 above the four check symbols (log entry 9). -/
def symPos (i : Nat) : Nat := if i < 32 then 4 + i else i - 32

/-- Syndrome k of an error pattern of 36 symbols, data bytes first. -/
def syndrome (k : Nat) (es : List Nat) : Nat :=
  (es.zipIdx.map fun e => gfMul e.1 (gfPow (k * symPos e.2))).foldl (· ^^^ ·) 0

/-- What decoding a sector finds. -/
inductive SecRead where
  | clean
  | corrected (sym err : Nat)
  | uncorrectable
  deriving DecidableEq, Repr

/-- Decoding by syndromes: any one symbol in error is found, any two are reported (R376). -/
def rsDecode (es : List Nat) : SecRead :=
  let s0 := syndrome 0 es
  let s1 := syndrome 1 es
  let s2 := syndrome 2 es
  let s3 := syndrome 3 es
  if s0 = 0 ∧ s1 = 0 ∧ s2 = 0 ∧ s3 = 0 then .clean
  else
    match leastBelow 36 fun i =>
        let a := gfPow (symPos i)
        s0 != 0 && gfMul s0 a == s1 && gfMul s1 a == s2 && gfMul s2 a == s3 with
    | some i => .corrected i s0
    | none => .uncorrectable

/-! ### Reading the store -/

/-- The 32 stored bytes of a sector. -/
def State.secBytes (s : State) (sec : Nat) : List Byte := mgetRange (fun _ => 0) s.mem.hbm (32 * sec) 32

/-- The difference of the four check symbols of a sector from the correct ones. -/
def State.secDiff (s : State) (sec : Nat) : List Byte := mgetRange (fun _ => 0) s.mem.check (4 * sec) 4

/-- Decoding a sector with the bit errors that this read meets, and those of its hard faults, bits [255:0] of the data and [287:256]
of the check bits: the bytes delivered and the verdict (R377, R378). -/
def State.secDecode (s : State) (sec : Nat) (err : BitVec 288) : List Byte × SecRead :=
  let eb := leBytes 36 (err ^^^ mget (fun _ => 0) s.mem.faults sec).toNat
  let seen := xorBytes (s.secBytes sec) (eb.take 32)
  let es := (eb.take 32 ++ xorBytes (s.secDiff sec) (eb.drop 32)).map BitVec.toNat
  match rsDecode es with
  | .clean => (seen, .clean)
  | .corrected i e =>
    (if i < 32 then listSet seen i (listGet 0 seen i ^^^ BitVec.ofNat 8 e) else seen, .corrected i e)
  | .uncorrectable => (seen, .uncorrectable)

/-! ### Counting and capture -/

/-- A word in the layout of MEM.FE_INFO. -/
def feWord (kind acc master site sec : Nat) : Nat :=
  kind * 2 ^ 30 + acc * 2 ^ 28 + master * 2 ^ 24 + (if master = 3 then site else 0x1FF) * 2 ^ 15
    + stackOf sec * 2 ^ 12 + channelOf sec * 2 ^ 7 + pseudoOf sec * 2 ^ 6

/-- The first uncorrectable read or decode error since FE_VALID was cleared. -/
def State.feCapture (s : State) (kind acc master site sec : Nat) : State :=
  if s.flag memStatus_FeValid then s
  else
    ((((s.raise memStatus_FeValid).setF memFeAddr_Addr (32 * sec)).setWord memFeInfo
      (BitVec.ofNat 32 (feWord kind acc master site sec))).setF memFeFrc_Frc s.stampFrc)

/-- A decode error: counted, marked, captured and raised as MEM_DECODE (R371). Access 0 read, 2 write. -/
def State.decodeError (s : State) (acc master site sec : Nat) : State :=
  let info : BitVec 128 := BitVec.ofNat 128 (32 * sec % 2 ^ 40 + feWord 2 acc master site sec * 2 ^ 40)
  (((s.bump memDecodeErrF 1).raise memStatus_Decode).feCapture 2 acc master site sec).assertSrc 29 info

/-- The leaks of a stack's bucket that are due: 1 for each LEAK·1,024 ticks, down to 0; LEAK 0 stops leaking (R381). -/
def State.bucketLeak (s : State) (st : Nat) : State :=
  let step := s.getF (memStackCfg_Leak st) * 1024
  let from' := mget (fun _ => 0) s.mem.leakFrom st
  let n := (s.tick - from') / step
  if n = 0 then s
  else
    let s1 := { s with mem := { s.mem with leakFrom := mput (fun _ => 0) s.mem.leakFrom st (from' + step * n) } }
    s1.setF (memStackBucket_Level st) (s1.getF (memStackBucket_Level st) - n)

/-- A corrected sector: CE, and the stack's bucket, from which a leak that is due comes first (R377, R381). -/
def State.corrected (s : State) (st : Nat) : State :=
  let s1 := (s.bucketLeak st).bump (memStackCeF st) 1
  let lvl := s1.getF (memStackBucket_Level st) + 1
  if lvl > s1.getF (memStackCfg_BucketSize st) then
    ((s1.setF (memStackBucket_Level st) 0).bump (memStackBucketOvfF st) 1).assertSrc (164 + st) (BitVec.ofNat 128 st)
  else s1.setF (memStackBucket_Level st) lvl

/-- KIND of an uncorrectable sector: 1 where its check symbols carry the pattern that MODE 2 of R388 leaves (log entry 10). -/
def State.ueKind (s : State) (sec : Nat) : Nat := if (s.secDiff sec).drop 2 = [0xFF, 0xFF] then 1 else 0

/-- What a verdict counts and captures. -/
def State.countRead (s : State) (r : SecRead) (acc master site sec : Nat) : State :=
  match r with
  | .clean => s
  | .corrected _ _ => s.corrected (stackOf sec)
  | .uncorrectable => (s.bump (memStackUeF (stackOf sec)) 1).feCapture (s.ueKind sec) acc master site sec

/-! ### Writing a sector -/

/-- The check difference of a poisoned sector (R378). -/
def poisonDiff : List Byte := [0xFF, 0xFF, 0, 0]

/-- The sector write that reaches the stack: fresh check bits or poison, and a pending injection (R379, R388). -/
def State.storeSector (s : State) (sec : Nat) (bs : List Byte) (poison : Bool) : State :=
  let st := stackOf sec
  let hit := s.flag memInj_Armed && s.getF memInj_Stack == st
  let mode := if hit then s.getF memInj_Mode else 0
  let inj : List Byte := if mode = 1 then [0, 0, 0xFF, 0] else if mode = 2 then [0, 0, 0xFF, 0xFF] else [0, 0, 0, 0]
  let diff := xorBytes (if poison then poisonDiff else [0, 0, 0, 0]) inj
  let hbm := mputRange (fun _ => 0) s.mem.hbm (32 * sec) bs
  let check := mputRange (fun _ => 0) s.mem.check (4 * sec) diff
  let s1 := { s with mem := { s.mem with hbm := hbm, check := check } }
  let s2 := if hit then s1.setF memInj_Armed 0 else s1
  if poison ∨ mode = 2 then s2.bump (memStackPoisonWrF st) 1 else s2

/-- The bytes of a merge over a sector: those the mask selects. -/
def mergeBytes (old new : List Byte) (mask : BitVec 32) : List Byte :=
  (old.zip new).zipIdx.map fun p => if mask.toNat.testBit p.2 then p.1.2 else p.1.1

/-- A read-modify-write (R384). -/
def State.rmw (s : State) (sec : Nat) (data : List Byte) (mask : BitVec 32) (poison : Bool) (master site : Nat)
    (err : BitVec 288) : State :=
  let r := s.secDecode sec err
  let s1 := s.countRead r.2 1 master site sec
  let bad := decide (r.2 = .uncorrectable)
  let s2 := if bad then s1.bump (memStackPoisonKeptF (stackOf sec)) 1 else s1
  s2.storeSector sec (mergeBytes r.1 data mask) (poison || bad)

/-- The merge entry that a sector has, if any. -/
def State.held (s : State) (sec : Nat) : Option MergeEnt := s.mem.merge.find? fun e => e.sector == sec

/-- The merge buffers without a sector's entry. -/
def State.dropHeld (s : State) (sec : Nat) : State :=
  { s with mem := { s.mem with merge := s.mem.merge.filter fun e => e.sector != sec } }

/-- An entry leaves its buffer by read-modify-write, which is a decode error in a stack that has failed (R383, R384, R386). -/
def State.writeBack (s : State) (e : MergeEnt) (master site : Nat) (err : BitVec 288) : State :=
  let s1 := s.dropHeld e.sector
  if s.secBad e.sector then s1.decodeError 1 master site e.sector
  else s1.rmw e.sector (leBytes 32 e.data.toNat) e.mask false master site err

/-- A read by any master first writes back the entry of its sector (R383). -/
def State.flushFor (s : State) (sec master site : Nat) : State :=
  match s.held sec with
  | none => s
  | some e => (s.bump (memStackMergeRmwF (stackOf sec)) 1).writeBack e master site 0

/-- The oldest entry of a pseudo-channel whose buffer is full. -/
def State.evictee (s : State) (pc : Nat) : Option MergeEnt :=
  match s.mem.merge.filter fun e => pcOf e.sector == pc with
  | e :: es => if 63 ≤ es.length then some e else none
  | [] => none

/-- Room for a new entry in a pseudo-channel's buffer: the oldest one leaves a full buffer (R383). -/
def State.makeRoom (s : State) (sec master site : Nat) : State :=
  match s.evictee (pcOf sec) with
  | some e => (s.bump (memStackMergeEvictF (stackOf sec)) 1).writeBack e master site 0
  | none => s

/-- A new merge entry. -/
def State.addHeld (s : State) (e : MergeEnt) : State := { s with mem := { s.mem with merge := s.mem.merge ++ [e] } }

/-! ### Accesses to one sector, as granted -/

/-- A granted read of one sector: bytes, and whether they carry poison. A decode error answers zeros with poison (R371, R377). -/
def State.getSector (s : State) (master site sec : Nat) (err : BitVec 288) : State × List Byte × Bool :=
  if s.secBad sec then (s.decodeError 0 master site sec, List.replicate 32 0, true)
  else
    let s1 := s.flushFor sec master site
    let r := s1.secDecode sec err
    (s1.countRead r.2 0 master site sec, r.1, decide (r.2 = .uncorrectable))

/-- A granted write of one sector under a byte mask (R382, R383). A decode error discards it (R371). -/
def State.putSector (s : State) (master site sec : Nat) (data : List Byte) (mask : BitVec 32) (poison : Bool) : State :=
  if s.secBad sec then s.decodeError 2 master site sec
  else if mask = 0 then s
  else if mask = 0xFFFFFFFF then (s.dropHeld sec).storeSector sec data poison
  else
    let old := match s.held sec with
      | none => (List.replicate 32 (0 : Byte), (0 : BitVec 32))
      | some e => (leBytes 32 e.data.toNat, e.mask)
    let data' := mergeBytes old.1 data mask
    let mask' := old.2 ||| mask
    if poison then (s.dropHeld sec).rmw sec data' mask' true master site 0
    else if mask' = 0xFFFFFFFF then (s.dropHeld sec).storeSector sec data' false
    else if (s.held sec).isSome then
      let put := s.mem.merge.map fun e => if e.sector == sec then { e with data := BitVec.ofNat 256 (ofLe data'), mask := mask' } else e
      { s with mem := { s.mem with merge := put } }
    else (s.makeRoom sec master site).addHeld ⟨sec, BitVec.ofNat 256 (ofLe data'), mask', s.cyc, master, site⟩

/-- The part of a run of bytes that falls into the first sector, at an offset in it: data and mask. -/
def secPart (off : Nat) (bs : List Byte) : List Byte × BitVec 32 :=
  let n := min (32 - off) bs.length
  ((List.replicate off 0 ++ bs.take n ++ List.replicate 32 0).take 32, BitVec.ofNat 32 ((2 ^ n - 1) * 2 ^ off))

/-- The number of sectors that n bytes at an address touch. -/
def sectorSpan (a n : Nat) : Nat := if n = 0 then 0 else (a + n - 1) / 32 - a / 32 + 1

/-! ### What ACQ has waiting (R28, R270, R274) -/

/-- A pool beyond its registers. -/
def State.pool (s : State) (c : Nat) : Pool := mget (fun _ => Pool.init) s.pools c

/-- The state with a pool replaced. -/
def State.setPool (s : State) (c : Nat) (p : Pool) : State := { s with pools := mput (fun _ => Pool.init) s.pools c p }

/-- RING_SIZE in bytes. -/
def State.ringSize (s : State) (c : Nat) : Nat := 4096 * s.getF (trgPoolRingSize_Size c)

/-- The device address of a stream position of a pool (R270). -/
def State.ringAddr (s : State) (c at' : Nat) : Nat := 4096 * s.getF (trgPoolRingBase_Addr c) + at' % s.ringSize c

/-- A pool with buffered bytes for a pseudo-channel, and the bytes of its buffer up to the end of the first sector there. -/
def State.acqWaits (s : State) (pc : Nat) : Option (Nat × Nat) :=
  s.pools.findSome? fun e =>
    let n := e.2.wbuf.length
    let a (i : Nat) : Nat := s.ringAddr e.1 (e.2.pos - n + i)
    ((List.range n).find? fun i => pcOf (a i / 32) == pc).map fun i => (e.1, min n (i + 32 - a i % 32))

/-- The first bytes of a pool's write buffer written to its ring, in at most k sectors, by a sector write. -/
def State.acqPut (put : Nat → List Byte → BitVec 32 → State → State) (s : State) (c n : Nat) : Nat → State
  | 0 => s
  | k + 1 =>
    let p := s.pool c
    let a := s.ringAddr c (p.pos - p.wbuf.length)
    let m := min n (min (32 - a % 32) p.wbuf.length)
    if m = 0 then s
    else
      let x := secPart (a % 32) (p.wbuf.take m)
      (put (a / 32) x.1 x.2 (s.setPool c { p with wbuf := p.wbuf.drop m })).acqPut put c (n - m) k

/-! ### The channel arbiter (R28, R373, R374) -/

/-- The requests that wait at a pseudo-channel, oldest first. -/
def State.waitsAt (s : State) (pc : Nat) : List HbmReq := s.mem.waits.filter fun r => pcOf (r.addr / 32) == pc

/-- A pseudo-channel has granted a master: class 0 remembers which side was served, class 1 moves its pointer past the master. -/
def State.arbMove (s : State) (pc master : Nat) : State :=
  if 3 ≤ master then { s with mem := { s.mem with arb := mput (fun _ => 0) s.mem.arb pc master } }
  else { s with mem := { s.mem with turn := mput (fun _ => 0) s.mem.turn pc (b2n (master != 1)) } }

/-- The replay side of class 0 was served last, so that ACQ's side comes next. -/
def State.acqNext (s : State) (pc : Nat) : Bool := mget (fun _ => 0) s.mem.turn pc == 0

/-- The waiting request that a pseudo-channel picks: class 0 first, where ACQ with the snapshot and the replay alternate; then the
first master from the pointer on; of one master, its oldest request. While the crossing to its stack resynchronises everything waits
(R462). -/
def State.arbPick (s : State) (pc : Nat) : Option HbmReq :=
  let ws := s.waitsAt pc
  let acq := ws.find? fun r => r.master == 0 || r.master == 2
  let rep := ws.find? fun r => r.master == 1
  let one := (List.range 8).findSome? fun i => ws.find? fun r => r.master == 3 + (mget (fun _ => 0) s.mem.arb pc - 2 + i) % 8
  if s.syncing (14 + pc % 6) then none else if s.acqNext pc then (acq.or rep).or one else (rep.or acq).or one

/-- A request is granted: the access is made, and a read's bytes are delivered. -/
def State.hbmServe (s : State) (r : HbmReq) : State :=
  let sec := r.addr / 32
  let s1 := { s with mem := { s.mem with waits := s.mem.waits.erase r } }.arbMove (pcOf sec) r.master
  match r.put with
  | some (mask, data, poison) => s1.putSector r.master 0x1FF sec (leBytes 32 data.toNat) mask poison
  | none =>
    let q := s1.getSector r.master 0x1FF sec r.err
    { q.1 with mem := { q.1.mem with out := q.2.1, outPoison := q.2.2 } }

/-- ACQ's turn at a pseudo-channel: one sector of what it has waiting. -/
def State.acqTurn (s : State) (pc : Nat) : State :=
  match s.acqWaits pc with
  | none => s
  | some (c, n) => (s.acqPut (fun sec data mask s => s.putSector 0 0x1FF sec data mask false) c n 2049).arbMove pc 0

/-- All that ACQ has waiting at a pseudo-channel, at most n sectors. -/
def State.acqAll (s : State) (pc : Nat) : Nat → State
  | 0 => s
  | n + 1 => if (s.acqWaits pc).isSome then (s.acqTurn pc).acqAll pc n else s

/-- Waiting requests are granted one after another, at most n, those of class 0 alone where `zero` is set. -/
def State.hbmServeAll (s : State) (pc : Nat) (zero : Bool) : Nat → State
  | 0 => s
  | n + 1 => match s.arbPick pc with
    | none => s
    | some r => if zero && decide (3 ≤ r.master) then s else (s.hbmServe r).hbmServeAll pc zero n

/-- How far a class 1 master stands behind the pointer of a pseudo-channel. -/
def State.arbDistance (s : State) (pc master : Nat) : Nat := (master - 3 + 8 - (mget (fun _ => 0) s.mem.arb pc - 2) % 8) % 8

/-- Waiting requests of class 1 that the pointer puts before a master, or that the master made before, are granted, at most n. -/
def State.hbmServeAhead (s : State) (pc master : Nat) : Nat → State
  | 0 => s
  | n + 1 => match s.arbPick pc with
    | none => s
    | some r =>
      if s.arbDistance pc r.master ≤ s.arbDistance pc master then (s.hbmServe r).hbmServeAhead pc master n else s

/-- The slot of this cycle at a pseudo-channel is taken. -/
def State.takeSlot (s : State) (pc : Nat) : State :=
  { s with mem := { s.mem with slots := mput (fun _ => 0) s.mem.slots pc (s.cyc + 1) } }

/-- What goes before an access of a command at a pseudo-channel: waiting requests of class 0, all that ACQ has waiting before a class 1
master and the waiting requests that the pointer puts before it, or ACQ's one turn before a replay read (R28, R373, R374; log entry 11). -/
def State.hbmGrant (s : State) (pc master : Nat) : State :=
  let n := (s.waitsAt pc).length
  let s1 := s.hbmServeAll pc true n
  let s2 := if 3 ≤ master then (s1.acqAll pc 128).hbmServeAhead pc master n
    else if master = 1 ∧ s1.acqNext pc then s1.acqTurn pc else s1
  (s2.arbMove pc master).takeSlot pc

/-- A slot of a pseudo-channel, one in a core cycle: the request that the arbiter picks is granted, unless what ACQ has waiting goes
first (R28, R373; log entry 11). -/
def State.slotGrant (s : State) (pc : Nat) : State :=
  match s.arbPick pc with
  | none => s
  | some r =>
    if mget (fun _ => 0) s.mem.slots pc = s.cyc + 1 then s
    else if (s.acqWaits pc).isSome && (decide (3 ≤ r.master) || (r.master == 1 && s.acqNext pc)) then (s.takeSlot pc).acqTurn pc
    else (s.takeSlot pc).hbmServe r

/-- A request reaches its pseudo-channel; one that is a decode error is answered at once (R371, R373). -/
def State.hbmRequest (s : State) (r : HbmReq) : State :=
  let s1 := { s with mem := { s.mem with waits := s.mem.waits ++ [r] } }
  if s.secBad (r.addr / 32) then s1.hbmServe r else s1.slotGrant (pcOf (r.addr / 32))

/-- Nothing goes before a request for a sector: none waits at its pseudo-channel, the slot of this cycle is free, and ACQ has nothing
waiting there. -/
def State.hbmIdle (s : State) (sec : Nat) : Bool :=
  (s.waitsAt (pcOf sec)).isEmpty && mget (fun _ => 0) s.mem.slots (pcOf sec) != s.cyc + 1 && (s.acqWaits (pcOf sec)).isNone
    && !s.syncing (14 + stackOf sec)

/-- A pseudo-channel has nothing to grant in this cycle. -/
def State.channelIdle (s : State) (pc : Nat) : Bool :=
  (s.waitsAt pc).isEmpty && (s.acqWaits pc).isNone && mget (fun _ => 0) s.mem.slots pc != s.cyc + 1

/-- A refresh falls due: it is taken in a slot that is free while nothing waits, or before everything that waits where it has reached
its postponement limit; no rule says when it has, so that is a free value (R373, R375; log entry 11). -/
def State.refreshDue (s : State) (pc : Nat) : State :=
  if s.channelIdle pc then s.takeSlot pc
  else
    let r := s.draw 1
    let s1 := r.2
    if r.1 = 1 ∧ mget (fun _ => 0) s1.mem.slots pc ≠ s1.cyc + 1 then s1.takeSlot pc
    else { s1 with mem := { s1.mem with due := s1.mem.due ++ [(pc, decide (r.1 = 1))] } }

/-- The refreshes of a list that are due, in a cycle that begins: one at its limit takes the slot, and another waits on. -/
def State.refreshFirst (s : State) : List (Nat × Bool) → State
  | [] => s
  | d :: ds =>
    if d.2 && mget (fun _ => 0) s.mem.slots d.1 != s.cyc + 1 then
      (({ s with mem := { s.mem with due := s.mem.due.erase d } }).takeSlot d.1).refreshFirst ds
    else s.refreshFirst ds

/-- The refreshes of a list that are due, once the requests of the cycle are granted: in an idle slot one is taken. -/
def State.refreshIdle (s : State) : List (Nat × Bool) → State
  | [] => s
  | d :: ds =>
    if s.channelIdle d.1 then (({ s with mem := { s.mem with due := s.mem.due.erase d } }).takeSlot d.1).refreshIdle ds
    else
      let r := s.draw 1
      let due := if r.1 = 1 then r.2.mem.due.erase d ++ [(d.1, true)] else r.2.mem.due
      ({ r.2 with mem := { r.2.mem with due := due } }).refreshIdle ds

/-- A slot for each request that waits, by the pseudo-channels of a list. -/
def State.slotGrants (s : State) : List Nat → State
  | [] => s
  | pc :: pcs => (s.slotGrant pc).slotGrants pcs

/-! ### Accesses of a master -/

/-- A read of one sector by a command. -/
def State.readSector (s : State) (master site sec : Nat) (err : BitVec 288) : State × List Byte × Bool :=
  (if s.secBad sec then s else s.hbmGrant (pcOf sec) master).getSector master site sec err

/-- A write of one sector by a command. -/
def State.writeSector (s : State) (master site sec : Nat) (data : List Byte) (mask : BitVec 32) (poison : Bool) : State :=
  (if s.secBad sec then s else s.hbmGrant (pcOf sec) master).putSector master site sec data mask poison

/-- Reading k sectors from one on: bytes and poison. -/
def State.readSectors (s : State) (master site sec : Nat) : Nat → State × List Byte × Bool
  | 0 => (s, [], false)
  | k + 1 =>
    let r := s.readSector master site sec 0
    let q := r.1.readSectors master site (sec + 1) k
    (q.1, r.2.1 ++ q.2.1, r.2.2 || q.2.2)

/-- An access of a master that reads n bytes at a device address: bytes and poison. -/
def State.hbmRead (s : State) (master site a n : Nat) : State × List Byte × Bool :=
  let r := s.readSectors master site (a / 32) (sectorSpan a n)
  (r.1, (r.2.1.drop (a % 32)).take n, r.2.2)

/-- Writing over k sectors from one on; the bytes begin at an offset in the first. -/
def State.writeSectors (s : State) (master site sec off : Nat) (bs : List Byte) (poison : Bool) : Nat → State
  | 0 => s
  | k + 1 =>
    let x := secPart off bs
    (s.writeSector master site sec x.1 x.2 poison).writeSectors master site (sec + 1) 0 (bs.drop (32 - off)) poison k

/-- An access of a master that writes bytes at a device address. -/
def State.hbmWrite (s : State) (master site a : Nat) (bs : List Byte) (poison : Bool) : State :=
  s.writeSectors master site (a / 32) (a % 32) bs poison (sectorSpan a bs.length)

/-- The first n bytes of a pool's write buffer reach HBM. -/
def State.acqDrain (s : State) (c n : Nat) : State :=
  s.acqPut (fun sec data mask s => s.writeSector 0 0x1FF sec data mask false) c n n

/-- Every merge entry of a stack that still works is written back before self refresh; the others are lost (R387). -/
def State.writeBackAll (s : State) : List MergeEnt → State
  | [] => { s with mem := { s.mem with merge := [] } }
  | e :: es =>
    (if s.stackBad (stackOf e.sector) then s else s.writeBack e e.master e.site 0).writeBackAll es

/-! ### Address words (R297, R322) -/

/-- What a read of n bytes at an address word gives: bytes, poison, and whether it was a host access that the bus refused. -/
def State.awRead (s : State) (master aw n : Nat) : State × List Byte × Bool × Bool :=
  if isHostAddr aw then
    if s.busOff then let r := s.drawBytes n; (r.2, r.1, true, true)
    else (s, s.hostBytes (aw % 2 ^ 63) n, false, false)
  else let r := s.hbmRead master 0x1FF (aw % 2 ^ 40) n; (r.1, r.2.1, r.2.2, false)

/-- A write of bytes at an address word, and whether it was a host access that the bus discarded. Poison reaches HBM only. `data` tells a
data write of COPY, FILL or RUN from the device's own entries (R432). -/
def State.awWrite (s : State) (master aw : Nat) (bs : List Byte) (poison : Bool) (data : Bool := false) : State × Bool :=
  if isHostAddr aw then
    if s.busOff then (s, true) else (s.hostPut (aw % 2 ^ 63) bs data, false)
  else (s.hbmWrite master 0x1FF (aw % 2 ^ 40) bs poison, false)

end Sys2Proof.Machine
end

