-- ==== Sys2Proof/Machine/StkOps.lean ====
section
/-!
DEFINITION. Operations on descriptors that several families share: the fields of a descriptor, descriptors in flight, and
their completion (R302 to R308).
-/
namespace Sys2Proof.Machine

/-- The n-byte little-endian field of a descriptor at an offset (R303). -/
def dfield (d : List Byte) (off n : Nat) : Nat := ofLe ((d.drop off).take n)

/-- The descriptor in flight with a tag. -/
def State.fly (s : State) (tag : Nat) : Option Fly := s.stk.flights.find? fun f => f.tag == tag

/-- The state with a descriptor in flight replaced. -/
def State.setFly (s : State) (f : Fly) : State :=
  { s with stk := { s.stk with flights := s.stk.flights.map fun g => if g.tag == f.tag then f else g } }

/-- A descriptor leaves flight: its tag is free again (R302). -/
def State.dropFly (s : State) (tag : Nat) : State :=
  { s with stk := { s.stk with flights := s.stk.flights.filter fun f => f.tag != tag } }

/-- The opcode, FLAGS bits and completion queue of a descriptor. -/
def dOp (d : List Byte) : Nat := dfield d 0 1
def dIrq (d : List Byte) : Bool := (dfield d 1 1).testBit 0
def dQuiet (d : List Byte) : Bool := (dfield d 1 1).testBit 1
def dRepro (d : List Byte) : Bool := (dfield d 1 1).testBit 2
def dTag (d : List Byte) : Nat := dfield d 2 2 % 512
def dCq (d : List Byte) : Nat := dfield d 4 1 % 16

/-- Completion status codes of class 0 (R306). -/
def stOk : Nat := 0x00
def stCancelled : Nat := 0x01
def stAborted : Nat := 0x02
def stBadOpcode : Nat := 0x03
def stBadOperand : Nat := 0x04
def stPoison : Nat := 0x05
def stTimeout : Nat := 0x06
def stBusy : Nat := 0x07
def stShort : Nat := 0x08
def stNoGraph : Nat := 0x09
def stSuspect : Nat := 0x0A
def stBusOff : Nat := 0x0B

/-- A loader status of class 1 (R306, R211). -/
def stLoader (code : Nat) : Nat := 0x100 + code

/-- A descriptor in flight ends with a status and a result: its completion goes to its queue, and its tag stays until the
entry is posted. A QUIET descriptor that is OK leaves no entry, and neither does one that a function-level reset abandoned (R302, R303,
R306, R308, R442). -/
def State.complete (s : State) (tag status result : Nat) : State :=
  match s.fly tag with
  | none => s
  | some f =>
    if f.ended then s
    else if f.orphan || (dQuiet f.bytes && status == stOk) then s.dropFly tag
    else
      (s.setFly { f with begun := true, ended := true }).hand (dCq f.bytes)
        ⟨0, tag, status, f.sq, s.tick, result, List.replicate 32 0, dIrq f.bytes, some tag, 0⟩

/-- A descriptor's work is done but for its data, which has still to land (R305). -/
def State.landing (s : State) (tag status result : Nat) : State :=
  match s.fly tag with
  | none => s
  | some f => s.setFly { f with begun := true, outcome := some (status, result) }

/-- A descriptor whose operation has not begun, by its tag and opcode: its bytes. -/
def State.startable (s : State) (tag op : Nat) : Option (List Byte) :=
  match s.fly tag with
  | none => none
  | some f => if !f.begun && dOp f.bytes == op then some f.bytes else none

/-- The descriptor's operation has begun. -/
def State.begin (s : State) (tag : Nat) : State :=
  match s.fly tag with
  | none => s
  | some f => s.setFly { f with begun := true }

/-! ### The ends of loader descriptors (R211, R226) -/

/-- A load, swap or scan ends with a code of the load status table: LOAD_STATUS, LOAD_LOC and the completion (R211). -/
def State.loaderEnd (s : State) (tag code sect src cons result : Nat) : State :=
  ((((s.setF glbLoadStatus_Code code).setF glbLoadStatus_Section sect).setF glbLoadLoc_SrcSite src).setF glbLoadLoc_ConsSite
    cons).complete tag (stLoader code) result

/-- A load, swap or scan ends with a code and no section or route to name. -/
def State.loaderDone (s : State) (tag code result : Nat) : State := s.loaderEnd tag code 0xFF 0x1FF 0x1FF result

/-- No release is pending any more; a FULL load that waited for it completes with LOAD_OK and RESULT 0 (R226). -/
def State.cancelRelease (s : State) : State :=
  let s1 := { s with hearth := { s.hearth with runAt := none, runTag := none } }.setF glbImgState_ReleasePending 0
  match s.hearth.runTag with
  | none => s1
  | some t => s1.loaderDone t 0 0

end Sys2Proof.Machine
end

