-- ==== Sys2Proof/Machine/Firebox.lean ====
section
/-!
DEFINITION. Operations of the Firebox: lifecycle and signature blocks, boot and bring-up, leaves, the attestation report, and
the serving of requests (R408 to R426).
-/
namespace Sys2Proof.Machine

/-! ### Trust (R409 to R411) -/

/-- The lifecycle state: 0 VENDOR, 1 ENROLLED, 2 OWNER (R410). OWNER_SET 0 with VENDOR_OFF 1 is no state of the table. -/
def Sec.lifecycle (c : Sec) : Nat := if !c.ownerSet then 0 else if c.vendorOff then 2 else 1

/-- A key is accepted in a lifecycle state: 0 vendor, 1 owner (R410). -/
def Sec.accepts (c : Sec) (keyId : Nat) : Bool :=
  if keyId = 0 then c.lifecycle != 2 else keyId == 1 && c.lifecycle != 0

/-- LEAF_BLOCKS as it reads: a bit is programmed when either of its cells is (R409). -/
def Sec.leafBlocks (c : Sec) : BitVec 1024 := c.leafA ||| c.leafB

/-- FW_SVN as it reads: the count of programmed bits, each programmed when either of its cells is (R409, R412). -/
def Sec.fwSvn (c : Sec) : Nat := ((List.range 64).filter fun i => (c.svnA ||| c.svnB).getLsbD i).length

/-- The cells of FW_SVN with the thermometer code of a version programmed as well. -/
def Sec.programSvn (c : Sec) (svn : Nat) : Sec :=
  let m := BitVec.ofNat 64 (2 ^ min svn 64 - 1)
  { c with svnA := c.svnA ||| m, svnB := c.svnB ||| m }

/-- A key of the Firebox: HMAC-SHA-256 of the PUF root key and a label (R412). -/
def Sec.key (c : Sec) (label : List Byte) : List Byte := hmac256 (leBytes 32 (Config.pufRoot c.helper).toNat) label

/-- The ASCII labels "ID-SEED", "ID-I", "KEM-D", "KEM-Z" and "SCAN" (R412). -/
def labelIdSeed : List Byte := [0x49, 0x44, 0x2D, 0x53, 0x45, 0x45, 0x44]
def labelIdI : List Byte := [0x49, 0x44, 0x2D, 0x49]
def labelKemD : List Byte := [0x4B, 0x45, 0x4D, 0x2D, 0x44]
def labelKemZ : List Byte := [0x4B, 0x45, 0x4D, 0x2D, 0x5A]
def labelScan : List Byte := [0x53, 0x43, 0x41, 0x4E]

/-- A tree of the identity key: 0 the top tree, b + 1 bottom tree b (R414). -/
def Sec.identTree (c : Sec) (n : Nat) : LmsKey :=
  let a := c.key labelIdSeed
  let b := c.key labelIdI
  ⟨Config.treeIdent a b n, Config.otsSecret a b n, Config.otsRandom a b n⟩

/-- The device's 60-byte HSS public key: two levels, both LMS_SHA256_M32_H10 with LMOTS_SHA256_N32_W4 (R414). -/
def Sec.publicKey (c : Sec) : List Byte := beBytes 4 2 ++ (c.identTree 0).public

/-- The device signature of a digest with a global leaf: top leaf b signs bottom tree b, whose leaf j signs (R414). -/
def Sec.deviceSign (c : Sec) (q : Nat) (digest : List Byte) : List Byte :=
  hssSign (c.identTree 0) (c.identTree (q / 1024 + 1)) q digest

/-- The bytes of DEVICE_ID, SHA-256 of the public key (R414). -/
def Sec.deviceIdBytes (c : Sec) : List Byte := sha256 c.publicKey

/-- The device's ML-KEM-1024 keys (R421). -/
def Sec.kemKeys (c : Sec) : KemKeys := kemKeyGen (c.key labelKemD) (c.key labelKemZ)

/-- A byte of the boot flash, and n bytes from an offset on; an erased byte reads 0xFF. -/
def Sec.flashBytes (c : Sec) (off n : Nat) : List Byte := mgetRange (fun _ => 0xFF) c.flash off n

/-- A region of the boot flash, with offsets from its start (R478). -/
def Sec.region (c : Sec) (base size : Nat) : SMap Byte :=
  (c.flash.filter fun e => decide (base ≤ e.1 ∧ e.1 < base + size)).map fun e => (e.1 - base, e.2)

/-- The boot flash with the contents of one region replaced. -/
def Sec.setRegion (c : Sec) (base size : Nat) (m : SMap Byte) : SMap Byte :=
  (c.flash.filter fun e => decide (e.1 < base)) ++ ((m.filter fun e => decide (e.1 < size)).map fun e => (e.1 + base, e.2))
    ++ c.flash.filter fun e => decide (base + size ≤ e.1)

/-- The KEM certificate in the boot flash: DEVICE_ID, the encapsulation key, and the device signature (R421, R478). -/
def Sec.kemCertificate (c : Sec) : List Byte := c.flashBytes 0x1000 (32 + 1568 + 5076)

/-- The signer's public key in a signature block. -/
def sbKey (blk : List Byte) : List Byte := (blk.drop 16).take 60

/-- A signature block is well formed and its signature verifies over a digest, whatever its key (R411). hssVerify admits the parameters
of R411 alone, at every level. -/
def sbVerifies (blk digest : List Byte) : Bool :=
  let n := dfield blk 8 4
  dfield blk 0 4 == 0x4B534948 && decide (128 + n ≤ blk.length)
    && hssVerify (sbKey blk) digest ((blk.drop 128).take n)

/-- A signature block passes: the key's hash is the OTP's, the key is accepted, and the signature verifies (R411). -/
def Sec.sbOk (c : Sec) (blk digest : List Byte) : Bool :=
  let keyId := dfield blk 4 1
  let hash := if keyId = 0 then c.vendorHash else c.ownerHash
  c.accepts keyId && sha256N (sbKey blk) == hash && sbVerifies blk digest

/-! ### Boot and bring-up (R412, R415, R417) -/

/-- The region of firmware slot A (false) or B (true): base and size (R478). -/
def slotRegion (b : Bool) : Nat × Nat := if b then (0x1000000, 0x1000000) else (0x100000, 0xF00000)

/-- A firmware slot that passes: digest, SVN and version. The object that the header describes is followed by its signature block, which
lies in the slot (R411, R412). -/
def Sec.slotOk (c : Sec) (b : Bool) : Option (List Byte × Nat × W32) :=
  let r := slotRegion b
  match Config.firmwareHeader (c.region r.1 r.2) with
  | none => none
  | some (len, svn, version) =>
    let sigLen := dfield (c.flashBytes (r.1 + len) 128) 8 4
    let digest := sha256 (c.flashBytes r.1 len)
    if decide (len + 128 + sigLen ≤ r.2) && c.sbOk (c.flashBytes (r.1 + len) (128 + sigLen)) digest && decide (c.fwSvn ≤ svn) then
      some (digest, svn, version)
    else none

/-- The lowest block whose bit is unprogrammed, 1,024 when there is none (R417). -/
def Sec.lowestBlock (c : Sec) : Nat := (leastBelow 1024 fun b => !c.leafBlocks.getLsbD b).getD 1024

/-- Node r of the top-tree table in the boot flash, r from 1 to 2,047 in rising order (R415, R478; log entry 117). -/
def Sec.tableNode (c : Sec) (r : Nat) : List Byte := c.flashBytes (0x4000 + 32 * (r - 1)) 32

/-- The table reproduces the top root: node 1 is the root, and every other inner node the hash of its two children (R415). -/
def Sec.tableOk (c : Sec) : Bool :=
  let k := c.identTree 0
  c.tableNode 1 == k.node 10 1 && (List.range 1024).all fun r => r == 0 ||
    c.tableNode r == sha256 (k.id ++ beBytes 4 r ++ beBytes 2 0x8383 ++ c.tableNode (2 * r) ++ c.tableNode (2 * r + 1))

/-- The 2,047 nodes of the top tree, from the root on. -/
def Sec.topTable (c : Sec) : List Byte :=
  (List.range 11).flatMap fun l => (List.range (2 ^ l)).flatMap fun i => (c.identTree 0).node (10 - l) (2 ^ l + i)

/-- The boot flash with the table rebuilt (R415). -/
def Sec.tableRebuilt (c : Sec) : SMap Byte :=
  c.setRegion 0x4000 0x10000 (mputRange (fun _ => 0xFF) [] 0 c.topTable)

/-- What a reset leaves of the Firebox: its fuses, its flash and the nonces drawn so far. -/
def Sec.afterReset (c : Sec) : Sec :=
  { Sec.cold with vendorHash := c.vendorHash, helper := c.helper, ownerHash := c.ownerHash, ownerSet := c.ownerSet,
                  vendorOff := c.vendorOff, leafA := c.leafA, leafB := c.leafB, svnA := c.svnA, svnB := c.svnB,
                  flash := c.flash, drawn := c.drawn, past := c.past }

/-- FIREBOX_BOOT: slot A, then slot B; the firmware starts, and bring-up begins with the lowest unreserved block. When both
slots fail the core is never released (R412, R415, R417). -/
def State.fireboxBoot (s : State) : State :=
  let c := s.sec.afterReset
  let run (d : List Byte) (svn : Nat) (v : W32) : State :=
    { s with sec := { c with running := true, svn := svn, fwHash := BitVec.ofNat 256 (ofLe d), signalled := true,
                             topBuild := !c.tableOk, block := c.lowestBlock } }.setWord glbFwVersion v
  match c.slotOk false with
  | some (d, svn, v) => run d svn v
  | none => match c.slotOk true with
    | some (d, svn, v) => run d svn v
    | none => { s with sec := { c with bootFailed := true } }.setWord glbFwVersion 0

/-! ### Leaves (R416 to R418) -/

/-- The state of the tree that IDSTATE.TREE reports. -/
def Sec.tree (c : Sec) : Nat :=
  if c.bootFailed then 4
  else if c.topBuild then 0
  else if 1024 ≤ c.block ∨ (c.block = 1023 ∧ 1024 ≤ c.leaf) then 3
  else if c.ready ∧ (c.leaf < 1024 ∨ c.nextReady) then 2
  else 1

/-- What a request that needs a signature gets. -/
inductive Leaf where
  | busy
  | exhausted
  /-- The block's bit failed verification: the block counts as reserved and is never used. -/
  | failed (c : Sec)
  /-- The global leaf index to sign with, and the Firebox with that leaf used. -/
  | use (q : Nat) (c : Sec)
  deriving DecidableEq, Repr

/-- A block's bit is programmed in both cells; the second one of a weak bit does not take (R409, R416). -/
def Sec.reserve (c : Sec) (weak : BitVec 1024) (b : Nat) : Sec :=
  let m := BitVec.ofNat 1024 (2 ^ b)
  { c with leafA := c.leafA ||| m, leafB := c.leafB ||| (m &&& ~~~weak), nextReady := false }

/-- A leaf for one signature: the next block is taken over once the current one is used up, and a block's bit is programmed and
verified before its first leaf is used. A block whose bit fails verification is given up (R416 to R418). -/
def Sec.takeLeaf (c : Sec) (weak : BitVec 1024) : Leaf :=
  match c.tree with
  | 3 => .exhausted
  | 2 =>
    let c1 := if c.leaf < 1024 then c else { c with block := c.block + 1, leaf := 0, nextReady := false }
    let first := !c1.leafBlocks.getLsbD c1.block
    let c2 := if first then c1.reserve weak c1.block else c1
    if first && weak.getLsbD c1.block then .failed { c2 with leaf := 1024 }
    else .use (1024 * c2.block + c2.leaf) { c2 with leaf := c2.leaf + 1 }
  | _ => .busy

/-- Blocks whose bit is unprogrammed. -/
def Sec.unreserved (c : Sec) : Nat := ((List.range 1024).filter fun b => !c.leafBlocks.getLsbD b).length

/-! ### The attestation report (R424) -/

/-- The words of a digest register as bytes. -/
def State.regBytes (s : State) (off n : Nat) : List Byte := (List.range n).flatMap fun i => leBytes 4 (s.word (off + 4 * i)).toNat

/-- The image in force came from an envelope. -/
def State.imgEncrypted (s : State) : Bool :=
  match s.hearth.img with
  | none => false
  | some i => i.encrypted

/-- The 512-byte body of a report for a nonce and a global leaf index. -/
def State.attestBody (s : State) (nonce : List Byte) (q : Nat) : List Byte :=
  let c := s.sec
  leBytes 4 0x54535441 ++ leBytes 2 1 ++ leBytes 2 512 ++ (nonce ++ List.replicate 32 0).take 32 ++ c.deviceIdBytes
    ++ leBytes 32 c.fwHash.toNat ++ leBytes 4 (s.word glbFwVersion).toNat ++ leBytes 4 c.fwSvn
    ++ s.regBytes (glbImgDigest 0) 8 ++ s.regBytes (glbStagedDigest 0) 8 ++ leBytes 32 c.ownerHash.toNat
    ++ leBytes 1 c.lifecycle ++ leBytes 1 c.scopes.toNat ++ leBytes 1 (b2n s.imgEncrypted)
    ++ leBytes 1 (match s.part.grade with | .a => 0xA | .b => 0xB)
    ++ s.regBytes glbReproSig 1 ++ s.regBytes glbReproChk 1 ++ s.regBytes glbFuseMap 1 ++ s.regBytes glbPlaceMap 1
    ++ leBytes 1 (s.getF zlTwinCtrl_Role) ++ leBytes 1 (s.getF zlTwinStatus_State) ++ leBytes 1 (s.getF zlSys_Seat) ++ [0]
    ++ leBytes 8 s.stampFrc ++ leBytes 8 q ++ sha256 c.kemKeys.ek ++ List.replicate 232 0

/-- The 5,588-byte report: the body and the device signature over its digest. -/
def State.attestReport (s : State) (nonce : List Byte) (q : Nat) : List Byte :=
  let body := s.attestBody nonce q
  body ++ s.sec.deviceSign q (sha256 body)

/-! ### Requests (R426) -/

/-- The result codes of the mailbox. -/
def rcOk : Nat := 0
def rcBusy : Nat := 1
def rcDenied : Nat := 2
def rcBadSignature : Nat := 3
def rcBadArg : Nat := 4
def rcExhausted : Nat := 5
def rcOtpFail : Nat := 6
def rcBadCommand : Nat := 7

/-- A mailbox command is served: its result and output wait for FIREBOX_REQUEST_DONE. -/
def State.serve (s : State) (r : Nat) (out : List Byte) : State :=
  { s with sec := { s.sec with busy := some (none, r, 0, out) } }.setF secStatus_Busy 1

/-- A write of SEC.CMD with a command (R426): refused while a request is being served. A stopped Firebox serves nothing, and
after a failed boot only GET_INFO is answered (R412, R413); a chip that VDD_IO holds in reset takes none (R444). -/
def State.mailbox (s : State) (info : Bool) (f : State → State) : State :=
  if s.flag secStatus_Busy then s.refuse secCmd
  else if s.sec.stopped || s.pwr.ioLow || (s.sec.bootFailed && !info) then s
  else f s

/-- The input of a command: the bytes at SEC.ADDR, limited to LEN (R426). -/
def State.mailIn (s : State) (n : Nat) : State × List Byte :=
  let r := s.awRead 10 (s.getF secAddr_Addr) (min n (s.getF secLen_Bytes))
  (r.1, r.2.1)

/-- An ATTEST descriptor is served: a report when a leaf is ready, BUSY without one, SHORT with RESULT 0 when every leaf is
used, and SHORT when MAX is too small (R305, R418, R424). Result codes here are completion statuses. No status is listed for a block
whose programming fails verification: it is a free value, and SEC_FIREBOX asserts (R413, R416; log entry 78). -/
def State.serveAttest (s : State) (tag : Nat) : State :=
  match s.fly tag with
  | none => s
  | some f =>
    let nonce := s.awRead 10 (dfield f.bytes 8 8) 32
    let s1 := nonce.1
    let done (s : State) (r len : Nat) (out : List Byte) : State :=
      { s with sec := { s.sec with busy := some (some tag, r, len, out) } }.setF secStatus_Busy 1
    match s1.sec.takeLeaf s1.part.weakBlocks with
    | .busy => done s1 stBusy 0 []
    | .exhausted => done s1 stShort 0 []
    | .failed c =>
      let d := { s1 with sec := c }.draw 8
      done (d.2.assertSrc 14) d.1.toNat 0 []
    | .use q c =>
      let rep := s1.attestReport nonce.2.1 q
      let max := dfield f.bytes 24 4
      done { s1 with sec := c }
        (if max < rep.length then stShort else if nonce.2.2.2 then stBusOff else if nonce.2.2.1 then stPoison else stOk) rep.length
        (rep.take max)

/-- The Firebox takes the next waiting ATTEST descriptor (R426). -/
def State.serveNext (s : State) : State :=
  match s.sec.busy, s.sec.waiting with
  | none, t :: ts => if s.sec.stopped then s else { s with sec := { s.sec with waiting := ts } }.serveAttest t
  | _, _ => s

end Sys2Proof.Machine
end

