-- ==== Sys2Proof/Machine/IngOps.lean ====
section
/-!
DEFINITION. Questions about ingest lanes and channels that several families ask (R48 to R57, R484).
-/
namespace Sys2Proof.Machine

/-- The fibre of a lane (R38). -/
def fibreOf (lane : Nat) : Nat := lane / 8

/-- The number of fibres of a channel (ING.CH[c].CFG.FIBRES holds it minus 1). -/
def State.chFibres (s : State) (c : Nat) : Nat := s.getF (ingChCfg_Fibres c) + 1

/-- A channel's configuration covers a fibre, whether or not the channel is enabled (R53). -/
def State.chCovers (s : State) (c f : Nat) : Bool :=
  let first := s.getF (ingChCfg_FirstFibre c)
  decide (first ≤ f ∧ f < first + s.chFibres c)

/-- The enabled channel that a lane belongs to. -/
def State.chanOf (s : State) (lane : Nat) : Option Nat :=
  leastBelow 16 fun c => s.flag (ingChCfg_En c) && s.chCovers c (fibreOf lane)

/-- OFFSET for a lane: of its enabled channel, else of the lowest channel that covers its fibre, else 0 (R53). -/
def State.laneOffset (s : State) (lane : Nat) : Nat :=
  match s.chanOf lane with
  | some c => s.getF (ingChTickOffset_Offset c)
  | none => match leastBelow 16 fun c => s.chCovers c (fibreOf lane) with
    | some c => s.getF (ingChTickOffset_Offset c)
    | none => 0

/-- The fibre bit in force (R67). -/
def State.fibreOn (s : State) (f : Nat) : Bool := s.ing.grp.toNat.testBit f

/-- A lane belongs to an enabled channel and its fibre bit is 1. -/
def State.laneUsed (s : State) (lane : Nat) : Bool := (s.chanOf lane).isSome && s.fibreOn (fibreOf lane)

/-- An image with H > 0 is loaded. -/
def State.hotImage (s : State) : Option ImgInfo :=
  match s.hearth.img with
  | some i => if 0 < i.h then some i else none
  | none => none

/-- The channels whose words make up the stream: those of the loaded hot image, whatever has been enabled beside them since
(R50, R66). -/
def State.streamChans (s : State) : List Nat :=
  match s.hotImage with
  | some i => i.channels.map fun e => e.1
  | none => (List.range 16).filter fun c => s.flag (ingChCfg_En c)

/-- The effective delay D (R54). -/
def State.effDelay (s : State) : Nat :=
  match s.hotImage with
  | some i => i.d
  | none => s.getF ingAlign_Delay

/-- The device tick whose lane ticks the current release tick carries, in the 58 bits that a tick index has (R6, R54). -/
def State.relDev (s : State) : Nat := (s.tick + 2 ^ 58 - s.effDelay) % 2 ^ 58

/-- A lane's receiver beyond its registers. -/
def State.lane (s : State) (l : Nat) : Lane := mget (fun _ => Lane.init) s.ing.lanes l

/-- The state with a lane's receiver replaced. -/
def State.setLane (s : State) (l : Nat) (x : Lane) : State :=
  { s with ing := { s.ing with lanes := mput (fun _ => Lane.init) s.ing.lanes l x } }

/-- ARRIVAL as last measured (R53). -/
def State.arrival (s : State) (l : Nat) : Int := sint 10 (s.getF (ingLaneStatus_Arrival l))

/-- The alignment window under a delay (R55). -/
def inWindow (d : Nat) (arr : Int) : Bool := decide (64 * (d : Int) - 704 ≤ arr ∧ arr ≤ 64 * (d : Int) - 72)

/-- STATUS.ALIGN_OK of a lane (R55). -/
def State.alignOk (s : State) (l : Nat) : Bool := (s.lane l).measured && inWindow s.effDelay (s.arrival l)

/-- A lane lacks block lock or tick lock under the conditions of R484. -/
def State.laneLockMissing (s : State) (l : Nat) : Bool :=
  s.flag ingCtrl_En && s.flag (ingLaneCtrl_En l) && s.laneUsed l
    && !(s.flag (ingLaneStatus_BlockLock l) && s.flag (ingLaneStatus_TickLock l))

/-- A used lane's ARRIVAL lies outside the window while release runs (lane error table; log entry 16). -/
def State.laneMisaligned (s : State) (l : Nat) : Bool :=
  s.flag ingCtrl_En && s.flag (ingLaneCtrl_En l) && s.laneUsed l && (s.lane l).measured && !s.alignOk l

/-- The lowest lane that lacks a lock, and the lowest misaligned lane (R398). -/
def State.lowLock (s : State) : Option Nat := leastBelow 256 s.laneLockMissing
def State.lowAlign (s : State) : Option Nat := leastBelow 256 s.laneMisaligned

end Sys2Proof.Machine
end

