-- ==== Sys2Proof/Machine/OptOps.lean ====
section
/-!
DEFINITION. The state machine of a transmit fibre (R463 to R466).
-/
namespace Sys2Proof.Machine

/-- The Flue of a transmit fibre (the transmit fibre table). -/
def txFlue (t : Nat) : Nat := if t < 24 then 4 + t / 4 else if t < 26 then 10 else if t < 28 then 11 else if t < 30 then 12 else 13

/-- Monitor fibres have no companion. -/
def txHasCompanion (t : Nat) : Bool := decide (t < 30)

/-- Transmitter states: the numbers of TX[t].STATE. -/
def txOff : Nat := 0
def txProbe : Nat := 1
def txOn : Nat := 2
def txSafe : Nat := 3
def txFault : Nat := 4

/-- The port of a transmit fibre is enabled; a monitor fibre is in use while a lane loops onto it (R71, R463). -/
def State.txWanted (s : State) (t : Nat) : Bool :=
  if t < 24 then s.flag (zlLinkCfg_En t)
  else if t < 28 then (s.getF chmCtrl_En).testBit (t - 24)
  else if t < 30 then s.flag (timTpCtrl_TxEn (t - 28))
  else (List.range 256).any fun l => s.getF (ingLaneCtrl_Loop l) == 3 && l % 32 / 8 == t - 30

/-- The laser supply of a Flue is there: the switch is closed and the rails VDD_OPT and VDD_LASER are within tolerance
(R444, R465). -/
def State.txSupply (s : State) (t : Nat) : Bool :=
  let good := s.getF pwrRails_Good
  good.testBit 5 && good.testBit 6 && !s.flag (optFlue_SupplyOpen (txFlue t))

/-- A Flue's drivers are held by a block reset. -/
def State.flueHeld (s : State) (k : Nat) : Bool := s.flt.blocked.any fun b => 176 + 3 * k ≤ b.1 && b.1 ≤ 178 + 3 * k

/-- A transmit fibre beyond its registers. -/
def State.tx (s : State) (t : Nat) : Tx := mget (fun _ => Tx.init) s.pwr.txs t

/-- The state with a transmit fibre replaced. -/
def State.setTx (s : State) (t : Nat) (x : Tx) : State :=
  { s with pwr := { s.pwr with txs := mput (fun _ => Tx.init) s.pwr.txs t x } }

/-- A transmitter enters a state; PROBE counts its pulses from entry (R463). -/
def State.txEnter (s : State) (t st : Nat) : State :=
  if s.getF (optTxState_State t) = st then s
  else (s.setF (optTxState_State t) st).setTx t { s.tx t with probeFrom := s.cyc, pulseAt := none }

/-- A probe pulse of 2 ms is in progress (TX[t].STATE.PULSE). -/
def State.txPulsing (s : State) (t : Nat) : Bool :=
  match (s.tx t).pulseAt with
  | none => false
  | some c => decide (s.cyc < c + 3000000)

/-- The state that a transmitter takes by the conditions that hold, in the order FAULT, SAFE, OFF, and otherwise PROBE from
OFF or SAFE, or ON without a companion (R466). Clamp and companion loss come as commands of their own. `safe` is the safe
state in force at the transmitters. -/
def State.txSettle (s : State) (safe : Bool) (t : Nat) : State :=
  let st := s.getF (optTxState_State t)
  if s.flag (optFlue_Fault (txFlue t)) then s.txEnter t txFault
  else if safe then s.txEnter t txSafe
  else if !s.flag (optTxCtrl_Permit t) || !s.txWanted t || s.flueHeld (txFlue t) || !(s.getF pwrRails_Good).testBit 5 then
    s.txEnter t txOff
  else if st = txOff ∨ st = txSafe then s.txEnter t (if txHasCompanion t then txProbe else txOn)
  else s

/-- Every transmitter of a list settled. -/
def State.txSettleAll (s : State) (safe : Bool) : List Nat → State
  | [] => s
  | t :: ts => (s.txSettle safe t).txSettleAll safe ts

/-- The transmitters are in the safe state: it holds and its tick boundary has come (R401). -/
def State.txSafeNow (s : State) : Bool := s.safe && decide (s.flt.safeFrom ≤ s.cyc)

/-- A transmit fibre is lit: its state is not OFF or FAULT, and its lasers have their supply (R444, R445, R463). -/
def State.txLit (s : State) (t : Nat) : Bool :=
  let st := s.getF (optTxState_State t)
  st != txOff && st != txFault && s.txSupply t

/-- One transmitter settled under the present conditions, as after a register write. -/
def State.txUpdate (s : State) (t : Nat) : State := s.txSettle s.txSafeNow t

end Sys2Proof.Machine
end

