-- ==== Sys2Proof/Machine/React.lean ====
section
/-!
DEFINITION. Operations of the Ashpit (conditions of level sources, first-error capture, reactions), block resets, and the
resets of the chip (R389 to R407, R447 to R449).
-/
namespace Sys2Proof.Machine

/-! ### Resets -/

/-- MEM words that a chip reset with the HBM rails up keeps (R387). -/
def memKept (off : Nat) : Bool :=
  decide (memStackCfg 0 ≤ off ∧ off < memStackCfg 6) &&
    (let r := (off - memStackCfg 0) % 0x40; decide (0x08 ≤ r ∧ r ≤ 0x24))

/-- The FE words of a class. -/
def feWords (k off : Nat) : Bool := decide (fltFeSource k ≤ off ∧ off < fltFeSource k + 0x20)

/-- The stack bits FAILED, kept through a chip reset (R387). -/
def State.keepFailed (s old : State) : List Nat → State
  | [] => s
  | i :: is => (s.setF (memStackStatus_Failed i) (old.getF (memStackStatus_Failed i))).keepFailed old is

/-- The end of a reset: the Firebox boots (R412), unless VDD_IO holds the chip in reset (R444). -/
def State.bootOrHold (s : State) : State := if s.pwr.ioLow then { s with sec := s.sec.afterReset } else s.fireboxBoot

/-- Every crossing begins its handshake in this cycle (R462). -/
def State.allSync (s : State) : SMap Nat := (List.range 21).map fun k => (k, s.cyc + 1)

/-- CHIP_RESET: every register, FRC, device time, twin role and SRAM are cleared, and all lasers go dark. HBM is kept with the
merge buffers written back, and with the stacks' counters, levels and FAILED bits unless it must be trained again. The cause
is the source of a CHIP reaction, if one started it; the capture of its class then stays until power-on (R387, R397, R415, R416, R425,
R448). Conditions outside the core go on, so that
the Ashpit collects them after its release. Then the Firebox boots (R412). -/
def State.chipReset (s : State) (cause : Option Nat) : State :=
  let w := s.writeBackAll s.mem.merge
  let cold := State.cold s.part
  let cls := match cause with
    | none => 3
    | some n => match srcInfo n with | none => 3 | some i => i.cls.num
  let ks := if cls < 3 then cls :: s.flt.kept.filter (· != cls) else s.flt.kept
  let keep := w.regs.filter fun e => (memKept e.1 && !s.pwr.hbmLost) || ks.any fun k => feWords k e.1
  let t : State :=
    { cold with
      pending := s.pending
      cyc := s.cyc
      freeIx := s.freeIx
      hostMem := w.hostMem
      hearth := { Hearth.reset with scans := s.hearth.scans }
      regs := keep
      mem := { Mem.reset with hbm := w.mem.hbm, check := w.mem.check, faults := w.mem.faults }
      sec := s.sec
      pcie := { Pcie.reset with sent := s.pcie.sent, perst := s.pcie.perst, drs := s.pcie.drs }
      pwr := { Pwr.cold with hbmLost := s.pwr.hbmLost, ioLow := s.pwr.ioLow, coreLowFrom := s.pwr.coreLowFrom, cdcSync := s.allSync,
                              jtag := s.pwr.jtag, boundary := s.pwr.boundary, shift := s.pwr.shift }
      flt := { Flt.cold with pinHeld := cause.isSome, level := s.flt.level, kept := ks } }
  let t1 := if s.pwr.hbmLost then t else t.keepFailed w (List.range 6)
  let t2 := match cause with
    | none => t1
    | some n => (t1.setF fltResetCause_Ashpit 1).setF fltResetCause_Source n
  t2.bootOrHold

/-- POWER_ON_RESET: everything on die is lost; fuses and boot flash stay, and HBM must be trained and filled (R449). -/
def State.powerOn (s : State) : State :=
  let t : State :=
    { State.cold s.part with
      pending := s.pending
      cyc := s.cyc
      freeIx := s.freeIx
      hostMem := s.hostMem
      hearth := { Hearth.reset with scans := s.hearth.scans }
      mem := { Mem.reset with hbm := s.mem.hbm, check := s.mem.check, faults := s.mem.faults }
      sec := s.sec
      pcie := { Pcie.reset with sent := s.pcie.sent, perst := s.pcie.perst, drs := s.pcie.drs }
      pwr := { Pwr.cold with ioLow := s.pwr.ioLow, cdcSync := s.allSync }
      flt := { Flt.cold with level := s.flt.level } }
  t.bootOrHold

/-! ### Halt and safe state -/

/-- A halt is armed for the tick boundary k; the earliest one counts (R226). -/
def State.armHalt (s : State) (k : Nat) : State :=
  { s with hearth := { s.hearth with haltAt := match s.hearth.haltAt with | none => some k | some j => some (min j k) } }

/-- The tick boundary at which a status bit set now halts the Hearth: the first more than 4 cycles later (R404). -/
def State.reactTick (s : State) : Nat := if s.cycle ≤ 59 then s.tick + 1 else s.tick + 2

/-- The core cycle in which tick k begins. -/
def State.boundary (s : State) (k : Nat) : Nat := s.cyc + (64 * k - s.frc.toNat)

/-- The safe state is entered: its halt and the silence of Flues and TRIG_OUT fall at boundary k, and a release that is pending is
cancelled, with a FULL load that waits for it ending in LOAD_OK and RESULT 0 (R401, R403). -/
def State.enterSafe (s : State) (k : Nat) : State :=
  let t := if s.safe then min s.flt.safeFrom (s.boundary k) else s.boundary k
  let s1 := (if s.hearth.runAt.isSome then s.cancelRelease else s).setF fltStatus_Safe 1
  { s1 with flt := { s1.flt with safeFrom := t } }.armHalt k

/-! ### ERR_OUT_N (R397, R400, R476) -/

/-- A pulse of PIN_CTRL.PULSE microseconds starts 4 cycles from now, or one that has not ended is extended to end that long after the
new start. -/
def State.startPulse (s : State) : State :=
  let start := s.cyc + 4
  let first := match s.flt.pulse with
    | some (a, b) => if s.cyc < b then a else start
    | none => start
  { s with flt := { s.flt with pulse := some (first, start + 1500 * max 2 (s.getF fltPinCtrl_Pulse)) } }

/-- STATUS.PULSE_ACTIVE: a pulse is running. -/
def State.pulseOn (s : State) : Bool :=
  match s.flt.pulse with
  | some (a, b) => decide (a ≤ s.cyc ∧ s.cyc < b)
  | none => false

/-- A pulse that waits for its first cycle. -/
def State.pulseDue (s : State) : Bool :=
  match s.flt.pulse with
  | some (a, _) => decide (s.cyc < a)
  | none => false

/-- The pin is asserted: before the Ashpit's release, in a pulse, from the start of a CHIP pulse to the release, or by HOLD. -/
def State.errOut (s : State) : Bool :=
  !s.flt.released || s.pulseOn || (s.flt.pinHeld && !s.pulseDue) || s.flag fltPinCtrl_Hold

/-! ### Block resets (R394, the reset scopes table) -/

/-- A block is held in reset for 1,024 cycles. -/
def State.holdBlock (s : State) (n : Nat) : State :=
  { s with flt := { s.flt with blocked := (s.flt.blocked.filter fun b => b.1 != n) ++ [(n, s.cyc + 1024)] } }

/-- A block is held in reset. -/
def State.blockHeld (s : State) (n : Nat) : Bool := s.flt.blocked.any fun b => b.1 == n

/-- A lane's receiver is reset: it must relock. Its registers and counters stay, and so does what the aligner holds of the lane: its
lane ticks from before, and what is still to be reported (R62, R65). -/
def State.resetLane (s : State) (l : Nat) : State :=
  let old := s.lane l
  let s1 := s.setLane l { Lane.init with
    measured := old.measured, losses := old.losses + 1, cleanGen := old.cleanGen, offset := old.offset, lastClean := old.lastClean
    buf := if s.flag (ingLaneStatus_TickLock l) && old.pos != 0 then old.buf.drop 1 else old.buf
    rejoin := old.rejoin, lossEv := old.lossEv }
  ((s1.setF (ingLaneStatus_BlockLock l) 0).setF (ingLaneStatus_TickLock l) 0).holdBlock (256 + l)

/-- A side of a crossing is reset: the handshake begins in this cycle (R462). -/
def State.syncFrom (s : State) (k : Nat) : State := { s with pwr := { s.pwr with cdcSync := mput (fun _ => 0) s.pwr.cdcSync k (s.cyc + 1) } }

/-- Lanes reset one after another. -/
def State.resetLanes (s : State) : List Nat → State
  | [] => s
  | l :: ls => (s.resetLane l).resetLanes ls

/-- A Chimney port beyond its registers. -/
def State.chmPort (s : State) (p : Nat) : ChmPort := mget (fun _ => ChmPort.init) s.chm p

/-- The state with a Chimney port replaced. -/
def State.setChm (s : State) (p : Nat) (x : ChmPort) : State := { s with chm := mput (fun _ => ChmPort.init) s.chm p x }

/-- A Zhevvel Link beyond its registers. -/
def State.zlink (s : State) (n : Nat) : ZlLink := mget (fun _ => ZlLink.init) s.zl.links n

/-- The state with a link replaced. -/
def State.setZlink (s : State) (n : Nat) (x : ZlLink) : State :=
  { s with zl := { s.zl with links := mput (fun _ => ZlLink.init) s.zl.links n x } }

/-- The BLOCK reaction of a source. -/
def State.blockReset (s : State) (n : Nat) : State :=
  if n = 16 then s.resetLanes ((List.range 256).filter s.laneLockMissing)
  else if 20 ≤ n ∧ n ≤ 23 then
    let p := n - 20
    let x := s.chmPort p
    ((s.setChm p { x with hist := 0, good := 0, winCnt := 0, winBad := 0 }).setF (chmPortStatus_BlockLock p) 0).holdBlock n
  else if n = 24 ∨ n = 25 then (s.setF (timTpStatus_BlockLock (n - 24)) 0).holdBlock n
  else if 64 ≤ n ∧ n < 160 then
    let k := (n - 64) / 4
    let x := s.zlink k
    (((s.setZlink k { x with goodRun := 0, failRun := 0, frames := [] }).setF (zlLinkStatus_FrameLock k) 0).setF
      (zlLinkStatus_LaneLock k) 0).holdBlock n
  else if 176 ≤ n ∧ n < 218 then
    let k := (n - 176) / 3
    ((s.holdBlock n).syncFrom k).txSettleAll s.txSafeNow ((List.range 34).filter fun t => txFlue t == k)
  else s

/-! ### Conditions of level sources -/

/-- The condition of a level source holds now (R389). -/
def State.levelHolds (s : State) (n : Nat) : Bool :=
  if n = 0 then s.flag fltStatus_SelfFault
  else if n = 16 then s.lowLock.isSome
  else if n = 17 then s.lowAlign.isSome
  else if 20 ≤ n ∧ n ≤ 23 then
    (s.getF chmCtrl_En).testBit (n - 20) && !s.flag (chmPortStatus_BlockLock (n - 20))
  else if n = 24 ∨ n = 25 then s.flag (timTpCtrl_RxEn (n - 24)) && !s.flag (timTpStatus_BlockLock (n - 24))
  else if 64 ≤ n ∧ n < 160 then
    let k := (n - 64) / 4
    if n % 4 = 0 then s.flag (zlLinkCfg_En k) && !s.flag (zlLinkStatus_FrameLock k)
    else n % 4 == 2 && s.flag (zlLinkStatus_LinkDown k)
  else if 170 ≤ n ∧ n < 176 then s.stackBad (n - 170)
  else if 176 ≤ n ∧ n < 218 then n % 3 == 1 && s.flag (optFlue_Fault ((n - 176) / 3))
  else decide (n ∈ s.flt.level)

/-- The capture information that a level source's condition gives (R398). -/
def State.levelInfo (s : State) (n : Nat) : BitVec 128 :=
  let v := if n = 16 then s.lowLock.getD 0 else if n = 17 then s.lowAlign.getD 0
    else if 20 ≤ n ∧ n ≤ 23 then n - 20 else if n = 24 ∨ n = 25 then n - 24
    else if 64 ≤ n ∧ n < 160 then (n - 64) / 4 else if 170 ≤ n ∧ n < 176 then n - 170
    else if 176 ≤ n ∧ n < 218 then (n - 176) / 3 else 0
  BitVec.ofNat 128 v

/-! ### Capture and reactions -/

/-- FIRST_ERROR_CAPTURE (R398): the capture of a class takes the first source to set its bit while VALID is 0. In the same
cycle an integrity source replaces another, and then a lower number; what is not taken sets MULTI. -/
def State.capture (s : State) (n : Nat) (i : SrcInfo) (frc : Nat) (info : BitVec 128) : State :=
  let k := i.cls.num
  let take (s : State) : State :=
    let s1 := ((s.setF (fltFeSource_Source k) n).raise (fltFeSource_Valid k)).setF (fltFeFrc_Frc k) frc
    let s2 := s1.setWords (fltFeInfo k 0) ((List.range 4).map fun j => BitVec.ofNat 32 (bitsAt info.toNat (32 * j) 32))
    { s2 with flt := { s2.flt with capAt := mput (fun _ => 0) s2.flt.capAt k (s.cyc + 1), kept := s2.flt.kept.filter (· != k) } }
  if !s.flag (fltFeSource_Valid k) then take s
  else
    let m := s.setF (fltFeSource_Multi k) 1
    let cur := s.getF (fltFeSource_Source k)
    let curInt := match srcInfo cur with | none => false | some j => j.integrity
    let better := if i.integrity == curInt then decide (n < cur) else i.integrity
    if mget (fun _ => 0) s.flt.capAt k = s.cyc + 1 ∧ better then take m else m

/-- The FAULT event body (R399). -/
def faultBody (n cls reacts cnt frc : Nat) (info : BitVec 128) : List Byte :=
  leBytes 2 n ++ leBytes 1 cls ++ leBytes 1 reacts ++ leBytes 4 cnt ++ leBytes 8 frc ++ leBytes 16 info.toNat

/-- TRAP: the Firebox logs source and FRC, the 64 latest (R396), unless it has stopped (R413). -/
def State.trap (s : State) (n frc : Nat) : State :=
  let l := s.flt.log ++ [(n, frc)]
  if s.sec.stopped then s
  else { s with flt := { s.flt with log := l.drop (l.length - 64) } }

/-- FLT_SELF: SELF_FAULT is set and source 0 asserts (R406). -/
def State.selfFault (s : State) : State := (s.setF fltStatus_SelfFault 1).assertSrc 0

/-- A configuration word is used, and its parity is checked. Words are numbered CTRL, PIN_CTRL, SAFE_CTRL, INJ, HCE_CFG, then
REACT. An upset word fails, and so does CTRL under an injection for FLT_SELF, which the check uses up (R405, R406). -/
def State.useWord (s : State) (w : Nat) : State :=
  let inj := w == 0 && s.flag fltInj_Armed && s.getF fltInj_Source == 0
  let s1 := if inj then s.setF fltInj_Armed 0 else s
  if inj || decide (w ∈ s.flt.upset) then s1.selfFault else s1

/-- Configuration words used one after another. -/
def State.useWords (s : State) : List Nat → State
  | [] => s
  | w :: ws => (s.useWord w).useWords ws

/-- A word's parity bit disagrees with what the word holds. -/
def State.upsetWord (s : State) (w : Nat) : State :=
  if w ∈ s.flt.upset then s else { s with flt := { s.flt with upset := w :: s.flt.upset } }

/-- A write has stored fresh parity with a word (R406). -/
def State.freshParity (s : State) (w : Nat) : State := { s with flt := { s.flt with upset := s.flt.upset.filter (· != w) } }

/-- The number of the configuration word at an offset. -/
def parityWord (off : Nat) : Option Nat :=
  if off = fltCtrl then some 0
  else if off = fltPinCtrl then some 1
  else if off = fltSafeCtrl then some 2
  else if off = fltInj then some 3
  else if off = fltHceCfg then some 4
  else if fltReact 0 ≤ off ∧ off < fltReact 256 then some (5 + (off - fltReact 0) / 4)
  else none

/-- A CHIP reaction is armed. One whose PIN is clear is due at once and takes the place of one that waits for its pulse; otherwise the
first one stays (R397). -/
def State.armChip (s : State) (n : Nat) (pin : Bool) : State :=
  let c := match s.flt.chip with
    | none => (n, pin)
    | some (m, waits) => if waits && !pin then (n, pin) else (m, waits)
  { s with flt := { s.flt with chip := some c, pinHeld := s.flt.pinHeld || pin } }

/-- The reactions of a status bit that has changed from 0 to 1, in the bit order of the reactions table. REACT is used by each, CTRL by
IRQ and PIN_CTRL by PIN (R406). -/
def State.react (s : State) (n : Nat) (i : SrcInfo) (r frc : Nat) (info : BitVec 128) : State :=
  let on (b : Nat) (s : State) (f : State → State) : State := if r.testBit b then f s else s
  let s0 := on 0 (s.useWord (5 + n)) fun s => s.routed 2 0x14 4 (frc / 64) (faultBody n i.cls.num r (s.getF (fltCntF n)) frc info)
  let s1 := on 1 s0 fun s => (s.useWord 0).signal (s.getF fltCtrl_Vector)
  let s2 := on 2 s1 fun s => s.trap n frc
  let s3 := on 3 s2 fun s => (s.useWord 1).startPulse
  let s4 := on 4 s3 fun s => s.armHalt s.reactTick
  let s5 := on 5 s4 fun s => s.blockReset n
  let s6 := on 6 s5 fun s => s.enterSafe s.reactTick
  on 7 s6 fun s => s.armChip n (r.testBit 3)

/-- The reactions that apply to a source: REACT[n], and for FLT_SELF trap, pin and safe state whatever it holds (R406). -/
def State.reactions (s : State) (n : Nat) : Nat :=
  let r := bitsAt (s.word (fltReact n)).toNat 0 8
  if n = 0 then r ||| 0x4C else r

/-- An injection of FLT.INJ at a site for a source: its mode, and the state with the injection used up (R405). -/
def State.takeInj (s : State) (n site : Nat) : Nat × State :=
  if s.flag fltInj_Armed && s.getF fltInj_Source == n && s.getF fltInj_Site == site then
    (s.getF fltInj_Mode, (s.useWord 3).setF fltInj_Armed 0)
  else (0, s)

/-- k increments of VRF_CE, TP_CE, SRAM_CE, LINK_CE or TBL_CE in one cycle (R393), which use HCE_CFG (R406). -/
def State.hearthCe (s : State) (k : Nat) : State :=
  if k = 0 then s
  else
    let lvl := s.getF fltHceBucket_Level + k
    let s1 := s.useWord 4
    if lvl > s.getF fltHceCfg_Size then (s1.setF fltHceBucket_Level 0).assertSrc 1 else s1.setF fltHceBucket_Level lvl

end Sys2Proof.Machine
end

