-- ==== Sys2Proof/Machine/Fabric.lean ====
section
/-!
DEFINITION. Operations of the grates, their queues and the edge ports, which the hot and warm commands share (R113 to R146,
R237 to R239, R486).
-/
namespace Sys2Proof.Machine

/-! ### Sites, grates and edge ports -/

/-- A grate, a unit and an edge port beyond their registers. -/
def State.grate (s : State) (g : Nat) : Grate := mget (fun _ => Grate.init) s.hearth.grates g
def State.unit (s : State) (u : Nat) : HUnit := mget (fun _ => HUnit.init) s.hearth.units u
def State.edge (s : State) (k : Nat) : EdgePort := mget (fun _ => EdgePort.init) s.hearth.edges k

/-- The state with a grate, a unit or an edge port replaced. -/
def State.setGrate (s : State) (g : Nat) (x : Grate) : State :=
  { s with hearth := { s.hearth with grates := mput (fun _ => Grate.init) s.hearth.grates g x } }
def State.setUnit (s : State) (u : Nat) (x : HUnit) : State :=
  { s with hearth := { s.hearth with units := mput (fun _ => HUnit.init) s.hearth.units u x } }
def State.setEdge (s : State) (k : Nat) (x : EdgePort) : State :=
  { s with hearth := { s.hearth with edges := mput (fun _ => EdgePort.init) s.hearth.edges k x } }

/-- GRATE_CFG.MODE and UNIT_CFG.MODE. -/
def State.grMode (s : State) (g : Nat) : Nat := s.getF (grCfg_Mode g)
def State.unitMode (s : State) (u : Nat) : Nat := s.getF (hrtUnitCfg_Mode u)

/-- A grate that runs in relay mode: its course is disabled, or the image does not map it (R116, R202). -/
def State.relay (s : State) (g : Nat) : Bool := s.courseOff (courseOf g) || s.grMode g == 3

/-- The kinds of edge port, and the key of a port (R201). -/
def edgeIngest (course : Nat) : Nat := course
def edgeTrg (course : Nat) : Nat := 32 + course
def edgeWest (course : Nat) : Nat := 64 + course
def edgeEast (course : Nat) : Nat := 96 + course
def edgeCross (xp : Nat) : Nat := 128 + xp

/-- The site whose grate an edge port joins (R114). -/
def edgeSite (key : Nat) : Nat :=
  let i := key % 32
  if key / 32 = 0 ∨ key / 32 = 2 then 12 * i
  else if key / 32 = 1 ∨ key / 32 = 3 then 12 * i + 11
  else if i < 12 then i else 288 + (i - 12)

/-- A delayed effect that lands d running cycles from now. -/
def State.after (s : State) (d : Nat) (a : Act) : State :=
  { s with hearth := { s.hearth with flights := s.hearth.flights ++ [⟨s.hcyc + d, a⟩] } }

/-! ### Time in the schedule (R96, R121, R151) -/

/-- The phase of a tick under an epoch and a period 2^plog. -/
def State.phaseAt (s : State) (epoch plog tick : Nat) : Nat :=
  (((tick : Int) - mget (fun _ => 0) s.hearth.t0s epoch) % (2 ^ plog : Nat)).toNat

/-- The ticks from T0 of an epoch to a tick, modulo 2^58. -/
def State.sinceT0 (s : State) (epoch tick : Nat) : Nat :=
  (((tick : Int) - mget (fun _ => 0) s.hearth.t0s epoch) % (2 ^ 58 : Nat)).toNat

/-- The entry that a grate uses k cycles from now. -/
def State.grEntry (s : State) (g k : Nat) : Nat :=
  let c := s.frc.toNat + k
  64 * s.phaseAt (s.getF (grCfg_Epoch g)) (s.getF (grCfg_Plog g)) (c / 64) + c % 64

/-- A word of a grate's slot table as stored. -/
def Grate.slotWord (g : Grate) (input entry : Nat) : Nat :=
  bitsAt (mget (fun _ => 0) g.tab (64 * input + entry / 16)).toNat (16 * (entry % 16)) 16

/-- The output mask that takes effect: none in slot 63, and no port P2 or P3 at a CU (R113, R123). -/
def slotMask (g : Grate) (site input entry : Nat) : Nat :=
  if entry % 64 = 63 then 0
  else
    let m := g.slotWord input entry % 2048
    if isMu site then m else m &&& 0x73F

/-- The steering operation, a bit of the fire table, and the word of a queue (the table words). -/
def Grate.steerOp (g : Grate) : Nat := bitsAt (mget (fun _ => 0) g.tab 1024).toNat 0 2
def Grate.fires (g : Grate) (entry : Nat) : Bool :=
  (mget (fun _ => 0) g.tab (1025 + entry / 256)).toNat.testBit (entry % 256)
def Grate.qWord (g : Grate) (q : Nat) : Nat :=
  bitsAt (mget (fun _ => 0) g.tab (2048 + q / 8)).toNat (32 * (q % 8)) 32

/-- The fields of a queue word. -/
def qwCredited (w : Nat) : Bool := w.testBit 31
def qwCheckOnly (w : Nat) : Bool := w.testBit 30
def qwInit (w : Nat) : Nat := bitsAt w 20 10
def qwSite (w : Nat) : Nat := bitsAt w 11 9
def qwInput (w : Nat) : Nat := bitsAt w 7 4

/-- A queue of a grate: 0 to 3 IQ, 4 to 7 OQ, 8 SD0, 9 SD1, 10 SC, 11 SO0, 12 SO1. -/
def Grate.queue (g : Grate) (q : Nat) : Queue := mget (fun _ => Queue.init) g.queues q
def Grate.setQueue (g : Grate) (q : Nat) (x : Queue) : Grate :=
  { g with queues := mput (fun _ => Queue.init) g.queues q x }

/-- The depth of a queue by R130. -/
def State.qDepth (s : State) (site q : Nat) : Nat :=
  if q < 8 then (if s.unitMode site = 1 then 16 else 64) else if q < 11 then 16 else 2

/-! ### Faults (R111, R143, R237 to R239) -/

/-- The location record of R237. -/
def State.location (s : State) (site kind code input queue bank bundle epoch mode : Nat) : BitVec 128 :=
  BitVec.ofNat 128 (s.tick % 2 ^ 58 * 2 ^ 70 + s.cycle * 2 ^ 64 + bundle % 1024 * 2 ^ 54 + epoch % 16 * 2 ^ 50 + bank % 32 * 2 ^ 45
    + queue % 16 * 2 ^ 41 + input % 16 * 2 ^ 37 + kind * 2 ^ 35 + s.vcourse (courseOf site) * 2 ^ 30 + courseOf site * 2 ^ 25
    + columnOf site * 2 ^ 21 + mode * 2 ^ 8 + code)

/-- The rank of an instance among those of one source and one cycle (R390). -/
def locRank (site kind : Nat) : Nat := site * 4 + kind

/-- Whether FAULT_INFO takes a new fault: FAULT is 0, or it was captured in this cycle and the new code goes before it
(R239). -/
def infoTakes (fault sameCycle : Bool) (old new : Nat) : Bool :=
  !fault || (sameCycle && ((isIntegrityCode new && !isIntegrityCode old)
    || (isIntegrityCode new == isIntegrityCode old && decide (new < old))))

/-- A fault of a grate (KIND 2), or of an edge port through the grate of its column (KIND 3), under the entry in use. -/
def State.grFaultK (s : State) (g kind code input queue epoch bundle : Nat) : State :=
  let x := s.grate g
  let s1 := if infoTakes (s.flag (grStatus_Fault g)) (x.faultCyc == s.cyc + 1) (s.getF (grFaultInfo0_Code g)) code then
      let t := ((s.setWord (grFaultInfo0 g) (BitVec.ofNat 32 (code * 2 ^ 24 + bundle % 1024 * 2 ^ 14 + input % 16 * 2 ^ 10
        + queue % 16 * 2 ^ 6))).setWord (grFaultInfo1 g) (BitVec.ofNat 32 s.tick))
      t.setGrate g { x with faultCyc := s.cyc + 1 }
    else s
  (s1.raise (grStatus_Fault g)).assertSrc (32 + code)
    (s.location g kind code input queue 0 bundle epoch (s.grMode g)) (locRank g kind)

/-- A fault of a grate. A fault that no crossbar input brings about (STEER_EMPTY, SEQ_MISMATCH, EPOCH_MIX, a fire-table or output-queue
word) is given INPUT 0xF, and SEQ_MISMATCH the queue of SC, since the rules name no value there (DESIGN CHOICE, log entry 86). -/
def State.grFault (s : State) (g code input queue : Nat) : State :=
  s.grFaultK g 2 code input queue (s.getF (grCfg_Epoch g)) (s.grEntry g 0)

/-- The first grate beyond relay grates that a crossing port's token meets, and how many relays lie before it: n courses are
left in the direction of the input. -/
def State.firstGrate (s : State) (input site : Nat) : Nat → Nat × Nat
  | 0 => (site, 0)
  | n + 1 =>
    if s.relay site then
      let r := s.firstGrate input (if input = 2 then site + 12 else site - 12) n
      (r.1, r.2 + 1)
    else (site, 0)

/-- The site whose region and schedule an edge port has: a crossing port behind relay grates belongs to the mapped course nearest its
edge (R115). -/
def State.portSite (s : State) (k : Nat) : Nat :=
  if k / 32 = 4 then (s.firstGrate (if edgeSite k < 12 then 2 else 3) (edgeSite k) 24).1 else edgeSite k

/-- INPUT of an edge port's fault: 0 west and 1 east (R237). A crossing port, south or north, has neither, and is given 0 (DESIGN
CHOICE, log entry 87). -/
def portInput (k : Nat) : Nat := if k / 32 = 1 ∨ k / 32 = 3 then 1 else 0

/-- A fault of an edge port, reported through the grate of its column with QUEUE 0xF (R237, R238). -/
def State.portFault (s : State) (k code : Nat) : State :=
  let p := s.portSite k
  s.grFaultK (edgeSite k) 3 code (portInput k) 0xF (s.getF (grCfg_Epoch p)) (s.grEntry p 0)

/-- A fault of a unit: its code, the AG or port, the lowest bank, the queue, and the bundle at fault. -/
def State.unitFault (s : State) (u code port bank queue bundle : Nat) : State :=
  let x := s.unit u
  let s1 := if infoTakes (s.flag (hrtUnitStatus_Fault u)) (x.faultCyc == s.cyc + 1) (s.getF (hrtFaultInfo0_Code u)) code then
      let t := ((s.setWord (hrtFaultInfo0 u) (BitVec.ofNat 32 (code * 2 ^ 24 + bundle % 1024 * 2 ^ 14 + bank % 32 * 2 ^ 9
        + port % 4 * 2 ^ 7))).setWord (hrtFaultInfo1 u) (BitVec.ofNat 32 s.tick))
      t.setUnit u { x with faultCyc := s.cyc + 1 }
    else s
  (s1.raise (hrtUnitStatus_Fault u)).assertSrc (32 + code)
    (s.location u (b2n (isMu u)) code port queue bank bundle (s.getF (hrtUnitCfg_Epoch u)) (s.unitMode u))
    (locRank u (b2n (isMu u)))

/-- A correctable or uncorrectable table word of a grate, with the queue whose word it is (R144). -/
def State.tblCheck (s : State) (g : Nat) (e : Ecc) (input queue : Nat) : State :=
  match e with
  | .clean => s
  | .corrected => (s.bump (grTblCeF g) 1).hearthCe 1
  | .uncorrectable => (s.bump (grTblUeF g) 1).grFault g 0x19 input queue

/-- The check that an event meets: the one named, or an injection of FLT.INJ at the site (R405). -/
def State.checked (s : State) (code site : Nat) (e : Ecc) : Ecc × State :=
  let r := s.takeInj (32 + code) site
  if r.1 = 1 then (.corrected, r.2) else if r.1 = 2 then (.uncorrectable, r.2) else (e, r.2)

/-- The checks that the words of one read meet: the errors named, and one more that an injection brings (R405). -/
def State.checkedWords (s : State) (code site : Nat) (e : WordErrs) : WordErrs × State :=
  let r := s.takeInj (32 + code) site
  if r.1 = 1 then ({ e with ce := e.ce + 1 }, r.2) else if r.1 = 2 then ({ e with ue := e.ue + 1 }, r.2) else (e, r.2)

/-- The error that a list names for a key. -/
def errAt : List (Nat × Ecc) → Nat → Ecc
  | [], _ => .clean
  | (k, e) :: es, i => if k = i then e else errAt es i

/-- The word of a sending queue of a unit or steering unit is used: whether it acts as depth 0 (R144). -/
def State.outCheck (s : State) (site q : Nat) (e : Ecc) : Bool × State := (e == .uncorrectable, s.tblCheck site e 0xF q)

/-! ### Credits (R133, R136) -/

/-- Keys of senders: a crossbar input of a site, or an edge port. -/
def senderUnit (site input : Nat) : Nat := 16 * site + input
def senderEdge (key : Nat) : Nat := 4800 + key

/-- The site at which a sender's route begins. -/
def senderSite (k : Nat) : Nat := if k < 4800 then k / 16 else edgeSite (k - 4800)

/-- Grates on the way between two sites, both counted. -/
def hops (a b : Nat) : Nat :=
  ((courseOf a : Int) - courseOf b).natAbs + ((columnOf a : Int) - columnOf b).natAbs + 1

/-- A credit starts back from a site to a sender: 2 cycles per grate. -/
def State.creditBack (s : State) (site sender : Nat) : State :=
  { s with hearth := { s.hearth with credits := s.hearth.credits ++ [(sender, s.hcyc + 2 * hops site (senderSite sender))] } }

/-- A receiving queue with a word gives back the credit of a token that left it. A route from an edge port is named by the
token (log entry 21). -/
def State.giveCredit (s : State) (site word : Nat) (t : Token) : State :=
  if !qwCredited word then s
  else if qwSite word = 0x1FF then
    match t.port with
    | some k => s.creditBack site (senderEdge k)
    | none => s
  else s.creditBack site (senderUnit (qwSite word) (qwInput word))

/-! ### Queue heads (R137) -/

/-- A token has reached the head of an input queue: a MARK sets the queue's epoch, and a token of another epoch is poisoned and
recorded. -/
def State.headFix (s : State) (site q : Nat) : State :=
  let g := s.grate site
  let x := g.queue q
  match x.toks with
  | [] => s
  | t :: ts =>
    if !(decide (q < 4) || (decide (8 ≤ q) && decide (q ≤ 10))) then s
    else if t.mark then s.setGrate site (g.setQueue q { x with epoch := t.epoch })
    else if t.epoch = x.epoch then s
    else
      ((s.setGrate site (g.setQueue q { x with toks := { t with poison := true } :: ts })).bump (grEpochErrF site) 1).grFaultK
        site 2 0x16 0xF q x.epoch (s.grEntry site 0)

/-- A token joins the tail of a queue. -/
def State.push (s : State) (site q : Nat) (t : Token) : State :=
  let g := s.grate site
  let x := g.queue q
  let s1 := s.setGrate site (g.setQueue q { x with toks := x.toks ++ [t] })
  if x.toks = [] then s1.headFix site q else s1

/-- The head leaves a queue. -/
def State.pop (s : State) (site q : Nat) : State :=
  let g := s.grate site
  let x := g.queue q
  (s.setGrate site (g.setQueue q { x with toks := x.toks.drop 1 })).headFix site q

/-- The head of an input or steering queue is taken: the next token reaches the head, and the credit goes back. -/
def State.takeHead (s : State) (site q : Nat) : State × Option Token :=
  match (s.grate site).queue q |>.toks with
  | [] => (s, none)
  | t :: _ => ((s.pop site q).giveCredit site ((s.grate site).qWord q) t, some t)

/-- The head of a queue. -/
def State.headOf (s : State) (site q : Nat) : Option Token := ((s.grate site).queue q).toks.head?

/-! ### Arrivals (R122, R131, R132, R136) -/

/-- A token arrives at a queue. A full queue is looked at again at the end of the cycle, since a dequeue of the cycle takes
effect first; then a hot queue drops the token and a credited one has an underflow. -/
def State.arriveQ (s : State) (site q input : Nat) (depth0 : Bool) (t : Token) (late : Bool) : State :=
  if depth0 = false ∧ ((s.grate site).queue q).toks.length < s.qDepth site q then s.push site q t
  else if late = false ∧ depth0 = false then s.after 0 (.enqueue site q input depth0 t true)
  else if s.grMode site = 1 then (s.bump (grHotQfullF site) 1).grFault site 0x17 input q
  else (s.bump (grCreditUnderF site) 1).grFault site 0x14 input q

/-- The receiving queue of an edge port: TRG and ACQ ports and Stoker ports receive in rx, crossing ports in tx. -/
def EdgePort.inQ (k : Nat) (e : EdgePort) : Queue := if k / 32 = 4 then e.tx else e.rx
def EdgePort.setInQ (k : Nat) (e : EdgePort) (q : Queue) : EdgePort :=
  if k / 32 = 4 then { e with tx := q } else { e with rx := q }

/-- The word of an edge port's queue that receives from the mesh. -/
def EdgePort.inWord (k : Nat) (e : EdgePort) : Nat := if k / 32 = 4 then e.txWord else e.rxWord

/-- The depth of an edge port's queues (R130). -/
def edgeDepth (k : Nat) : Nat := if k / 32 = 1 then 16 else if k / 32 = 4 then 512 else 64

/-- A token arrives at an edge port from the mesh. -/
def State.arriveEdge (s : State) (k input site : Nat) (t : Token) (late : Bool) : State :=
  let e := s.edge k
  let q := e.inQ k
  if q.toks.length < edgeDepth k then s.setEdge k (e.setInQ k { q with toks := q.toks ++ [t] })
  else if late = false then s.after 0 (.edgeIn k input site t true)
  else if s.grMode (s.portSite k) = 1 then (s.bump (grHotQfullF site) 1).portFault k 0x17
  else (s.bump (grCreditUnderF site) 1).portFault k 0x14

/-- A token that a link carried enters a crossing port's receive queue; a full queue is looked at again at the end of the cycle (R131,
R132, R136). -/
def State.crossArrive (s : State) (k : Nat) (warm : Bool) (t : Token) (late : Bool) : State :=
  let e := s.edge k
  let g := edgeSite k
  if e.rx.toks.length < edgeDepth k then s.setEdge k { e with rx := { e.rx with toks := e.rx.toks ++ [t] } }
  else if late = false then s.after 0 (.linkIn k warm t)
  else if warm then (s.bump (grCreditUnderF g) 1).portFault k 0x14
  else (s.bump (grHotQfullF g) 1).portFault k 0x17

/-- The head of an edge port's receiving queue is taken. -/
def State.takeEdge (s : State) (k : Nat) : State × Option Token :=
  let e := s.edge k
  let q := e.inQ k
  match q.toks with
  | [] => (s, none)
  | t :: ts => ((s.setEdge k (e.setInQ k { q with toks := ts })).giveCredit (edgeSite k) (e.inWord k) t, some t)

/-! ### Senders -/

/-- A queue may send: its counter holds a credit where the word says so, and no MARK is awaited (R133, R219). -/
def mayWait (word : Nat) (q : Queue) : Bool := q.hold.isSome || (qwCredited word && !qwCheckOnly word && q.credits == 0)

/-- A queue after its head was sent: one credit used, and after a MARK the queue waits for the rest. -/
def sentFrom (word : Nat) (q : Queue) : Queue :=
  match q.toks with
  | [] => q
  | t :: ts =>
    { q with toks := ts, credits := q.credits - (if qwCredited word || qwCheckOnly word then 1 else 0),
             hold := if t.mark && qwCredited word then some (qwInit word) else q.hold }

/-- Where an output of a grate leads (R113, R114, R486). -/
inductive Dest where
  | mesh (site input : Nat)
  | queue (q : Nat)
  | edge (key : Nat)
  | nowhere
  deriving DecidableEq, Repr

/-- The destination of an output of a site. No rule refuses an image whose slot entry leads a token over the boundary between a hot and a
warm course, or says what the boundary does to it: the token passes to the next course's grate (DESIGN CHOICE, log entry 103). -/
def State.dest (s : State) (site out : Nat) : Dest :=
  let c := courseOf site
  let x := columnOf site
  if out = 0 then (if 0 < x then .mesh (site - 1) 1 else if s.grMode site = 2 then .edge (edgeWest c) else .nowhere)
  else if out = 1 then
    (if x < 11 then .mesh (site + 1) 0 else if s.grMode site = 2 then .edge (edgeEast c) else .edge (edgeTrg c))
  else if out = 2 then (if 0 < c then .mesh (site - 12) 3 else .edge (edgeCross x))
  else if out = 3 then (if c < 24 then .mesh (site + 12) 2 else .edge (edgeCross (12 + x)))
  else if out < 8 then (if s.unitMode site = 0 then .nowhere else .queue (out - 4))
  else .queue out

/-- A token goes to an output: it is present there from cycle c + 2. `err` are the errors of queue words. -/
def State.deliver (s : State) (site input out : Nat) (t : Token) (err : List (Nat × Ecc)) : State :=
  match s.dest site out with
  | .mesh n i => s.after 2 (.arrive n i t)
  | .edge k => s.after 2 (.edgeIn k input site t false)
  | .nowhere => (s.bump (grStrayF site) 1).grFault site 0x11 input 0xF
  | .queue q =>
    let e := errAt err (16 + q)
    (s.tblCheck site e input q).after 2 (.enqueue site q input (e == .uncorrectable) t false)

/-! ### Crossing (R116, R121, R124) -/

/-- A token that presents at an input: where it came from, and the token. -/
structure Present where
  input : Nat
  mask : Nat
  tok : Token
  deriving DecidableEq, Repr

/-- The outputs of presenting inputs, lowest input first: a taken output is lost for later inputs. -/
def State.grant (s : State) (site : Nat) (err : List (Nat × Ecc)) : List Present → Nat → State
  | [], _ => s
  | p :: ps, taken =>
    let step (s : State) (o : Nat) : State :=
      if !p.mask.testBit o then s
      else if taken.testBit o then (s.bump (grCollideF site) 1).grFault site 0x10 p.input 0xF
      else s.deliver site p.input o p.tok err
    ((List.range 11).foldl step s).grant site err ps (taken ||| p.mask)

/-- The crossing port that joins a mesh input of a site. -/
def crossAt (site input : Nat) : Option Nat :=
  if input = 2 ∧ site < 12 then some site else if input = 3 ∧ 288 ≤ site then some (site - 276) else none

/-- The head of a crossing port's receive queue, where the schedule takes it in this cycle, with a credit in a warm course (R132, R133):
the entry is that of the first
grate beyond relay grates, 2 cycles later for each (log entry 22). -/
def State.crossHead (s : State) (site input : Nat) : Option Token :=
  match crossAt site input with
  | none => none
  | some x =>
    let e := s.edge (edgeCross x)
    let f := s.firstGrate input site 24
    let m := slotMask (s.grate f.1) f.1 input (s.grEntry f.1 (2 * f.2))
    if m = 0 || (s.grMode f.1 == 2 && mayWait e.rxWord e.rx) then none else e.rx.toks.head?.map fun t => { t with port := some (edgeCross x) }

/-- The least data slot of a binding. -/
def Binding.first (b : Binding) : Nat := (leastBelow 39 b.slots.testBit).getD 39

/-- The bindings of one direction on a link, in the order of their first slots (R357). -/
def State.linkBindings (s : State) (n : Nat) (rx : Bool) : List Binding :=
  (List.range 40).flatMap fun j => s.zl.bindings.filter fun b => b.link == n && b.rx == rx && b.first == j

/-- A credit of a crossing port's receive queue waits for the next header of its link (R357). -/
def State.linkCredit (s : State) (x : Nat) : State :=
  match s.zl.bindings.find? fun b => b.rx && b.port == x with
  | none => s
  | some b =>
    let i := (s.linkBindings b.link true).findIdx (· == b)
    let l := s.zlink b.link
    let cs := l.credits ++ List.replicate (i + 1 - l.credits.length) 0
    s.setZlink b.link { l with credits := listSet cs i (listGet 0 cs i + 1) }

/-- The crossing port's receive queue after its head was sent, which frees a place for its link. A check-only send at counter 0 goes, and
is a credit underflow (R132, R136). -/
def State.crossSent (s : State) (site input : Nat) : State :=
  match crossAt site input with
  | none => s
  | some x =>
    let e := s.edge (edgeCross x)
    let s1 := (s.setEdge (edgeCross x) { e with rx := sentFrom e.rxWord e.rx }).linkCredit x
    if qwCheckOnly e.rxWord && e.rx.credits == 0 then
      (s1.bump (grCreditUnderF (edgeSite (edgeCross x))) 1).portFault (edgeCross x) 0x14
    else s1

/-- The ingest word that an ingest port carries to column 0 in this cycle: port j carries stream word 63j + s in slot s of the release
tick (R50, R119). -/
def State.ingestHead (s : State) (site input : Nat) : Option Token :=
  if input ≠ 0 ∨ columnOf site ≠ 0 ∨ s.cycle = 63 ∨ s.ing.relTick ≠ s.tick then none
  else
    match s.hotImage with
    | none => none
    | some i =>
      let j := i.ports.findIdx (· == s.vcourse (courseOf site))
      let q := (s.edge (edgeIngest (courseOf site))).tx
      if j < i.ports.length then
        (s.ing.stream.drop (63 * j + s.cycle)).head?.map fun w => ⟨w.1, q.epoch, q.sent % 256, false, w.2, false, false, none⟩
      else none

/-- An ingest port has carried one more token. -/
def State.ingestSent (s : State) (course : Nat) : State :=
  let e := s.edge (edgeIngest course)
  s.setEdge (edgeIngest course) { e with tx := { e.tx with sent := e.tx.sent + 1 } }

/-- The token present on a mesh input, and the state without it. -/
def State.meshTok (s : State) (site input : Nat) : Option Token × State :=
  match s.hearth.present.find? fun p => p.1 == site && p.2.1 == input with
  | some p => (some p.2.2,
      { s with hearth := { s.hearth with present := s.hearth.present.filter fun q => !(q.1 == site && q.2.1 == input) } })
  | none => match s.ingestHead site input with
    | some t => (some t, s.ingestSent (courseOf site))
    | none => match s.crossHead site input with
      | some t => (some t, s.crossSent site input)
      | none => (none, s)

/-- The sideband of a token (R118). -/
def Token.side (t : Token) : Nat :=
  t.epoch % 16 * 2 ^ 12 + t.seq % 256 * 2 ^ 4 + b2n t.poison * 8 + b2n t.suspect * 4 + b2n t.mark * 2 + b2n t.void

/-- A token as the 528 bits of a link or a container, data below sideband, and back (R118, R344). -/
def Token.container (t : Token) : BitVec 528 := BitVec.ofNat 528 (t.data.toNat + t.side * 2 ^ 512)
def tokenOf (c : BitVec 528) : Token :=
  let v := c.toNat
  ⟨BitVec.ofNat 512 v, bitsAt v 524 4, bitsAt v 516 8, v.testBit 515, v.testBit 514, v.testBit 513, v.testBit 512, none⟩

/-- The bits that each of the nine codes of a link protects. -/
def codeBits (k : Nat) : Nat := if k < 8 then (2 ^ 64 - 1) * 2 ^ (64 * k) else (2 ^ 16 - 1) * 2 ^ 512

/-- The bits of a token that arrive wrong: those under uncorrectable codes. -/
def wrongBits (codes : List Ecc) (flips : BitVec 528) : BitVec 528 :=
  flips &&& BitVec.ofNat 528 ((codes.zipIdx.map fun c => if c.1 = .uncorrectable then codeBits c.2 else 0).sum)

/-- Uncorrectable link codes, each recorded. -/
def State.linkUes (s : State) (site input : Nat) : Nat → State
  | 0 => s
  | n + 1 => ((s.bump (grLinkUeF site) 1).grFault site 0x18 input 0xF).linkUes site input n

/-- The link check of a token that arrives on a mesh input (R120): its nine codes report each for itself, and the fields under an
uncorrectable code stay as received. An injection meets the code of word 0. -/
def State.linkCheck (s : State) (site input : Nat) (t : Token) (e : LinkErr) : Token × State :=
  let c := s.checked 0x18 site (listGet .clean e.codes 0)
  let codes := c.1 :: (e.codes.drop 1).take 8
  let ce := codes.count .corrected
  let s1 := if ce = 0 then c.2 else (c.2.bump (grLinkCeF site) ce).hearthCe ce
  if codes.count .uncorrectable = 0 then (t, s1)
  else
    ({ tokenOf (t.container ^^^ wrongBits codes e.flips) with poison := true, port := t.port },
      s1.linkUes site input (codes.count .uncorrectable))

/-- What a list names for the link check of an input. -/
def linkErrAt : List (Nat × LinkErr) → Nat → LinkErr
  | [], _ => LinkErr.clean
  | (k, e) :: es, i => if k = i then e else linkErrAt es i

/-- The queue that an input from a unit or the steering unit presents: OQ0 to OQ3, SO0, SO1. -/
def inputQueue (input : Nat) : Nat := if input < 8 then input else input + 3

/-- A MARK crosses: its route at this grate has passed it (R218). -/
def State.noteMark (s : State) (site input mask : Nat) (t : Token) : State :=
  let g := s.grate site
  if t.mark && !g.marked.contains (2048 * input + mask) then
    s.setGrate site { g with marked := g.marked ++ [2048 * input + mask] }
  else s

/-- One input of a grate in this cycle: what it presents, after its checks. A queue of a warm grate waits for its entry and its
credit; the head of a hot grate's steering output that meets no entry is gone, since a steering input presents a token only in the
cycle it arrives (R121; DEDUCED, log entry 88). -/
def State.present (s : State) (site : Nat) (linkErr : List (Nat × LinkErr)) (tblErr : List (Nat × Ecc)) (input : Nat) :
    Option Present × State :=
  let c := s.checked 0x19 site (errAt tblErr input)
  let s1 := c.2.tblCheck site c.1 input 0xF
  let mask := if c.1 = .uncorrectable then 0 else slotMask (s1.grate site) site input (s1.grEntry site 0)
  if input < 4 then
    match s1.meshTok site input with
    | (none, s2) => (none, s2)
    | (some t, s2) =>
      let r := s2.linkCheck site input t (linkErrAt linkErr input)
      if mask = 0 then (none, (r.2.bump (grStrayF site) 1).grFault site 0x11 input 0xF)
      else (some ⟨input, mask, r.1⟩, r.2.noteMark site input mask r.1)
  else
    let q := inputQueue input
    let g := s1.grate site
    let x := g.queue q
    let w := g.qWord q
    match x.toks with
    | [] => (none, s1)
    | t :: ts =>
      if mask = 0 && decide (8 ≤ input) && s1.grMode site == 1 then (none, s1.setGrate site (g.setQueue q { x with toks := ts }))
      else if mask = 0 || (s1.grMode site == 2 && mayWait w x) then (none, s1)
      else
        let s2 := s1.setGrate site (g.setQueue q (sentFrom w x))
        let s3 := if qwCheckOnly w && x.credits == 0 then (s2.bump (grCreditUnderF site) 1).grFault site 0x14 input q else s2
        (some ⟨input, mask, t⟩, s3.noteMark site input mask t)

/-- Every input of a list, lowest first. -/
def State.presents (s : State) (site : Nat) (linkErr : List (Nat × LinkErr)) (tblErr : List (Nat × Ecc)) :
    List Nat → List Present × State
  | [] => ([], s)
  | i :: is =>
    let a := s.present site linkErr tblErr i
    let b := a.2.presents site linkErr tblErr is
    (match a.1 with | some p => p :: b.1 | none => b.1, b.2)

/-- The inputs of a grate (R113). -/
def inputsOf (site : Nat) : List Nat := if isMu site then List.range 10 else [0, 1, 2, 3, 4, 5, 8, 9]

/-- A relay grate passes south to north and north to south (R116). -/
def State.relayCross (s : State) (site : Nat) : State :=
  let pass (s : State) (i o : Nat) : State :=
    match s.meshTok site i with
    | (some t, s1) => s1.deliver site i o t []
    | (none, s1) => s1
  pass (pass s 2 3) 3 2

/-- The crossing of one grate in this cycle. -/
def State.crossGrate (s : State) (site : Nat) (linkErr : List (Nat × LinkErr)) (tblErr : List (Nat × Ecc)) : State :=
  if !s.running then s
  else if s.relay site then s.relayCross site
  else if s.grMode site = 0 then s
  else
    let r := s.presents site linkErr tblErr (inputsOf site)
    r.2.grant site tblErr r.1 0

/-! ### Steering (R125 to R128) -/

/-- The queues that an operation consumes, SC last. -/
def steerTakes (op : Nat) : List Nat := if op = 2 then [8, 10] else if op = 1 ∨ op = 3 then [8, 9, 10] else []

/-- The tokens that an operation writes to SO0 and to SO1, from the data tokens on SD0 and SD1 and the control token. -/
def steerOuts (op : Nat) (d0 d1 c : Token) : List Token × List Token :=
  let mix (t : Token) : Token := { t with suspect := t.suspect || c.suspect, poison := t.poison || c.poison, port := none }
  let void : Token := ⟨0, d0.epoch, d0.seq, false, false, d0.mark, !d0.mark, none⟩
  let one := c.data.toNat.testBit 0
  if op = 1 then ([mix (if one then d1 else d0)], [])
  else if op = 2 then (if one then ([void], [mix d0]) else ([mix d0], [void]))
  else if op = 3 then (if one then ([mix d1, mix d0], []) else ([mix d0, mix d1], []))
  else ([], [])

/-- Tokens on their way into a steering output. -/
def State.steerDue (s : State) (site q : Nat) : Nat :=
  (s.hearth.flights.filter fun f => match f.act with | .enqueue a b _ _ _ _ => a == site && b == q | _ => false).length

/-- Tokens enter a steering output buffer at cycle f + 2. -/
def State.steerPut (s : State) (site q : Nat) (depth0 : Bool) : List Token → State
  | [] => s
  | t :: ts => (s.after 2 (.enqueue site q (q - 3) depth0 t false)).steerPut site q depth0 ts

/-- The check of the word of a steering output that a firing writes. -/
def State.soCheck (s : State) (site q : Nat) (so : List (Nat × Ecc)) (out : List Token) : Bool × State :=
  if out.isEmpty then (false, s) else s.outCheck site q (errAt so (q - 11))

/-- The head of a consumed queue, or the token of R126 for an empty one. The rule gives that token no EPOCH, and an empty SC leaves no
control token that gives a SEQ and a choice: the model takes GRATE_CFG.EPOCH, and SEQ 0 with choice 0 (DESIGN CHOICE, log entry
89). -/
def State.steerTake (s : State) (site q : Nat) (c : Token) : State × Token :=
  match s.takeHead site q with
  | (s1, some t) => (s1, t)
  | (s1, none) =>
    ((s1.bump (grSteerEmptyF site) 1).grFault site 0x13 0xF q,
      { Token.bad with seq := c.seq, epoch := s.getF (grCfg_Epoch site) })

/-- One firing: heads taken, the operation performed, a mismatch of SEQ poisoning every output. `so` are the errors of the words of SO0
and SO1. -/
def State.steerFire (s : State) (site : Nat) (so : List (Nat × Ecc)) : State :=
  let op := (s.grate site).steerOp
  let rc := s.steerTake site 10 Token.bad
  let c := rc.2
  let r0 := rc.1.steerTake site 8 c
  let r1 := if op = 2 then (r0.1, r0.2) else r0.1.steerTake site 9 c
  let bad := decide (r0.2.seq ≠ c.seq) || decide (r1.2.seq ≠ c.seq)
  let s1 := if bad then (r1.1.bump (grSeqErrF site) 1).grFault site 0x12 0xF 10 else r1.1
  let outs := steerOuts op r0.2 r1.2 c
  let fix (t : Token) : Token := if bad then { t with poison := true } else t
  let a := s1.soCheck site 11 so outs.1
  let b := a.2.soCheck site 12 so outs.2
  (b.2.steerPut site 11 a.1 (outs.1.map fix)).steerPut site 12 b.1 (outs.2.map fix)

end Sys2Proof.Machine
end

