-- ==== Sys2Proof/Machine/Ingest.lean ====
section
/-!
DEFINITION. The commands of optical sample ingest: blocks of a lane, the CRC verdict, the release tick, fibre enables, replay
and snapshot, and the PRBS31 checker (R38 to R75, R484).
-/
namespace Sys2Proof.Machine

/-! ### Lock (R39, R45, R63) -/

/-- A lane counter, which counts while LANE.CTRL.EN is 1 (R63). -/
def State.laneCount (s : State) (l : Nat) (f : Fld) (k : Nat) : State := s.when (s.flag (ingLaneCtrl_En l)) (s.bump f k)

/-- A lane loses block lock or tick lock: the lane tick in progress, if one is, is dropped, later ones are absent until one is clean,
and the loss is counted and reported (R45, R62, R65). -/
def State.loseLock (s : State) (l : Nat) (block : Bool) (dev : Nat) : State :=
  let x := s.lane l
  let s1 := (s.setF (ingLaneStatus_TickLock l) 0).laneCount l (ingLaneLockLossF l) 1
  let s2 := if block then s1.setF (ingLaneStatus_BlockLock l) 0 else s1
  s2.setLane l { x with cands := [], pos := 0, fails := 0, losses := x.losses + 1, lossEv := some dev,
                        buf := if s.flag (ingLaneStatus_TickLock l) && x.pos != 0 then x.buf.drop 1 else x.buf
                        good := if block then 0 else x.good }

/-- The Clause 49 block-lock machine of a receiver (R39, R40): 64 valid sync headers in a row lock it, and 16 invalid ones among 64
end the lock. The counts of valid headers, of headers and of invalid headers, and whether it is locked. -/
def blockLock (locked valid : Bool) (good cnt bad : Nat) : Nat × Nat × Nat × Bool :=
  if !locked then
    if !valid then (0, 0, 0, false) else if good + 1 = 64 then (0, 0, 0, true) else (good + 1, 0, 0, false)
  else
    let c := cnt + 1
    let b := bad + b2n (!valid)
    if b = 16 then (0, 0, 0, false) else if c = 64 then (0, 0, 0, true) else (0, c, b, true)

/-- A sync header that the block-lock machine counts as valid. -/
def syncValid (sync : BitVec 2) : Bool := sync == 1 || sync == 2

/-! ### Tick headers (R42 to R45, R52, R53) -/

/-- The device tick of a source index under an offset: the one nearest to now, in the 58 bits that a tick index has (R6, R52). -/
def State.devTick (s : State) (off t : Nat) : Nat :=
  unsint 58 ((s.tick : Int) + sint 24 (t + off + 2 ^ 24 - s.tick % 2 ^ 24))

/-- The fields of a tick header. -/
def hdrCrc (p : Nat) : Nat := bitsAt p 48 16
def hdrStatus (p : Nat) : Nat := bitsAt p 40 8
def hdrTick (p : Nat) : Nat := bitsAt p 16 24

/-- A header qualifies (R44). -/
def State.hdrQualifies (s : State) (l : Nat) (sync : BitVec 2) (p : Nat) : Bool :=
  sync == 2 && bitsAt p 0 8 == 0xC5 && bitsAt p 8 8 == s.getF (ingLaneCtrl_ExpId l)

/-- A passing header: ARRIVAL is measured and the header observed, SRC_ERR counts, and the alignment of a lane in use is judged while
release runs (R42, R53, R55; log entry 16). -/
def State.hdrPass (s : State) (l p : Nat) : State :=
  let dev := s.devTick (s.laneOffset l) (hdrTick p)
  let arr : Int := sint 64 (s.frc.toNat + 2 ^ 64 - 64 * dev)
  let s1 := s.setF (ingLaneStatus_Arrival l) (unsint 10 (clampInt (-512) 511 arr))
  let s2 := s1.setLane l { s1.lane l with measured := true, offset := s.laneOffset l }
  let s3 := (((s2.setF (ingLaneHdrObs_Status l) (hdrStatus p)).setF (ingLaneHdrObs_Tick l) (hdrTick p)).setF
    (ingLaneHdrObs_Cycle l) s.cycle).setF (ingLaneHdrObs_DevTick l) (s.tick % 2 ^ 24)
  let s4 := if (hdrStatus p).testBit 0 || (hdrStatus p).testBit 2 then s3.laneCount l (ingLaneSrcErrF l) 1 else s3
  if s4.laneMisaligned l then s4.raise ingStatus_AlignViolation else s4

/-- A lane tick that a lane holds is clean (R60). -/
def State.tickClean (s : State) (l : Nat) (t : LaneTick) : Bool :=
  s.flag (ingLaneCtrl_En l) && s.fibreOn (fibreOf l) && s.alignOk l && t.locked && t.hdrOk && t.next == some true

/-- The losses of lock that had come before the last clean one among lane ticks, with those known already (R62). -/
def State.cleanAfter (s : State) (l : Nat) (ts : List LaneTick) (known : Nat) : Nat :=
  ts.foldl (fun g t => if s.tickClean l t then max g t.gen else g) known

/-- A lane tick begins in the buffer: 12 lane ticks and the one that arrives are held. One that leaves the buffer, released or not, may
have ended an absence (R62). -/
def State.beginLaneTick (s : State) (l dev : Nat) (hdrOk ovr : Bool) : State :=
  let x := s.lane l
  let buf := ⟨dev, 0, 0, hdrOk, ovr, true, x.losses, none⟩ :: x.buf
  s.setLane l { x with buf := buf.take 13, crc := 0xFFFF, pos := 1, cleanGen := s.cleanAfter l (buf.drop 13) x.cleanGen }

/-- The status bits that make a lane tick suspect are clear. -/
def statusGood (p : Nat) : Bool := !(hdrStatus p).testBit 0 && !(hdrStatus p).testBit 2

/-- The newest lane tick of a lane gets its verdict. -/
def Lane.judge (x : Lane) (dev : Nat) (ok : Bool) : Lane :=
  { x with buf := x.buf.map fun t => if t.dev == dev then { t with next := some ok } else t }

/-- The block in position 0 of a lane that holds tick lock (R44, R45): it passes or fails; four failures in a row end the
lock. -/
def State.headerLocked (s : State) (l : Nat) (sync : BitVec 2) (p : Nat) : State :=
  let x := s.lane l
  let due := (x.lastTick + x.since + 1) % 2 ^ 24
  let prev := match x.buf with | t :: _ => some t.dev | [] => none
  if s.hdrQualifies l sync p && hdrTick p == due then
    let y := { x with lastTick := due, since := 0, fails := 0,
                      verdict := prev.map fun d => (d, hdrCrc p == x.crc, s.cyc + 8) }
    ((s.setLane l y).hdrPass l p).beginLaneTick l (s.devTick (s.laneOffset l) due) (statusGood p) ((hdrStatus p).testBit 1)
  else
    let y := { (match prev with | some d => x.judge d false | none => x) with since := x.since + 1, fails := x.fails + 1 }
    let s1 := (s.setLane l y).laneCount l (ingLaneHdrErrF l) 1
    let s2 := s1.beginLaneTick l (s.devTick x.offset due) false false
    if y.fails = 4 then s2.loseLock l false (s.devTick x.offset due) else s2

/-- A block of a lane without tick lock: a qualifying header completes a pair or begins one (R45). -/
def State.headerSearch (s : State) (l : Nat) (sync : BitVec 2) (p : Nat) : State :=
  let x := s.lane l
  let aged := (x.cands.map fun c => (c.1 + 1, c.2)).filter fun c => decide (c.1 ≤ 40)
  if !s.hdrQualifies l sync p then s.setLane l { x with cands := aged }
  else if aged.any fun c => c.1 == 40 && (c.2 + 1) % 2 ^ 24 == hdrTick p then
    let y := { x with cands := [], lastTick := hdrTick p, since := 0, fails := 0, verdict := none }
    (((s.setLane l y).setF (ingLaneStatus_TickLock l) 1).hdrPass l p).beginLaneTick l (s.devTick (s.laneOffset l) (hdrTick p)) (statusGood p)
      ((hdrStatus p).testBit 1)
  else s.setLane l { x with cands := (0, hdrTick p) :: aged }

/-- A data block of a lane that holds tick lock: an invalid sync header marks it (R40, R61). -/
def State.dataLocked (s : State) (l : Nat) (sync : BitVec 2) (p : Nat) : State :=
  let x := s.lane l
  let b := x.pos
  let bad := sync != 1
  let put (t : LaneTick) : LaneTick :=
    { t with data := BitVec.ofNat 2496 (putBits t.data.toNat (64 * (b - 1)) 64 p),
             bad := if bad then t.bad ||| BitVec.ofNat 39 (2 ^ (b - 1)) else t.bad }
  let y := { x with buf := (match x.buf with | t :: r => put t :: r | [] => []), crc := crcBits 16 0x1021 x.crc (bitsLsb 64 p),
                    pos := (b + 1) % 40 }
  let s1 := s.setLane l y
  if bad then s1.laneCount l (ingLaneSyncErrF l) 1 else s1

/-- A lane's receiver works: it is enabled, not held in reset (R394), and its Flue's crossing passes data (R461). -/
def State.laneListens (s : State) (l : Nat) : Bool :=
  decide (l < 256) && s.flag (ingLaneCtrl_En l) && !s.blockHeld (256 + l) && !s.flueDead (l / 64)

/-- The device tick that the event of a loss of lock bears: that of the lane tick in progress or, where none is, of the newest one held,
else the current tick (R65; log entry 105). -/
def State.lossTick (s : State) (l : Nat) : Nat := match (s.lane l).buf with | t :: _ => t.dev | [] => s.tick

/-- An invalid sync header under tick lock is counted, also where it ends block lock: on a data block in SYNC_ERR, in position 0 as a
failed header in HDR_ERR (lane error table, R63). -/
def State.countInvalid (s : State) (l : Nat) : State :=
  if !s.flag (ingLaneStatus_TickLock l) then s
  else s.laneCount l (if (s.lane l).pos = 0 then ingLaneHdrErrF l else ingLaneSyncErrF l) 1

/-- A 66-bit block reaches a lane's block lock (R39 to R45, R61). -/
def State.lineBlock (s : State) (l : Nat) (sync : BitVec 2) (raw : W64) : State :=
  let x := s.lane l
  let d := descramble x.hist (bitsLsb 64 raw.toNat)
  let p := ofBitsLsb d.1
  let was := s.flag (ingLaneStatus_BlockLock l)
  let k := blockLock was (syncValid sync) x.good x.winCnt x.winBad
  let s1 := s.setLane l { x with hist := d.2, good := k.1, winCnt := k.2.1, winBad := k.2.2.1 }
  if was && !k.2.2.2 then (s1.countInvalid l).loseLock l true (s.lossTick l)
  else if !was then s1.setF (ingLaneStatus_BlockLock l) (b2n k.2.2.2)
  else if !s.flag (ingLaneStatus_TickLock l) then s1.headerSearch l sync p
  else if x.pos = 0 then s1.headerLocked l sync p
  else s1.dataLocked l sync p

/-- A 66-bit block arrives on a lane's fibre. In the serial loop the light is ignored and the receiver gets what the loop carries,
whose place in blocks no rule gives: a free block (log entry 38). In the far-end loop the block also goes out on monitor-fibre
lane l mod 32 (R63, R70, test loops). -/
def State.laneBlock (s : State) (l : Nat) (sync : BitVec 2) (raw : W64) : State :=
  if !s.laneListens l then s
  else if s.getF (ingLaneCtrl_Loop l) = 1 then
    let d := s.draw 66
    d.2.lineBlock l (d.1.extractLsb' 64 2) (d.1.extractLsb' 0 64)
  else
    let s1 := s.setF (ingLaneStatus_Signal l) 1
    let s2 := if s.getF (ingLaneCtrl_Loop l) = 3 then
      { s1 with ing := { s1.ing with monBlock := mput (fun _ => 0) s1.ing.monBlock (l % 32) (sync ++ raw) } } else s1
    s2.lineBlock l sync raw

/-- The meaning of LANE_TICK_HEADER: the block in position 0 of a lane tick, or one that could be (R44, R45). -/
def execLaneTickHeader (lane : Nat) (sync : BitVec 2) (raw : W64) (s : State) : Out := .next (s.laneBlock lane sync raw)

/-- The meaning of DATA_BLOCK (R61). -/
def execDataBlock (lane : Nat) (sync : BitVec 2) (raw : W64) (s : State) : Out := .next (s.laneBlock lane sync raw)

/-- CRC16_VERDICT: 8 cycles after the next header the lane tick is judged, and a mismatch is counted (R43, R60). -/
def crc16Verdict (l : Nat) (s : State) : State :=
  let x := s.lane l
  match x.verdict with
  | none => s
  | some (dev, ok, due) =>
    if s.cyc < due then s
    else
      let s1 := s.setLane l { x.judge dev ok with verdict := none }
      if ok then s1 else s1.laneCount l (ingLaneCrcErrF l) 1

/-- The meaning of CRC16_VERDICT. -/
def execCrc16Verdict (lane : Nat) (s : State) : Out := .next (s.when (decide (lane < 256)) (crc16Verdict lane s))

/-- LANE_SIGNAL_LOSS: light is lost, and with it block lock and tick lock (R45). In the serial loop the receiver does not use the
fibre's light, and its locks stay (R70, test loops). -/
def laneSignalLoss (l : Nat) (s : State) : State :=
  let s1 := s.setF (ingLaneStatus_Signal l) 0
  if s.getF (ingLaneCtrl_Loop l) ≠ 1 ∧ (s.flag (ingLaneStatus_BlockLock l) || s.flag (ingLaneStatus_TickLock l)) = true then
    s1.loseLock l true (s.lossTick l)
  else s1

/-- The meaning of LANE_SIGNAL_LOSS. -/
def execLaneSignalLoss (lane : Nat) (s : State) : Out := .next (s.when (decide (lane < 256)) (laneSignalLoss lane s))

/-! ### Release (R46 to R50, R54, R59 to R66) -/

/-- What a lane delivers in a release tick. -/
structure LaneOut where
  data : BitVec 2496
  bad : BitVec 39
  suspect : Bool
  overrange : Bool
  deriving DecidableEq, Repr

/-- An absent lane tick. -/
def LaneOut.absent : LaneOut := ⟨0, 0, true, false⟩

/-- The lane tick of a device tick that a lane holds. -/
def Lane.tickOf (x : Lane) (dev : Nat) : Option LaneTick := x.buf.find? fun t => t.dev == dev

/-- The lane tick of a device tick is clean (R60). -/
def State.laneClean (s : State) (l dev : Nat) : Bool :=
  match (s.lane l).tickOf dev with
  | none => false
  | some t => s.tickClean l t

/-- The lane ticks that a lane holds from before a device tick. -/
def Lane.olderThan (x : Lane) (dev : Nat) : List LaneTick := (x.buf.dropWhile fun t => t.dev != dev).drop 1

/-- What a live lane delivers for a device tick (R60 to R62, R68). -/
def State.liveOut (s : State) (l dev : Nat) : LaneOut :=
  let x := s.lane l
  let ok := s.laneClean l dev
  match x.tickOf dev with
  | none => .absent
  | some t =>
    let lost := decide (s.cleanAfter l (x.olderThan dev) x.cleanGen < t.gen)
    if !s.flag (ingLaneCtrl_En l) || !s.fibreOn (fibreOf l) || !s.alignOk l || ((lost || x.rejoin) && !ok) then .absent
    else ⟨t.data, t.bad, !ok, t.overrange⟩

/-- The record that a release tick carries in replay, if it carries one (R73). -/
def State.replayAt (s : State) (r : Nat) : Option Nat :=
  let start := s.getF ingReplayStart_Start
  let n := s.getF ingReplayCtrl_Ticks
  let i := s.getF ingReplayFirst_First + (r - start)
  if !s.flag ingReplayCtrl_En || decide (r < start) || n == 0 then none
  else if s.flag ingReplayCtrl_Loop then some (i % n)
  else if i < n then some i else none

/-- What a lane delivers in a release tick from the replay record read for it (R72 to R74). -/
def State.replayOut (s : State) (r l : Nat) : LaneOut :=
  if !s.fibreOn (fibreOf l) then .absent
  else match s.ing.replay.find? fun x => x.tick == r && x.lane == l with
    | none => .absent
    | some x => ⟨x.data, x.bad, x.suspect, x.overrange⟩

/-- The width of a sample and the positions of a lane tick (the packings table). -/
def fmtWidth (fmt : Nat) : Nat := if fmt = 0 then 8 else if fmt = 1 then 12 else 16
def fmtPositions (fmt : Nat) : Nat := 2496 / fmtWidth fmt

/-- N_c, the samples of a channel in a tick: 8F times the positions of a lane tick (R249). -/
def State.samplesPerTick (s : State) (c : Nat) : Nat := 8 * s.chFibres c * fmtPositions (s.getF (ingChCfg_Fmt c))

/-- A sample of a channel: its value and its suspect mark (R49, R61). -/
def chanSample (w n : Nat) (outs : List LaneOut) (j : Nat) : Nat × Bool :=
  let o := listGet LaneOut.absent outs (j % n)
  let p := w * (j / n)
  (bitsAt o.data.toNat p w,
    o.suspect || (List.range 39).any fun b => o.bad.toNat.testBit b && decide (p < 64 * b + 64 ∧ 64 * b < p + w))

/-- Word k of a channel (R49). -/
def chanWord (w n : Nat) (outs : List LaneOut) (k : Nat) : BitVec 512 × Bool :=
  let lo := 512 * k / w
  let js := (List.range ((512 * k + 511) / w + 1 - lo)).map (lo + ·)
  let xs := js.map fun j => (j, chanSample w n outs j)
  (BitVec.ofNat 512 ((xs.map fun x => x.2.1 * 2 ^ (w * (x.1 - lo))).sum / 2 ^ (512 * k - w * lo)), xs.any fun x => x.2.2)

/-- A channel's words for a release tick. -/
def State.chanWords (s : State) (c : Nat) (outs : List LaneOut) : List (BitVec 512 × Bool) :=
  (List.range (39 * s.chFibres c)).map (chanWord (fmtWidth (s.getF (ingChCfg_Fmt c))) (8 * s.chFibres c) outs)

/-- The lanes of a channel. -/
def State.chanLanes (s : State) (c : Nat) : List Nat :=
  (List.range (8 * s.chFibres c)).map (8 * s.getF (ingChCfg_FirstFibre c) + ·)

/-- The enabled channels. -/
def State.chansOn (s : State) : List Nat := (List.range 16).filter fun c => s.flag (ingChCfg_En c)

/-- A lane event (R65). -/
def State.laneEvent (s : State) (tick lane cause : Nat) : State :=
  s.routed 0 0x12 0 tick (body32 (leBytes 8 tick ++ leBytes 2 lane ++ leBytes 1 cause))

/-- What the release of a device tick leaves of a lane, with its event: a loss of lock, else clean after a loss, else suspect after
clean, which a lane tick of a disabled lane is too (R60, R65, R68). -/
def State.settleLane (s : State) (dev l : Nat) : State :=
  let x := s.lane l
  let ok := s.laneClean l dev
  let gen := match x.tickOf dev with | some t => t.gen | none => 0
  let known := s.cleanAfter l (x.olderThan dev) x.cleanGen
  let s1 := match x.lossEv with
    | some d => s.laneEvent d l 2
    | none => if ok && decide (known < gen) then s.laneEvent dev l 3 else if !ok && x.lastClean then s.laneEvent dev l 1 else s
  s1.setLane l { x with lossEv := none, lastClean := ok, cleanGen := if ok then max known gen else known,
                        rejoin := (x.rejoin || !s.fibreOn (fibreOf l)) && !ok }

/-- Every lane settled. -/
def State.settleLanes (s : State) (dev : Nat) : List Nat → State
  | [] => s
  | l :: ls => (s.settleLane dev l).settleLanes dev ls

/-- The fibre enables written before this release tick take effect (R67). -/
def State.applyGrp (s : State) : State :=
  if s.ing.grpPending then
    { s with ing := { s.ing with grp := BitVec.ofNat 32 (s.getF ingGrpEn_FibEn), grpPending := false } }.setF ingGrpTick_Tick s.tick
  else s

/-- The first and the last release tick of a replay are reported (R73). -/
def State.replayEdge (s : State) (now : Bool) : State :=
  let was := s.flag ingStatus_ReplayActive
  let s1 := s.setF ingStatus_ReplayActive (b2n now)
  if now && !was then s1.laneEvent s.tick 0xFFFF 4 else if was && !now then s1.laneEvent s.tick 0xFFFF 5 else s1

/-- A lane of a snapshot record: control word and 39 blocks (R72, R75). -/
def snapLane (o : LaneOut) : List Byte :=
  leBytes 8 (o.bad.toNat + b2n o.suspect * 2 ^ 39 + b2n o.overrange * 2 ^ 40) ++ leBytes 312 o.data.toNat

/-- A snapshot ends: BUSY clears, and a descriptor that started it completes (R75, R305). -/
def State.snapEnd (s : State) (status : Nat) : State :=
  let s1 := { s with ing := { s.ing with snapLeft := 0, snapTag := none } }.setF ingStatus_SnapBusy 0
  match s.ing.snapTag with
  | none => s1
  | some t => s1.complete t status (s1.getF ingSnapStat_Written)

/-- The record of this release tick, if a snapshot runs: whether it is written in time is a free value, since no rule gives the
time that HBM takes; a record that is not stops the snapshot (R75). -/
def State.snapTick (s : State) (outs : Nat → LaneOut) : State :=
  if s.ing.snapLeft = 0 || decide (s.cyc < s.ing.snapCyc ∨ s.tick < s.ing.snapFrom) then s
  else
    let r := s.draw 1
    if r.1 = 1 then (r.2.raise ingStatus_SnapShort).snapEnd stShort
    else
      let at' := 4096 * s.getF ingSnapBase_Addr + 81920 * s.ing.snapIdx
      let s1 := r.2.hbmWrite 2 0x1FF at' ((List.range 256).flatMap fun l => snapLane (outs l)) false
      let s2 := { s1 with ing := { s1.ing with snapLeft := s1.ing.snapLeft - 1, snapIdx := s1.ing.snapIdx + 1 } }.setF
        ingSnapStat_Written (s1.ing.snapIdx + 1)
      if s.ing.snapLeft = 1 then s2.snapEnd stOk else s2

/-- The channel counters of a release tick (R64). -/
def State.countSuspect (s : State) (m : Nat) : List Nat → State
  | [] => s
  | c :: cs => (if m.testBit c then s.bump (ingChStat_SuspectTicks c) 1 else s).countSuspect m cs

/-- The words of a release tick (R50, R54, R59, R60 to R66, R72 to R75). -/
def State.releaseTick (s : State) : State :=
  let s0 := s.applyGrp
  let r := s0.tick
  let dev := s0.relDev
  let rep := s0.replayAt r
  let out (l : Nat) : LaneOut := if rep.isSome then s0.replayOut r l else s0.liveOut l dev
  let zero := decide (s0.ing.zeroFrom ≤ r ∧ r < s0.ing.zeroTo)
  let chans := s0.chansOn
  let outs (c : Nat) : List LaneOut := (s0.chanLanes c).map out
  let words (c : Nat) : List (BitVec 512 × Bool) :=
    if zero then List.replicate (39 * s0.chFibres c) (0, true) else s0.chanWords c (outs c)
  let sus := maskOf 16 fun c => decide (c ∈ chans) && (words c).any fun w => w.2
  let ovr := maskOf 16 fun c => decide (c ∈ chans) && (outs c).any LaneOut.overrange
  let missing := rep.isSome && (List.range 256).any fun l => !s0.ing.replay.any fun x => x.tick == r && x.lane == l
  let s1 := { s0 with ing :=
    { s0.ing with relTick := r
                  relCyc := s0.cyc + 1
                  stream := s0.streamChans.flatMap words
                  maps := ((r, BitVec.ofNat 16 sus, BitVec.ofNat 16 ovr) :: s0.ing.maps).take 16
                  replay := s0.ing.replay.filter fun x => decide (r < x.tick ∧ x.tick ≤ r + 8) } }
  let s2 := s1.countSuspect sus (List.range 16)
  let s3 := if missing then (s2.bump ingReplayStat_Underrun 1).assertSrc 18 else s2
  let released (l : Nat) : LaneOut :=
    if (s0.chanOf l).isSome then (if zero then { out l with data := 0, suspect := true } else out l) else .absent
  ((s3.replayEdge rep.isSome).snapTick released).settleLanes dev (List.range 256)

/-- INGEST_RELEASE_TICK: at every tick boundary after CTRL.EN was set (R54). -/
def ingestReleaseTick (s : State) : State :=
  if s.flag ingCtrl_En && decide (s.ing.enFrom ≤ s.cyc) && s.ing.relCyc != s.cyc + 1 && s.cycle == 0 then s.releaseTick else s

/-- The meaning of INGEST_RELEASE_TICK. -/
def execIngestReleaseTick (s : State) : Out := .next (ingestReleaseTick s)

/-! ### Register writes (R63, R67, R73 to R75) -/

/-- GRP_EN_WRITE: a change waits for the next release tick (R67). -/
def grpEnWrite (value : W32) (s : State) : State :=
  let s1 := s.setF ingGrpEn_FibEn value.toNat
  { s1 with ing := { s1.ing with grpPending := s.ing.grp != value } }

/-- The meaning of GRP_EN_WRITE. -/
def execGrpEnWrite (value : W32) (s : State) : Out := .next (grpEnWrite value s)

/-- A snapshot begins with the next release tick from a tick on; one that is running goes on. -/
def State.snapStart (s : State) (from' : Nat) (tag : Option Nat) : State :=
  let n := s.getF ingSnapCtrl_Ticks
  let s1 := { s with ing := { s.ing with snapLeft := n, snapIdx := 0, snapFrom := from', snapCyc := s.cyc + 1, snapTag := tag } }
  let s2 := (s1.setF ingSnapStat_Written 0).setF ingStatus_SnapBusy 1
  if n = 0 then s2.snapEnd stOk else s2

/-- SNAP_GO: a snapshot of SNAP_CTRL.TICKS records starts at the next release tick (R75). -/
def snapGo (s : State) : State := if s.flag ingStatus_SnapBusy then s else s.snapStart 0 none

/-- The meaning of SNAP_GO. -/
def execSnapGo (s : State) : Out := .next (snapGo s)

/-- The lane and channel counters and REPLAY_STAT. -/
def ingCounters : List Nat :=
  ingReplayStat :: (List.range 16).map ingChStat ++ (List.range 256).flatMap fun l =>
    [ingLaneSyncErr l, ingLaneCrcErr l, ingLaneHdrErr l, ingLaneSrcErr l, ingLaneLockLoss l, ingLanePrbsErr l,
      ingLanePrbsErr l + 4, ingLanePrbsBits l, ingLanePrbsBits l + 4]

/-- CLR_CNT_ING: every lane and channel counter and REPLAY_STAT are 0 (ING.CTRL). -/
def clrCntIng (s : State) : State := s.clearCounters fun off => decide (off ∈ ingCounters)

/-- The meaning of CLR_CNT_ING. -/
def execClrCntIng (s : State) : Out := .next (clrCntIng s)

/-- REPLAY_CTRL_WRITE: a write with EN = 1 and TICKS = 0 is refused, and one that sets EN where START is too near or FIRST is not below
TICKS; where EN is set already, the value it holds is not refused (R18). Clearing EN returns to live data with the next release tick
(R73, R74). -/
def replayCtrlWrite (value : W32) (s : State) : State :=
  let v := value.toNat
  let n := bitsAt v 0 24
  let sets := !s.flag ingReplayCtrl_En && (decide (s.getF ingReplayStart_Start < s.tick + 16) || decide (n ≤ s.getF ingReplayFirst_First))
  if v.testBit 31 && (n == 0 || sets) then
    s.refuse ingReplayCtrl
  else
    let s1 := ((s.setF ingReplayCtrl_En (b2n (v.testBit 31))).setF ingReplayCtrl_Loop (b2n (v.testBit 30))).setF ingReplayCtrl_Ticks n
    { s1 with ing := { s1.ing with replay := if v.testBit 31 && s.flag ingReplayCtrl_En then s.ing.replay else [] } }

/-- The meaning of REPLAY_CTRL_WRITE. -/
def execReplayCtrlWrite (value : W32) (s : State) : Out := .next (replayCtrlWrite value s)

/-! ### Replay reads (R72, R74) -/

/-- Reading k sectors one by one, each with its own poison. -/
def State.sectorsEach (s : State) (master a : Nat) : Nat → State × List (List Byte × Bool)
  | 0 => (s, [])
  | k + 1 =>
    let r := s.hbmRead master 0x1FF a 32
    let q := r.1.sectorsEach master (a + 32) k
    (q.1, (r.2.1, r.2.2) :: q.2)

/-- The next release tick, up to 8 ticks ahead, that carries a record and for which a lane's record has not been read (R73, R74). -/
def State.replayNext (s : State) (rec lane : Nat) : Option Nat :=
  ((List.range 9).map (s.tick + ·)).find? fun r =>
    s.replayAt r == some rec && !s.ing.replay.any fun x => x.tick == r && x.lane == lane

/-- REPLAY_READ: ING reads a lane's record up to 8 ticks ahead of its release tick; poison marks the lane tick or the blocks that
carry it. -/
def replayRead (rec lane : Nat) (s : State) : State :=
  match s.replayNext rec lane with
  | none => s
  | some at' =>
    let r := s.sectorsEach 1 (4096 * s.getF ingReplayBase_Addr + 81920 * rec + 320 * lane) 10
    let bs := r.2.flatMap fun x => x.1
    let ctl := dfield bs 0 8
    let poi (k : Nat) : Bool := (listGet ([], false) r.2 k).2
    let bad := maskOf 39 fun b => ctl.testBit b || poi ((b + 1) / 4)
    let x : ReplayRec := ⟨at', rec, lane, BitVec.ofNat 2496 (dfield bs 8 312), BitVec.ofNat 39 bad, ctl.testBit 39 || poi 0, ctl.testBit 40⟩
    { r.1 with ing := { r.1.ing with replay := r.1.ing.replay ++ [x] } }

/-- The meaning of REPLAY_READ. -/
def execReplayRead (record lane : Nat) (s : State) : Out := .next (s.when (decide (lane < 256)) (replayRead record lane s))

/-! ### PRBS31 (R70) -/

/-- The next bit of x^31 + x^28 + 1 after a history whose bit 0 is the newest. -/
def prbsNext (h : Nat) : Bool := h.testBit 30 != h.testBit 27

/-- The history after one more bit. -/
def prbsShift (h : Nat) (b : Bool) : Nat := (2 * h + b2n b) % 2 ^ 31

/-- n bits of a generator, and the generator after them. -/
def prbsGen : Nat → Nat → List Bool × Nat
  | 0, h => ([], h)
  | n + 1, h => let r := prbsGen n (prbsShift h (prbsNext h)); (prbsNext h :: r.1, r.2)

/-- One received bit at the checker: the new checker, whether it is locked, and the errors and bits counted. The ages of the
errors of the last 1,024 bits tell when 32 of them end the lock. -/
def prbsBit (p : Prbs) (locked b : Bool) : Prbs × Bool × Nat × Nat :=
  if !locked then
    if p.seeded < 31 then (⟨prbsShift p.hist b, p.seeded + 1, 0, []⟩, false, 0, 0)
    else if b != prbsNext p.hist then (⟨prbsShift p.hist b, 31, 0, []⟩, false, 0, 0)
    else if p.run + 1 = 64 then (⟨prbsShift p.hist b, 31, 0, []⟩, true, 0, 0)
    else (⟨prbsShift p.hist b, 31, p.run + 1, []⟩, false, 0, 0)
  else
    let e := b != prbsNext p.hist
    let aged := (p.errs.map (· + 1)).filter (· < 1024)
    let errs := if e then 0 :: aged else aged
    if 32 ≤ errs.length then (⟨0, 0, 0, []⟩, false, 1, 1) else (⟨prbsShift p.hist (prbsNext p.hist), 31, 0, errs⟩, true, b2n e, 1)

/-- Every received bit. -/
def prbsBits : Prbs → Bool → List Bool → Prbs × Bool × Nat × Nat
  | p, k, [] => (p, k, 0, 0)
  | p, k, b :: bs =>
    let x := prbsBit p k b
    let y := prbsBits x.1 x.2.1 bs
    (y.1, y.2.1, x.2.2.1 + y.2.2.1, x.2.2.2 + y.2.2.2)

/-- The state of a lane's generator: what it starts from no rule gives, but for not being all zeros (log entry 38). -/
def State.gen (s : State) (l : Nat) : Nat × State :=
  let g := mget (fun _ => 0) s.ing.gens l
  if g ≠ 0 then (g, s)
  else
    let d := s.draw 31
    (d.1.toNat % (2 ^ 31 - 1) + 1, d.2)

/-- Free bits. -/
def State.drawBits (s : State) (n : Nat) : List Bool × State :=
  let d := s.draw n
  (bitsLsb n d.1.toNat, d.2)

/-- The n bits that a test loop within the device carries on a lane: the generator's, or free bits where it is off. -/
def State.loopBits (s : State) (l n : Nat) : List Bool × State :=
  if s.flag (ingLaneCtrl_PrbsGen l) then
    let g := s.gen l
    let r := prbsGen n g.1
    (r.1, { g.2 with ing := { g.2.ing with gens := mput (fun _ => 0) g.2.ing.gens l r.2 } })
  else s.drawBits n

/-- PRBS31_CHECK: line bits reach a lane. In the near-end loops the fibre's are ignored, and the checker gets what the loop carries;
in the far-end loop they also go out on monitor-fibre lane l mod 32. An enabled checker checks them; PRBS_LOCK stays as it is while the
checker is not enabled (R70, test loops; DESIGN CHOICE, log entry 106). -/
def prbs31Check (l : Nat) (bits : List Bool) (s : State) : State :=
  let loop := s.getF (ingLaneCtrl_Loop l)
  let s1 := if loop = 3 then
    { s with ing := { s.ing with monBits := mput (fun _ => []) s.ing.monBits (l % 32) bits } } else s
  if !s.flag (ingLaneCtrl_PrbsChk l) || !s.flag (ingLaneCtrl_En l) then s1
  else
    let b := if loop = 1 ∨ loop = 2 then s1.loopBits l bits.length else (bits, s1)
    let r := prbsBits (s.lane l).prbs (s.flag (ingLaneStatus_PrbsLock l)) b.1
    let s2 := (b.2.setLane l { s.lane l with prbs := r.1 }).setF (ingLaneStatus_PrbsLock l) (b2n r.2.1)
    (s2.bump (ingLanePrbsErr_Count l) r.2.2.1).bump (ingLanePrbsBits_Count l) r.2.2.2

/-- The meaning of PRBS31_CHECK. -/
def execPrbs31Check (lane : Nat) (bits : List Bool) (s : State) : Out :=
  .next (s.when (decide (lane < 256)) (prbs31Check lane bits s))

end Sys2Proof.Machine
end

