-- ==== Sys2Proof/Machine/AcqOps.lean ====
section
/-!
DEFINITION. Operations of TRG and ACQ: takes of the hot edge ports, tags and hits, the active copies, and the pools' streams and
records (R245 to R276).
-/
namespace Sys2Proof.Machine

/-! ### Pools as data (R268 to R274) -/

/-- n bytes fit: the 64 KiB write buffer holds them, and they enter no unreleased record (R274). -/
def Pool.room (p : Pool) (ring n : Nat) : Bool :=
  decide (p.wbuf.length + n ≤ 65536) && (match p.kept with | [] => true | k :: _ => decide (p.pos + n ≤ k.2.1 + ring))

/-- Stream words written. -/
def Pool.put (p : Pool) (ws : List Nat) : Pool := { p with wbuf := p.wbuf ++ ws.flatMap (leBytes 4), pos := p.pos + 4 * ws.length }

/-- A stream mark (R268). -/
def markWord (code arg : Nat) : Nat := 2 ^ 31 + code * 2 ^ 24 + arg % 2 ^ 24

/-- A flag of the record being captured is set. -/
def Pool.flagRec (p : Pool) (bit : Nat) : Pool := { p with capt := p.capt.map fun x => { x with flags := x.flags ||| 2 ^ bit } }

/-- The record being captured ends here, with one more flag bit or none; of the elements that have passed, `lost` ones were not written
(R272). -/
def Pool.endRec (p : Pool) (flag : Nat) (lost : Nat := 0) : Pool :=
  match p.capt with
  | none => p
  | some x =>
    let y := { x with flags := x.flags ||| flag, start := some (x.start.getD p.pos) }
    { p with capt := none, finished := p.finished ++ [⟨y, p.pos, min x.post (p.total - lost - x.elem)⟩] }

/-- Writing stops with n elements lost, which have passed and are not written (R272, R274). -/
def Pool.stop (p : Pool) (n : Nat) : Pool := { p.endRec 4 n with stopped := some n, stops := p.stops + 1, fill := 0, gapRun := 0 }

/-- The newest anchor changed. -/
def Pool.anchorSet (p : Pool) (f : Anchor → Anchor) : Pool :=
  { p with anchors := match p.anchors with | a :: as => f a :: as | [] => [] }

/-- A sample entry (R268). -/
def sampleWord (sus : Bool) (delta1 : Nat) (x : BitVec 16) : Nat := b2n sus * 2 ^ 30 + delta1 % 2 ^ 14 * 2 ^ 16 + x.toNat

/-- A pending run of poisoned elements is closed by one GAP; the value before it is stored first where its position is not the
last one stored (R269). -/
def Pool.closeGap (p : Pool) (ring : Nat) : Pool :=
  if p.gapRun = 0 then p
  else
    let g := p.elem - p.gapRun
    let pre := if p.last < g then [sampleWord p.heldSus (g - 1 - p.last) p.held] else []
    let ws := pre ++ [markWord 2 p.gapRun]
    if p.room ring (4 * ws.length) then
      ((({ p.put ws with last := p.elem, first := true, susRun := false, gapRun := 0 }).anchorSet fun a => { a with gap := true }).flagRec 1)
    else p.stop p.gapRun

/-- An element that is stored. -/
def Pool.store (p : Pool) (ring : Nat) (ovr : Bool) (x : BitVec 16) (sus : Bool) : Pool :=
  if p.room ring 4 then
    let q := { p.put [sampleWord sus (p.elem - p.last) x] with
               last := p.elem + 1, held := x, heldSus := sus, heldOvr := ovr, first := false }
    if sus then (q.anchorSet fun a => { a with sus := true }).flagRec 0 else q
  else p.stop 0

/-- One more element has passed. -/
def Pool.advance (p : Pool) : Pool := { p with elem := p.elem + 1, total := p.total + 1, fill := p.fill + 1 }

/-- One more element was lost. -/
def Pool.lose (p : Pool) : Pool := { p with elem := p.elem + 1, total := p.total + 1, stopped := p.stopped.map (· + 1) }

/-- The record being captured is complete when its POST elements have passed. -/
def Pool.endIfDone (p : Pool) (ring : Nat) : Pool :=
  match p.capt with
  | none => p
  | some x => if x.elem + x.post ≤ p.total then (p.closeGap ring).endRec 0 else p

/-- |x − y| > d, as unsigned integers. -/
def beyond (d : Nat) (x y : BitVec 16) : Bool := decide (d < max x.toNat y.toNat - min x.toNat y.toNat)

/-- One element of a take (R269). -/
def Pool.element (p : Pool) (ring dead : Nat) (t : CapTake) (x : BitVec 16) : Pool :=
  if p.stopped.isSome then p.lose
  else if t.void then
    let q := p.closeGap ring
    if q.stopped.isSome then q.lose else q.advance.endIfDone ring
  else if t.poison then ({ p with susRun := false, gapRun := p.gapRun + 1 }).advance.endIfDone ring
  else
    let q := p.closeGap ring
    if q.stopped.isSome then q.lose
    else
      let r := if q.first || beyond dead x q.held || t.suspect != q.susRun then q.store ring t.ovr x t.suspect else q
      if r.stopped.isSome then r.lose else ({ r with susRun := t.suspect }).advance.endIfDone ring

/-- The elements of a take, first to last. -/
def Pool.elements (p : Pool) (ring dead : Nat) (t : CapTake) : List Nat → Pool
  | [] => p
  | j :: js => (p.element ring dead t (BitVec.ofNat 16 (bitsAt t.data.toNat (16 * j) 16))).elements ring dead t js

/-- A device tick begins: OVERFLOW where it is due, behind BREAKs that found no room, then TICK, HOLD and OVERRANGE (R269, R274, R275). -/
def Pool.begin (p : Pool) (ring dev : Nat) (t : CapTake) : Pool :=
  let q := { p.closeGap ring with tick := some t.rel, elem := 0, last := 0 }
  if q.stopped.isSome && !q.resume then q
  else
    let brk := q.breakDue.map (markWord 5)
    let ovf := match q.stopped with | some n => [markWord 4 (min n 0xFFFFFF)] | none => []
    let hold := q.held.toNat * 2 ^ 16 + b2n q.heldOvr * 2 + b2n q.heldSus
    let ws := brk ++ ovf ++ [markWord 1 dev, hold] ++ (if t.ovr then [markWord 3 0] else [])
    if q.room ring (4 * ws.length) then
      let at' := q.pos + 4 * (brk.length + ovf.length)
      let again := q.broken || !ovf.isEmpty
      let r :=
        { q.put ws with
          anchors := ((⟨dev, at', q.total, false, false⟩ : Anchor) :: q.anchors).take 1024
          first := q.first || again
          susRun := q.susRun && !again
          fill := if again then 0 else q.fill
          breakDue := []
          broken := false
          stopped := none
          resume := false }
      match r.capt with
      | some x =>
        if x.start.isNone && decide (x.firstTick ≤ dev) then
          { r with capt := some { x with start := some at', firstTick := dev }, kept := r.kept ++ [(x.record, at', x.tag.ch)] }
        else r
      | none => r
    else if q.stopped.isSome then { q with resume := false } else q.stop 0

/-- The takes that wait, written as far as their order allows: all of one release tick before the next, which begins with its first
element (R267, R269). `e` is E_c. -/
def Pool.drain (p : Pool) (ring dead e : Nat) (dev : Nat → Nat) : Nat → Pool
  | 0 => p
  | n + 1 =>
    let done := match p.tick with | some _ => decide (e ≤ p.elem) | none => true
    let pick := if done then p.later.find? (fun t => t.base == 0) else p.later.find? (fun t => some t.rel == p.tick)
    match pick with
    | none => p
    | some t =>
      let q := { p with later := p.later.erase t }
      let r := if done then q.begin ring (dev t.rel) t else q
      (r.elements ring dead t (List.range 32)).drain ring dead e dev n

/-- A BREAK is written, or waits for writing to resume where writing has stopped or finds no room (R274, R275). -/
def Pool.putBreak (p : Pool) (ring cause : Nat) : Pool :=
  let q := { p with tick := none, later := [], elem := 0, last := 0, fill := 0, broken := true }
  if q.stopped.isSome then { q with breakDue := q.breakDue ++ [cause] }
  else if q.room ring 4 then q.put [markWord 5 cause]
  else { q.stop 0 with breakDue := q.breakDue ++ [cause] }

/-- An interruption: the record ends, and BREAK is written, at the first device tick whose release is missing (R275). -/
def Pool.interrupt (p : Pool) (ring cause flag : Nat) : Pool := ((p.closeGap ring).endRec flag).putBreak ring cause

/-! ### Pools in the device -/

/-- Every stop of a pool counts, and raises source 28 (R274). -/
def State.poolPut (s : State) (c : Nat) (p : Pool) : State :=
  let n := p.stops - (s.pool c).stops
  let s1 := s.setPool c p
  if n = 0 then s1 else (s1.bump (trgPoolOverflowF c) n).assertSrc 28 (BitVec.ofNat 128 c) c

/-- Every pool that runs is interrupted (R275). -/
def State.breakPools (s : State) (cause flag : Nat) : List Nat → State
  | [] => s
  | c :: cs =>
    (if (s.pool c).on then s.poolPut c ((s.pool c).interrupt (s.ringSize c) cause flag) else s).breakPools cause flag cs

/-- A pool is armed (R271). -/
def State.poolArmed (s : State) (c : Nat) : Bool :=
  let p := s.pool c
  p.on && p.stopped.isNone && !p.broken && !p.anchors.isEmpty && decide (s.getF (trgPoolPre_Elems c) ≤ p.fill)

/-- The stream index of element e of a device tick, where the stream has reached it or will. -/
def Pool.indexOf (p : Pool) (e dev : Nat) : Option Nat :=
  match p.anchors.find? fun a => a.tick == dev with
  | some a => some a.elem
  | none => match p.anchors with
    | a :: _ => if a.tick < dev then some (a.elem + e * (dev - a.tick)) else none
    | [] => none

/-- The anchor of the tick that holds an element: its position, its tick, and whether the record starts short; no position yet for
a tick that has still to begin (R272). An anchor whose bytes are overwritten counts as none. -/
def Pool.startOf (p : Pool) (ring e first : Nat) : Option Nat × Nat × Bool :=
  let as := p.anchors.filter fun a => decide (p.pos ≤ a.pos + ring)
  match as with
  | [] => (none, 0, true)
  | a :: _ =>
    if decide (0 < e) && decide (a.elem + e ≤ first) then (none, a.tick + (first - a.elem) / e, false)
    else match as.find? fun b => decide (b.elem ≤ first) with
      | some b => (some b.pos, b.tick, false)
      | none => match as.getLast? with
        | some b => (some b.pos, b.tick, true)
        | none => (none, 0, true)

/-- What a firing brings to the pools. -/
structure Fire where
  tu : Nat
  tag : Tag
  /-- The trigger carries SUSPECT or POISON. -/
  marked : Bool
  deriving DecidableEq, Repr

/-- A firing at a pool that has one of its units in TU_MASK (R271): the record number, if a record begins. -/
def State.poolFire (s : State) (c : Nat) (f : Fire) : State × Option Nat :=
  let p := s.pool c
  let ring := s.ringSize c
  let e := s.getF (trgPoolCap_E c)
  let pre := s.getF (trgPoolPre_Elems c)
  let post := s.getF (trgPoolPost_Elems c)
  match p.indexOf e f.tag.tick with
  | none => (s.bump (trgPoolNotArmedF c) 1, none)
  | some i0 =>
    let i := i0 + f.tag.tau * e / 16384
    if !s.poolArmed c || decide (i < pre + (p.total - p.fill)) then (s.bump (trgPoolNotArmedF c) 1, none)
    else if p.capt.isSome then (s.bump (trgPoolBusyF c) 1, none)
    else
      let n := s.getF (trgPoolNext_Record c)
      if n - s.getF (trgPoolRelease_Record c) = s.getF (trgPoolTblSize_Entries c) then (s.bump (trgPoolTblFullF c) 1, none)
      else
        let st := p.startOf ring e (i - pre)
        let span := p.anchors.filter fun a => match st.1 with | some q => decide (q ≤ a.pos) | none => false
        let flags := b2n (span.any Anchor.sus) + 2 * b2n (span.any Anchor.gap) + 64 * b2n st.2.2 + 128 * b2n f.marked
        let x : Capt := ⟨n, f.tag, f.tu, flags, s.getF glbImgState_Epoch, st.1, st.2.1, pre, post, i⟩
        let q := { p with capt := some x, kept := match st.1 with | some a => p.kept ++ [(n, a, f.tag.ch)] | none => p.kept }
        ((s.poolPut c (q.endIfDone ring)).setF (trgPoolNext_Record c) (n + 1), some n)

/-- The firings of a device tick at one pool, earliest tag first: the first decides, the others find it busy (R271). -/
def State.poolFires (s : State) (c : Nat) (fs : List Fire) : State × Option (Nat × Nat) :=
  let p := s.pool c
  let mine := fs.filter fun f => (s.getF (trgPoolCtrl_TuMask c)).testBit f.tu
  if !p.on || !s.flag (trgPoolCtrl_En c) then (s, none)
  else match mine with
    | [] => (s, none)
    | f :: more =>
      let r := s.poolFire c f
      (if more.isEmpty then r.1 else r.1.bump (trgPoolBusyF c) more.length, r.2.map fun n => (f.tu, n))

/-- Every pool; the answers name unit and record, lowest pool first. -/
def State.allPools (s : State) (fs : List Fire) : List Nat → State × List (Nat × Nat)
  | [] => (s, [])
  | c :: cs =>
    let r := s.poolFires c fs
    let q := r.1.allPools fs cs
    (q.1, match r.2 with | some x => x :: q.2 | none => q.2)

/-! ### Takes (R246, R215, R340) -/

/-- The EDGE entry at which a TRG and ACQ port acts in this cycle, if it is a take of a kind (R246). -/
def State.takeEntry (s : State) (course kind : Nat) : Option Nat :=
  let site := 12 * course + 11
  let x := mget (fun _ => 0) (s.edge (edgeTrg course)).edge (s.grEntry site 0)
  if s.running && !s.relay site && s.grMode site == 1 && x.testBit 15 && bitsAt x 9 2 == kind then some x else none

/-- The release tick of a take (R246). -/
def State.takeRel (s : State) (x : Nat) : Nat := s.tick - bitsAt x 11 4

/-- A take that a swap discards: its release tick lies below the tick of the last swap, or in the gap of one that is pending
(R215). -/
def State.takeLost (s : State) (rel : Nat) : Bool :=
  decide (rel < s.hearth.gapTo) || (match s.hearth.swap, s.hotImage with
    | some w, some i => !w.hotDone && decide (w.k ≤ rel + i.span / 64)
    | _, _ => false)

/-- The CRC-64 of R338 over bytes, from a register. -/
def crc64 (reg : Nat) (bs : List Byte) : Nat := crcBits 64 0x42F0E1EBA9EA3693 reg (bytesBitsMsb bs)

/-- A take enters the twin digest of its tick (R340). -/
def State.twinTake (s : State) (t : Token) : State :=
  let old := if s.hearth.twinTick = s.tick + 1 then s.hearth.twinCrc.toNat else 0
  { s with hearth := { s.hearth with twinCrc := BitVec.ofNat 64 (crc64 old (leBytes 64 t.data.toNat)), twinTick := s.tick + 1 } }

/-- The token that a take takes; an empty queue gives a poisoned zero token and fault TP_OVERRUN (R246). -/
def State.takeToken (s : State) (course : Nat) : State × Token :=
  let k := edgeTrg course
  let r := s.takeEdge k
  match r.2 with
  | some t => (r.1.twinTake t, t)
  | none => ((s.portFault k 0x01).twinTake Token.bad, Token.bad)

/-- A discarded take is counted (R215). -/
def State.discardTake (s : State) : State := s.setF glbSwapGap_Discarded (satAdd 16 (s.getF glbSwapGap_Discarded) 1)

/-! ### Active copies, decision cycle and hits (R245, R249, R252, R257) -/

/-- A register with two copies, as it is for the decisions of a device tick: a commit that has reached its tick counts (R257). -/
def State.trgReg (s : State) (k off : Nat) : Nat :=
  match s.trg.commitAt with
  | some t => if t ≤ k then (s.word off).toNat else (mget (resetWord s.part) s.trg.active off).toNat
  | none => (mget (resetWord s.part) s.trg.active off).toNat

/-- Ld of the configuration in force (R245). -/
def State.trgLat (s : State) : Nat := match s.hotImage with | some i => i.lat | none => s.getF trgCtrl_NohotLat

/-- The configuration that a swap replaced, where it completes a device tick. -/
def State.oldFor (s : State) (k : Nat) : Option OldTrg :=
  match s.trg.old with
  | some o => if k < o.upTo then some o else none
  | none => none

/-- Ld of a device tick. -/
def State.trgLd (s : State) (k : Nat) : Nat := match s.oldFor k with | some o => o.lat | none => s.trgLat

/-- The last cycle in which a hit of a device tick may be ready (R245). -/
def State.readyLimit (s : State) (k : Nat) : Nat := 64 * k + s.trgLd k - 3

/-- Device ticks are compared by tick time (R249). -/
def Tag.time (t : Tag) : Nat := 16384 * t.tick + t.tau

/-- The tag of an event at a tick time on a channel (R249). -/
def State.tagAt (s : State) (tick ch tau : Nat) : Tag :=
  let x := tau * s.samplesPerTick ch / 64
  ⟨tick, ch, x / 256, x % 256, tau⟩

/-- A hit joins those that wait for their decision. -/
def State.addHit (s : State) (h : Hit) : State := { s with trg := { s.trg with hits := s.trg.hits ++ [h] } }

/-- A detector is marked suspect or poisoned for a device tick (R248). -/
def State.markDet (s : State) (m : DetMark) : State := { s with trg := { s.trg with marks := s.trg.marks ++ [m] } }

end Sys2Proof.Machine
end

