-- ==== Sys2Proof/Machine/Aes.lean ====
section
/-!
DEFINITION. AES-256-GCM (R408, R422, R423: the engine of FIPS 197 and NIST SP 800-38D), for initialisation vectors of 96 bits.
-/
namespace Sys2Proof.Machine

/-! ### AES-256 (FIPS 197) -/

/-- Multiplication by x in GF(2^8). -/
def xtime (a : Byte) : Byte := (a <<< 1) ^^^ (if a.msb then 0x1B else 0)

/-- The product of two elements of GF(2^8), by the bits of the second from bit 0 up. -/
def gf8Mul : Nat → Byte → Byte → Byte
  | 0, _, _ => 0
  | n + 1, a, b => (if b.getLsbD 0 then a else 0) ^^^ gf8Mul n (xtime a) (b >>> 1)

/-- a to the power 2^n - 1 shifted left by one, n squarings: for n = 7 the power 254, which is the inverse. -/
def gf8Power : Nat → Byte → Byte
  | 0, _ => 1
  | n + 1, a => let q := gf8Mul 8 a a; gf8Mul 8 q (gf8Power n q)

/-- The S-box: the inverse, and then the affine map. -/
def sbox (a : Byte) : Byte :=
  let b := gf8Power 7 a
  b ^^^ b.rotateLeft 1 ^^^ b.rotateLeft 2 ^^^ b.rotateLeft 3 ^^^ b.rotateLeft 4 ^^^ 0x63

/-- n further words of the key schedule, from word number i on; the last eight words are given newest first. -/
def aesExpand : Nat → Nat → Byte → List (List Byte) → List (List Byte)
  | 0, _, _, _ => []
  | n + 1, i, rcon, ws =>
    let last := listGet [] ws 0
    let t := if i % 8 = 0 then xorBytes ((last.drop 1 ++ last.take 1).map sbox) [rcon, 0, 0, 0]
      else if i % 8 = 4 then last.map sbox else last
    let w := xorBytes (listGet [] ws 7) t
    w :: aesExpand n (i + 1) (if i % 8 = 0 then xtime rcon else rcon) (w :: ws.take 7)

/-- The fifteen round keys of a 32-byte key. -/
def aesKeys (key : List Byte) : List (List Byte) :=
  let first := (List.range 8).map fun i => (key.drop (4 * i)).take 4
  let ws := first ++ aesExpand 52 8 1 first.reverse
  (List.range 15).map fun r => ((ws.drop (4 * r)).take 4).flatten

/-- SHIFTROWS on a block in column order. -/
def shiftRows (b : List Byte) : List Byte := (List.range 16).map fun i => listGet 0 b (4 * ((i / 4 + i % 4) % 4) + i % 4)

/-- MIXCOLUMNS. -/
def mixColumns (b : List Byte) : List Byte :=
  (List.range 16).map fun i =>
    let at' (k : Nat) : Byte := listGet 0 b (4 * (i / 4) + (i % 4 + k) % 4)
    xtime (at' 0) ^^^ xtime (at' 1) ^^^ at' 1 ^^^ at' 2 ^^^ at' 3

/-- The rounds after the first key. -/
def aesRounds : List (List Byte) → List Byte → List Byte
  | [], b => b
  | [k], b => xorBytes (shiftRows (b.map sbox)) k
  | k :: ks, b => aesRounds ks (xorBytes (mixColumns (shiftRows (b.map sbox))) k)

/-- One block of 16 bytes under round keys. -/
def aesBlock (keys : List (List Byte)) (b : List Byte) : List Byte :=
  match keys with
  | [] => b
  | k :: ks => aesRounds ks (xorBytes b k)

/-! ### GCM (NIST SP 800-38D) -/

/-- The product in GF(2^128), whose element of degree 0 is the leftmost bit: n bits of x from the left, and y. -/
def gf128Mul : Nat → Nat → Nat → Nat
  | 0, _, _ => 0
  | n + 1, x, y =>
    (if x.testBit n then y else 0) ^^^ gf128Mul n x ((y >>> 1) ^^^ (if y.testBit 0 then 0xE1 <<< 120 else 0))

/-- A byte string padded with zeros to whole blocks. -/
def padBlock (b : List Byte) : List Byte := b ++ List.replicate ((16 - b.length % 16) % 16) 0

/-- GHASH of n blocks. -/
def ghash (h : Nat) : Nat → Nat → List Byte → Nat
  | 0, y, _ => y
  | n + 1, y, bs => ghash h n (gf128Mul 128 (y ^^^ ofBe (bs.take 16)) h) (bs.drop 16)

/-- n blocks of the key stream, from a counter on. -/
def gcmStream (keys : List (List Byte)) (iv : List Byte) : Nat → Nat → List Byte
  | 0, _ => []
  | n + 1, c => aesBlock keys (iv ++ beBytes 4 c) ++ gcmStream keys iv n (c + 1)

/-- Encryption and decryption in counter mode. -/
def gcmCrypt (keys : List (List Byte)) (iv text : List Byte) : List Byte :=
  xorBytes text (gcmStream keys iv ((text.length + 15) / 16) 2)

/-- The tag over additional data and ciphertext. -/
def gcmTag (keys : List (List Byte)) (iv aad ct : List Byte) : List Byte :=
  let h := ofBe (aesBlock keys (List.replicate 16 0))
  let m := padBlock aad ++ padBlock ct ++ beBytes 8 (8 * aad.length) ++ beBytes 8 (8 * ct.length)
  xorBytes (beBytes 16 (ghash h (m.length / 16) 0 m)) (aesBlock keys (iv ++ beBytes 4 1))

/-- Sealing: the ciphertext and the tag. -/
def gcmSeal (key iv aad text : List Byte) : List Byte × List Byte :=
  let keys := aesKeys key
  let ct := gcmCrypt keys iv text
  (ct, gcmTag keys iv aad ct)

/-- Opening: the plaintext where the tag agrees. -/
def gcmOpen (key iv aad ct tag : List Byte) : Option (List Byte) :=
  let keys := aesKeys key
  if gcmTag keys iv aad ct = tag then some (gcmCrypt keys iv ct) else none

end Sys2Proof.Machine
end

