-- ==== Sys2Proof/Machine/HearthOps.lean ====
section
/-!
DEFINITION. Pending releases of the Hearth and the end of loader descriptors, which the time, loader and fault families share
(R208, R211, R226, R227, R403).
-/
namespace Sys2Proof.Machine

/-- Nothing releases the Hearth in the safe state and while holdover lasts (R403, R451). -/
def State.noRelease (s : State) : Bool := s.safe || s.flag pwrStatus_Holdover

/-- A release is armed for cycle 0 of tick r (R226, R227). -/
def State.armRun (s : State) (r : Nat) : State :=
  { s with hearth := { s.hearth with runAt := some r } }.setF glbImgState_ReleasePending 1

/-- The conditions of a RUN write for a tick, as a SYNC with START_VALID uses them too (R227, R292): an image is loaded, the Hearth
is halted, the tick is not less than the current tick plus 2, and nothing forbids a release. -/
def State.canRun (s : State) (r : Nat) : Bool :=
  s.hearth.img.isSome && !s.running && decide (s.tick + 2 ≤ r) && !s.noRelease

end Sys2Proof.Machine
end

