-- ==== Sys2Proof/Machine/Grates.lean ====
section
/-!
DEFINITION. The commands of grates, credits and queue-depth sampling (R113 to R146).
-/
namespace Sys2Proof.Machine

/-- TOKEN_CROSSING: the tokens present at the inputs of a grate in this cycle cross to the outputs of their entries
(R116, R120 to R124, R132, R133, R136, R144, R486). -/
def tokenCrossing (site : Nat) (linkErr : List (Nat × LinkErr)) (tblErr : List (Nat × Ecc)) (s : State) : State :=
  s.crossGrate site linkErr tblErr

/-- The meaning of TOKEN_CROSSING. -/
def execTokenCrossing (site : Nat) (linkErr : List (Nat × LinkErr)) (tblErr : List (Nat × Ecc)) (s : State) : Out :=
  .next (s.when (decide (site < 300)) (tokenCrossing site linkErr tblErr s))

/-- STEER_FIRE_HOT: the steering unit of a hot grate fires where its fire table has the bit of this cycle; an uncorrectable
word acts as no firing (R126, R144). -/
def steerFireHot (site : Nat) (ecc : Ecc) (so : List (Nat × Ecc)) (s : State) : State :=
  if !s.running || s.relay site || s.grMode site != 1 then s
  else
    let c := s.checked 0x19 site ecc
    let s1 := c.2.tblCheck site c.1 0xF 0xF
    if c.1 = .uncorrectable then s1
    else if (s1.grate site).fires (s1.grEntry site 0) && (s1.grate site).steerOp != 0 then s1.steerFire site so
    else s1

/-- The meaning of STEER_FIRE_HOT. -/
def execSteerFireHot (site : Nat) (ecc : Ecc) (so : List (Nat × Ecc)) (s : State) : Out :=
  .next (s.when (decide (site < 300)) (steerFireHot site ecc so s))

/-- The numbers of tokens that an operation writes to SO0 and SO1. -/
def steerNeeds (op : Nat) : Nat × Nat := if op = 1 then (1, 0) else if op = 2 then (1, 1) else if op = 3 then (2, 0) else (0, 0)

/-- An output buffer has room and a credit for n tokens (R127). -/
def State.steerRoom (s : State) (site q n : Nat) : Bool :=
  let x := (s.grate site).queue q
  n == 0 || (decide (x.toks.length + s.steerDue site q + n ≤ 2) && decide (n ≤ x.credits) && x.hold.isNone)

/-- A warm steering unit may fire in this cycle (R127). -/
def State.steerReady (s : State) (site : Nat) : Bool :=
  let op := (s.grate site).steerOp
  let n := steerNeeds op
  s.running && !s.relay site && s.grMode site == 2 && op != 0
    && (steerTakes op).all (fun q => (s.headOf site q).isSome) && s.steerRoom site 11 n.1 && s.steerRoom site 12 n.2

/-- STEER_FIRE_WARM (R127, R128). An output buffer whose word is uncorrectable has depth 0, and so no room (R144). -/
def steerFireWarm (site : Nat) (so : List (Nat × Ecc)) (s : State) : State :=
  if !s.steerReady site then s
  else
    let n := steerNeeds (s.grate site).steerOp
    let a := if n.1 = 0 then (false, s) else s.outCheck site 11 (errAt so 0)
    let b := if n.2 = 0 then (false, a.2) else a.2.outCheck site 12 (errAt so 1)
    if a.1 || b.1 then b.2 else b.2.steerFire site []

/-- The meaning of STEER_FIRE_WARM. -/
def execSteerFireWarm (site : Nat) (so : List (Nat × Ecc)) (s : State) : Out :=
  .next (s.when (decide (site < 300)) (steerFireWarm site so s))

/-! ### Credits -/

/-- A sender's queue and word: a unit output or steering output of a grate, or an edge port's sending queue. -/
def State.senderQ (s : State) (k : Nat) : Queue × Nat :=
  if k < 4800 then
    let g := s.grate (k / 16)
    let q := inputQueue (k % 16)
    (g.queue q, g.qWord q)
  else
    let e := s.edge (k - 4800)
    if (k - 4800) / 32 = 4 then (e.rx, e.rxWord) else (e.tx, e.txWord)

/-- The state with a sender's queue replaced. -/
def State.setSenderQ (s : State) (k : Nat) (x : Queue) : State :=
  if k < 4800 then s.setGrate (k / 16) ((s.grate (k / 16)).setQueue (inputQueue (k % 16)) x)
  else
    let e := s.edge (k - 4800)
    s.setEdge (k - 4800) (if (k - 4800) / 32 = 4 then { e with rx := x } else { e with tx := x })

/-- The first entry of a list that satisfies p removed. -/
def dropFirst {α : Type} (p : α → Bool) : List α → List α
  | [] => []
  | x :: xs => if p x then xs else x :: dropFirst p xs

/-- One credit is counted at a sender; above INIT_CREDIT the counter holds and the fault is recorded (R136). -/
def State.addCredit (s : State) (k : Nat) : State :=
  let r := s.senderQ k
  let top := match r.1.hold with | some n => n | none => qwInit r.2
  if r.1.credits < top then s.setSenderQ k { r.1 with credits := r.1.credits + 1 }
  else
    let g := senderSite k
    if k < 4800 then (s.bump (grCreditOverF g) 1).grFault g 0x15 (k % 16) (inputQueue (k % 16))
    else (s.bump (grCreditOverF g) 1).portFault (k - 4800) 0x15

/-- A credit on its way to a sender has arrived: the running cycle in which it is due has come. -/
def creditDue (k now : Nat) (c : Nat × Nat) : Bool := c.1 == k && decide (c.2 ≤ now)

/-- CREDIT_RETURN: the oldest credit on its way to a sender that has had the time to arrive (R133, R136). -/
def creditReturn (sender : Nat) (s : State) : State :=
  if s.running && s.hearth.credits.any (creditDue sender s.hcyc) then
    { s with hearth := { s.hearth with credits := dropFirst (creditDue sender s.hcyc) s.hearth.credits } }.addCredit sender
  else s

/-- The meaning of CREDIT_RETURN. -/
def execCreditReturn (sender : Nat) (s : State) : Out := .next (creditReturn sender s)

/-! ### Sampling (R141, R142) -/

/-- The selected queues in ascending n: site and queue. -/
def State.qsampSel (s : State) : List (Nat × Nat) :=
  (List.range 255).filterMap fun n =>
    if s.flag (fabQsampSel_En n) then some (s.getF (fabQsampSel_Site n), s.getF (fabQsampSel_Queue n)) else none

/-- One bin of a histogram raised, 16 bits and saturating. -/
def binUp (h : List Nat) (i : Nat) : List Nat := listSet h i (satAdd 16 (listGet 0 h i) 1)

/-- QSAMP_SAMPLE: at cycle CYCLE of a tick the occupancy n of each selected queue raises bin min(15, floor(16n/D)). An unfinished
record is kept while EN is 0 or QSAMP_SEL changes, and goes on (DESIGN CHOICE, log entry 107). -/
def qsampSample (s : State) : State :=
  if !s.flag fabQsampCtrl_En || s.cycle != s.getF fabQsampCtrl_Cycle then s
  else
    let sel := s.qsampSel
    let old := if s.hearth.histTicks = 0 then [] else s.hearth.hist
    let bins := sel.zipIdx.map fun p =>
      let q := p.1
      let d := s.qDepth q.1 q.2
      let n := ((s.grate q.1).queue q.2).toks.length
      binUp (listGet (List.replicate 16 0) old p.2) (min 15 (16 * n / d))
    { s with hearth :=
        { s.hearth with
          hist := bins
          histFrom := if s.hearth.histTicks = 0 then s.tick else s.hearth.histFrom
          histTicks := s.hearth.histTicks + 1 } }

/-- The meaning of QSAMP_SAMPLE. -/
def execQsampSample (s : State) : Out := .next (qsampSample s)

/-- The 8 KiB record (the sampling record table). -/
def State.qsampBytes (s : State) : List Byte :=
  let h := s.hearth.hist
  let body := leBytes 8 s.hearth.histFrom ++ leBytes 4 (s.getF fabQsampCtrl_Interval) ++ leBytes 1 h.length
    ++ List.replicate 19 0 ++ h.flatMap fun x => ((x ++ List.replicate 16 0).take 16).flatMap (leBytes 2)
  (body ++ List.replicate 8192 0).take 8192

/-- QSAMP_RECORD: after INTERVAL ticks the record is written to slot QSAMP_WR, or discarded on a full ring, and the histograms
are cleared (R141, R142). While RECORDS is 0 the modulo of the rule has no value, and the next slot is 0 (DESIGN CHOICE, log
entry 108). -/
def qsampRecord (s : State) : State :=
  if !s.flag fabQsampCtrl_En || decide (s.hearth.histTicks < s.getF fabQsampCtrl_Interval) || s.hearth.histTicks == 0 then s
  else
    let clear (s : State) : State := { s with hearth := { s.hearth with hist := [], histTicks := 0 } }
    let n := s.getF fabQsampRing_Records
    let wr := s.getF fabQsampWr_Index
    let next := if n = 0 then 0 else (wr + 1) % n
    if next = s.getF fabQsampRd_Index then clear (s.bump fabQsampDropF 1)
    else clear ((s.hbmWrite 8 0x1FF (8192 * s.getF fabQsampBase_Addr + 8192 * wr) s.qsampBytes false).setF fabQsampWr_Index next)

/-- The meaning of QSAMP_RECORD. -/
def execQsampRecord (s : State) : Out := .next (qsampRecord s)

/-- A grate counter's offset. -/
def isGrCounter (off : Nat) : Bool :=
  decide (0x800000 ≤ off ∧ off < 0x800000 + 0x4000 * 300) && decide (0x20 ≤ off % 0x4000 ∧ off % 0x4000 ≤ 0x4C)

/-- CLR_CNT_FAB: every grate counter and QSAMP_DROP are 0 (FAB.CTRL). -/
def clrCntFab (s : State) : State := s.clearCounters fun off => isGrCounter off || off == fabQsampDrop

/-- The meaning of CLR_CNT_FAB. -/
def execClrCntFab (s : State) : Out := .next (clrCntFab s)

/-! ### Indirect access (R112, R145) -/

/-- Debug access to tables is unlocked (R112, R425). -/
def State.tablesOpen (s : State) : Bool := s.sec.scopes.getLsbD 0

/-- A piece of a grate's tables exists (R145). -/
def grPiece (site table index : Nat) : Bool :=
  if table = 0 then decide (index / 64 < 10) && decide (index / 64 ∈ inputsOf site)
  else if table = 1 then decide (index < 5) else table == 2 && decide (index < 2)

/-- A slot-table piece that sets mask bit 6 or 7 (R113). -/
def slotSetsPorts (d : BitVec 256) : Bool := (List.range 16).any fun e => bitsAt d.toNat (16 * e + 6) 2 != 0

/-- A grate command on its tables may act: the Hearth is halted, debug unlocked, no relay, and the piece exists. -/
def State.grTblOk (s : State) (site : Nat) : Bool :=
  !s.running && s.tablesOpen && !s.relay site && grPiece site (s.getF ⟨grTblSel site, 0, 2⟩) (s.getF ⟨grTblAddr site, 0, 10⟩)

/-- The key of the piece that TBL_SEL and TBL_ADDR name. -/
def State.grTblKey (s : State) (site : Nat) : Nat := s.getF ⟨grTblSel site, 0, 2⟩ * 1024 + s.getF ⟨grTblAddr site, 0, 10⟩

/-- The eight data words of a window from a 256-bit entry, and back. -/
def words8 (d : BitVec 256) : List W32 := (List.range 8).map fun i => BitVec.ofNat 32 (bitsAt d.toNat (32 * i) 32)
def State.data8 (s : State) (off : Nat) : BitVec 256 :=
  BitVec.ofNat 256 ((List.range 8).map fun i => (s.word (off + 4 * i)).toNat * 2 ^ (32 * i)).sum

/-- GRATE_TBL_READ: the piece into TBL_DATA, corrected; an uncorrectable word is read as stored and counted, without a fault. -/
def grateTblRead (site : Nat) (ecc : Ecc) (s : State) : State :=
  if !s.grTblOk site then s.refuse (grTblCmd site)
  else
    let s1 := match ecc with
      | .clean => s
      | .corrected => (s.bump (grTblCeF site) 1).hearthCe 1
      | .uncorrectable => s.bump (grTblUeF site) 1
    s1.setWords (grTblData site 0) (words8 (mget (fun _ => 0) (s.grate site).tab (s.grTblKey site)))

/-- The meaning of GRATE_TBL_READ. -/
def execGrateTblRead (site : Nat) (ecc : Ecc) (s : State) : Out :=
  .next (s.when (decide (site < 300)) (grateTblRead site ecc s))

/-- GRATE_TBL_WRITE: TBL_DATA into the piece, with fresh check bits. -/
def grateTblWrite (site : Nat) (s : State) : State :=
  let d := s.data8 (grTblData site 0)
  if !s.grTblOk site || (s.getF ⟨grTblSel site, 0, 2⟩ == 0 && !isMu site && slotSetsPorts d) then s.refuse (grTblCmd site)
  else
    let g := s.grate site
    s.setGrate site { g with tab := mput (fun _ => 0) g.tab (s.grTblKey site) d }

/-- The meaning of GRATE_TBL_WRITE. -/
def execGrateTblWrite (site : Nat) (s : State) : Out := .next (s.when (decide (site < 300)) (grateTblWrite site s))

end Sys2Proof.Machine
end

