-- ==== Sys2Proof/Machine/CuOps.lean ====
section
/-!
DEFINITION. The compute unit: register file, tags, slots of a bundle, and how their results land (R76 to R101, R336 to R338).
-/
namespace Sys2Proof.Machine

/-! ### Tables of a unit (R488) -/

/-- A table entry of a unit. -/
def HUnit.entry (u : HUnit) (table index : Nat) : BitVec 256 := mget (fun _ => 0) u.tab (table * 2 ^ 17 + index)
def HUnit.setEntry (u : HUnit) (table index : Nat) (d : BitVec 256) : HUnit :=
  { u with tab := mput (fun _ => 0) u.tab (table * 2 ^ 17 + index) d }

/-- The unit itself changes an entry of table 2: what was last written there is kept (R327). -/
def HUnit.moveEntry (u : HUnit) (index : Nat) (d : BitVec 256) : HUnit :=
  let v := u.setEntry 2 index d
  match mget (fun _ => none) u.moved index with
  | some _ => v
  | none => { v with moved := mput (fun _ => none) u.moved index (some (u.entry 2 index)) }

/-- Every entry of table 2 as it was last written. -/
def HUnit.moveBack (u : HUnit) : HUnit :=
  { u.moved.foldl (fun v e => match e.2 with | some d => v.setEntry 2 e.1 d | none => v) u with moved := [] }

/-- The lanes of a VR: piece p of 32 bytes holds lanes 8p to 8p + 7. -/
def HUnit.lanes (u : HUnit) (vr : Nat) : Lanes :=
  (List.range 16).flatMap fun p =>
    let d := (u.entry 1 (16 * vr + p)).toNat
    (List.range 8).map fun k => BitVec.ofNat 32 (bitsAt d (32 * k) 32)

/-- The bytes of a VR. -/
def HUnit.vrBytes (u : HUnit) (vr : Nat) : List Byte :=
  (List.range 16).flatMap fun p => leBytes 32 (u.entry 1 (16 * vr + p)).toNat

/-- Bytes written into a VR, none where a byte keeps its value; pieces from p on. -/
def HUnit.putPieces (u : HUnit) (vr p : Nat) : Nat → List (Option Byte) → HUnit
  | 0, _ => u
  | n + 1, bs =>
    let now := bs.take 32
    let old := leBytes 32 (u.entry 1 (16 * vr + p)).toNat
    let new := List.zipWith (fun o (b : Option Byte) => b.getD o) old now
    let v := if now.all Option.isNone then u else u.setEntry 1 (16 * vr + p) (BitVec.ofNat 256 (ofLe new))
    v.putPieces vr (p + 1) n (bs.drop 32)

/-- Tags of a block of a VR. -/
def HUnit.blkTags (u : HUnit) (vr blk : Nat) : Tags := mget (fun _ => Tags.clear) u.tags (8 * vr + blk)
def HUnit.setBlkTags (u : HUnit) (vr blk : Nat) (t : Tags) : HUnit :=
  { u with tags := mput (fun _ => Tags.clear) u.tags (8 * vr + blk) t }

/-- The OR of two tags. -/
def Tags.or (a b : Tags) : Tags := ⟨a.sus || b.sus, a.poi || b.poi⟩

/-- The OR of the tags of every block of a VR (R92). -/
def HUnit.vrTags (u : HUnit) (vr : Nat) : Tags := ((List.range 8).map (u.blkTags vr)).foldl Tags.or Tags.clear

/-- The tags of blocks after a write of bytes: replaced where every byte of a block is written, ORed where some are (R92). -/
def HUnit.tagWrite (u : HUnit) (vr : Nat) (bs : List (Option Byte)) (t : Tags) : List Nat → HUnit
  | [] => u
  | b :: rest =>
    let part := (bs.drop (64 * b)).take 64
    let v := if part.all Option.isSome then u.setBlkTags vr b t
      else if part.any Option.isSome then u.setBlkTags vr b ((u.blkTags vr b).or t) else u
    v.tagWrite vr bs t rest

/-- A mask register; M0 reads as all ones (R90). -/
def HUnit.maskReg (u : HUnit) (m : Nat) : BitVec 128 :=
  if m = 0 then BitVec.ofNat 128 (2 ^ 128 - 1) else BitVec.ofNat 128 (bitsAt (u.entry 3 (m / 2)).toNat (128 * (m % 2)) 128)

/-- A write of a mask register; one of M0 is ignored. -/
def HUnit.setMask (u : HUnit) (m : Nat) (v : BitVec 128) : HUnit :=
  if m = 0 then u
  else u.setEntry 3 (m / 2) (BitVec.ofNat 256 (putBits (u.entry 3 (m / 2)).toNat (128 * (m % 2)) 128 v.toNat))

/-- A permute table value (R488). -/
def HUnit.permAt (u : HUnit) (p i : Nat) : Nat := bitsAt (u.entry 3 (4 + 4 * p + i / 32)).toNat (8 * (i % 32)) 7

/-- A scalar register; S0 reads as 0 (R95). -/
def HUnit.scalar (u : HUnit) (r : Nat) : W32 :=
  if r = 0 then 0 else BitVec.ofNat 32 (bitsAt (u.entry 4 (r / 8)).toNat (32 * (r % 8)) 32)

/-- A write of a scalar register; one of S0 is ignored. -/
def HUnit.setScalar (u : HUnit) (r : Nat) (v : W32) : HUnit :=
  if r = 0 then u
  else u.setEntry 4 (r / 8) (BitVec.ofNat 256 (putBits (u.entry 4 (r / 8)).toNat (32 * (r % 8)) 32 v.toNat))

/-- An accumulator set. -/
def HUnit.acc (u : HUnit) (a : Nat) : Acc := mget (fun _ => Acc.init) u.accs a
def HUnit.setAcc (u : HUnit) (a : Nat) (x : Acc) : HUnit := { u with accs := mput (fun _ => Acc.init) u.accs a x }

/-- The statistics of an RQT entry beyond its table entry. -/
def HUnit.rqt (u : HUnit) (i : Nat) : Rqt := mget (fun _ => Rqt.init) u.rqts i
def HUnit.setRqt (u : HUnit) (i : Nat) (x : Rqt) : HUnit := { u with rqts := mput (fun _ => Rqt.init) u.rqts i x }

/-! ### The unit in its schedule -/

/-- An active compute unit: the Hearth runs, and the image uses the site (R96, R97). -/
def State.cuOn (s : State) (u : Nat) : Bool := s.running && s.siteOn u && !isMu u && decide (s.unitMode u = 1 ∨ s.unitMode u = 2)

/-- The bundle that a unit issues in this cycle: by time in a hot unit, its own counter in a warm one (R96, R97). -/
def State.bundleNow (s : State) (u : Nat) : Nat :=
  if s.unitMode u = 1 then
    64 * s.phaseAt (s.getF (hrtUnitCfg_Epoch u)) (s.getF (hrtUnitCfg_Plog u)) s.tick + s.cycle
  else (s.unit u).bundle

/-- A fault of a unit with no port, AG, bank or queue, once for each of n words: INPUT reads 0 (DESIGN CHOICE, log entry 86). -/
def State.wordFaults (s : State) (u code bundle : Nat) : Nat → State
  | 0 => s
  | n + 1 => (s.unitFault u code 0 0 0xF bundle).wordFaults u code bundle n

/-- The VRF check of one operation's reads: each corrected lane word counts, and each uncorrectable one counts and is a fault; one such
word poisons the operand (R94). -/
def State.vrfCheck (s : State) (u : Nat) (e : WordErrs) : State × Tags :=
  let c := s.checkedWords 0x05 u e
  let s1 := if c.1.ce = 0 then c.2 else (c.2.bump (hrtMemCeF u) c.1.ce).hearthCe c.1.ce
  if c.1.ue = 0 then (s1, Tags.clear)
  else ((s1.bump (hrtMemUeF u) c.1.ue).wordFaults u 0x05 (c.2.bundleNow u) c.1.ue, ⟨false, true⟩)

/-- A warm unit that consumes a poisoned operand records CU_POISON (R93); its INPUT reads 0 (DESIGN CHOICE, log entry 86). -/
def State.consumed (s : State) (u : Nat) (t : Tags) : State :=
  if t.poi && s.unitMode u == 2 then s.unitFault u 0x03 0 0 0xF (s.bundleNow u) else s

/-! ### Issue of slots -/

/-- The bytes of a 1 KiB tile and a 512-byte buffer. -/
def tileByte (d : BitVec 8192) (i : Nat) : Nat := bitsAt d.toNat (8 * i) 8
def sideByte (d : BitVec 4096) (i : Nat) : Nat := bitsAt d.toNat (8 * i) 8

/-- Σ over the 32 rows of an activation slice times a weight. -/
def rowSum (act : List Byte) (w : Nat → Nat) : Int :=
  ((act.zipIdx.map fun a => a.1.toNat * w a.2).sum : Nat)

/-- The column sums of a pass: 32 in W8 mode, 64 in W4 mode (R79). -/
def passCols (act : List Byte) (d : BitVec 8192) (w4 : Bool) : List Int :=
  if w4 then
    ((List.range 32).map fun c => rowSum act fun r => tileByte d (32 * r + c) % 16)
      ++ (List.range 32).map fun c => rowSum act fun r => tileByte d (32 * r + c) / 16
  else (List.range 32).map fun c => rowSum act fun r => tileByte d (32 * r + c)

/-- The 64 side sums of a side-array pass over 8 INT16 activations (R81). -/
def passSide (act : List Byte) (d : BitVec 4096) : List Int :=
  (List.range 64).map fun c =>
    ((List.range 8).map fun i => sint 16 (u16At act (2 * i)) * sint 8 (sideByte d (64 * i + c))).sum

/-- MAC8, MAC4, OMAC8 and OMAC4 issued: the weights are those the buffers hold now, since an LDW of the cycle before has landed
and one of this cycle has not; the sums land at the end of cycle u + 4 (R79 to R84, R92). -/
def State.macIssue (s : State) (u asrc aseg : Nat) (wsel : Bool) (acc : Nat) (w4 omac : Bool) (ecc : WordErrs) : State :=
  let x := s.unit u
  let bs := x.vrBytes (asrc % 512)
  let k := aseg % 16
  let k2 := (k + 1) % 16
  let act := (bs.drop (32 * k)).take 32
  let sid := (bs.drop (32 * k2)).take 16
  let d := if wsel then x.tile1 else x.tile0
  let v := s.vrfCheck u ecc
  let t0 := (v.2.or (x.blkTags (asrc % 512) (k / 2))).or (if wsel then x.tileTags1 else x.tileTags0)
  let t := if omac then (t0.or (x.blkTags (asrc % 512) (k2 / 2))).or x.sideTags else t0
  let row : Int := ((act.map BitVec.toNat).sum : Nat)
  (v.1.consumed u t).after 5 (.mac u (acc % 4) w4 omac (passCols act d w4) row
    (if omac then passSide sid x.side else List.replicate 64 0) t)

/-- A VR as one number. -/
def HUnit.vrNat (u : HUnit) (vr : Nat) : Nat := ((List.range 16).map fun p => (u.entry 1 (16 * vr + p)).toNat * 2 ^ (256 * p)).sum

/-- LDW and LDO issued (R84). -/
def State.ldwIssue (s : State) (u asrc : Nat) (wsel : Bool) (ecc : WordErrs) : State :=
  let x := s.unit u
  let a := asrc % 512
  let b := (asrc + 1) % 512
  let v := s.vrfCheck u ecc
  let t := (v.2.or (x.vrTags a)).or (x.vrTags b)
  (v.1.consumed u t).after 1 (.tile u wsel (BitVec.ofNat 8192 (x.vrNat a + 2 ^ 4096 * x.vrNat b)) t)
def State.ldoIssue (s : State) (u asrc : Nat) (ecc : WordErrs) : State :=
  let x := s.unit u
  let v := s.vrfCheck u ecc
  let t := v.2.or (x.vrTags (asrc % 512))
  (v.1.consumed u t).after 1 (.sideBuf u (BitVec.ofNat 4096 (x.vrNat (asrc % 512))) t)

/-- GEND issued: the parameter pair is read now, and the set is taken at the end of cycle t' + 4 (R82, R84). -/
def State.gendIssue (s : State) (u asrc aseg acc gsz dst : Nat) (ecc : WordErrs) : State :=
  let x := s.unit u
  let a := asrc % 512
  let b := (asrc + 1) % 512
  let v := s.vrfCheck u ecc
  let t := (v.2.or (x.vrTags a)).or (x.vrTags b)
  (v.1.consumed u t).after 5 (.take u (aseg % 4) (acc % 4) (gsz % 4) (dst % 512) (s.bundleNow u) (BitVec.ofNat 4096 (x.vrNat a))
    (BitVec.ofNat 4096 (x.vrNat b)) t)

/-- The cycle of issue to the cycle in which V5 begins: VRF read, V0 to V4 and V3PAD (R85, R100, R101). -/
def State.v5Delay (s : State) (u : Nat) : Nat :=
  (match s.part.stepping with | .a0 => 26 | .b0 => 25) + s.getF (hrtLatPad_V3pad u)

/-- The digest share of a CU fed with the bytes that V5 writes for lanes 0 to 127, whatever the mask (R337, R338). -/
def digFeed (l : List DigPart) (point window : Nat) (bs : List Byte) (t : Tags) : List DigPart :=
  let up (d : DigPart) : DigPart :=
    { d with crc := BitVec.ofNat 64 (crcBits 64 0x42F0E1EBA9EA3693 d.crc.toNat (bytesBitsMsb bs)), sus := d.sus || t.sus,
             poi := d.poi || t.poi }
  if l.any (fun d => d.point == point && d.window == window) then
    l.map fun d => if d.point == point && d.window == window then up d else d
  else l ++ [up ⟨point, window, 0, false, false⟩]

/-- The bytes of V5 for every lane, by operation (R337). -/
def v5Bytes (f : Vec) (e : Rq) (x : Lanes) : List Byte :=
  if f.v5 = 1 then (qnt8All e x 0).1.map (BitVec.ofNat 8)
  else x.flatMap fun l => leBytes (if f.v5 = 2 then 2 else 4) (stageV5 f.v5 l.toNat)

/-- Statistics and digest of one instruction at V5 (R183 to R185, R337). -/
def HUnit.v5Stats (u : HUnit) (f : Vec) (ctrl : BitVec 16) (e : Rq) (x : Lanes) (mask : BitVec 128) (t : Tags) (window : Nat) :
    HUnit :=
  let r := u.rqt f.qp
  let w0 := if ctrl.getLsbD 10 then r.win.feed x mask else r.win
  let q := qnt8All e x mask
  let w := if f.v5 = 1 then { w0 with sat := w0.sat || decide (0 < q.2.1), ufl := w0.ufl || decide (0 < q.2.2) } else w0
  let v := u.setRqt f.qp { r with win := w }
  let p := bitsAt ctrl.toNat 11 5
  if p = 0 then v else { v with digs := digFeed v.digs p window (v5Bytes f e x) t }

/-- A vector instruction issued. A hot unit meets its window and the scale in force when V5 begins; a warm unit has them by the
step and bundle of issue (R184, R185, R187, R339). -/
def State.vecIssue (s : State) (u : Nat) (vec : BitVec 80) (ctrl : BitVec 16) (e : WordErrs) : State :=
  let f := Vec.ofBits vec
  let x := s.unit u
  let v := s.vrfCheck u e
  let t := ((v.2.or (x.vrTags f.srcA)).or (if f.usesB then x.vrTags f.srcB else Tags.clear)).or
    (if f.usesC then x.vrTags f.srcC else Tags.clear)
  let mask := x.maskReg f.mask
  let r := vecFront f (x.lanes f.srcA) (x.lanes f.srcB) (x.lanes f.srcC) x.scalar (x.permAt f.perm) mask
  let s1 := v.1.consumed u t
  let warm := s.unitMode u == 2
  let rq := x.entry 2 f.qp
  let s2 := if warm then s1.setUnit u ((s1.unit u).v5Stats f ctrl (Rq.ofBits rq) r.1 mask t x.step) else s1
  s2.after (s.v5Delay u + 1) (.vfive u vec ctrl r.1 mask r.2 t (if warm then some rq else none))

/-- A scalar operation's value, none for NOP (R95). -/
def State.scalarValue (s : State) (u : Nat) (slot : Nat) : Option (Nat × W32) :=
  let x := s.unit u
  let op := bitsAt slot 20 4
  let sa := bitsAt slot 10 5
  let a := x.scalar sa
  let b : W32 := if slot.testBit 9 then (BitVec.ofInt 32 (sint 9 (bitsAt slot 0 9))) else x.scalar (bitsAt slot 0 5)
  let sh := b.toNat % 32
  let v : W32 :=
    if op = 1 then a + b else if op = 2 then a - b else if op = 3 then a &&& b else if op = 4 then a ||| b
    else if op = 5 then a ^^^ b else if op = 6 then a <<< sh else if op = 7 then a >>> sh else if op = 8 then a.sshiftRight sh
    else if op = 9 then BitVec.ofInt 32 (sint 16 a.toNat * sint 16 b.toNat)
    else if op = 10 then (if a.toInt ≤ b.toInt then a else b) else if op = 11 then (if a.toInt ≤ b.toInt then b else a)
    else if op = 12 then (if a.toInt < b.toInt then 1 else 0)
    else
      let sel := sa % 4
      BitVec.ofNat 32 (if sel = 0 then s.frc.toNat else if sel = 1 then s.tick
        else if sel = 2 then s.phaseAt (s.getF (hrtUnitCfg_Epoch u)) (s.getF (hrtUnitCfg_Plog u)) s.tick
        else s.getF (hrtUnitCfg_Epoch u))
  if op = 0 ∨ 13 < op then none else some (bitsAt slot 15 5, v)

/-- A scalar slot issued: it writes at the end of the cycle. -/
def State.scalarIssue (s : State) (u slot : Nat) : State :=
  match s.scalarValue u slot with
  | none => s
  | some (r, v) => s.after 1 (.scal u r v)

/-- RECV issued: the head token's data and tags land in the block in cycle t + 1. A VOID token gives zeros with clear tags, and
an empty queue of a hot unit zeros with poison (R98, R99, R129). A MARK is never taken (R218). -/
def State.recvIssue (s : State) (u q vr blk : Nat) : State :=
  match s.headOf u q with
  | some t =>
    if t.mark then s
    else
      (s.takeHead u q).1.after 2 (if t.void then .recv u (vr % 512) (blk % 8) 0 Tags.clear
        else .recv u (vr % 512) (blk % 8) t.data ⟨t.suspect, t.poison⟩)
  | none =>
    if s.unitMode u = 1 then
      ((s.bump (hrtOverrunF u) 1).unitFault u 0x01 q 0 q (s.bundleNow u)).after 2 (.recv u (vr % 512) (blk % 8) 0 ⟨false, true⟩)
    else s

/-- SEND issued: the block is read now, and the token enters the output queue in cycle t + 2 (R99, R119); with depth0 set the queue's
word is uncorrectable (R144). -/
def State.sendIssue (s : State) (u q vr blk : Nat) (ecc : WordErrs) (depth0 : Bool) : State :=
  let x := s.unit u
  let d := (x.entry 1 (16 * (vr % 512) + 2 * (blk % 8))).toNat + 2 ^ 256 * (x.entry 1 (16 * (vr % 512) + 2 * (blk % 8) + 1)).toNat
  let v := s.vrfCheck u ecc
  let t := v.2.or (x.blkTags (vr % 512) (blk % 8))
  v.1.after 2 (.send u (4 + q) (s.bundleNow u) q depth0
    ⟨BitVec.ofNat 512 d, s.getF (hrtUnitCfg_Epoch u), 0, t.poi, t.sus, false, false, none⟩ false)

/-! ### Bundles (R86) -/

/-- The fields of the MAC slot are listed. -/
def macListed (m : Nat) : Bool :=
  let op := bitsAt m 28 4
  let asrc := bitsAt m 19 9
  decide (op < 8) && !m.testBit 0 && !(op == 5 && asrc % 2 == 1) && !(op == 7 && (asrc == 511 || decide (3 < bitsAt m 15 4)))

/-- The fields of the vector slot are listed. -/
def vecListed (vec : BitVec 80) : Bool :=
  let f := Vec.ofBits vec
  decide (f.v0 ≤ 9 ∧ f.v1 ≤ 5 ∧ f.v2 ≤ 7 ∧ f.v3 ≤ 9 ∧ f.v4 ≤ 6 ∧ f.v5 ≤ 3) && bitsAt vec.toNat 0 3 == 0
    && !((f.v2 == 2 || f.v2 == 3) && f.v1 != 0)
    && !((f.v1 == 2 || f.v2 == 3) && (f.v0 != 0 || f.v3 != 0 || f.v5 != 0))

/-- A scalar slot's operation is listed. -/
def scalarListed (slot : Nat) : Bool := decide (bitsAt slot 20 4 ≤ 13)

/-- A CU bundle without an unlisted value. -/
def cuListed (b : BitVec 256) : Bool :=
  let n := b.toNat
  macListed (bitsAt n 224 32) && vecListed (BitVec.ofNat 80 (bitsAt n 144 80))
    && (List.range 4).all (fun k => scalarListed (bitsAt n (48 + 24 * k) 24)) && bitsAt n 16 4 == 0 && bitsAt n 0 10 == 0

/-- An MU bundle without an unlisted value: XFER is listed for warm units only (R86, R483). -/
def muListed (hot : Bool) (b : Nat) : Bool :=
  (List.range 4).all fun a =>
    let f := bitsAt b (8 * a) 8
    let op := f / 64
    !f.testBit 0 && !(hot && op == 3) && !(op != 3 && f.testBit 1)

/-- The MAC slot of a bundle issued. -/
def State.macSlot (s : State) (u m : Nat) (ecc : WordErrs) : State :=
  let op := bitsAt m 28 4
  let asrc := bitsAt m 19 9
  let aseg := bitsAt m 15 4
  let wsel := m.testBit 14
  let acc := bitsAt m 12 2
  if op = 1 then s.macIssue u asrc aseg wsel acc false false ecc
  else if op = 2 then s.macIssue u asrc aseg wsel acc true false ecc
  else if op = 3 then s.macIssue u asrc aseg wsel acc false true ecc
  else if op = 4 then s.macIssue u asrc aseg wsel acc true true ecc
  else if op = 5 then s.ldwIssue u asrc wsel ecc
  else if op = 6 then s.ldoIssue u asrc ecc
  else if op = 7 then s.gendIssue u asrc aseg acc (bitsAt m 10 2) (bitsAt m 1 9) ecc
  else s

/-- The queue word that a bundle's SEND meets: whether its queue acts as depth 0 (R144). -/
def State.sendCheck (s : State) (u : Nat) (b : BitVec 256) (c : Checks) : Bool × State :=
  let p := bitsAt b.toNat 16 32
  if p.testBit 31 then s.outCheck u (4 + bitsAt p 16 1) (errAt c.oq (bitsAt p 16 1)) else (false, s)

/-- Every slot of a CU bundle issued: all reads are of the issue cycle, since nothing lands in it. -/
def State.cuIssue (s : State) (u : Nat) (b : BitVec 256) (c : Checks) (depth0 : Bool) : State :=
  let n := b.toNat
  let p := bitsAt n 16 32
  let s1 := s.macSlot u (bitsAt n 224 32) c.mac
  let s2 := if n.testBit 223 then s1.vecIssue u (BitVec.ofNat 80 (bitsAt n 144 80)) (BitVec.ofNat 16 (bitsAt n 0 16)) c.vec else s1
  let s3 := (List.range 4).foldl (fun s k => s.scalarIssue u (bitsAt n (48 + 24 * k) 24)) s2
  let s4 := if p.testBit 30 then s3.recvIssue u (bitsAt p 29 1) (bitsAt p 20 9) (bitsAt p 17 3) else s3
  if p.testBit 31 then s4.sendIssue u (bitsAt p 16 1) (bitsAt p 7 9) (bitsAt p 4 3) c.send depth0 else s4

/-! ### Landing -/

/-- A pass lands in its set (R80, R81, R83). -/
def Acc.add (a : Acc) (w4 omac : Bool) (cols : List Int) (row : Int) (side : List Int) (t : Tags) : Acc :=
  { cols := (List.range 64).map fun c => listGet 0 a.cols c + listGet 0 cols c
    row := a.row + row
    side := (List.range 64).map fun c => listGet 0 a.side c + listGet 0 side c
    passes := a.passes + 1
    mode4 := some (a.mode4.getD w4)
    mixed := a.mixed || (match a.mode4 with | some m => m != w4 | none => false)
    omacs := a.omacs + b2n omac
    tags := a.tags.or t }

/-- GEND takes its set: the group results are on their way, and the set is zero (R82, R83, R92). A set without a pass since its last
GEND has no mode that would say how many results GEND writes: the model takes W8, 32 results (DESIGN CHOICE, log entry 84). GROUP_COUNT
records INPUT 0 (DESIGN CHOICE, log entry 86). -/
def State.landTake (s : State) (u aseg acc gsz dst bundle : Nat) (p0 p1 : BitVec 4096) (t : Tags) : State :=
  let x := s.unit u
  let a := x.acc acc
  let bad := decide (a.passes ≠ gsz + 1) || a.mixed
  let n := if a.mode4 = some true then 64 else 32
  let b0 := leBytes 512 p0.toNat
  let b1 := leBytes 512 p1.toNat
  let res := (List.range n).map fun c => BitVec.ofNat 32 (groupResult a b0 b1 c)
  let tags := t.or a.tags
  let s1 := s.setUnit u (x.setAcc acc Acc.init)
  let s2 := if bad then s1.unitFault u 0x04 0 0 0xF bundle else s1
  s2.after 7 (.results u aseg dst res { tags with poi := tags.poi || bad })

/-- A write of bytes through a port: values in port order, tags, and a collision counted once in a cycle (R91). -/
def State.landBytes (s : State) (u vr rank : Nat) (bs : List (Option Byte)) (t : Tags) : State :=
  let m := bs.map Option.isSome
  let mine := s.hearth.vwrites.filter fun w => w.1 == u
  let hit := mine.any fun w => w.2.1 == vr && w.2.2.1 != rank && (List.zipWith (· && ·) w.2.2.2 m).any id
  let counted := mine.any fun w => w.2.1 == 512
  let x := s.unit u
  let s1 := s.setUnit u ((x.putPieces vr 0 16 bs).tagWrite vr bs t (List.range 8))
  let s2 := if hit && !counted then s1.bump (hrtCollideF u) 1 else s1
  let add := (u, vr, rank, m) :: (if hit && !counted then [(u, 512, 0, [])] else [])
  { s2 with hearth := { s2.hearth with vwrites := s2.hearth.vwrites ++ add } }

/-- Bytes at an offset of a VR. -/
def bytesAt (off : Nat) (bs : List Byte) : List (Option Byte) :=
  ((List.replicate off none ++ bs.map some) ++ List.replicate 512 none).take 512

/-- V5 has begun: statistics, digest and counts, and the write on its way (R85, R179 to R185, R337). -/
def State.landV5 (s : State) (u : Nat) (vec : BitVec 80) (ctrl : BitVec 16) (x : Lanes) (mask : BitVec 128)
    (cmp : Option (BitVec 128)) (t : Tags) (rq : Option (BitVec 256)) : State :=
  let f := Vec.ofBits vec
  let un := s.unit u
  let e := Rq.ofBits (rq.getD (un.entry 2 f.qp))
  let window := s.sinceT0 (s.getF (hrtUnitCfg_Epoch u)) ((s.frc.toNat - 1) / 64)
  let s1 := if rq.isSome then s else s.setUnit u (un.v5Stats f ctrl e x mask t window)
  let q := qnt8All e x mask
  let s2 := if f.v5 = 1 then (s1.bump (hrtSatF u) q.2.1).bump (hrtUflF u) q.2.2 else s1
  s2.after 2 (.vwrite u f.dst (vecBytes f e x mask) (cmp.map fun c => (f.mdst, c, mask)) t)

/-- A vector write lands: lanes, tags, and the mask of a comparison (R90). -/
def State.landVec (s : State) (u dst : Nat) (bs : List (Option Byte)) (cmp : Option (Nat × BitVec 128 × BitVec 128)) (t : Tags) :
    State :=
  let s1 := s.landBytes u dst 0 bs t
  match cmp with
  | none => s1
  | some (m, c, on) =>
    let x := s1.unit u
    s1.setUnit u (x.setMask m ((x.maskReg m &&& ~~~on) ||| (c &&& on)))

/-- A token enters a unit output queue: SEQ is the count of its tokens since the epoch began. A full queue is looked at again
at the end of the cycle; then the token is discarded, as at a queue of depth 0 (R98, R119, R131, R144). -/
def State.landSend (s : State) (u q bundle port : Nat) (depth0 : Bool) (t : Token) (late : Bool) : State :=
  let g := s.grate u
  let x := g.queue q
  if depth0 = false ∧ x.toks.length < s.qDepth u q then
    s.setGrate u (g.setQueue q { x with toks := x.toks ++ [{ t with seq := x.sent % 256 }], sent := x.sent + 1 })
  else if late = false ∧ depth0 = false then s.after 0 (.send u q bundle port depth0 t true)
  else (s.bump (hrtOverrunF u) 1).unitFault u 0x01 port 0 q bundle

end Sys2Proof.Machine
end

