-- ==== Sys2Proof/Machine/MuOps.lean ====
section
/-!
DEFINITION. The memory unit: address patterns, bank accesses and their conflicts, the warm arbiter, and bursts between HBM and
SRAM (R102 to R110, R483).
-/
namespace Sys2Proof.Machine

/-! ### Address patterns (R106) -/

/-- The fields of a pattern by the AG pattern register table; other bits are ignored. -/
structure Pat where
  mode : Nat
  base : Nat
  strides : List Int
  counts : List Nat
  adv : Int
  wbase : Nat
  wlen : Nat
  deriving DecidableEq, Repr

/-- Pattern k of an AG. -/
def HUnit.pat (u : HUnit) (ag k : Nat) : Pat :=
  let w (i : Nat) : Nat := bitsAt (u.entry 2 (9 * (8 * ag + k) + i)).toNat 0 32
  ⟨bitsAt (w 0) 30 2, bitsAt (w 0) 0 17, (List.range 4).map fun i => sint 18 (bitsAt (w (1 + i)) 0 18),
    [bitsAt (w 5) 0 12, bitsAt (w 5) 16 12, bitsAt (w 6) 0 12, bitsAt (w 6) 16 12], sint 14 (bitsAt (w 7) 18 14),
    bitsAt (w 7) 0 17, bitsAt (w 8) 0 17⟩

/-- A pattern that is listed (R106). -/
def Pat.listed (p : Pat) : Bool := decide (p.mode ≠ 3) && p.counts.all (· != 0) && (p.mode == 0 || p.wlen != 0)

/-- The line that an access with counters i0 to i3 names. -/
def Pat.line (p : Pat) (i : List Nat) : Nat :=
  let a : Int := p.base + ((i.zip p.strides).map fun x => (x.1 : Int) * x.2).sum
  if p.mode = 0 then (a % 131072).toNat else ((p.wbase : Int) + (a - p.wbase) % p.wlen).toNat % 131072

/-- The counters of a pattern. -/
def HUnit.ctrsOf (u : HUnit) (ag k : Nat) : List Nat := mgetRange (fun _ => 0) u.ctrs (4 * (8 * ag + k)) 4

/-- Counters after one step, and whether the pattern completes. -/
def stepCtrs : List Nat → List Nat → List Nat × Bool
  | i :: is, c :: cs => if i + 1 < c then ((i + 1) :: is, false) else let r := stepCtrs is cs; (0 :: r.1, r.2)
  | is, _ => (is, true)

/-- The unit after a step from given counters: at a completion of mode MODULO the base moves. -/
def HUnit.stepPat (u : HUnit) (ag k : Nat) (i : List Nat) : HUnit :=
  let p := u.pat ag k
  let r := stepCtrs i p.counts
  let v := { u with ctrs := mputRange (fun _ => 0) u.ctrs (4 * (8 * ag + k)) r.1 }
  if r.2 && p.mode == 2 then
    let b := ((p.wbase : Int) + ((p.base : Int) + p.adv - p.wbase) % p.wlen).toNat
    let n := 9 * (8 * ag + k)
    v.moveEntry n (BitVec.ofNat 256 (putBits (v.entry 2 n).toNat 0 17 b))
  else v

/-! ### SRAM (R102, R104, R105) -/

/-- A line of SRAM. -/
def HUnit.line (u : HUnit) (l : Nat) : Nat := bitsAt (u.entry 1 (l / 2)).toNat (128 * (l % 2)) 128
def HUnit.setLine (u : HUnit) (l v : Nat) : HUnit :=
  u.setEntry 1 (l / 2) (BitVec.ofNat 256 (putBits (u.entry 1 (l / 2)).toNat (128 * (l % 2)) 128 v))

/-- The tags of a line: its suspect tag, and check bits that mark it uncorrectable. -/
def HUnit.lineTags (u : HUnit) (l : Nat) : Tags := mget (fun _ => Tags.clear) u.tags l
def HUnit.setLineTags (u : HUnit) (l : Nat) (t : Tags) : HUnit := { u with tags := mput (fun _ => Tags.clear) u.tags l t }

/-- The lines and banks of an access. -/
def linesOf (l : Nat) : List Nat := (List.range 4).map fun k => (l + k) % 131072
def banksOf (l : Nat) : List Nat := (linesOf l).map (· % 32)

/-- The four lines of an access as data, and the OR of their tags. -/
def HUnit.readLines (u : HUnit) (l : Nat) : BitVec 512 × Tags :=
  (BitVec.ofNat 512 ((linesOf l).zipIdx.map fun x => u.line x.1 * 2 ^ (128 * x.2)).sum,
    ((linesOf l).map u.lineTags).foldl Tags.or Tags.clear)

/-- The four lines of an access written. -/
def HUnit.writeLines (u : HUnit) (l : Nat) (d : BitVec 512) (t : Tags) : HUnit :=
  (linesOf l).zipIdx.foldl (fun u x => (u.setLine x.1 (bitsAt d.toNat (128 * x.2) 128)).setLineTags x.1 t) u

/-- A read of four lines with the errors that its checks meet: data, suspect and poison. A row stored poisoned reads as uncorrectable;
a read that meets correctable errors counts them once, and one that meets uncorrectable errors counts and records those once
(R104, R105). -/
def State.sramRead (s : State) (u ag line bundle : Nat) (ecc : WordErrs) (tagBad : Bool) : State × BitVec 512 × Tags :=
  let r := (s.unit u).readLines line
  let c := s.checkedWords 0x07 u ecc
  let s1 := if tagBad then c.2.bump (hrtSatF u) 1 else c.2
  let s2 := if c.1.ce = 0 then s1 else (s1.bump (hrtMemCeF u) 1).hearthCe 1
  let bad := r.2.poi || c.1.ue != 0
  (if bad then (s2.bump (hrtMemUeF u) 1).unitFault u 0x07 ag 0 0xF bundle else s2, r.1, ⟨r.2.sus || tagBad, bad⟩)

/-! ### Accesses of a hot unit, and granted ones of a warm unit (R103, R107, R108) -/

/-- An unlisted pattern: the access is suppressed and counted (R106). -/
def State.illegal (s : State) (u : Nat) : State := s.bump (hrtIllegalF u) 1

/-- A read whose data are zeros with poison: it enters the output queue at its fixed time, d cycles from now. -/
def State.readNothing (s : State) (u ag bundle d : Nat) (depth0 : Bool) : State :=
  s.after d (.send u (4 + ag) bundle ag depth0 { Token.bad with epoch := s.getF (hrtUnitCfg_Epoch u) } false)

/-- A read issued or granted: it reaches its banks in the next cycle; with depth0 set its output queue's word is uncorrectable
(R144). -/
def State.readIssue (s : State) (u ag k : Nat) (step : Bool) (ecc : WordErrs) (tagBad depth0 : Bool) : State :=
  let x := s.unit u
  let p := x.pat ag k
  let b := s.bundleNow u
  if !p.listed then (s.illegal u).readNothing u ag b 6 depth0
  else
    let i := x.ctrsOf ag k
    let s1 := if step then s.setUnit u (x.stepPat ag k i) else s
    s1.after 1 (.muRead u ag (p.line i) b s.hcyc ecc tagBad depth0)

/-- The head that a write takes: in a hot unit an empty queue gives a zero token with poison and is recorded (R98). -/
def State.writeTake (s : State) (u ag : Nat) : State × Option Token :=
  match s.headOf u ag with
  | some t => if t.mark then (s, none) else s.takeHead u ag
  | none =>
    if s.unitMode u = 1 then ((s.bump (hrtOverrunF u) 1).unitFault u 0x01 ag 0 ag (s.bundleNow u), some Token.bad) else (s, none)

/-- A write issued or granted: it takes its token now and reaches its banks 2 cycles later. A VOID token stores zeros. -/
def State.writeIssue (s : State) (u ag k : Nat) (step : Bool) : State :=
  match s.writeTake u ag with
  | (s1, none) => s1
  | (s1, some t) =>
    let x := s1.unit u
    let p := x.pat ag k
    if !p.listed then s1.illegal u
    else
      let i := x.ctrsOf ag k
      let s2 := if step then s1.setUnit u (x.stepPat ag k i) else s1
      s2.after 2 (.muWrite u ag (p.line i) (s1.bundleNow u) s1.hcyc t)

/-- The lowest bank of an access that another access holds in this cycle. -/
def State.bankHit (s : State) (u line : Nat) : Option Nat :=
  leastBelow 32 fun b => decide (b ∈ banksOf line) && s.hearth.banks.any fun h => h.1 == u && h.2.1 == b

/-- An access holds its banks in this cycle. -/
def State.holdBanks (s : State) (u ag line issue : Nat) : State :=
  { s with hearth := { s.hearth with banks := s.hearth.banks ++ (banksOf line).map fun b => (u, b, issue, ag) } }

/-- A losing access (R108). -/
def State.conflict (s : State) (u ag bank bundle : Nat) : State :=
  (s.bump (hrtCollideF u) 1).unitFault u 0x02 ag bank 0xF bundle

/-- A read reaches its banks; the token enters the output queue 5 cycles later. -/
def State.landRead (s : State) (u ag line bundle issue : Nat) (ecc : WordErrs) (tagBad depth0 : Bool) : State :=
  match (if s.unitMode u = 1 then s.bankHit u line else none) with
  | some b => (s.conflict u ag b bundle).readNothing u ag bundle 5 depth0
  | none =>
    let r := (s.holdBanks u ag line issue).sramRead u ag line bundle ecc tagBad
    r.1.after 5 (.send u (4 + ag) bundle ag depth0
      ⟨r.2.1, s.getF (hrtUnitCfg_Epoch u), 0, r.2.2.poi, r.2.2.sus, false, false, none⟩ false)

/-- A write reaches its banks. -/
def State.landWrite (s : State) (u ag line bundle issue : Nat) (t : Token) : State :=
  match (if s.unitMode u = 1 then s.bankHit u line else none) with
  | some b => s.conflict u ag b bundle
  | none =>
    let s1 := s.holdBanks u ag line issue
    s1.setUnit u ((s1.unit u).writeLines line t.data ⟨t.suspect, t.poison⟩)

/-- A block of a storing burst is read from its banks and written to HBM (R483). -/
def State.landStore (s : State) (u ag line bundle addr : Nat) (ecc : WordErrs) (tagBad : Bool) : State :=
  let r := (s.holdBanks u ag line s.hcyc).sramRead u ag line bundle ecc tagBad
  r.1.hbmWrite 3 u addr (leBytes 64 r.2.1.toNat) r.2.2.poi

/-! ### Bursts (R483) -/

/-- The blocks that are left of the row of a pattern: SRAM line and HBM address. -/
def HUnit.burst (u : HUnit) (ag k : Nat) : List (Nat × Nat) :=
  let p := u.pat ag k
  let i := u.ctrsOf ag k
  let w := (u.entry 3 (8 * ag + k)).toNat
  let i0 := listGet 0 i 0
  let r := listGet 0 i 1 + listGet 0 p.counts 1 * (listGet 0 i 2 + listGet 0 p.counts 2 * listGet 0 i 3)
  (List.range (listGet 0 p.counts 0 - i0)).map fun m =>
    (p.line ((i0 + m) :: i.drop 1),
      (((bitsAt w 0 40 : Nat) : Int) + sint 40 (bitsAt w 64 40) * r + 64 * ((i0 + m : Nat) : Int)) % 2 ^ 40 |>.toNat)

/-- An XFER issued. -/
def State.xferIssue (s : State) (u ag k : Nat) (step store : Bool) : State :=
  let x := s.unit u
  let p := x.pat ag k
  if !p.listed then s.illegal u
  else
    let y := { x with xfers := x.xfers ++ [⟨ag, store, x.step, x.bundle, x.burst ag k⟩] }
    s.setUnit u (if step then y.stepPat ag k ((listGet 0 p.counts 0 - 1) :: (x.ctrsOf ag k).drop 1) else y)

/-- Whether accesses of a unit's AG have still to reach their banks. -/
def State.agBusy (s : State) (u ag : Nat) : Bool :=
  s.hearth.flights.any fun f => match f.act with
    | .muWrite a g _ _ _ _ => a == u && g == ag
    | .xferStore a g _ _ _ _ _ => a == u && g == ag
    | _ => false

/-- The bursts whose last block has been granted and has landed. -/
def State.xferEnded (s : State) (u ag : Nat) : Bool :=
  (s.unit u).xfers.any (fun x => x.ag == ag && x.blocks.isEmpty) && !s.agBusy u ag

/-! ### The warm arbiter (R97, R109) -/

/-- What an AG asks of the arbiter: an access of the current bundle or the next block of a burst. -/
inductive Ask where
  | none
  | read (k : Nat) (step : Bool)
  | write (k : Nat) (step : Bool)
  | block (store : Bool) (line addr : Nat)
  deriving DecidableEq, Repr

/-- The field of an AG in an MU bundle. -/
def agField (b ag : Nat) : Nat := bitsAt b (8 * ag) 8

/-- The request of an AG. -/
def State.ask (s : State) (u b ag : Nat) : Ask :=
  let x := s.unit u
  match x.xfers.find? fun f => f.ag == ag && !f.blocks.isEmpty with
  | some f => match f.blocks with
    | (l, a) :: _ => .block f.store l a
    | [] => .none
  | none =>
    let f := agField b ag
    if !x.xfers.isEmpty || x.granted.testBit ag then .none
    else if f / 64 = 1 then .read (bitsAt f 3 3) (f.testBit 2)
    else if f / 64 = 2 then .write (bitsAt f 3 3) (f.testBit 2)
    else .none

/-- The output queue of a read has room, counting tokens on their way (R97). -/
def State.readRoom (s : State) (u ag : Nat) : Bool :=
  let due := (s.hearth.flights.filter fun f => match f.act with
    | .send a q _ _ _ _ _ => a == u && q == 4 + ag
    | .muRead a g _ _ _ _ _ _ => a == u && g == ag
    | _ => false).length
  decide (((s.grate u).queue (4 + ag)).toks.length + due < s.qDepth u (4 + ag))

/-- The input queue of a write has a token to take. -/
def State.writeHead (s : State) (u ag : Nat) : Bool :=
  match s.headOf u ag with
  | some t => !t.mark
  | none => false

/-- The line of a request and the cycle, from now, in which it needs its banks: none for an unlisted pattern. -/
def State.askBanks (s : State) (u ag : Nat) : Ask → Option (Nat × Nat)
  | .none => none
  | .read k _ => let p := (s.unit u).pat ag k; if p.listed then some (p.line ((s.unit u).ctrsOf ag k), 1) else none
  | .write k _ => let p := (s.unit u).pat ag k; if p.listed then some (p.line ((s.unit u).ctrsOf ag k), 2) else none
  | .block store l _ => some (l, if store then 1 else 2)

/-- The banks of a request are taken by an access that was granted before. -/
def State.taken (s : State) (u line d : Nat) : Bool :=
  s.hearth.flights.any fun f => f.due == s.hcyc + d && (match f.act with
    | .muRead a _ l _ _ _ _ _ => a == u && (banksOf l).any fun b => decide (b ∈ banksOf line)
    | .muWrite a _ l _ _ _ => a == u && (banksOf l).any fun b => decide (b ∈ banksOf line)
    | .xferStore a _ l _ _ _ _ => a == u && (banksOf l).any fun b => decide (b ∈ banksOf line)
    | _ => false)

/-- A granted block, for the bundle of its own XFER (R237): a fetch reads HBM and writes its banks 2 cycles later; a store reads its banks in the next cycle. -/
def State.grantBlock (s : State) (u ag : Nat) (store : Bool) (line addr : Nat) (c : WordErrs × Bool) : State :=
  let x := s.unit u
  let bundle := match x.xfers.find? fun f => f.ag == ag && !f.blocks.isEmpty with
    | some f => f.bundle
    | none => x.bundle
  let s1 := s.setUnit u { x with xfers := x.xfers.map fun f => if f.ag == ag then { f with blocks := f.blocks.drop 1 } else f }
  if store then s1.after 1 (.xferStore u ag line bundle addr c.1 c.2)
  else
    let r := s1.hbmRead 3 u addr 64
    r.1.after 2 (.muWrite u ag line bundle s.hcyc { Token.bad with data := BitVec.ofNat 512 (ofLe r.2.1), poison := r.2.2 })

/-- What the check of an AG's SRAM read finds. -/
def agCheck (cs : List (WordErrs × Bool)) (ag : Nat) : WordErrs × Bool := listGet (.clean, false) cs ag

/-- One request decided: the state and whether its banks refused it. An access that waits for its queue (R97) asks for no bank: it
counts no CONFLICT and moves no pointer (DESIGN CHOICE, log entry 85). So does a read whose output queue acts as depth 0 (R144). -/
def State.decide1 (s : State) (u b ag : Nat) (cs : List (WordErrs × Bool)) (oq : List (Nat × Ecc)) : State × Bool :=
  let a := s.ask u b ag
  let c := agCheck cs ag
  let wait := match a with
    | .none => true
    | .read _ _ => !s.readRoom u ag
    | .write _ _ => !s.writeHead u ag
    | .block _ _ _ => false
  if wait then (s, false)
  else if (match s.askBanks u ag a with | some (l, d) => s.taken u l d | none => false) then (s.bump (hrtCollideF u) 1, true)
  else
    let mark (s : State) : State := s.setUnit u { s.unit u with granted := (s.unit u).granted ||| 2 ^ ag }
    match a with
    | .none => (s, false)
    | .read k step =>
      let o := s.outCheck u (4 + ag) (errAt oq ag)
      (if o.1 then o.2 else mark (o.2.readIssue u ag k step c.1 c.2 false), false)
    | .write k step => (mark (s.writeIssue u ag k step), false)
    | .block store l addr => (s.grantBlock u ag store l addr c, false)

/-- The requests of a list of AGs decided in order, and the first refused. -/
def State.decideAll (s : State) (u b : Nat) (cs : List (WordErrs × Bool)) (oq : List (Nat × Ecc)) : List Nat → State × Option Nat
  | [] => (s, none)
  | ag :: r =>
    let x := s.decide1 u b ag cs oq
    let y := x.1.decideAll u b cs oq r
    (y.1, if x.2 then some ag else y.2)

/-- The arbiter decides once in a cycle, and its pointer moves past the first refused. -/
def State.arbitrate (s : State) (u b : Nat) (cs : List (WordErrs × Bool)) (oq : List (Nat × Ecc)) : State :=
  let x := s.unit u
  if x.arbCyc = s.cyc + 1 then s
  else
    let r := s.decideAll u b cs oq ((List.range 4).map fun k => (x.ptr + k) % 4)
    let y := r.1.unit u
    r.1.setUnit u { y with arbCyc := s.cyc + 1, ptr := match r.2 with | some ag => (ag + 1) % 4 | none => y.ptr }

/-- Every access of an MU bundle has been granted. -/
def HUnit.allGranted (u : HUnit) (b : Nat) : Bool :=
  (List.range 4).all fun ag => let op := agField b ag / 64; !(op == 1 || op == 2) || u.granted.testBit ag

/-- Every XFER of an MU bundle issued. -/
def State.xferAll (s : State) (u b : Nat) : List Nat → State
  | [] => s
  | ag :: r =>
    let f := agField b ag
    (if f / 64 = 3 then s.xferIssue u ag (bitsAt f 3 3) (f.testBit 2) (f.testBit 1) else s).xferAll u b r

/-- Every access of a hot MU bundle issued, in the order of the AGs. -/
def State.muIssue (s : State) (u b : Nat) (cs : List (WordErrs × Bool)) (oq : List (Nat × Ecc)) : List Nat → State
  | [] => s
  | ag :: r =>
    let f := agField b ag
    let k := bitsAt f 3 3
    let o := s.outCheck u (4 + ag) (errAt oq ag)
    (if f / 64 = 1 then o.2.readIssue u ag k (f.testBit 2) (agCheck cs ag).1 (agCheck cs ag).2 o.1
      else if f / 64 = 2 then s.writeIssue u ag k (f.testBit 2) else s).muIssue u b cs oq r

end Sys2Proof.Machine
end

