-- ==== Sys2Proof/Machine/Units.lean ====
section
/-!
DEFINITION. The commands of compute and memory units: bundles, the operations of their slots, the warm arbiter, bursts,
statistics windows, and indirect access (R76 to R112, R183 to R194, R483, R487, R488).
-/
namespace Sys2Proof.Machine

/-! ### Bundles -/

/-- The tick-program entry and the bundle that a bundle number names (R487). -/
def HUnit.bundleAt (u : HUnit) (mu : Bool) (b : Nat) : BitVec 256 :=
  if mu then BitVec.ofNat 256 (bitsAt (u.entry 0 (b / 8)).toNat (32 * (b % 8)) 32) else u.entry 0 b

/-- The check of a tick-program entry: whether the bundle may run (R94). TP_UE records INPUT 0 (DESIGN CHOICE, log entry 86). -/
def State.tpCheck (s : State) (u : Nat) (e : Ecc) : Bool × State :=
  let c := s.checked 0x06 u e
  match c.1 with
  | .clean => (true, c.2)
  | .corrected => (true, (c.2.bump (hrtTpCeF u) 1).hearthCe 1)
  | .uncorrectable => (false, (c.2.bump (hrtTpUeF u) 1).unitFault u 0x06 0 0 0xF (c.2.bundleNow u))

/-- A bundle holds only listed values; in a unit it executes as a NOP otherwise (R86). -/
def bundleListed (mu hot : Bool) (b : BitVec 256) : Bool := if mu then muListed hot b.toNat else cuListed b

/-- HOT_BUNDLE_ISSUE: the bundle that FRC selects issues, and nothing delays it (R96). -/
def hotBundleIssue (u : Nat) (chk : Checks) (s : State) : State :=
  if !(s.running && s.siteOn u && s.unitMode u == 1) then s
  else
    let b := (s.unit u).bundleAt (isMu u) (s.bundleNow u)
    match s.tpCheck u chk.tp with
    | (false, s1) => s1
    | (true, s1) =>
      if !bundleListed (isMu u) true b then s1.illegal u
      else if isMu u then s1.muIssue u b.toNat chk.ags chk.oq (List.range 4)
      else
        let o := s1.sendCheck u b chk
        o.2.cuIssue u b chk o.1

/-- The meaning of HOT_BUNDLE_ISSUE. -/
def execHotBundleIssue (site : Nat) (chk : Checks) (s : State) : Out := .next (hotBundleIssue site chk s)

/-- The Damper holds the units of a course in this cycle (R319). -/
def State.damperHolds (s : State) (u : Nat) : Bool := s.pwr.line2.testBit (courseOf u)

/-- A held cycle of a warm unit (R97, UNIT_STATUS). -/
def State.stall (s : State) (u : Nat) (damper : Bool) : State :=
  ((s.bump (hrtStallCycF u) 1).setF (hrtUnitStatus_Stalled u) 1).setF (hrtUnitStatus_DamperHold u) (b2n damper)

/-- The output queue of a SEND has room, counting tokens on their way. -/
def State.sendRoom (s : State) (u q : Nat) : Bool :=
  let due := (s.hearth.flights.filter fun f => match f.act with
    | .send a k _ _ _ _ _ => a == u && k == 4 + q
    | _ => false).length
  decide (((s.grate u).queue (4 + q)).toks.length + due < s.qDepth u (4 + q))

/-- A CU bundle finds its queues ready (R97). -/
def State.portsReady (s : State) (u : Nat) (b : BitVec 256) : Bool :=
  let p := bitsAt b.toNat 16 32
  (!p.testBit 30 || s.writeHead u (bitsAt p 29 1)) && (!p.testBit 31 || s.sendRoom u (bitsAt p 16 1))

/-- The scales that wait come into force (R187). -/
def HUnit.scalesIn (u : HUnit) : HUnit :=
  (List.range 32).foldl (fun u i =>
    match (u.rqt i).next with
    | none => u
    | some sc => (u.moveEntry i (rqSetScales (u.entry 2 i) sc)).setRqt i { u.rqt i with next := none }) u

/-- The next bundle of a warm unit: after bundle PLEN its next step begins, with the scales of the window before. -/
def State.warmStep (s : State) (u : Nat) : State :=
  let x := s.unit u
  let s1 := (s.setF (hrtUnitStatus_Stalled u) 0).setF (hrtUnitStatus_DamperHold u) 0
  if s.getF (hrtUnitCfg_Plen u) ≤ x.bundle then
    s1.setUnit u { x.scalesIn with bundle := 0, step := x.step + 1, granted := 0 }
  else s1.setUnit u { x with bundle := x.bundle + 1, granted := 0 }

/-- WARM_BUNDLE_ISSUE: the next bundle issues when no hold applies; the requests of a memory unit are decided first (R97). -/
def warmBundleIssue (u : Nat) (chk : Checks) (s : State) : State :=
  if !(s.running && s.siteOn u && s.unitMode u == 2 && (s.unit u).graphOn) then s
  else if !(s.unit u).xfers.isEmpty then (s.arbitrate u 0 chk.ags chk.oq).stall u (s.damperHolds u)
  else if s.damperHolds u then s.stall u true
  else
    let b := (s.unit u).bundleAt (isMu u) (s.unit u).bundle
    match s.tpCheck u chk.tp with
    | (false, s1) => s1.warmStep u
    | (true, s1) =>
      if !bundleListed (isMu u) false b then (s1.illegal u).warmStep u
      else if isMu u then
        let s2 := s1.arbitrate u b.toNat chk.ags chk.oq
        if (s2.unit u).allGranted b.toNat then (s2.xferAll u b.toNat (List.range 4)).warmStep u else s2.stall u false
      else if s1.portsReady u b then
        let o := s1.sendCheck u b chk
        if o.1 then o.2.stall u false else (o.2.cuIssue u b chk false).warmStep u
      else s1.stall u false

/-- The meaning of WARM_BUNDLE_ISSUE. -/
def execWarmBundleIssue (site : Nat) (chk : Checks) (s : State) : Out := .next (warmBundleIssue site chk s)

/-! ### Slots of a compute unit, each issued alone -/

/-- An operation of a slot where the unit is active: an unlisted one executes as a NOP (R86). -/
def State.slot (s : State) (u : Nat) (listed : Bool) (t : State) : State :=
  if !s.cuOn u then s else if listed then t else s.illegal u

/-- The meanings of MAC8, MAC4, OMAC8 and OMAC4 (R79 to R81, R84). -/
def execMac8 (site asrc aseg : Nat) (wsel : Bool) (acc : Nat) (ecc : WordErrs) (s : State) : Out :=
  .next (s.slot site true (s.macIssue site asrc aseg wsel acc false false ecc))
def execMac4 (site asrc aseg : Nat) (wsel : Bool) (acc : Nat) (ecc : WordErrs) (s : State) : Out :=
  .next (s.slot site true (s.macIssue site asrc aseg wsel acc true false ecc))
def execOmac8 (site asrc aseg : Nat) (wsel : Bool) (acc : Nat) (ecc : WordErrs) (s : State) : Out :=
  .next (s.slot site true (s.macIssue site asrc aseg wsel acc false true ecc))
def execOmac4 (site asrc aseg : Nat) (wsel : Bool) (acc : Nat) (ecc : WordErrs) (s : State) : Out :=
  .next (s.slot site true (s.macIssue site asrc aseg wsel acc true true ecc))

/-- The meanings of LDW, of an even register, and LDO (R84, R86). -/
def execLdw (site asrc : Nat) (wsel : Bool) (ecc : WordErrs) (s : State) : Out :=
  .next (s.slot site (asrc % 2 == 0) (s.ldwIssue site asrc wsel ecc))
def execLdo (site asrc : Nat) (ecc : WordErrs) (s : State) : Out := .next (s.slot site true (s.ldoIssue site asrc ecc))

/-- The meaning of GEND (R82 to R84, R86). -/
def execGend (site asrc aseg acc gsz dst : Nat) (ecc : WordErrs) (s : State) : Out :=
  .next (s.slot site (decide (asrc ≠ 511 ∧ aseg ≤ 3)) (s.gendIssue site asrc aseg acc gsz dst ecc))

/-- The meaning of VECTOR_INSTRUCTION (R85 to R92): the slot with VEN set, and the control slot. -/
def execVectorInstruction (site : Nat) (vec : BitVec 80) (ctrl : BitVec 16) (ecc : WordErrs) (s : State) : Out :=
  .next (s.slot site (vecListed vec && bitsAt ctrl.toNat 0 10 == 0)
    (if vec.toNat.testBit 79 then s.vecIssue site vec ctrl ecc else s))

/-- The meaning of SCALAR_OPERATION (R95). -/
def execScalarOperation (site : Nat) (slot : BitVec 24) (s : State) : Out :=
  .next (s.slot site (scalarListed slot.toNat) (s.scalarIssue site slot.toNat))

/-- The meanings of RECV and SEND (R97 to R99). A warm unit holds until its queue is ready. -/
def execRecv (site queue rvr rblk : Nat) (s : State) : Out :=
  .next (s.slot site true
    (if s.unitMode site = 1 || s.writeHead site (queue % 2) then s.recvIssue site (queue % 2) rvr rblk else s.stall site false))
def execSend (site queue svr sblk : Nat) (ecc : WordErrs) (oq : Ecc) (s : State) : Out :=
  let o := s.outCheck site (4 + queue % 2) oq
  .next (s.slot site true
    (if s.unitMode site = 1 then o.2.sendIssue site (queue % 2) svr sblk ecc o.1
      else if !s.sendRoom site (queue % 2) then s.stall site false
      else if o.1 then o.2.stall site false else o.2.sendIssue site (queue % 2) svr sblk ecc false))

/-! ### Accesses of a memory unit, each alone -/

/-- An active memory unit of a mode. -/
def State.muOn (s : State) (u mode : Nat) : Bool := s.running && s.siteOn u && isMu u && s.unitMode u == mode

/-- A request that the warm arbiter grants in this cycle (R97, R109). -/
def State.grantable (s : State) (u ag : Nat) (a : Ask) : Bool :=
  (match a with
    | .none => false
    | .read _ _ => s.readRoom u ag
    | .write _ _ => s.writeHead u ag
    | .block _ _ _ => true)
  && !(match s.askBanks u ag a with | some (l, d) => s.taken u l d | none => false)

/-- A warm unit's access that comes alone is refused in this cycle. Where its banks are taken, the refused access-cycle counts CONFLICT
and the arbiter's pointer moves past the AG; one that waits for its queue asks for no bank (R97, R109). -/
def State.refusedAccess (s : State) (u ag : Nat) (a : Ask) : State :=
  let waits := match a with
    | .read _ _ => !s.readRoom u ag
    | .write _ _ => !s.writeHead u ag
    | _ => true
  let t := s.stall u false
  if waits then t
  else
    let c := t.bump (hrtCollideF u) 1
    c.setUnit u { c.unit u with ptr := (ag + 1) % 4 }

/-- MU_READ: an access of an AG through a pattern. A warm unit starts it when the arbiter grants it (R103 to R106, R109). -/
def muRead (u ag k : Nat) (step : Bool) (ecc : WordErrs) (tagBad : Bool) (oq : Ecc) (s : State) : State :=
  let ag := ag % 4
  let k := k % 8
  let o := s.outCheck u (4 + ag) oq
  if s.muOn u 1 then o.2.readIssue u ag k step ecc tagBad o.1
  else if !s.muOn u 2 then s
  else if !s.grantable u ag (.read k step) then s.refusedAccess u ag (.read k step)
  else if o.1 then o.2.stall u false else o.2.readIssue u ag k step ecc tagBad false

/-- The meaning of MU_READ. -/
def execMuRead (site ag pat : Nat) (step : Bool) (ecc : WordErrs) (tagBad : Bool) (oq : Ecc) (s : State) : Out :=
  .next (muRead site ag pat step ecc tagBad oq s)

/-- MU_WRITE (R103 to R106, R109). -/
def muWrite (u ag k : Nat) (step : Bool) (s : State) : State :=
  let ag := ag % 4
  let k := k % 8
  if s.muOn u 1 || (s.muOn u 2 && s.grantable u ag (.write k step)) then s.writeIssue u ag k step
  else if s.muOn u 2 then s.refusedAccess u ag (.write k step) else s

/-- The meaning of MU_WRITE. -/
def execMuWrite (site ag pat : Nat) (step : Bool) (s : State) : Out := .next (muWrite site ag pat step s)

/-- No burst of an earlier bundle is in progress, and none of an AG (R97, R483). -/
def HUnit.xferFree (u : HUnit) (ag : Nat) : Bool :=
  u.xfers.all fun f => f.step == u.step && f.bundle == u.bundle && f.ag != ag

/-- MU_XFER: a burst of a warm unit begins, beside those of the other AGs of its bundle; a hot unit takes it as an unlisted value
(R86, R483). -/
def muXfer (u ag k : Nat) (step store : Bool) (s : State) : State :=
  if s.muOn u 1 then s.illegal u
  else if s.muOn u 2 then (if (s.unit u).xferFree (ag % 4) then s.xferIssue u (ag % 4) (k % 8) step store else s.stall u false)
  else s

/-- The meaning of MU_XFER. -/
def execMuXfer (site ag pat : Nat) (step store : Bool) (s : State) : Out := .next (muXfer site ag pat step store s)

/-- MU_ACCESS_GRANT: the arbiter decides the accesses of the bundle that waits and the next blocks of bursts (R109, R483). -/
def muAccessGrant (u : Nat) (ags : List (WordErrs × Bool)) (oq : List (Nat × Ecc)) (s : State) : State :=
  if !(s.muOn u 2 && (s.unit u).graphOn) then s
  else if !(s.unit u).xfers.isEmpty then s.arbitrate u 0 ags oq
  else if s.damperHolds u then s
  else
    let b := (s.unit u).bundleAt true (s.unit u).bundle
    if muListed false b.toNat then s.arbitrate u b.toNat ags oq else s

/-- The meaning of MU_ACCESS_GRANT. -/
def execMuAccessGrant (site : Nat) (ags : List (WordErrs × Bool)) (oq : List (Nat × Ecc)) (s : State) : Out :=
  .next (muAccessGrant site ags oq s)

/-- XFER_COMPLETE: a burst whose blocks have all landed ends, and the unit may issue its next bundle (R483). -/
def xferComplete (u ag : Nat) (s : State) : State :=
  if s.xferEnded u ag then s.setUnit u { s.unit u with xfers := (s.unit u).xfers.filter fun x => x.ag != ag } else s

/-- The meaning of XFER_COMPLETE. -/
def execXferComplete (site ag : Nat) (s : State) : Out := .next (xferComplete site ag s)

/-! ### Tables (R110, R112, R488) -/

/-- The entries of a table: none for one that is not listed. -/
def tableSize (mu : Bool) (table : Nat) : Nat :=
  if mu then listGet 0 [128, 65536, 288, 32] table else listGet 0 [1024, 8192, 32, 132, 4] table

/-- An entry written, with fresh check bits and clear tags where R488 says so. -/
def HUnit.tblWrite (u : HUnit) (mu : Bool) (table index : Nat) (d : BitVec 256) : HUnit :=
  let v := u.setEntry table index d
  if table = 1 then
    if mu then (v.setLineTags (2 * index) Tags.clear).setLineTags (2 * index + 1) Tags.clear
    else v.setBlkTags (index / 16) (index % 16 / 2) Tags.clear
  else if table = 2 then { v with moved := mput (fun _ => none) v.moved index none }
  else v

/-- An entry as its readers see it: M0 reads as ones and S0 as 0 (R488). -/
def HUnit.tblRead (u : HUnit) (mu : Bool) (table index : Nat) : BitVec 256 :=
  let d := u.entry table index
  if !mu && table == 3 && index == 0 then BitVec.ofNat 256 (putBits d.toNat 0 128 (2 ^ 128 - 1))
  else if !mu && table == 4 && index == 0 then BitVec.ofNat 256 (putBits d.toNat 0 32 0)
  else d

/-- Two entries with published pairs that overlap, or PUB 31 (R191). -/
def pubClash (pubs : List Nat) : Bool :=
  pubs.any (· == 31) || (pubs.zipIdx.any fun a => pubs.zipIdx.any fun b =>
    decide (a.2 < b.2) && a.1 != 0 && b.1 != 0 && decide (a.1 ≤ b.1 + 1 ∧ b.1 ≤ a.1 + 1))

/-- The destination registers of the scalar operations of a CU's bundles. -/
def HUnit.scalarDests (u : HUnit) (n : Nat) : List Nat :=
  (List.range n).flatMap fun b => (List.range 4).filterMap fun k =>
    let sl := bitsAt (u.entry 0 b).toNat (48 + 24 * k) 24
    let op := bitsAt sl 20 4
    if 1 ≤ op ∧ op ≤ 13 then some (bitsAt sl 15 5) else none

/-- The PUB fields of a CU's entries. -/
def HUnit.pubs (u : HUnit) : List Nat := (List.range 32).map fun i => (Rq.ofBits (u.entry 2 i)).pub

/-- The RQT entry that a bundle uses: for QNT8 or for statistics. -/
def usesRq (b : BitVec 256) : Option Nat :=
  let f := Vec.ofBits (BitVec.ofNat 80 (bitsAt b.toNat 144 80))
  if (b.toNat.testBit 223 && f.v5 == 1) || b.toNat.testBit 10 then some f.qp else none

/-- R191 holds for a CU: its scale registers, its scalar slots, and the length of a warm table that uses an adapting entry. -/
def HUnit.rqtOk (u : HUnit) (warm : Bool) (plen : Nat) : Bool :=
  let pubs := u.pubs
  !pubClash pubs
    && (u.scalarDests (plen + 1)).all (fun d => pubs.all fun p => p == 0 || (d != p && d != p + 1))
    && !(warm && decide (plen + 1 < 64)
      && ((List.range (plen + 1)).filterMap fun b => usesRq (u.entry 0 b)).any fun i => (Rq.ofBits (u.entry 2 i)).adapt)

/-- A TBL_CMD that is refused: while the Hearth runs, locked, or out of range (R112, R488). -/
def State.hrtTblOk (s : State) (u : Nat) : Bool :=
  !s.running && s.tablesOpen && decide (s.getF (hrtTblAddr_Index u) < tableSize (isMu u) (s.getF (hrtTblSel_Table u)))

/-- HRT_TBL_READ: the entry into TBL_DATA; an uncorrectable word is delivered as stored and counted, without a fault. The words of a
VRF piece count one by one (R94); another entry counts one correctable and one uncorrectable error at most. -/
def hrtTblRead (u : Nat) (ecc : WordErrs) (s : State) : State :=
  if !s.hrtTblOk u then s.refuse (hrtTblCmd u)
  else
    let t := s.getF (hrtTblSel_Table u)
    let i := s.getF (hrtTblAddr_Index u)
    let x := s.unit u
    let poi := isMu u && t == 1 && ((x.lineTags (2 * i)).poi || (x.lineTags (2 * i + 1)).poi)
    let some1 (n : Nat) : Nat := if !isMu u && t == 1 then n else min n 1
    let ce := some1 ecc.ce
    let ue := some1 (ecc.ue + b2n poi)
    let s1 := if ce = 0 then s else (s.bump (if t = 0 then hrtTpCeF u else hrtMemCeF u) ce).hearthCe ce
    let s2 := if ue = 0 then s1 else s1.bump (if t = 0 then hrtTpUeF u else hrtMemUeF u) ue
    s2.setWords (hrtTblData u 0) (words8 (x.tblRead (isMu u) t i))

/-- The meaning of HRT_TBL_READ. -/
def execHrtTblRead (site : Nat) (ecc : WordErrs) (s : State) : Out := .next (s.when (s.siteOn site) (hrtTblRead site ecc s))

/-- HRT_TBL_WRITE: TBL_DATA into the entry; refused as R112 and R488 say, and for a CU where R191 or R192 would not hold. -/
def hrtTblWrite (u : Nat) (s : State) : State :=
  let t := s.getF (hrtTblSel_Table u)
  let i := s.getF (hrtTblAddr_Index u)
  let d := s.data8 (hrtTblData u 0)
  let v := (s.unit u).tblWrite (isMu u) t i d
  if !s.hrtTblOk u then s.refuse (hrtTblCmd u)
  else if !isMu u && ((t == 2 && rqBad d)
      || ((t == 0 || t == 2) && !v.rqtOk (s.unitMode u == 2) (s.getF (hrtUnitCfg_Plen u)))) then s.refuse (hrtTblCmd u)
  else s.setUnit u v

/-- The meaning of HRT_TBL_WRITE. -/
def execHrtTblWrite (site : Nat) (s : State) : Out := .next (s.when (s.siteOn site) (hrtTblWrite site s))

/-- Neither bank of a line pair is held by an AG in this cycle. -/
def State.pairFree (s : State) (u index : Nat) : Bool :=
  !s.hearth.banks.any fun h => h.1 == u && (h.2.1 == 2 * index % 32 || h.2.1 == (2 * index + 1) % 32)

/-- CONFIG_BUFFER_DRAIN: the oldest buffered write of a memory unit whose two banks are free leaves, and its slot-63 credit goes
back (R110, R139). -/
def configBufferDrain (u : Nat) (s : State) : State :=
  let x := s.unit u
  match x.cfgBuf.find? fun e => s.pairFree u e.1 with
  | none => s
  | some e =>
    let y := { x with cfgBuf := dropFirst (fun f => s.pairFree u f.1) x.cfgBuf }
    let g := s.grate u
    (s.setUnit u (y.tblWrite true 1 e.1 e.2)).setGrate u { g with cfgOut := g.cfgOut - 1 }

/-- The meaning of CONFIG_BUFFER_DRAIN. -/
def execConfigBufferDrain (site : Nat) (s : State) : Out :=
  .next (s.when (s.siteOn site && isMu site) (configBufferDrain site s))

/-! ### Statistics and scales (R183 to R194) -/

/-- One entry's window closes: closed statistics, flags, and the scales of the next tick or step (R184, R186, R194). -/
def HUnit.closeWindow (u : HUnit) (window i : Nat) : HUnit :=
  let r := u.rqt i
  let e := Rq.ofBits (u.entry 2 i)
  let a := (List.range 4).map fun k => adaptQuarter e r.win k
  let held := e.adapt && a.any fun x => x.2.1
  let clamped := e.adapt && a.any fun x => x.2.2
  let flags := b2n r.win.sat + 2 * b2n r.win.ufl + 4 * b2n clamped + 8 * b2n held + 16 * b2n (r.win.fed.any id) + 32
  u.setRqt i ⟨Win.empty, ⟨window, r.win.q, flags⟩, if e.adapt then some (a.map fun x => x.1) else none⟩

/-- The windows of every entry close. -/
def HUnit.closeWindows (u : HUnit) (window : Nat) : HUnit :=
  { (List.range 32).foldl (fun u i => u.closeWindow window i) u with wins := window + 1 }

/-- The entries already stand closed for a window. -/
def HUnit.closedFor (u : HUnit) (window : Nat) : Bool := u.wins == window + 1

/-- HOT_WINDOW_CLOSE: at cycle 56 the window of the tick closes (R184). -/
def hotWindowClose (u : Nat) (s : State) : State :=
  if s.cuOn u && s.unitMode u == 1 && s.cycle == 56 && !(s.unit u).closedFor s.tick then
    s.setUnit u ((s.unit u).closeWindows s.tick)
  else s

/-- The meaning of HOT_WINDOW_CLOSE. -/
def execHotWindowClose (site : Nat) (s : State) : Out := .next (hotWindowClose site s)

/-- WARM_WINDOW_CLOSE: after bundle PLEN − 8 of step k the window k closes; bundles are counted from graph start (R184). In a table of
fewer than 8 bundles PLEN − 8 is negative, which the rule does not provide for: the model counts bundles on through the steps, so
that the first window to close bears the number of the step in which 8 bundles have gone by (DESIGN CHOICE, log entry 90). -/
def warmWindowClose (u : Nat) (s : State) : State :=
  let x := s.unit u
  let plen := s.getF (hrtUnitCfg_Plen u)
  let at' := x.step * (plen + 1) + x.bundle + 7
  let k := (at' - plen) / (plen + 1)
  if s.cuOn u && s.unitMode u == 2 && x.graphOn && decide (plen ≤ at' ∧ (at' - plen) % (plen + 1) = 0) && !x.closedFor k then
    s.setUnit u (x.closeWindows k)
  else s

/-- The meaning of WARM_WINDOW_CLOSE. -/
def execWarmWindowClose (site : Nat) (s : State) : Out := .next (warmWindowClose site s)

/-- The registers of PUB made equal to the scales of the table (R190). -/
def HUnit.publish (u : HUnit) : HUnit :=
  (List.range 32).foldl (fun u i =>
    let d := (u.entry 2 i).toNat
    let p := (Rq.ofBits (u.entry 2 i)).pub
    if p = 0 then u
    else (u.setScalar p (BitVec.ofNat 32 (bitsAt d 0 32))).setScalar (p + 1) (BitVec.ofNat 32 (bitsAt d 32 32))) u

/-- SCALE_PUBLISH: at cycle 0 of a tick a hot unit's new scales come into force and are published; a warm unit publishes, at
bundle 32 of a step, the scales in force in the step (R187, R190). -/
def scalePublish (u : Nat) (s : State) : State :=
  if s.cuOn u && s.unitMode u == 1 && s.cycle == 0 then s.setUnit u (s.unit u).scalesIn.publish
  else if s.cuOn u && s.unitMode u == 2 && (s.unit u).graphOn && (s.unit u).bundle == 32 then s.setUnit u (s.unit u).publish
  else s

/-- The meaning of SCALE_PUBLISH. -/
def execScalePublish (site : Nat) (s : State) : Out := .next (scalePublish site s)

/-- AMX_SEL_WRITE: the closed statistics of an entry are captured (R193). -/
def amxSelWrite (u : Nat) (value : W32) (s : State) : State :=
  let i := bitsAt value.toNat 0 5
  let c := ((s.unit u).rqt i).closed
  ((((((s.setF (hrtAmxSel_Entry u) i).setF (hrtAmxPeriod_Window u) c.window).setF (hrtAmxTensor_Absmax u)
    (c.q.foldl max 0)).setWords (hrtAmxQ u 0) (c.q.map fun q => BitVec.ofNat 32 q))).setWord (hrtAmxFlags u)
    (BitVec.ofNat 32 c.flags))

/-- The meaning of AMX_SEL_WRITE. -/
def execAmxSelWrite (site : Nat) (value : W32) (s : State) : Out :=
  .next (s.when (s.siteOn site && !isMu site) (amxSelWrite site value s))

end Sys2Proof.Machine
end

