-- ==== Sys2Proof/Machine/Image.lean ====
section
/-!
DEFINITION. Delyr images as bytes: header, section table, records and entries, with the format rules that read them alone
(R196 to R201, R246, R267, R276, R313, R336, R355, R489), and the contents of tables that the records give.
-/
namespace Sys2Proof.Machine

/-- A hop of a route: virtual course, column, crossbar input and slot-table entry (R200). -/
structure Hop where
  v : Nat
  col : Nat
  input : Nat
  entry : Nat
  deriving DecidableEq, Repr

/-- A hot route (R200). -/
structure RouteE where
  srcV : Nat
  srcC : Nat
  srcQ : Nat
  consV : Nat
  consC : Nat
  kind : Nat
  pad : Nat
  flags : Nat
  lc : Nat
  link : Nat
  hops : List Hop
  deriving DecidableEq, Repr

/-- A table record (R199). -/
structure TRec where
  target : Nat
  v : Nat
  col : Nat
  table : Nat
  index : Nat
  entries : List (BitVec 256)
  deriving DecidableEq, Repr

/-- An edge-port record (R201). -/
structure EdgeE where
  kind : Nat
  index : Nat
  entries : List Nat
  deriving DecidableEq, Repr

/-- A parsed image: what later chapters need of it, its seats, latency bytes, routes, records, HBM data, and the section-table
index of each type. -/
structure Image where
  info : ImgInfo
  seat : Nat
  seats : Nat
  lat : List Nat
  routes : List RouteE
  recs : List TRec
  edges : List EdgeE
  hbm : List Byte
  sects : List (Nat × Nat)
  deriving DecidableEq, Repr

/-- A byte of a list. -/
def byteAt (d : List Byte) (i : Nat) : Nat := (listGet 0 d i).toNat

/-- Every byte is 0. -/
def allZero (d : List Byte) : Bool := d.all (· == 0)

/-! ### Header and section table (R197, R198) -/

/-- The header's fields lie within their ranges. -/
def headerOk (d : List Byte) : Bool :=
  let f := dfield d
  let v := f 16 1
  let h := f 17 1
  decide (128 ≤ d.length) && f 0 4 == 0x52594C44 && f 4 2 == 1 && decide (1 ≤ f 6 2 ∧ f 6 2 ≤ 64)
    && decide (1 ≤ v ∧ v ≤ 24) && decide (h ≤ v) && decide (f 18 1 ≤ 4)
    && (if h = 0 then f 19 1 == 0 && f 20 2 == 0 else decide (1 ≤ f 19 1 ∧ f 19 1 ≤ 8 ∧ f 20 2 ≤ 768))
    && decide (f 22 2 ≤ 763) && decide (f 26 1 ∈ [0, 0xA0, 0xB0]) && decide (1 ≤ f 27 1)
    && decide (f 28 2 ≤ 650 ∧ f 30 2 ≤ 720) && decide (1 ≤ f 33 1 ∧ f 33 1 ≤ 16 ∧ f 32 1 < f 33 1)
    && allZero ((d.drop 34).take 30) && allZero ((d.drop 96).take 32)
    && (f 33 1 != 1 || allZero ((d.drop 64).take 32))

/-- A section-table entry: type, COUNT, OFFSET and SIZE. -/
structure Sect where
  ty : Nat
  count : Nat
  off : Nat
  size : Nat
  deriving DecidableEq, Repr

/-- The entries of the section table from the k-th on, or the index of the one where a rule of R198 fails; `low` is the end of
what came before. -/
def sectTable (d : List Byte) (len : Nat) : Nat → Nat → Nat → List Nat → Except Nat (List Sect)
  | 0, _, _, _ => .ok []
  | n + 1, k, low, seen =>
    let e := (d.drop (128 + 32 * k)).take 32
    let s : Sect := ⟨dfield e 0 2, dfield e 4 4, dfield e 8 8, dfield e 16 8⟩
    if decide (1 ≤ s.ty ∧ s.ty ≤ 0xC) && !seen.contains s.ty && dfield e 2 2 == 0 && dfield e 24 8 == 0 && s.off % 64 == 0
        && decide (low ≤ s.off ∧ s.off + s.size ≤ len) then
      (sectTable d len n (k + 1) (max (s.off + s.size) (s.off + 1)) (s.ty :: seen)).map (s :: ·)
    else .error k

/-- The bytes of a section, none where it is missing. -/
def sectBytes (d : List Byte) (ss : List Sect) (ty : Nat) : Option (Nat × List Byte) :=
  (ss.find? fun s => s.ty == ty).map fun s => (s.count, (d.drop s.off).take s.size)

/-! ### Records -/

/-- GRID words of V courses. -/
def parseGrid (d : List Byte) : Nat → Option (List (List Nat))
  | 0 => some []
  | n + 1 =>
    let w := dfield d 0 4
    let ms := (List.range 12).map fun c => bitsAt w (2 * c) 2
    if w < 2 ^ 24 ∧ 3 ∉ ms then (parseGrid (d.drop 4) n).map (ms :: ·) else none

/-- Hop words. -/
def parseHops (v nent : Nat) (d : List Byte) : Nat → Option (List Hop)
  | 0 => some []
  | n + 1 =>
    let w := dfield d 0 4
    let h : Hop := ⟨bitsAt w 0 8, bitsAt w 8 4, bitsAt w 12 4, bitsAt w 16 10⟩
    if w < 2 ^ 26 ∧ h.v < v ∧ h.col < 12 ∧ h.input ∈ inputsOf h.col ∧ h.entry < nent then
      (parseHops v nent (d.drop 4) n).map (h :: ·)
    else none

/-- Route entries, packed end to end; the rest of the section must be 0. No rule gives SRC_QUEUE, LINK or bits [7:3] of FLAGS a range, and
any value of them is taken (DESIGN CHOICE, log entry 92). -/
def parseRoutes (v nent : Nat) : Nat → List Byte → Option (List RouteE)
  | 0, d => if allZero d then some [] else none
  | n + 1, d =>
    let f := dfield d
    let hops := f 11 1
    if d.length < 16 + 4 * hops ∨ ¬(f 0 1 < v ∧ f 1 1 < 12 ∧ f 3 1 < v ∧ f 4 1 < 12 ∧ f 5 1 ≤ 4) ∨ f 12 4 ≠ 0 then none
    else
      match parseHops v nent (d.drop 16) hops with
      | none => none
      | some hs =>
        (parseRoutes v nent n (d.drop (16 + 4 * hops))).map
          (⟨f 0 1, f 1 1, f 2 1, f 3 1, f 4 1, f 5 1, f 6 1, f 7 1, f 8 2, f 10 1, hs⟩ :: ·)

/-- A record of a unit's table writes entries that the table of a kind of unit has. -/
def TRec.fits (t : TRec) (mu : Bool) : Bool := decide (t.index + t.entries.length ≤ tableSize mu t.table)

/-- The entries of a table that either kind of unit has, and whether a grate's piece exists; TARGET 2 names queue words of edge ports
(log entry 23). Whether the kind is that of the column is a rule of R204. -/
def recOk (t : TRec) : Bool :=
  let last := t.index + t.entries.length
  if t.target = 0 then t.fits true || t.fits false
  else if t.target = 1 then (List.range t.entries.length).all fun i => grPiece t.col t.table (t.index + i)
  else t.target == 2 && t.table == 2 && decide (last ≤ 52)

/-- 32-byte entries. -/
def parseEntries : Nat → List Byte → List (BitVec 256)
  | 0, _ => []
  | n + 1, d => BitVec.ofNat 256 (dfield d 0 32) :: parseEntries n (d.drop 32)

/-- Table records. -/
def parseRecs (v : Nat) : Nat → List Byte → Option (List TRec)
  | 0, d => if allZero d then some [] else none
  | n + 1, d =>
    let f := dfield d
    let cnt := f 8 4
    let t : TRec := ⟨f 0 1, f 1 1, f 2 1, f 3 1, f 4 4, parseEntries (min cnt ((d.length - 16) / 32)) (d.drop 16)⟩
    if d.length < 16 + 32 * cnt ∨ f 12 4 ≠ 0 ∨ ¬(t.v < v ∧ t.col < 12) ∨ recOk t = false then none
    else (parseRecs v n (d.drop (16 + 32 * cnt))).map (t :: ·)

/-- A 16-bit entry of an edge port, by the kind of port (R201, R246, R356). -/
def edgeEntryOk (kind e : Nat) : Bool :=
  if !e.testBit 15 then e == 0
  else if kind = 1 then
    let k := bitsAt e 9 2
    if k = 0 then bitsAt e 0 7 == 0 else k == 1 && bitsAt e 0 5 == 0
  else kind == 4 && bitsAt e 0 11 == 0

/-- 16-bit entries. -/
def parse16 : Nat → List Byte → List Nat
  | 0, _ => []
  | n + 1, d => dfield d 0 2 :: parse16 n (d.drop 2)

/-- Edge-port records. -/
def parseEdges (h v nent : Nat) (seen : List (Nat × Nat)) : Nat → List Byte → Option (List EdgeE)
  | 0, d => if allZero d then some [] else none
  | n + 1, d =>
    let f := dfield d
    let k := f 0 1
    let x := f 1 1
    let es := parse16 nent (d.drop 8)
    let range := if k ≤ 1 then decide (x < h) else if k ≤ 3 then decide (h ≤ x ∧ x < v) else k == 4 && decide (x < 24)
    if d.length < 8 + 2 * nent ∨ f 2 6 ≠ 0 ∨ range = false ∨ (k, x) ∈ seen ∨ es.all (edgeEntryOk k) = false then none
    else (parseEdges h v nent ((k, x) :: seen) n (d.drop (8 + 2 * nent))).map (⟨k, x, es⟩ :: ·)

/-- The number of takes of a capture channel that serve a release tick of a phase: an entry serves the tick AGE before its own (R201). -/
def capTakes (es : List EdgeE) (p ch phase : Nat) : Nat :=
  (es.filter (fun e => e.kind == 1)).map (fun e => (e.entries.zipIdx.filter fun x =>
    x.1.testBit 15 && bitsAt x.1 9 2 == 1 && bitsAt x.1 5 4 == ch
      && (((x.2 / 64 : Nat) : Int) - bitsAt x.1 11 4) % (p : Nat) == phase).length) |>.sum

/-- E_c of a capture channel (R267). -/
def capElems (es : List EdgeE) (p ch : Nat) : Nat := 32 * capTakes es p ch 0

/-- The capture channels of an image keep E_c through the phases and within 16,384 (R267). -/
def capsFit (es : List EdgeE) (p : Nat) : Bool :=
  (List.range 16).all fun c => decide (capElems es p c ≤ 16384) && (List.range p).all fun f => capTakes es p c f == capTakes es p c 0

/-- Channel entries of INGEST (R489). -/
def parseChans : Nat → List Byte → Option (List (Nat × Nat × Nat × Nat))
  | 0, _ => some []
  | n + 1, d =>
    let f := dfield d
    let e := (f 0 1, f 1 1, f 2 1, f 3 1)
    if e.1 < 16 ∧ e.2.1 + e.2.2.1 < 32 ∧ e.2.2.1 < 8 ∧ e.2.2.2 < 3 then (parseChans n (d.drop 4)).map (e :: ·) else none

/-- A list rises strictly. -/
def risingB : List Nat → Bool
  | a :: b :: t => decide (a < b) && risingB (b :: t)
  | _ => true

/-- The fibres of a channel entry. -/
def chanFibres (e : Nat × Nat × Nat × Nat) : List Nat := (List.range (e.2.2.1 + 1)).map (e.2.1 + ·)

/-- No number stands twice. -/
def distinct : List Nat → Bool
  | [] => true
  | a :: t => !t.contains a && distinct t

/-- The INGEST section: channels and ports. -/
def parseIngest (h count : Nat) (d : List Byte) : Option (List (Nat × Nat × Nat × Nat) × List Nat) :=
  let n := byteAt d 0
  match parseChans n (d.drop 4) with
  | none => none
  | some cs =>
    let r := d.drop (4 + 4 * n)
    let np := byteAt r 0
    let ports := ((r.drop 4).take np).map BitVec.toNat
    if decide (1 ≤ n ∧ n ≤ 16 ∧ 8 + 4 * n + np ≤ d.length ∧ count = n) && allZero ((d.drop 1).take 3) && allZero ((r.drop 1).take 3)
        && risingB (cs.map fun c => c.1) && distinct (cs.flatMap chanFibres) && risingB ports && ports.all (· < h)
        && allZero (r.drop (4 + np)) then some (cs, ports)
    else none

/-- The offsets that a TRIGGER entry may name (R276): SD[n].CFG and THRESH, and the TU registers but FIRED and IGNORED. -/
def trigOffOk (o : Nat) : Bool :=
  decide (0x100 ≤ o ∧ o < 0x300 ∧ o % 0x10 ∈ [0, 4]) || (decide (0x400 ≤ o ∧ o < 0x500 ∧ o % 0x20 ≤ 0x14) && o % 4 == 0)

/-- TRIGGER entries. -/
def parseTrig : Nat → List Byte → Option (List (Nat × Nat))
  | 0, d => if allZero d then some [] else none
  | n + 1, d =>
    if d.length < 8 ∨ trigOffOk (dfield d 0 4) = false then none
    else (parseTrig n (d.drop 8)).map ((dfield d 0 4, dfield d 4 4) :: ·)

/-- Digest points (R336). -/
def parsePoints (seen : List Nat) : Nat → List Byte → Option (List DigPoint)
  | 0, d => if allZero d then some [] else none
  | n + 1, d =>
    let f := dfield d
    if d.length < 32 ∨ ¬(1 ≤ f 0 1 ∧ f 0 1 ≤ 31 ∧ f 1 1 ≤ 1) ∨ f 0 1 ∈ seen ∨ f 5 3 ≠ 0 then none
    else (parsePoints (f 0 1 :: seen) n (d.drop 32)).map (⟨f 0 1, f 1 1, f 2 2, f 4 1, []⟩ :: ·)

/-- Crossing bindings (R355): port, link, direction, kind, peer seat and slots. -/
def parseCross : Nat → List Byte → Option (List Binding)
  | 0, d => if allZero d then some [] else none
  | n + 1, d =>
    let f := dfield d
    if d.length < 16 ∨ f 5 3 ≠ 0 ∨ ¬(f 2 1 ≤ 1 ∧ f 3 1 ≤ 1 ∧ f 0 1 < 24 ∧ f 1 1 < 24) then none
    else (parseCross n (d.drop 16)).map (⟨f 0 1, f 1 1, f 2 1 == 1, f 3 1 == 1, f 4 1, f 8 8⟩ :: ·)

/-- Graph entries (R313). -/
def parseGraphs (h v : Nat) (nums used : List Nat) : Nat → List Byte → Option (List GraphEnt)
  | 0, d => if allZero d then some [] else none
  | n + 1, d =>
    let f := dfield d
    let comb := f 5 1
    let g : GraphEnt :=
      ⟨f 0 2, f 2 1, f 3 1, f 4 1, if comb = 0xFF then none else some comb, f 6 1, f 7 1, f 8 4, f 12 4, f 16 2, f 18 2, f 20 4⟩
    let cs := (List.range (g.courses * g.replicas)).map (g.first + ·)
      ++ (match g.comb with | some c => (List.range g.combCourses).map (c + ·) | none => [])
    if decide (64 ≤ d.length) && !nums.contains g.graph && allZero ((d.drop 24).take 40)
        && decide (1 ≤ g.courses ∧ g.courses ≤ 24 ∧ 1 ≤ g.replicas ∧ g.replicas ≤ 8 ∧ g.combCourses ≤ 24 ∧ g.order ≤ 1)
        && decide (512 ≤ g.chunk ∧ g.chunk ≤ 65536 ∧ g.chunk % 32 = 0 ∧ 1 ≤ g.outChunk ∧ g.outChunk ≤ 65536)
        && decide (1 ≤ g.sumTokens ∧ g.sumTokens ≤ 64 ∧ h ≤ g.first ∧ g.first < v)
        && (match g.comb with | some c => decide (h ≤ c ∧ c < v) | none => true)
        && cs.all (fun c => decide (h ≤ c ∧ c < v) && !used.contains c) then
      (parseGraphs h v (g.graph :: nums) (cs ++ used) n (d.drop 64)).map (g :: ·)
    else none

/-- A section with a head of 16 bytes that holds its COUNT in bytes 0 and 1. -/
def headed (lo hi count : Nat) (d : List Byte) : Option (List Byte) :=
  if decide (16 ≤ d.length ∧ lo ≤ count ∧ count ≤ hi ∧ dfield d 0 2 = count) && allZero ((d.drop 2).take 14) then some (d.drop 16)
  else none

/-! ### The image as a whole -/

/-- A section that is there, parsed; a missing one is given `dflt`, and refused where it is required. -/
def sectOf {α : Type} (d : List Byte) (ss : List Sect) (ty : Nat) (req : Bool) (dflt : α)
    (p : Nat → List Byte → Option α) : Except Nat α :=
  match sectBytes d ss ty with
  | none => if req then .error 0 else .ok dflt
  | some (n, b) => match p n b with
    | some a => .ok a
    | none => .error ty

/-- The parts of the image after its section table; an error names the failing type, 0 for none. -/
def parseBody (d : List Byte) (ss : List Sect) (digest : BitVec 256) (enc : Bool) (base : Nat) : Except Nat Image := do
  let f := dfield d
  let v := f 16 1
  let h := f 17 1
  let hot := decide (0 < h)
  let nent := 64 * 2 ^ f 18 1
  let grid ← sectOf d ss 1 true [] fun n b => if n = v ∧ 4 * v ≤ b.length ∧ allZero (b.drop (4 * v)) then parseGrid b v else none
  let warm := grid.any fun r => r.contains 2
  let lat ← sectOf d ss 2 hot [] fun n b => if n = 21 ∧ 21 ≤ b.length ∧ allZero (b.drop 21) then some ((b.take 21).map BitVec.toNat) else none
  let ing ← sectOf d ss 3 hot ([], []) fun n b => parseIngest h n b
  let routes ← sectOf d ss 4 hot [] fun n b => parseRoutes v nent n b
  let recs ← sectOf d ss 5 true [] fun n b => parseRecs v n b
  let edges ← sectOf d ss 6 (hot || warm) [] fun n b =>
    match parseEdges h v nent [] n b with
    | some es => if capsFit es (2 ^ f 18 1) then some es else none
    | none => none
  let trig ← sectOf d ss 7 hot [] fun n b => parseTrig n b
  let points ← sectOf d ss 8 false [] fun n b => (headed 1 31 n b).bind (parsePoints [] n)
  let cross ← sectOf d ss 9 (decide (1 < f 33 1)) [] fun n b => (headed 1 48 n b).bind (parseCross n)
  if !warm && (sectBytes d ss 10).isSome then .error 10
  let graphs ← sectOf d ss 10 warm [] fun n b => (headed 1 64 n b).bind (parseGraphs h v [] [] n)
  let hbm ← sectOf d ss 11 false [] fun n b => if n ≤ b.length ∧ allZero (b.drop n) then some (b.take n) else none
  let foot ← sectOf d ss 12 false none fun n b =>
    if n = v ∧ 2560 * v ≤ b.length ∧ allZero (b.drop (2560 * v)) then some (some (b.take (2560 * v))) else none
  return {
    info := ⟨base, v, h, f 18 1, f 19 1, f 20 2, f 22 2, f 24 2, f 26 1, 0, 0, 0xFF, f 27 1, f 28 2, f 30 2, enc, digest, grid,
      ing.1, ing.2, trig, graphs, points, cross, foot, [], []⟩
    seat := f 32 1, seats := f 33 1, lat := lat, routes := routes, recs := recs, edges := edges, hbm := hbm
    sects := ss.zipIdx.map fun s => (s.1.ty, s.2) }

/-- The section-table index of a type, 0xFF when there is none. -/
def sectIndex (ss : List (Nat × Nat)) (ty : Nat) : Nat := match ss.find? fun s => s.1 == ty with | some s => s.2 | none => 0xFF

/-- A plain image read by the format rules: an error is the section index of LOAD_STATUS. -/
def parseImage (d : List Byte) (enc : Bool) (base : Nat) : Except Nat Image :=
  let len := dfield d 8 8
  let n := dfield d 6 2
  if !headerOk d || decide (len < 128 + 32 * n) then .error 0xFF
  else
    let p := d.take len
    match sectTable p len n 0 (128 + 32 * n) [] with
    | .error k => .error k
    | .ok ss => match parseBody p ss (sha256N p) enc base with
      | .ok i => .ok i
      | .error ty => .error (sectIndex (ss.zipIdx.map fun s => (s.1.ty, s.2)) ty)

/-! ### What the records give each site -/

/-- Entries written into a unit's tables, as a TBL_CMD write would (R199). -/
def HUnit.writeEntries (u : HUnit) (mu : Bool) (table index : Nat) : List (BitVec 256) → HUnit
  | [] => u
  | d :: ds => (u.tblWrite mu table index d).writeEntries mu table (index + 1) ds

/-- Entries written into a grate's tables. -/
def Grate.writeEntries (g : Grate) (table index : Nat) : List (BitVec 256) → Grate
  | [] => g
  | d :: ds => { g with tab := mput (fun _ => 0) g.tab (1024 * table + index) d }.writeEntries table (index + 1) ds

/-- The records that address a site's unit (0) or grate (1). -/
def Image.recsOf (i : Image) (target v c : Nat) : List TRec := i.recs.filter fun r => r.target == target && r.v == v && r.col == c

/-- A unit with what records write, into a unit that holds nothing. -/
def Image.unitOf (i : Image) (v c : Nat) : HUnit :=
  (i.recsOf 0 v c).foldl (fun u r => u.writeEntries (isMu c) r.table r.index r.entries) HUnit.init

/-- A grate with what records write, before the shifts. -/
def Image.grateOf (i : Image) (v c : Nat) : Grate :=
  (i.recsOf 1 v c).foldl (fun g r => g.writeEntries r.table r.index r.entries) Grate.init

/-- The entries of a table of a site that the image writes. -/
def Image.written (i : Image) (target v c table : Nat) : List Nat :=
  ((i.recsOf target v c).filter fun r => r.table == table).flatMap fun r => (List.range r.entries.length).map (r.index + ·)

/-- The mode of a site's unit. -/
def Image.mode (i : Image) (v c : Nat) : Nat := listGet 0 (listGet [] i.info.grid v) c

/-- The entries of a period. -/
def Image.nent (i : Image) : Nat := 64 * 2 ^ i.info.plog

/-- The sites of the virtual grid. -/
def Image.sites (i : Image) : List (Nat × Nat) := (List.range i.info.v).flatMap fun v => (List.range 12).map fun c => (v, c)

/-- UNIT_CFG.PLEN: 64·P − 1 for a hot unit; for a warm one the last bundle of the image's tick program, an MU's last entry
without the zero bundles at its end (R97, R487; log entry 24). -/
def Image.plen (i : Image) (v c : Nat) : Nat :=
  if i.mode v c = 1 then i.nent - 1
  else
    let top := (i.written 0 v c 0).foldl max 0
    if isMu c then
      let d := ((i.unitOf v c).entry 0 top).toNat
      8 * top + ((List.range 8).filter fun k => bitsAt d (32 * k) 32 != 0).foldl max 0
    else top

end Sys2Proof.Machine
end

