-- ==== Sys2Proof/Machine/ImgCheck.lean ====
section
/-!
DEFINITION. The loader's checks after the format rules, in the order of R211: grid, ingest, bundles, period, latency, slots,
steering, warm routes, credits, scales, power, links and stage (R51, R57, R86, R123 to R135, R150 to R166, R169, R191, R192,
R202 to R209, R224, R225, R336, R355, R356, R486).
-/
namespace Sys2Proof.Machine

/-! ### Placement (R202) -/

/-- The physical courses that hold virtual courses 0 to V − 1, in order. -/
def State.vmap (s : State) (base v : Nat) : List Nat :=
  ((List.range 25).filter fun p => decide (base ≤ p) && !s.courseOff p).take v

/-- The physical course of a virtual one. -/
def phys (vm : List Nat) (v : Nat) : Nat := listGet 0 vm v

/-- Relay grates between two virtual courses. -/
def relaysBetween (vm : List Nat) (a b : Nat) : Nat := ((phys vm a : Int) - phys vm b).natAbs - 1

/-- What a failed check reports: code, section type (0 for none), consumer and source site. -/
structure Verdict where
  code : Nat
  sect : Nat
  cons : Nat
  src : Nat
  deriving DecidableEq, Repr

/-- A check that failed without a route. -/
def Verdict.plain (code sect : Nat) : Verdict := ⟨code, sect, 0x1FF, 0x1FF⟩

/-- A check: a verdict where a condition fails. -/
def failIf (bad : Bool) (code sect : Nat) : Option Verdict := if bad then some (Verdict.plain code sect) else none

/-- The first failed check. -/
def firstFail : List (Option Verdict) → Option Verdict
  | [] => none
  | some v :: _ => some v
  | none :: r => firstFail r

/-! ### Routes over the placement (R116, R163) -/

/-- The mask of a slot-table entry of a grate as the image writes it. -/
def Image.maskAt (i : Image) (h : Hop) : Nat := (i.grateOf h.v h.col).slotWord h.input h.entry % 2048

/-- Relays crossed before each hop, n having been crossed before the first. -/
def hopRelays (vm : List Nat) (n : Nat) : List Hop → List (Hop × Nat)
  | [] => []
  | [h] => [(h, n)]
  | h :: g :: t => (h, n) :: hopRelays vm (n + if h.v = g.v then 0 else relaysBetween vm h.v g.v) (g :: t)

/-- Relays between a course and the edge in the direction of a vertical input or output: 2 south, 3 north. -/
def relaysToEdge (vm : List Nat) (v dir : Nat) : Nat := if dir = 2 then phys vm v else 24 - phys vm v

/-- Relays before the first hop: those between the edge and the first course when a crossing port is the source. -/
def startRelays (vm : List Nat) (edge : Bool) (hops : List Hop) : Nat :=
  match hops with
  | h :: _ => if edge && (h.input == 2 || h.input == 3) then relaysToEdge vm h.v h.input else 0
  | [] => 0

/-- Relays after the last hop, when the route ends in a crossing port. -/
def Image.endRelays (i : Image) (vm : List Nat) (hops : List Hop) : Nat :=
  match hops.getLast? with
  | some h => if (i.maskAt h).testBit 2 then relaysToEdge vm h.v 2 else if (i.maskAt h).testBit 3 then relaysToEdge vm h.v 3 else 0
  | none => 0

/-- The courses that relay under a PLACE_MAP. -/
def relayCourses (map : Nat) : Nat := ((List.range 25).filter fun p => !map.testBit p).length

/-- A route entry as numbers. -/
def RouteE.nums (r : RouteE) : List Nat :=
  [r.srcV, r.srcC, r.srcQ, r.consV, r.consC, r.kind, r.link] ++ r.hops.flatMap fun h => [h.v, h.col, h.input, h.entry]

/-- Relays of the peer chip for a route that crosses chips. Neither the route entry nor the binding names the peer's port or grates, so
the number of the peer's relay courses that the route crosses there is a free value, from none to all of them (R225; DESIGN
CHOICE, log entry 25). -/
def Image.peerRelays (i : Image) (place : List Byte) (r : RouteE) : Nat :=
  match i.info.cross.find? fun b => b.link == r.link with
  | some b =>
    let map := dfield place (16 + 4 * (b.peerSeat % 16)) 4 % 2 ^ 25
    if relayCourses map = 0 then 0 else Config.peerRelays map r.nums % (relayCourses map + 1)
  | none => 0

/-- The relay grates that a hot route crosses on all chips. -/
def Image.routeRelays (i : Image) (vm : List Nat) (place : List Byte) (r : RouteE) : Nat :=
  let n0 := startRelays vm (r.flags.testBit 2) r.hops
  let own := match (hopRelays vm n0 r.hops).getLast? with | some h => h.2 | none => n0
  own + (if r.kind = 4 then i.endRelays vm r.hops else 0) + (if r.flags.testBit 1 then i.peerRelays place r else 0)

/-- The physical pad (R163). -/
def State.routePad (s : State) (i : Image) (vm : List Nat) (place : List Byte) (r : RouteE) : Int :=
  (r.pad : Int) - 2 * i.routeRelays vm place r
    - (if r.flags.testBit 1 then (s.getF (zlLinkLz_Lz (r.link % 24)) : Int) + 4 - r.lc else 0)

/-! ### Warm routes, read from the slot tables (R133) -/

/-- Where a warm route ends: a queue of a site, or an edge port by kind and index. -/
inductive WDest where
  | queue (v c q : Nat)
  | edge (kind index : Nat)
  deriving DecidableEq, Repr

/-- The single output of a mask, if it has exactly one. -/
def oneBit (m : Nat) : Option Nat :=
  match (List.range 11).filter fun o => m.testBit o with
  | [o] => some o
  | _ => none

/-- The lowest output of a mask. -/
def lowBit (m : Nat) : Option Nat := leastBelow 11 fun o => m.testBit o

/-- A warm route traced from a crossing, with the output picked in each mask: its hops and its end, none where it ends in nothing. -/
def Image.trace (i : Image) (pick : Nat → Option Nat) (h : Hop) : Nat → List Hop × Option WDest
  | 0 => ([], none)
  | n + 1 =>
    let go (g : Hop) : List Hop × Option WDest := let r := i.trace pick g n; (h :: r.1, r.2)
    let e := (h.entry + 2) % i.nent
    match pick (i.maskAt h) with
    | none => ([], none)
    | some o =>
      if o = 0 then (if 0 < h.col then go ⟨h.v, h.col - 1, 1, e⟩ else ([h], some (.edge 2 h.v)))
      else if o = 1 then (if h.col < 11 then go ⟨h.v, h.col + 1, 0, e⟩ else ([h], some (.edge 3 h.v)))
      else if o = 2 then
        (if i.info.h < h.v then go ⟨h.v - 1, h.col, 3, e⟩ else ([h], if h.v = 0 then some (.edge 4 h.col) else none))
      else if o = 3 then
        (if h.v + 1 < i.info.v then go ⟨h.v + 1, h.col, 2, e⟩ else ([h], some (.edge 4 (12 + h.col))))
      else ([h], some (.queue h.v h.col o))

/-- A warm route followed from a crossing: it is unicast as far as it goes. -/
def Image.follow (i : Image) (h : Hop) (n : Nat) : List Hop × Option WDest := i.trace oneBit h n

/-- Some mask that a route comes to has several outputs. -/
def Image.branches (i : Image) (h : Hop) (n : Nat) : Bool :=
  let several (g : Hop) : Bool := i.maskAt g != 0 && (oneBit (i.maskAt g)).isNone
  (i.trace lowBit h n).1.any several

/-- A sender of warm routes: the site and input at which its tokens first cross, and whether it is an edge port. -/
structure WSend where
  v : Nat
  c : Nat
  input : Nat
  edge : Option (Nat × Nat)
  deriving DecidableEq, Repr

/-- The senders of the warm region (R133). -/
def Image.wSenders (i : Image) : List WSend :=
  let warm := i.sites.filter fun p => decide (i.info.h ≤ p.1)
  (warm.flatMap fun p => ((inputsOf p.2).filter (4 ≤ ·)).map fun k => ⟨p.1, p.2, k, none⟩)
    ++ (((List.range i.info.v).filter (i.info.h ≤ ·)).flatMap fun v => [⟨v, 0, 0, some (2, v)⟩, ⟨v, 11, 1, some (3, v)⟩])
    ++ ((List.range 12).flatMap fun c =>
      (if i.info.h = 0 then [⟨0, c, 2, some (4, c)⟩] else [])
        ++ (if i.info.h < i.info.v then [⟨i.info.v - 1, c, 3, some (4, 12 + c)⟩] else []))

/-- The entries in which a sender's input crosses. -/
def Image.wEntries (i : Image) (w : WSend) : List Nat :=
  (List.range i.nent).filter fun e => decide (e % 64 ≠ 63) && i.maskAt ⟨w.v, w.c, w.input, e⟩ != 0

/-- A sender's routes: hops and end for each entry. -/
def Image.wRoutes (i : Image) (w : WSend) : List (List Hop × Option WDest) :=
  (i.wEntries w).map fun e => i.follow ⟨w.v, w.c, w.input, e⟩ 600

/-- The end of a sender's route. -/
def Image.wEnd (i : Image) (w : WSend) : Option WDest :=
  match i.wRoutes w with
  | r :: _ => r.2
  | [] => none

/-- R133 fails for an entry that no route comes to: it is multicast in the warm region. -/
def Image.warmMulti (i : Image) : Bool :=
  (i.sites.filter fun p => decide (i.info.h ≤ p.1)).any fun p =>
    (inputsOf p.2).any fun k => (List.range i.nent).any fun e =>
      let m := i.maskAt ⟨p.1, p.2, k, e⟩
      decide (e % 64 ≠ 63) && m != 0 && (oneBit m).isNone

/-! ### Slot tables as shifted (R116, R166) -/

/-- A grate with an entry of a slot table replaced. -/
def Grate.putSlot (g : Grate) (input entry m : Nat) : Grate :=
  let k := 64 * input + entry / 16
  let d := (mget (fun _ => (0 : BitVec 256)) g.tab k).toNat
  { g with tab := mput (fun _ => 0) g.tab k (BitVec.ofNat 256 (putBits d (16 * (entry % 16)) 16 m)) }

/-- The moves of entries: each hop with the relays crossed before it, of hot routes and of warm ones. -/
def Image.moves (i : Image) (vm : List Nat) : List (Hop × Nat) :=
  ((i.routes.flatMap fun r => hopRelays vm (startRelays vm (r.flags.testBit 2) r.hops) r.hops)
    ++ (i.wSenders.flatMap fun w => (i.wRoutes w).flatMap fun r =>
      hopRelays vm (startRelays vm (w.edge.isSome) r.1) r.1)).filter fun m => m.2 != 0

/-- A site's grate with the entries of its routes shifted by 2 for each relay grate. -/
def Image.shifted (i : Image) (mv : List (Hop × Nat)) (v c : Nat) : Grate :=
  let g := i.grateOf v c
  let mine := mv.filter fun m => m.1.v == v && m.1.col == c
  let cut := mine.foldl (fun g m => g.putSlot m.1.input m.1.entry 0) g
  mine.foldl (fun x m =>
    let e := (m.1.entry + 2 * m.2) % i.nent
    x.putSlot m.1.input e (x.slotWord m.1.input e ||| g.slotWord m.1.input m.1.entry)) cut

/-! ### 0x01, where it needs the tables (R113, R336) -/

/-- The bundles of a site that the image writes. -/
def Image.bundles (i : Image) (v c : Nat) : List (BitVec 256) :=
  let u := i.unitOf v c
  (i.written 0 v c 0).flatMap fun e =>
    if isMu c then (List.range 8).map fun k => BitVec.ofNat 256 (bitsAt (u.entry 0 e).toNat (32 * k) 32) else [u.entry 0 e]

/-- A CU grate's slot-table piece sets mask bit 6 or 7. -/
def Image.portBits (i : Image) : Bool :=
  i.recs.any fun r => r.target == 1 && r.table == 0 && !isMu r.col && r.entries.any slotSetsPorts

/-- A bundle's DPI names no point of its region. -/
def Image.dpiBad (i : Image) : Bool :=
  i.sites.any fun p => !isMu p.2 && (i.bundles p.1 p.2).any fun b =>
    let d := bitsAt b.toNat 11 5
    d != 0 && !i.info.points.any fun x => x.point == d && x.region == (if p.1 < i.info.h then 0 else 1)

/-- A record of an unused site names entries that no table of its column's unit has (R199). -/
def Image.strayRec (i : Image) : Bool :=
  i.recs.any fun r => r.target == 0 && i.mode r.v r.col == 0 && !r.fits (isMu r.col)

/-- An acting entry of a crossing port that is not bound for hot transmission (R201). -/
def Image.unboundAct (i : Image) : Bool :=
  i.edges.any fun e => e.kind == 4 && e.entries.any (· != 0)
    && !i.info.cross.any fun b => b.port == e.index && !b.rx && !b.warm

/-! ### 0x06 to 0x0A -/

/-- LOAD_ERR_GRID by R202 and R204: the grid, and the slot tables of unused sites. -/
def State.gridBad (s : State) (i : Image) (vm : List Nat) : Bool :=
  let x := i.info
  decide (s.part.grade.vgrid < x.v ∨ vm.length < x.v)
    || i.sites.any (fun p => (i.mode p.1 p.2 == 2 && decide (p.1 < x.h)) || (i.mode p.1 p.2 == 1 && decide (x.h ≤ p.1)))
    || i.recs.any (fun r => r.target == 0 && (i.mode r.v r.col == 1 || i.mode r.v r.col == 2) && !r.fits (isMu r.col))
    || i.sites.any (fun p =>
      let g := i.grateOf p.1 p.2
      let bad := (if p.2 = 0 ∧ p.1 < x.h then 1 else 0) + (if i.mode p.1 p.2 = 0 then 0xF0 else 0)
      (inputsOf p.2).any fun k => (List.range 1024).any fun e => g.slotWord k e &&& bad != 0)

/-- LOAD_ERR_GRID by R204 and R486: a route names a unit queue of an unused site. -/
def Image.gridRouteBad (i : Image) (r : RouteE) : Bool :=
  (!r.flags.testBit 2 && decide (r.srcQ < 8) && i.mode r.srcV r.srcC == 0) || (decide (r.kind ≤ 1) && i.mode r.consV r.consC == 0)

/-- The enabled channels of ING: number, first fibre, fibres minus 1 and format. -/
def State.chanList (s : State) : List (Nat × Nat × Nat × Nat) :=
  (List.range 16).filterMap fun c =>
    if s.flag (ingChCfg_En c) then some (c, s.getF (ingChCfg_FirstFibre c), s.getF (ingChCfg_Fibres c), s.getF (ingChCfg_Fmt c))
    else none

/-- LOAD_ERR_INGEST_GEOMETRY (R51). -/
def State.geometryBad (s : State) (i : Image) : Bool :=
  let words := (s.chanList.map fun c => 39 * (c.2.2.1 + 1)).sum
  i.info.channels != s.chanList || i.info.ports.length != (words + 62) / 63

/-- LOAD_ERR_ALIGN_DELAY (R57). -/
def State.delayBad (s : State) (i : Image) : Bool :=
  decide (i.info.d < s.getF ingAlign_Delay)
    || (List.range 256).any fun l => (s.chanOf l).isSome && (s.getF ingGrpEn_FibEn).testBit (fibreOf l)
      && !((s.lane l).measured && inWindow i.info.d (s.arrival l))

/-- A pattern that the image writes breaks R86: a reserved bit, or an unlisted field. -/
def patBad (u : HUnit) (ks : List Nat) (p : Nat) : Bool :=
  let w (k : Nat) : Nat := (u.entry 2 (9 * p + k)).toNat
  let keep := [0xC001FFFF, 0x3FFFF, 0x3FFFF, 0x3FFFF, 0x3FFFF, 0x0FFF0FFF, 0x0FFF0FFF, 0xFFFDFFFF, 0x1FFFF]
  ks.any (fun k => k / 9 == p)
    && ((List.range 9).any (fun k => w k &&& listGet 0 keep k != w k) || !(u.pat (p / 8) (p % 8)).listed)

/-- A transfer word breaks the ranges of R483. -/
def xferBad (d : BitVec 256) : Bool :=
  let n := d.toNat
  bitsAt n 40 24 != 0 || bitsAt n 104 152 != 0 || bitsAt n 0 6 != 0 || bitsAt n 64 6 != 0

/-- LOAD_ERR_BUNDLE (R86). -/
def Image.bundleBad (i : Image) : Bool :=
  i.sites.any fun p =>
    let u := i.unitOf p.1 p.2
    let mu := isMu p.2
    (i.bundles p.1 p.2).any (fun b => !bundleListed mu (i.mode p.1 p.2 != 2) b)
      || (mu && ((List.range 32).any (patBad u (i.written 0 p.1 p.2 2))
        || (i.written 0 p.1 p.2 3).any fun k => xferBad (u.entry 3 k)))

/-- LOAD_ERR_PERIOD: a hot table goes beyond its 64·P entries (R150; log entry 26). -/
def Image.periodBad (i : Image) : Bool :=
  i.sites.any fun p => decide (p.1 < i.info.h) &&
    ((i.mode p.1 p.2 == 1 && (i.written 0 p.1 p.2 0).any fun k => decide ((if isMu p.2 then 8 * k else k) ≥ i.nent))
      || (i.written 1 p.1 p.2 0).any (fun k => decide (16 * (k % 64) ≥ i.nent))
      || (List.range 1024).any fun e => decide (i.nent ≤ e) && (i.grateOf p.1 p.2).fires e)

/-! ### 0x0B to 0x0E (the loader's latency and padding checks) -/

/-- The unit latency table of a stepping with the four edge entries (R100, R160). -/
def stepLat : Stepping → List Nat
  | .a0 => [1, 2, 3, 4, 9, 7, 2, 1, 29, 4, 1, 12, 1, 2, 2, 6, 2, 2, 2, 5, 12]
  | .b0 => [1, 2, 3, 4, 8, 7, 2, 1, 28, 4, 1, 12, 1, 2, 2, 6, 2, 2, 2, 5, 12]

/-- The hot span of a phase: the frame cycle of the last score take for its release ticks, none when there is none. -/
def Image.spanOf (i : Image) (phase : Nat) : Option Nat :=
  let p := 2 ^ i.info.plog
  let fs := (i.edges.filter fun e => e.kind == 1).flatMap fun e => e.entries.zipIdx.filterMap fun x =>
    let age := bitsAt x.1 11 4
    if x.1.testBit 15 && bitsAt x.1 9 2 == 0 && ((((x.2 / 64 : Nat) : Int) - age) % p).toNat == phase then
      some (64 * age + x.2 % 64)
    else none
  match fs with
  | [] => none
  | _ => some (fs.foldl max 0)

/-- The phases declare different spans, or none that is the header's (R153, R155; log entry 26). -/
def Image.spanBad (i : Image) : Bool :=
  let ss := (List.range (2 ^ i.info.plog)).map i.spanOf
  ss.any Option.isSome && ss.any fun x => x != some i.info.span

/-- The latency table that an image was compiled against: the bytes that it carries, or, where it has no LATENCY section (H = 0), the table
that COMPILED names (R160, R241; DESIGN CHOICE, log entry 111). -/
def Image.latTable (i : Image) : List Nat :=
  if i.lat.isEmpty then stepLat (if i.info.compiled = 0xB0 then .b0 else .a0) else i.lat

/-- The difference d of R161 for the V3 entry, which becomes V3PAD. -/
def State.v3diff (s : State) (i : Image) : Int := (listGet 0 i.latTable 4 : Nat) - (listGet 0 (stepLat s.part.stepping) 4 : Nat)

/-- The latency table disagrees with the stepping in an entry other than V3: the vector issue-to-use entry is compared with the present
value plus d, and every other one with the present value (R161). -/
def State.latBad (s : State) (i : Image) : Bool :=
  (List.range 21).any fun e => e != 4 &&
    ((listGet 0 i.latTable e : Nat) : Int) != (listGet 0 (stepLat s.part.stepping) e : Nat) + (if e = 8 then s.v3diff i else 0)

/-- The sites of a route. -/
def routeSites (vm : List Nat) (r : RouteE) : Nat × Nat := (12 * phys vm r.consV + r.consC, 12 * phys vm r.srcV + r.srcC)

/-- The first route that fails a test. -/
def firstRoute (vm : List Nat) (code : Nat) (bad : RouteE → Bool) (rs : List RouteE) : Option Verdict :=
  match rs.find? bad with
  | none => none
  | some r => some ⟨code, 4, (routeSites vm r).1, (routeSites vm r).2⟩

/-- The latency checks of an image with H > 0, and those of its latency table, in the order of the pseudocode (R101, R153, R155, R161,
R241). -/
def State.latencyFail (s : State) (i : Image) : Option Verdict :=
  let hot := decide (0 < i.info.h)
  firstFail
    [failIf (hot && decide (768 < i.info.lat)) 0x0B 0, failIf (hot && i.spanBad) 0x0C 6,
      failIf (hot && i.info.lat != 64 * i.info.d + i.info.span + 5) 0x0C 0, failIf (decide (s.v3diff i < 0)) 0x0E 2,
      failIf (decide (3 < s.v3diff i)) 0x0D 2, failIf (s.latBad i) 0x0D 2]

/-! ### 0x0F to 0x16 -/

/-- The entries in which the relay grates after a hop pass a token: k of them, 2 cycles apart (R116, R122). -/
def relayEntries (e k : Nat) : List Nat := (List.range k).map fun j => e + 2 * (j + 1)

/-- The entries in which a route crosses its hops and the relay grates after each, `last` of them after the last hop. -/
def crossEntries (last : Nat) : List (Hop × Nat) → List Nat
  | [] => []
  | [m] => let e := m.1.entry + 2 * m.2; e :: relayEntries e last
  | m :: m' :: r => let e := m.1.entry + 2 * m.2; e :: (relayEntries e (m'.2 - m.2) ++ crossEntries last (m' :: r))

/-- A route crosses some grate in slot 63 after its shifts, relay grates before its first hop (n) and after its last counted
(R123). -/
def slot63 (vm : List Nat) (n last : Nat) (hops : List Hop) : Bool :=
  let before := match hops with | h :: _ => (List.range n).map fun j => h.entry + 2 * j | [] => []
  (before ++ crossEntries last (hopRelays vm n hops)).any fun e => e % 64 == 63

/-- LOAD_ERR_SLOT_COLLISION: two inputs with overlapping masks in one entry (R124). -/
def collides (g : Grate) (inputs : List Nat) (nent : Nat) : Bool :=
  (List.range nent).any fun e =>
    let ms := inputs.map fun k => g.slotWord k e % 2048
    (List.range 11).any fun o => decide (1 < (ms.filter fun m => m.testBit o).length)

/-- LOAD_ERR_STEER: a hot fire table with firings less than 2 apart, or merges less than 3 apart, around the period (R126). -/
def steerBad (g : Grate) (nent : Nat) : Bool :=
  let close (k : Nat) : Bool := (List.range nent).any fun e => g.fires e && g.fires ((e + k) % nent)
  close 1 || (g.steerOp == 3 && close 2)

/-- The queue word of an edge port that records with TARGET 2 give: transmit or receive (R146; log entry 23). -/
def Image.edgeWordOf (i : Image) (kind index : Nat) (tx : Bool) : Nat :=
  let k := if kind = 4 then 2 * index else if kind % 2 = 0 then 48 else 50
  let want := k + b2n (!tx)
  i.recs.foldl (fun w r =>
    if r.target = 2 ∧ r.index ≤ want ∧ want < r.index + r.entries.length ∧ (kind = 4 ∨ r.v = index) then
      bitsAt (listGet (0 : BitVec 256) r.entries (want - r.index)).toNat 0 32
    else w) 0

/-- The queue word of a warm sender. -/
def Image.sendWord (i : Image) (w : WSend) : Nat :=
  match w.edge with
  | some (k, x) => i.edgeWordOf k x (k != 4)
  | none => (i.grateOf w.v w.c).qWord (inputQueue w.input)

/-- The depth of a receiving queue of the warm region (R130). -/
def WDest.depth : WDest → Nat
  | .queue _ _ o => if o < 8 then 64 else 16
  | .edge k _ => if k = 4 then 512 else 64

/-- The Stoker holds one end of a warm route. -/
def stokerEnd (w : WSend) : WDest → Bool
  | .edge k _ => k != 4
  | .queue _ _ _ => match w.edge with | some (k, _) => k != 4 | none => false

/-- The relays after the last hop of a warm route. -/
def Image.warmLast (i : Image) (vm : List Nat) (hops : List Hop) : Option WDest → Nat
  | some (.edge 4 _) => i.endRelays vm hops
  | _ => 0

/-- A warm route crosses a grate in slot 63. -/
def Image.warm63 (i : Image) (vm : List Nat) (w : WSend) : Bool :=
  (i.wRoutes w).any fun r => slot63 vm (startRelays vm w.edge.isSome r.1) (i.warmLast vm r.1 r.2) r.1

/-- The relays of a warm route. -/
def Image.warmRelays (i : Image) (vm : List Nat) (w : WSend) (hops : List Hop) (d : WDest) : Nat :=
  let n0 := startRelays vm w.edge.isSome hops
  let n := match (hopRelays vm n0 hops).getLast? with | some h => h.2 | none => n0
  n + match d with | .edge 4 _ => i.endRelays vm hops | _ => 0

/-- The depth rule fails for a warm sender: its credits do not cover the round trip, or exceed the depth of its receiving queue (R134,
R135, R146). -/
def Image.depthBad (i : Image) (vm : List Nat) (w : WSend) : Bool :=
  let word := i.sendWord w
  match i.wRoutes w with
  | (hops, some d) :: _ =>
    let n := (i.wEntries w).length
    let h := hops.length + i.warmRelays vm w hops d
    let b := 4 * h + (if stokerEnd w d then 10 else 2)
    (qwCredited word && decide (qwInit word * i.nent < n * b)) || decide (d.depth < qwInit word)
  | _ => false

/-- The depth rule fails for a transmit binding whose word keeps credits, to wait on or to check (R132, R134, R135), or its INIT_CREDIT
exceeds a receive queue (R146). A warm route carries a token in each of its slots, and a hot one in each acting entry. -/
def State.linkDepthBad (s : State) (i : Image) (b : Binding) : Bool :=
  let word := i.edgeWordOf 4 b.port true
  let slots := ((List.range 64).filter fun j => b.slots.testBit j).length
  let acts := match i.edges.find? fun e => e.kind == 4 && e.index == b.port with
    | some e => (e.entries.filter fun x => x.testBit 15).length
    | none => 0
  let n := if b.warm then slots * (i.nent / 64) else acts
  !b.rx && (((qwCredited word || qwCheckOnly word)
      && decide (qwInit word * i.nent < n * (2 * s.getF (zlLinkLz_Lz (b.link % 24)) + 16)))
    || decide (512 < qwInit word))

/-- Where the token that crosses at a hop, n grates having been crossed before it, goes next in the hot region: hops, and the queues that
it enters, each with the grates crossed by then, relay grates included. -/
def Image.hotNext (i : Image) (vm : List Nat) (x : Hop × Nat) : List (Hop × Nat) × List (WDest × Nat) :=
  let h := x.1
  let n := x.2 + 1
  let m := i.maskAt h
  let e := (h.entry + 2) % i.nent
  if h.entry % 64 = 63 then ([], [])
  else
    ((if m.testBit 0 ∧ 0 < h.col then [(⟨h.v, h.col - 1, 1, e⟩, n)] else [])
      ++ (if m.testBit 1 ∧ h.col < 11 then [(⟨h.v, h.col + 1, 0, e⟩, n)] else [])
      ++ (if m.testBit 2 ∧ 0 < h.v then [(⟨h.v - 1, h.col, 3, e⟩, n + relaysBetween vm h.v (h.v - 1))] else [])
      ++ (if m.testBit 3 ∧ h.v + 1 < i.info.h then [(⟨h.v + 1, h.col, 2, e⟩, n + relaysBetween vm h.v (h.v + 1))] else []),
    (if m.testBit 1 ∧ h.col = 11 then [(.edge 1 h.v, n)] else [])
      ++ (if m.testBit 2 ∧ h.v = 0 then [(.edge 4 h.col, n + relaysToEdge vm h.v 2)] else [])
      ++ (if m.testBit 3 ∧ h.v + 1 = i.info.v then [(.edge 4 (12 + h.col), n + relaysToEdge vm h.v 3)] else [])
      ++ ((List.range 11).filter fun o => decide (4 ≤ o) && m.testBit o).map fun o => (.queue h.v h.col o, n))

/-- The queues that tokens reach from a list of hops, n steps on. -/
def Image.hotEnds (i : Image) (vm : List Nat) : Nat → List Hop → List (Hop × Nat) → List (WDest × Nat)
  | 0, _, _ => []
  | n + 1, seen, hs =>
    let r := hs.map (i.hotNext vm)
    let all := seen ++ hs.map fun h => h.1
    let next := (r.flatMap fun x => x.1).filter fun h => !all.contains h.1
    (r.flatMap fun x => x.2) ++ (if next.isEmpty then [] else i.hotEnds vm n all next)

/-- The depth of a receiving queue of the hot region (R130). -/
def WDest.hotDepth : WDest → Nat
  | .queue _ _ _ => 16
  | .edge k _ => if k = 4 then 512 else 16

/-- The senders of the hot region that hold a queue word: units, steering units, and crossing receive queues. -/
def Image.hSenders (i : Image) : List WSend :=
  ((i.sites.filter fun p => decide (p.1 < i.info.h)).flatMap fun p =>
      ((inputsOf p.2).filter (4 ≤ ·)).map fun k => ⟨p.1, p.2, k, none⟩)
    ++ ((List.range 12).flatMap fun c =>
      (if i.info.h = 0 then [] else [⟨0, c, 2, some (4, c)⟩])
        ++ (if i.info.h = i.info.v then [⟨i.info.v - 1, c, 3, some (4, 12 + c)⟩] else []))

/-- The queues that a hot sender's tokens reach, for each of its entries. -/
def Image.hotRoutes (i : Image) (vm : List Nat) (w : WSend) : List (List (WDest × Nat)) :=
  (i.wEntries w).map fun e =>
    let h : Hop := ⟨w.v, w.c, w.input, e⟩
    i.hotEnds vm 600 [] [(h, startRelays vm w.edge.isSome [h])]

/-- The depth rule fails for a hot sender: INIT_CREDIT exceeds the depth of a queue that its tokens reach (R146), or the credits of a word
that keeps them, to check alone in the hot region, do not cover the round trip to one (R132, R134, R135). -/
def Image.initBad (i : Image) (vm : List Nat) (w : WSend) : Bool :=
  let word := i.sendWord w
  let n := qwInit word
  let keeps := qwCredited word || qwCheckOnly word
  (n != 0 || keeps) &&
    let rs := i.hotRoutes vm w
    rs.any fun r => r.any fun d => decide (d.1.hotDepth < n)
      || (keeps && decide (n * i.nent < (rs.filter fun q => q.any fun x => x.1 == d.1).length * (4 * d.2 + 2)))

/-- The RQT entries that the image writes or a bundle of the site names for QNT8 or statistics. -/
def Image.rqtUsed (i : Image) (v c : Nat) : List Nat := (i.bundles v c).filterMap usesRq

/-- LOAD_ERR_RQT for a CU site (R169, R191, R192). -/
def Image.rqtBad (i : Image) (v c : Nat) : Bool :=
  let u := i.unitOf v c
  let used := i.rqtUsed v c
  let n := (i.written 0 v c 0).foldl (fun m k => max m (k + 1)) 0
  let pubs := u.pubs
  !isMu c && ((i.written 0 v c 2 ++ used).any (fun k => rqBad (u.entry 2 k)) || pubClash pubs
    || (u.scalarDests n).any (fun d => pubs.any fun p => p != 0 && (d == p || d == p + 1))
    || (i.mode v c == 2 && decide (n < 64) && used.any fun k => (Rq.ofBits (u.entry 2 k)).adapt))

/-- The region of the course that a crossing port adjoins: warm (R115). -/
def Image.portWarm (i : Image) (port : Nat) : Bool := if port < 12 then i.info.h == 0 else decide (i.info.h < i.info.v)

/-- LOAD_ERR_LINK for a binding (R225, R355). -/
def State.bindBad (s : State) (i : Image) (b : Binding) : Bool :=
  let rel := s.getF (zlLinkModeMap_Reliable b.link) * 2
  !(s.flag (zlLinkStatus_Frozen b.link) && s.flag (zlLinkStatus_FrameLock b.link))
    || b.peerSeat != s.getF (zlLinkStatus_PeerSeat b.link) || b.slots.testBit 0 || decide (2 ^ 39 ≤ b.slots)
    || (if b.warm then b.slots &&& rel != b.slots else b.slots &&& rel != 0)
    || b.warm != i.portWarm b.port
    || (s.getF zlTwinCtrl_Role == 2 && !b.warm && b.rx && s.getF (zlLinkStatus_PeerRole b.link) != 2)

/-- LOAD_ERR_LINK among bindings: a port twice in one direction, a shared slot, or more than 4 on a link. -/
def bindClash (bs : List Binding) : Bool :=
  bs.zipIdx.any fun a =>
    decide (4 < (bs.filter fun b => b.link == a.1.link && b.rx == a.1.rx).length) ||
    bs.zipIdx.any fun b => decide (a.2 < b.2) && a.1.rx == b.1.rx &&
      (a.1.port == b.1.port || (a.1.link == b.1.link && a.1.slots &&& b.1.slots != 0))

/-- LOAD_ERR_LINK for EDGE entries of hot transmit ports: an ACT in a cycle that is no bound slot (R356). -/
def Image.actBad (i : Image) : Bool :=
  i.edges.any fun e => e.kind == 4 && e.entries.zipIdx.any fun x => x.1.testBit 15 &&
    !i.info.cross.any fun b => b.port == e.index && !b.rx && !b.warm && b.slots.testBit (x.2 % 64)

/-- LOAD_ERR_LINK (R224, R225, R355, R356). -/
def State.linkBad (s : State) (i : Image) (place : List Byte) : Bool :=
  i.seat != dfield place 1 1 || dfield place 1 1 != s.getF zlSys_Seat || i.info.cross.any (s.bindBad i) || bindClash i.info.cross
    || i.actBad

/-! ### 0x17 to 0x19 (R209) -/

/-- A record's live writes fall in the footprint of a loaded image. -/
def ImgInfo.inFootprint (old : ImgInfo) (r : TRec) : Bool :=
  match old.footprint with
  | none => false
  | some fp =>
    let at' := 2560 * r.v + ((List.range r.col).map fun c => if isMu c then 512 else 64).sum
    (List.range r.entries.length).any fun k =>
      let b := if isMu r.col then 2 * (r.index + k) / 32 else (r.index + k) / 16
      (listGet (0 : Byte) fp (at' + b / 8)).toNat.testBit (b % 8)

/-- A live write falls in the footprint of the loaded image, or that image has no FOOTPRINT section. -/
def footBad (old : ImgInfo) (i : Image) : Bool :=
  old.footprint.isNone || (i.recs.filter fun r => r.target == 0 && r.table == 1).any old.inFootprint

/-- The checks of a STAGE load. -/
def State.stageFail (s : State) (i : Image) : Option Verdict :=
  match s.hearth.img with
  | none => some (Verdict.plain 0x17 0)
  | some o =>
    let x := i.info
    firstFail
      [failIf (x.v != o.v || x.h != o.h || x.base != o.base || x.channels != o.channels || x.ports != o.ports) 0x17 0,
        failIf (footBad o i) 0x18 5, failIf (s.hearth.staged.isSome) 0x19 0]

/-- The site of an edge port as LOAD_LOC names it. -/
def portLoc (vm : List Nat) (k x : Nat) : Nat :=
  if k = 4 then edgeSite (edgeCross x) else 12 * phys vm x + (if k = 1 ∨ k = 3 then 11 else 0)

/-- The site of a route's end, 0x1FF when it has none. -/
def endLoc (vm : List Nat) : Option WDest → Nat
  | some (.queue v c _) => 12 * phys vm v + c
  | some (.edge k x) => portLoc vm k x
  | none => 0x1FF

/-- The consumer that LOAD_LOC names for a refused route of a warm sender: the end of its first entry that comes to a mask with several
outputs, or else of its first entry. Of several consumers it is the one behind the lowest outputs (DESIGN CHOICE, log entry 112). -/
def Image.warmCons (i : Image) (w : WSend) : Option WDest :=
  let hop (e : Nat) : Hop := ⟨w.v, w.c, w.input, e⟩
  let es := i.wEntries w
  match (es.find? fun e => i.branches (hop e) 600).or es.head? with
  | some e => (i.trace lowBit (hop e) 600).2
  | none => none

/-- The consumer that LOAD_LOC names for a hot sender: the first queue that its tokens reach (DESIGN CHOICE, log entry 112). -/
def Image.hotCons (i : Image) (vm : List Nat) (w : WSend) : Option WDest := ((i.hotRoutes vm w).flatten.head?).map fun d => d.1

/-- The first sender that fails a test, with the physical sites at the ends of its route where it has one (LOAD_LOC). -/
def firstSender (vm : List Nat) (code : Nat) (cons : WSend → Option WDest) (bad : WSend → Bool) (ws : List WSend) : Option Verdict :=
  match ws.find? bad with
  | none => none
  | some w => some ⟨code, 5, endLoc vm (cons w), match w.edge with | some (k, x) => portLoc vm k x | none => 12 * phys vm w.v + w.c⟩

/-- The first binding whose link fails the depth rule: its route runs from the crossing port to the other chip. -/
def State.firstLink (s : State) (i : Image) : Option Verdict :=
  (i.info.cross.find? (s.linkDepthBad i)).map fun b => ⟨0x13, 5, 0x1FF, edgeSite (edgeCross b.port)⟩

/-- A route as the grates that it crosses and its end: entries of one route differ in time alone. -/
def routePath (r : List Hop × Option WDest) : List (Nat × Nat × Nat) × Option WDest := (r.1.map fun h => (h.v, h.col, h.input), r.2)

/-- R133 fails for a sender: a mask with several outputs, two routes, or an end that another sender shares. -/
def Image.warmSenderBad (i : Image) (w : WSend) : Bool :=
  let paths := (i.wRoutes w).map routePath
  (i.wEntries w).any (fun e => i.branches ⟨w.v, w.c, w.input, e⟩ 600)
    || paths.any (fun d => some d != paths.head?)
    || (match i.wEnd w with
      | some d => decide (1 < (i.wSenders.filter fun x => i.wEnd x == some d).length)
      | none => false)

/-- Every check of R211 after the format of the bytes: none when the image passes. -/
def State.imageFail (s : State) (i : Image) (place : List Byte) (full : Bool) : Option Verdict :=
  let vm := s.vmap i.info.base i.info.v
  let hot := decide (0 < i.info.h)
  let mv := i.moves vm
  let gs := i.sites.map fun p => (p, i.shifted mv p.1 p.2)
  firstFail
    [failIf (i.portBits || i.dpiBad || i.strayRec) 0x01 5, failIf i.unboundAct 0x01 6, failIf (s.gridBad i vm) 0x06 1,
      firstRoute vm 0x06 i.gridRouteBad i.routes,
      failIf ((hot || i.sects.any fun x => x.1 == 3) && s.geometryBad i) 0x07 3, failIf (hot && s.delayBad i) 0x08 0,
      failIf i.bundleBad 0x09 5, failIf i.periodBad 0x0A 5,
      s.latencyFail i,
      firstRoute vm 0x0E (fun r => decide (s.routePad i vm place r < 0)) i.routes,
      firstRoute vm 0x0F (fun r => slot63 vm (startRelays vm (r.flags.testBit 2) r.hops)
        (if r.kind = 4 then i.endRelays vm r.hops else 0) r.hops) i.routes,
      firstSender vm 0x0F i.warmCons (i.warm63 vm) i.wSenders,
      failIf (gs.any fun g => collides g.2 (inputsOf g.1.2) i.nent) 0x10 5,
      failIf (gs.any fun g => decide (g.1.1 < i.info.h) && steerBad g.2 i.nent) 0x11 5,
      firstSender vm 0x12 i.warmCons i.warmSenderBad i.wSenders, failIf i.warmMulti 0x12 5,
      firstSender vm 0x13 i.warmCons (i.depthBad vm) i.wSenders, s.firstLink i, firstSender vm 0x13 (i.hotCons vm) (i.initBad vm) i.hSenders,
      failIf (i.sites.any fun p => i.rqtBad p.1 p.2) 0x14 5,
      failIf (decide (s.getF pwrPowerCap_Watts < i.info.ceilW)) 0x15 0xFF,
      failIf (s.linkBad i place) 0x16 9,
      if full then none else s.stageFail i]

/-- RELAYS, and RESERVE_MIN (R166). -/
def State.relayFigures (s : State) (i : Image) (vm : List Nat) (place : List Byte) : Nat × Nat :=
  let rs := (i.routes.map fun r => i.routeRelays vm place r).foldl max 0
  let pads := (i.routes.filter fun r => r.flags.testBit 0 || r.flags.testBit 1).map fun r => (s.routePad i vm place r).toNat
  let m := pads.foldl min 255
  (rs, if 254 < m then 0xFF else m)

end Sys2Proof.Machine
end

