-- ==== Sys2Proof/Machine/Trigger.lean ====
section
/-!
DEFINITION. The commands of TRG and ACQ (R245 to R259, R267 to R276).
-/
namespace Sys2Proof.Machine

/-! ### Takes -/

/-- A device tick has been decided. -/
def State.trgDone (s : State) (k : Nat) : Bool :=
  match s.trg.old with
  | some o => if k < o.upTo then decide (k < s.trg.next) else decide (k < o.next)
  | none => decide (k < s.trg.next)

/-- SCORE ≥ THRESH, or SCORE ≤ THRESH where POL is 1, on FP32 bits; never with a NaN (R87, R247). -/
def scoreHits (pol : Bool) (score thresh : Nat) : Bool :=
  fEq score thresh || (if pol then fLt score thresh else fLt thresh score)

/-- Entry j of a score token for a device tick (R247, R248). -/
def State.scoreEntry (s : State) (t : Token) (k group j : Nat) : State :=
  let n := 8 * group + j
  let e := bitsAt t.data.toNat (64 * j) 64
  let open' := !s.trgDone k && decide (s.frc.toNat + 2 ≤ s.readyLimit k)
  let s1 := if t.poison then s.bump trgPoisonScoreF 1 else s
  let s2 := if open' && (t.suspect || t.poison) then s1.markDet ⟨k, n, t.suspect, t.poison⟩ else s1
  let ch := s.getF (trgSdCfg_Ch n)
  let off := bitsAt e 16 16
  let frac := bitsAt e 8 8
  let tag : Tag := ⟨k, ch, off, frac, (256 * off + frac) * 64 / s.samplesPerTick ch⟩
  if open' && !t.poison && s.flag (trgSdCfg_En n) && scoreHits (s.flag (trgSdCfg_Pol n)) (bitsAt e 32 32) (s.trgReg k (trgSdThresh n)) then
    s2.addHit ⟨k, n, tag, s.frc.toNat + 2, false, false⟩
  else s2

/-- The entries of a score token, lowest first. -/
def State.scoreEntries (s : State) (t : Token) (k group : Nat) : List Nat → State
  | [] => s
  | j :: js => (s.scoreEntry t k group j).scoreEntries t k group js

/-- The epoch of the takes of a device tick is remembered (R258). -/
def State.noteEpoch (s : State) (k : Nat) : State :=
  { s with trg :=
      { s.trg with epochs := ((k, s.getF glbImgState_Epoch) :: s.trg.epochs.filter fun e => e.1 != k).take 64 } }

/-- SCORE_TAKE: a TRG port takes a score token and compares its entries (R215, R246 to R248, R340). -/
def scoreTake (course : Nat) (s : State) : State :=
  match s.takeEntry course 0 with
  | none => s
  | some x =>
    let rel := s.takeRel x
    let r := s.takeToken course
    if s.takeLost rel then r.1.discardTake
    else
      let k := rel - s.effDelay
      let s1 := r.1.noteEpoch k
      if r.2.void then s1 else s1.scoreEntries r.2 k (bitsAt x 7 2) (List.range 8)

/-- The meaning of SCORE_TAKE. -/
def execScoreTake (course : Nat) (s : State) : Out := .next (s.when (decide (course < 25)) (scoreTake course s))

/-- The takes of a capture channel that come before one of the same release tick: lower frame cycle, then lower virtual course
(R267). -/
def State.takesBefore (s : State) (course ch age : Nat) : Nat :=
  let p := 2 ^ s.getF (grCfg_Plog (12 * course + 11))
  let here := s.grEntry (12 * course + 11) 0
  let frame := 64 * age + here % 64
  let phase := (here / 64 + p * (age / p + 1) - age) % p
  ((List.range 25).map fun c =>
    ((s.edge (edgeTrg c)).edge.filter fun e =>
      let a := bitsAt e.2 11 4
      let f := 64 * a + e.1 % 64
      e.2.testBit 15 && bitsAt e.2 9 2 == 1 && bitsAt e.2 5 4 == ch && (e.1 / 64 + p * (a / p + 1) - a) % p == phase
        && (decide (f < frame) || (f == frame && decide (c < course)))).length).sum

/-- CAPTURE_TAKE: a TRG port takes a capture token and ACQ writes its changed elements into the pool's stream (R215, R246, R267 to
R270, R274, R340). -/
def captureTake (course : Nat) (s : State) : State :=
  match s.takeEntry course 1 with
  | none => s
  | some x =>
    let rel := s.takeRel x
    let r := s.takeToken course
    if s.takeLost rel then r.1.discardTake
    else
      let c := bitsAt x 5 4
      let p := r.1.pool c
      let s1 := r.1.noteEpoch (rel - s.effDelay)
      if !p.on then s1
      else
        let ovr := match s.ing.maps.find? fun m => m.1 == rel with | some m => m.2.2.toNat.testBit c | none => false
        let t : CapTake := ⟨rel, 32 * s.takesBefore course c (bitsAt x 11 4), r.2.data, r.2.poison, r.2.void, r.2.suspect, ovr⟩
        let q := { p with later := p.later ++ [t] }
        s1.poolPut c (q.drain (s.ringSize c) (s.getF (trgPoolCtrl_Deadband c)) (s.getF (trgPoolCap_E c)) (fun n => n - s.effDelay)
          q.later.length)

/-- The meaning of CAPTURE_TAKE. -/
def execCaptureTake (course : Nat) (s : State) : Out := .next (s.when (decide (course < 25)) (captureTake course s))

/-! ### Other sources (R250, R251) -/

/-- Two active edges of a TRIG_IN closer than this, in 1/256 cycle, are less than 2.0 ns apart (R474). -/
def edgeGapMin : Nat := 3 * 256

/-- Two times of edges, in 1/256 cycle modulo 2^72, lie less than 2.0 ns apart. -/
def edgesClose (a b : Nat) : Bool :=
  decide ((a + 2 ^ 72 - b) % 2 ^ 72 < edgeGapMin) || decide ((b + 2 ^ 72 - a) % 2 ^ 72 < edgeGapMin)

/-- TRIG_IN_EDGE: an active edge is timestamped and counted. The earliest edge of a tick hits it, or a later one with its own tag when
it is not ready in time; another edge of the tick is no hit (R249, R250), and neither is one less than 2.0 ns after an active edge
(R474). -/
def trigInEdge (i : Nat) (rising : Bool) (frac : Byte) (s : State) : State :=
  if !s.flag (trgTinCfg_En i) || rising == s.flag (trgTinCfg_Fall i) then s
  else
    let raw := s.stamp frac
    let prev := mget (fun _ => 0) s.trg.edgeAt i
    let s0 := s.bump (trgTinEdgesF i) 1
    let s1 := { s0 with trg := { s0.trg with edgeAt := mput (fun _ => 0) s0.trg.edgeAt i (raw + 1) } }
    let t : Nat := ((raw : Int) + sint 32 (s.getF (trgTinSkew_Skew i))).toNat
    let k := t / 16384
    let ready := s.frc.toNat + 20
    let tag := s.tagAt k (s.getF (trgTinCfg_RefCh i)) (t % 16384)
    let last := mget (fun _ => 0) s.trg.edges i
    if decide (0 < prev) && edgesClose raw (prev - 1) then s1
    else if decide (0 < last) && (last - 1) / 16384 == k && decide (last ≤ t + 1) then s1
    else
      let s2 := { s1 with trg := { s1.trg with edges := mput (fun _ => 0) s1.trg.edges i (t + 1) } }
      if !s.trgDone k && decide (ready ≤ s.readyLimit k) then s2.addHit ⟨k, 32 + i, tag, ready, false, false⟩
      else (s2.bump trgExtLateF 1).addHit ⟨max (k + 1) ((ready + 66 - s.trgLat) / 64), 32 + i, tag, ready, true, false⟩

/-- The meaning of TRIG_IN_EDGE. -/
def execTrigInEdge (input : Nat) (rising : Bool) (frac : Byte) (s : State) : Out :=
  .next (s.when (decide (input < 4)) (trigInEdge input rising frac s))

/-- FORCE_HIT: a host-force hit in this device tick, or in the next when its qualify stage has begun. Its reference channel is
open (R251). -/
def forceHit (s : State) : State :=
  let k := if s.frc.toNat < 64 * s.tick + s.trgLd s.tick - 2 then s.tick else s.tick + 1
  let r := s.draw 4
  r.2.addHit ⟨k, 52, ⟨k, r.1.toNat, 0, 0, 0⟩, s.frc.toNat, false, false⟩

/-- The meaning of FORCE_HIT. -/
def execForceHit (s : State) : Out := .next (forceHit s)

/-! ### The decision (R245, R252 to R256) -/

/-- The better of two hits of one source: the smaller tag, and the one taken first among equal ones (R247, R250). -/
def Hit.before (a b : Hit) : Bool :=
  decide (a.tag.time < b.tag.time ∨ (a.tag.time = b.tag.time ∧ 256 * a.tag.offset + a.tag.frac < 256 * b.tag.offset + b.tag.frac))

/-- The hit of a source in a list. -/
def bestHit (bit : Nat) (hs : List Hit) : Option Hit :=
  hs.foldl (fun m h => if h.bit != bit then m else match m with | none => some h | some b => if h.before b then some h else m) none

/-- The release tick of a device tick was released while the Hearth was halted, as FRC counts now (R256, R294). -/
def State.haltedAt (s : State) (rel : Nat) : Bool :=
  (!s.running && decide (s.hearth.haltFrc ≤ 64 * rel)) || s.hearth.halts.any fun h => decide (h.1 ≤ 64 * rel ∧ 64 * rel < h.2)

/-- The release tick of a device tick. -/
def State.relOf (s : State) (k : Nat) : Nat := k + match s.oldFor k with | some o => o.delay | none => s.effDelay

/-- No score detector hits in a device tick: its release tick lies in a swap gap or in a halt (R256). -/
def State.blind (s : State) (k : Nat) : Bool :=
  (match s.trg.old with | some o => decide (o.upTo ≤ k ∧ k < o.from') | none => false) || s.haltedAt (s.relOf k)

/-- The source vector of a device tick with its tags (R252). -/
def State.sources (s : State) (k : Nat) : List Hit :=
  let hs := s.trg.hits.filter fun h => h.tick == k && decide (h.ready ≤ s.readyLimit k) && !(s.blind k && decide (h.bit < 32))
  (List.range 53).filterMap fun b => bestHit b hs

/-- A trigger unit's configuration and memory for a device tick. -/
structure TuView where
  cfg : Nat
  maskA : Nat
  maskB : Nat
  timing : Nat
  tu : Tu
  deriving DecidableEq, Repr

/-- A unit that has never fired. -/
def Tu.init : Tu := ⟨none, []⟩

/-- The unit as a device tick sees it: the old configuration where a swap left the tick to it (R216, R257). -/
def State.tuView (s : State) (k u : Nat) : TuView :=
  let o := s.oldFor k
  let r (off : Nat) : Nat := match o with | some x => (mget (resetWord s.part) x.active off).toNat | none => s.trgReg k off
  let tus := match o with | some x => x.tus | none => s.trg.tus
  ⟨r (trgTuCfg u), r (trgTuMaskaLo u) + 2 ^ 32 * r (trgTuMaskaHi u), r (trgTuMaskbLo u) + 2 ^ 32 * r (trgTuMaskbHi u),
    r (trgTuTiming u), mget (fun _ => Tu.init) tus u⟩

/-- The state with a unit's memory replaced. -/
def State.setTu (s : State) (k u : Nat) (x : Tu) : State :=
  match s.oldFor k with
  | some o => { s with trg := { s.trg with old := some { o with tus := mput (fun _ => Tu.init) o.tus u x } } }
  | none => { s with trg := { s.trg with tus := mput (fun _ => Tu.init) s.trg.tus u x } }

/-- The earliest hit of a list, the lower source among equal tags; and the latest one. -/
def earliest (hs : List Hit) : Option Hit :=
  hs.foldl (fun m h => match m with | none => some h | some b => if h.tag.time < b.tag.time then some h else m) none
def latest (hs : List Hit) : Option Hit :=
  hs.foldl (fun m h => match m with | none => some h | some b => if b.tag.time < h.tag.time then some h else m) none

/-- The latest A event of a list at or before a time. -/
def lastEvent (t : Nat) (es : List (Nat × Nat)) : Option (Nat × Nat) :=
  es.foldl (fun m e => if t < 16384 * e.1 + e.2 then m else match m with
    | none => some e
    | some b => if 16384 * b.1 + b.2 ≤ 16384 * e.1 + e.2 then some e else m) none

/-- SEQ: the earliest B hit that an A event of its window precedes, and the event it uses; the window counts from the device tick of
the B hit's tag (R253). -/
def seqFire (win : Nat) (es : List (Nat × Nat)) : List Hit → Option (Hit × (Nat × Nat))
  | [] => none
  | b :: bs => match lastEvent b.tag.time (es.filter fun e => decide (b.tag.tick ≤ e.1 + win)) with
    | some e => some (b, e)
    | none => seqFire win es bs

/-- The A events that a unit keeps from before device tick k: those of its window, and of 16 ticks more for B hits that come late
(R250, R253). -/
def keepEvents (k win : Nat) (es : List (Nat × Nat)) : List (Nat × Nat) := es.filter fun e => decide (k ≤ e.1 + win + 16)

/-- Hits in order of their tags, lower sources first among equal ones. -/
def insHit (h : Hit) : List Hit → List Hit
  | [] => [h]
  | x :: xs => if x.tag.time ≤ h.tag.time then x :: insHit h xs else h :: x :: xs
def sortHits (hs : List Hit) : List Hit := hs.foldl (fun l h => insHit h l) []

/-- A unit qualifies a device tick: the hit that gives its tag, if it fires, and the A events it keeps (R253). -/
def TuView.qualify (v : TuView) (k : Nat) (src : List Hit) : Option Hit × List (Nat × Nat) :=
  let mode := v.cfg % 4
  let a := src.filter fun h => v.maskA.testBit h.bit
  if mode = 1 then (earliest a, [])
  else if mode = 2 then
    (if v.maskA ≠ 0 ∧ (List.range 64).all (fun b => !v.maskA.testBit b || src.any fun h => h.bit == b) then latest a else none, [])
  else if mode = 3 then
    let win := v.timing / 2 ^ 16
    let es := keepEvents k win v.tu.events ++ a.map fun h => (h.tag.tick, h.tag.tau)
    match seqFire win es (sortHits (src.filter fun h => v.maskB.testBit h.bit)) with
    | some (b, e) => (some b, es.erase e)
    | none => (none, es)
  else (none, [])

/-- A firing as it is decided: unit, its configuration, and the hit of its tag. -/
structure Fired where
  tu : Nat
  view : TuView
  hit : Hit
  deriving DecidableEq, Repr

/-- One unit in a device tick: it fires, or is held off and ignores its sources (R253, R254). -/
def State.runTu (s : State) (k : Nat) (src : List Hit) (u : Nat) : State × Option Fired :=
  let v := s.tuView k u
  let q := v.qualify k src
  let held := match v.tu.hold with | some h => decide (h.1 < k ∧ k ≤ h.2) | none => false
  if held then
    let kept := { v.tu with events := if v.cfg % 4 = 3 then keepEvents k (v.timing / 2 ^ 16) v.tu.events else [] }
    (if q.1.isSome then (s.setTu k u kept).bump (trgTuIgnoredF u) 1 else s.setTu k u kept, none)
  else match q.1 with
    | none => (s.setTu k u { v.tu with events := q.2 }, none)
    | some h => (s.setTu k u ⟨some (k, k + v.timing % 2 ^ 16), q.2⟩, some ⟨u, v, h⟩)

/-- Every unit, lowest first. -/
def State.runTus (s : State) (k : Nat) (src : List Hit) : List Nat → State × List Fired
  | [] => (s, [])
  | u :: us =>
    let r := s.runTu k src u
    let q := r.1.runTus k src us
    (q.1, match r.2 with | some f => f :: q.2 | none => q.2)

/-- The flags of a firing (R255). -/
def State.fireFlags (s : State) (k : Nat) (src : List Hit) (f : Fired) : Nat :=
  let m := f.view.maskA ||| f.view.maskB
  let marks := s.trg.marks.filter fun d => d.tick == k && m.testBit d.det
  let map := s.ing.maps.find? fun x => x.1 == s.relOf k
  let bit (b : Bool) : Bool := match map with
    | some x => (if b then x.2.2 else x.2.1).toNat.testBit f.hit.tag.ch
    | none => false
  b2n (marks.any DetMark.suspect || (src.any fun h => h.suspect && m.testBit h.bit) || bit false)
    + 2 * b2n (marks.any DetMark.poison) + 4 * b2n (s.blind k) + 8 * b2n (bit true) + 16 * b2n f.hit.late
    + 32 * b2n (s.flag chmCtrl_Shadow)

/-- A pulse on a TRIG_OUT from 12 cycles on, or a running one extended (R259). -/
def addPulse (start width : Nat) : List (Nat × Nat) → List (Nat × Nat)
  | [] => [(start, start + width)]
  | [p] => if start ≤ p.2 then [(p.1, start + width)] else [p, (start, start + width)]
  | p :: ps => p :: addPulse start width ps

/-- The TRIG_OUT outputs that mirror a unit (R259). -/
def State.pulse (s : State) (u : Nat) : List Nat → State
  | [] => s
  | m :: ms =>
    (if s.flag (trgTout_En m) && s.getF (trgTout_Tu m) == u then
      let old := (mget (fun _ => []) s.trg.pulses m).filter fun p => decide (s.cyc < p.2)
      { s with trg := { s.trg with pulses := mput (fun _ => []) s.trg.pulses m (addPulse (s.cyc + 12) (s.getF (trgTout_Width m)) old) } }
    else s).pulse u ms

/-- The pad of TRIG_OUTm is at its active level: idle from the safe state's tick boundary (R401), in the shadow role and while disabled (R259, R360). -/
def State.trigOutActive (s : State) (m : Nat) : Bool :=
  s.flag (trgTout_En m) && !s.txSafeNow && !s.flag chmCtrl_Shadow
    && (mget (fun _ => []) s.trg.pulses m).any fun p => decide (p.1 ≤ s.cyc ∧ s.cyc < p.2)

/-- The differential level of TRIG_OUTm, high or low: low until core release and in a chip reset, and then the active level that
TOUT.INV gives (R259, R475). -/
def State.trigOutPad (s : State) (m : Nat) : Bool := s.pwr.released && (s.trigOutActive m != s.flag (trgTout_Inv m))

/-- The first cycle of a block slot of a Chimney port (R260). -/
def slotCycle (b : Nat) : Nat := 32 * b / 5

/-- The tick in which a slot first starts at or after a cycle. -/
def slotTick (b c : Nat) : Nat := if c % 64 ≤ slotCycle b then c / 64 else c / 64 + 1

/-- A TRIGGER message for every port of CHM_PORTS (R262). -/
def State.sendTrigs (s : State) (f : Fired) (marked : Bool) : List Nat → State
  | [] => s
  | p :: ps =>
    let c := f.view.cfg
    (if c.testBit 31 && (bitsAt c 27 4).testBit p && (s.getF chmCtrl_En).testBit p then
      let b := bitsAt c 23 4
      let x := s.chmPort p
      s.setChm p { x with trigs := x.trigs ++ [(slotTick b (s.frc.toNat + 8), b, f.hit.tag.time, bitsAt c 19 4, marked)] }
    else s).sendTrigs f marked ps

/-- The effects of one firing: counts, outputs, Chimney messages, and the record that is still to be posted (R255, R258, R259,
R262). -/
def State.fire (s : State) (k : Nat) (src : List Hit) (recs : List (Nat × Nat)) (f : Fired) : State :=
  let fl := s.fireFlags k src f
  let s1 := s.bump (trgTuFiredF f.tu) 1
  let s2 := if fl % 2 = 1 then s1.bump trgSuspectTrigF 1 else s1
  let ep := match s.trg.epochs.find? fun e => e.1 == k with | some e => e.2 | none => s.getF glbImgState_Epoch
  let x : Firing := ⟨f.tu, f.hit.tag, f.hit.bit, fl, ep, s2.getF (trgTuFiredF f.tu), (recs.find? fun r => r.1 == f.tu).map Prod.snd, s.tick⟩
  let s3 := { s2 with trg := { s2.trg with firings := s2.trg.firings ++ [x] } }
  (s3.pulse f.tu (List.range 4)).sendTrigs f (fl % 4 != 0) (List.range 4)

/-- Every firing, earliest tag first. -/
def State.fires (s : State) (k : Nat) (src : List Hit) (recs : List (Nat × Nat)) : List Fired → State
  | [] => s
  | f :: fs => (s.fire k src recs f).fires k src recs fs

/-- Firings in order of their tags, lower units first among equal ones. -/
def insFired (f : Fired) : List Fired → List Fired
  | [] => [f]
  | x :: xs => if x.hit.tag.time ≤ f.hit.tag.time then x :: insFired f xs else f :: x :: xs

/-- Score detectors with a hit are counted (HITS). -/
def State.countHits (s : State) : List Hit → State
  | [] => s
  | h :: hs => (if h.bit < 32 then s.bump (trgSdHitsF h.bit) 1 else s).countHits hs

/-- A device tick is behind: its hits and marks are dropped, and a swap's old configuration ends with its last tick. -/
def State.tickDecided (s : State) (k : Nat) : State :=
  let t := { s.trg with hits := s.trg.hits.filter fun h => h.tick != k, marks := s.trg.marks.filter fun m => m.tick != k }
  let t1 := match t.old with
    | none => { t with next := k + 1 }
    | some o => if k < o.upTo then { t with next := k + 1 } else { t with old := some { o with next := k + 1 } }
  let t2 := match t1.old with
    | some o => if o.upTo ≤ t1.next ∧ o.from' ≤ o.next then { t1 with old := none, next := o.next } else t1
    | none => t1
  { s with trg := t2 }

/-- The decision of one device tick. -/
def State.decideTick (s : State) (k : Nat) : State :=
  if !s.flag trgCtrl_En then s.tickDecided k
  else
    let src := s.sources k
    let s1 := (if s.blind k then s.bump trgBlindTicksF 1 else s).countHits src
    let r := s1.runTus k src (List.range 8)
    let fs := r.2.foldl (fun l f => insFired f l) []
    let q := r.1.allPools (fs.map fun f => ⟨f.tu, f.hit.tag, s.fireFlags k src f % 4 != 0⟩) (List.range 16)
    (q.1.fires k src q.2 fs).tickDecided k

/-- TRG_DECISION: the device tick whose decision cycle this is, under the old configuration of a swap or the one in force (R216,
R245). -/
def trgDecision (s : State) : State :=
  let f := s.frc.toNat
  let try' (s : State) (lat : Nat) (ok : Nat → Bool) : State :=
    let k := (f - lat) / 64
    if decide (lat ≤ f) && (f - lat) % 64 == 0 && ok k && !s.trgDone k then s.decideTick k else s
  let s1 := match s.trg.old with | some o => try' s o.lat (· < o.upTo) | none => s
  try' s1 s.trgLat fun k => (s.oldFor k).isNone

/-- The meaning of TRG_DECISION. -/
def execTrgDecision (s : State) : Out := .next (trgDecision s)

/-- TRIG_OUT_PULSE_END: a pulse whose WIDTH cycles have passed is over (R259). -/
def trigOutPulseEnd (m : Nat) (s : State) : State :=
  let left := (mget (fun _ => []) s.trg.pulses m).filter fun p => decide (s.cyc < p.2)
  { s with trg := { s.trg with pulses := mput (fun _ => []) s.trg.pulses m left } }

/-- The meaning of TRIG_OUT_PULSE_END. -/
def execTrigOutPulseEnd (out : Nat) (s : State) : Out := .next (s.when (decide (out < 4)) (trigOutPulseEnd out s))

/-- The 32 bytes of a trigger record (R258). -/
def Firing.bytes (f : Firing) : List Byte :=
  body32 (leBytes 8 (f.tag.tick % 2 ^ 58) ++ leBytes 2 f.tag.offset ++ leBytes 1 f.tag.frac ++ leBytes 1 f.tu ++ leBytes 1 f.tag.ch
    ++ leBytes 1 f.source ++ leBytes 1 f.flags ++ leBytes 1 (f.epoch % 16)
    ++ leBytes 8 (match f.record with | some n => n | none => 2 ^ 64 - 1) ++ leBytes 4 f.count)

/-- TRIGGER_RECORD_POST: the oldest firing's record goes to the queue of TRG.CTRL.CQ; its entry carries the tick in which the unit
fired (R37, R258). -/
def triggerRecordPost (s : State) : State :=
  match s.trg.firings with
  | [] => s
  | f :: fs => { s with trg := { s.trg with firings := fs } }.event (s.getF trgCtrl_Cq) 0x10 1 f.fired f.bytes

/-- The meaning of TRIGGER_RECORD_POST. -/
def execTriggerRecordPost (s : State) : Out := .next (triggerRecordPost s)

/-! ### Commit (R257) -/

/-- The registers with a pending and an active copy. -/
def twoCopies : List Nat :=
  (List.range 32).map trgSdThresh ++ (List.range 8).flatMap fun u =>
    [trgTuCfg u, trgTuMaskaLo u, trgTuMaskaHi u, trgTuMaskbLo u, trgTuMaskbHi u, trgTuTiming u]

/-- TRG_COMMIT: a device tick of the next 2^23 is named; refused below the current tick plus 2 and while a commit is pending. -/
def trgCommit' (value : W32) (s : State) : State :=
  let d := (value.toNat % 2 ^ 24 + 2 ^ 24 - s.tick % 2 ^ 24) % 2 ^ 24
  if s.trg.commitAt.isSome || decide (d < 2 ∨ 2 ^ 23 ≤ d) then s.refuse trgCommit
  else { s with trg := { s.trg with commitAt := some (s.tick + d) } }.setF trgStatus_CommitPending 1

/-- The meaning of TRG_COMMIT. -/
def execTrgCommit (value : W32) (s : State) : Out := .next (trgCommit' value s)

/-- The active copies take the pending ones. -/
def State.takePending (s : State) : List Nat → State
  | [] => s
  | o :: os =>
    { s with trg := { s.trg with active := mput (resetWord s.part) s.trg.active o (s.word o) } }.takePending os

/-- COMMIT_APPLY: the decision of the tick before the commit's is over. -/
def commitApply (s : State) : State :=
  match s.trg.commitAt with
  | none => s
  | some t =>
    if t ≤ s.trg.next ∨ 64 * (t - 1) + s.trgLd (t - 1) < s.frc.toNat then
      let s1 := (s.takePending twoCopies).setF trgStatus_CommitPending 0
      { s1 with trg := { s1.trg with commitAt := none } }
    else s

/-- The meaning of COMMIT_APPLY. -/
def execCommitApply (s : State) : Out := .next (commitApply s)

/-! ### Pools (R270 to R275) -/

/-- The 64 bytes of a record descriptor (R272). -/
def State.recBytes (s : State) (c : Nat) (d : DoneRec) : List Byte :=
  let x := d.capt
  let ring := s.ringSize c
  let st := x.start.getD d.stop
  (leBytes 8 x.record ++ leBytes 8 x.tag.tick ++ leBytes 2 x.tag.offset ++ leBytes 1 x.tag.frac ++ leBytes 1 x.tu ++ leBytes 1 x.flags
    ++ leBytes 1 (x.epoch % 16) ++ leBytes 2 0 ++ leBytes 8 (4096 * s.getF (trgPoolRingBase_Addr c) + st % ring)
    ++ leBytes 8 (d.stop - st) ++ leBytes 8 x.firstTick ++ leBytes 4 x.pre ++ leBytes 4 x.post ++ leBytes 4 d.written ++ leBytes 4 0)

/-- A finished record's descriptor and event are written (R272). -/
def State.recordDone (s : State) (c : Nat) (d : DoneRec) : State :=
  let n := s.getF (trgPoolTblSize_Entries c)
  let at' := 64 * s.getF (trgPoolTblBase_Addr c) + 64 * (d.capt.record % n)
  (s.hbmWrite 0 0x1FF at' (s.recBytes c d) false).event (s.getF (trgPoolCtrl_Cq c)) 0x11 2 d.capt.tag.tick
    (body32 (leBytes 8 d.capt.record ++ leBytes 8 at' ++ leBytes 1 c ++ leBytes 1 d.capt.flags))

/-- RECORD_COMPLETE: the bytes of the oldest finished record are in HBM. -/
def recordComplete (c : Nat) (s : State) : State :=
  let p := s.pool c
  match p.finished with
  | [] => s
  | d :: ds => if d.stop ≤ p.pos - p.wbuf.length then (s.setPool c { p with finished := ds }).recordDone c d else s

/-- The meaning of RECORD_COMPLETE. -/
def execRecordComplete (pool : Nat) (s : State) : Out := .next (s.when (decide (pool < 16)) (recordComplete pool s))

/-- ACQ_WRITE_RESUME: there is room for OVERFLOW, TICK and HOLD; writing resumes with the next device tick (R274). -/
def acqWriteResume (c : Nat) (s : State) : State :=
  let p := s.pool c
  if p.stopped.isSome && p.room (s.ringSize c) 12 then s.setPool c { p with resume := true } else s

/-- The meaning of ACQ_WRITE_RESUME. -/
def execAcqWriteResume (pool : Nat) (s : State) : Out := .next (s.when (decide (pool < 16)) (acqWriteResume pool s))

/-- POOL_RELEASE_WRITE: records below n are released; refused below the current value, above NEXT, and above a record that is
still capturing (R273). -/
def poolReleaseWrite (c : Nat) (value : W64) (s : State) : State :=
  let n := value.toNat
  let p := s.pool c
  if decide (n < s.getF (trgPoolRelease_Record c) ∨ s.getF (trgPoolNext_Record c) < n)
      || (match p.capt with | some x => decide (x.record < n) | none => false) then s.refuse (trgPoolRelease c)
  else (s.setF (trgPoolRelease_Record c) n).setPool c { p with kept := p.kept.filter fun k => decide (n ≤ k.1) }

/-- The meaning of POOL_RELEASE_WRITE. -/
def execPoolReleaseWrite (pool : Nat) (value : W64) (s : State) : Out :=
  .next (s.when (decide (pool < 16)) (poolReleaseWrite pool value s))

/-- POOL_CTRL_WRITE: EN stops or starts the pool at the next tick boundary; the other fields are writable while EN is 0, and EN is
refused with a RING_SIZE of 0 (R275). -/
def poolCtrlWrite (c : Nat) (value : W32) (s : State) : State :=
  let v := value.toNat
  let on := s.flag (trgPoolCtrl_En c)
  let s1 := ((s.setIf (!on) (trgPoolCtrl_Cq c) (bitsAt v 24 4)).setIf (!on) (trgPoolCtrl_TuMask c) (bitsAt v 16 8)).setIf (!on)
    (trgPoolCtrl_Deadband c) (bitsAt v 0 16)
  if v.testBit 31 == on then s1
  else if on then
    let s2 := s1.setF (trgPoolCtrl_En c) 0
    let p := s2.pool c
    s2.setPool c { p with startAt := none, stopAt := if p.on then some (s.tick + 1) else none }
  else if s.getF (trgPoolRingSize_Size c) = 0 then s1.refuse (trgPoolCtrl c)
  else
    let s2 := s1.setF (trgPoolCtrl_En c) 1
    s2.setPool c { s2.pool c with startAt := some (s.tick + 1) }

/-- The meaning of POOL_CTRL_WRITE. -/
def execPoolCtrlWrite (pool : Nat) (value : W32) (s : State) : Out :=
  .next (s.when (decide (pool < 16)) (poolCtrlWrite pool value s))

/-- The finished records of a pool, oldest first. -/
def State.recordsDone (s : State) (c : Nat) : List DoneRec → State
  | [] => s
  | d :: ds => (s.recordDone c d).recordsDone c ds

/-- POOL_STOP: at the boundary the record being captured ends with DISARMED; what the pool has written reaches HBM, and its
descriptors and events are written (R275). -/
def poolStop (c : Nat) (s : State) : State :=
  let p := s.pool c
  match p.stopAt with
  | none => s
  | some b =>
    if s.tick < b then s
    else
      let q := { (p.closeGap (s.ringSize c)).endRec 32 with on := false, stopAt := none }
      let s1 := (s.poolPut c q).acqDrain c q.wbuf.length
      (s1.setPool c { s1.pool c with finished := [] }).recordsDone c q.finished

/-- The meaning of POOL_STOP. -/
def execPoolStop (pool : Nat) (s : State) : Out := .next (s.when (decide (pool < 16)) (poolStop pool s))

/-- A pool as it starts: its stream begins with BREAK cause 3 (R275). -/
def Pool.started (ring : Nat) : Pool := ({ Pool.init with on := true } : Pool).putBreak ring 3

/-- POOL_START: at the boundary the pool starts with BREAK cause 3, RECORD and RELEASE at 0 (R275). -/
def poolStart (c : Nat) (s : State) : State :=
  let p := s.pool c
  match p.startAt with
  | none => s
  | some b =>
    if s.tick < b ∨ p.stopAt.isSome then s
    else
      ((s.setPool c (Pool.started (s.ringSize c))).setF (trgPoolNext_Record c) 0).setF (trgPoolRelease_Record c) 0

/-- The meaning of POOL_START. -/
def execPoolStart (pool : Nat) (s : State) : Out := .next (s.when (decide (pool < 16)) (poolStart pool s))

end Sys2Proof.Machine
end

