-- ==== Sys2Proof/Machine/LoadOps.lean ====
section
/-!
DEFINITION. Operations of the loader: reading and checking an image, and what a load writes into the Hearth, the shadow copies and
the registers (R195, R202 to R212, R276, R332, R422).
-/
namespace Sys2Proof.Machine

/-! ### Reading (R196, R207, R422) -/

/-- The plain image with its signature block that an image buffer holds, and whether it came in an envelope; none where the
envelope fails (R422), as it does with the key registers of a stopped Firebox zeroed (R413; log entry 99). -/
def Sec.openImage (c : Sec) (d : List Byte) : Option (List Byte × Bool) :=
  if dfield d 0 4 ≠ 0x4E454C44 then some (d, false)
  else
    let n := dfield d 8 8
    let head := d.take 64
    let key := sha256 (kemDecaps c.kemKeys ((d.drop 64).take 1568) ++ head)
    if c.stopped = false ∧ dfield d 4 2 = 1 ∧ allZero ((d.drop 6).take 2) ∧ allZero ((d.drop 60).take 4) ∧ allZero ((d.drop 1648).take 16)
        ∧ (d.drop 16).take 32 = c.deviceIdBytes ∧ 1664 + n ≤ d.length then
      (gcmOpen key ((d.drop 48).take 12) head ((d.drop 1664).take n) ((d.drop 1632).take 16)).map fun p => (p, true)
    else none

/-- A plain image's signature passes: its block stands at LENGTH rounded up to a multiple of 64, inside the buffer (R196, R211). A
stopped Firebox verifies nothing (R413; log entry 99). -/
def Sec.imageSigned (c : Sec) (p : List Byte) : Bool :=
  let len := dfield p 8 8
  let at' := (len + 63) / 64 * 64
  !c.stopped && decide (at' + 128 ≤ p.length) && c.sbOk (p.drop at') (sha256 (p.take len))

/-- What the first pass finds: an image, or the failed check (R211). The section of a verdict is an index here. -/
def State.checkImage (s : State) (buf place : List Byte) (full : Bool) : Except Verdict Image :=
  match s.sec.openImage buf with
  | none => .error (Verdict.plain 0x03 0xFF)
  | some (p, enc) =>
    if !s.sec.imageSigned p then .error (Verdict.plain 0x02 0xFF)
    else match parseImage p enc (dfield place 0 1) with
      | .error k => .error (Verdict.plain 0x01 k)
      | .ok i => match s.imageFail i place full with
        | some v => .error { v with sect := sectIndex i.sects v.sect }
        | none => .ok i

/-- The second pass reads the image again: an envelope that fails now ends with 0x03 (R422), and an image whose digest differs from the
first with 0x05 (R207). -/
def State.rereadImage (s : State) (buf place : List Byte) (first : ImgInfo) : Except Nat Image :=
  match s.sec.openImage buf with
  | none => .error (if first.encrypted then 0x03 else 0x05)
  | some (p, enc) => match parseImage p enc (dfield place 0 1) with
    | .error _ => .error 0x05
    | .ok i => if i.info.digest = first.digest then .ok i else .error 0x05

/-- The plain image that an image buffer gives whether or not its envelope passes: what the second pass has written before the end of
the buffer shows that it fails (R210, R422). -/
def Sec.plainImage (c : Sec) (d : List Byte) : List Byte × Bool :=
  match c.openImage d with
  | some r => r
  | none =>
    let head := d.take 64
    let key := sha256 (kemDecaps c.kemKeys ((d.drop 64).take 1568) ++ head)
    (gcmCrypt (aesKeys key) ((d.drop 48).take 12) ((d.drop 1664).take (dfield d 8 8)), true)

/-- The image buffer and the placement record of a LOAD_IMAGE descriptor: their bytes, whether a word was poisoned, and whether the
bus refused an access. No rule refuses a placement record for a nonzero reserved byte, a PLACE_BASE above 24 or an HBM_BASE that is not
4 KiB aligned, and the model takes it as it is (DESIGN CHOICE, log entry 93). -/
def State.loadBytes (s : State) (desc : List Byte) : State × List Byte × List Byte × Bool × Bool :=
  let a := s.awRead 6 (dfield desc 24 8) 80
  let b := a.1.awRead 6 (dfield desc 8 8) (dfield desc 16 8)
  (b.1, b.2.1, a.2.1, a.2.2.1 || b.2.2.1, a.2.2.2 || b.2.2.2)

/-! ### Registers of an image -/

/-- The GLB, PWR and TRG registers that show the image in force. -/
def isImageReg (off : Nat) : Bool :=
  decide (glbHotSched ≤ off ∧ off < glbImgState) || off == glbPlaceMap || decide (glbImgDigest 0 ≤ off ∧ off < glbSettle + 4)
    || off == glbReproChk || off == pwrHotCeil

/-- A SHA-256 digest in eight words. -/
def State.setDigest (s : State) (off : Nat) (d : BitVec 256) : State := s.setWords off (words8 d)

/-- POOL.CAP of every pool. -/
def State.setCaps (s : State) (caps : List Nat) : State :=
  (List.range 16).foldl (fun s c => s.setF (trgPoolCap_E c) (listGet 0 caps c)) s

/-- The digest points of a new image: a warm point keeps its history until a RUN of its graph starts (R341). The warm point of the
new image that has the same number takes it over (DESIGN CHOICE, log entry 114). -/
def keepWarmHist (old new : List DigPoint) : List DigPoint :=
  new.map fun p =>
    match if p.region = 1 then old.find? fun q => q.region == 1 && q.point == p.point else none with
    | some q => { p with hist := q.hist }
    | none => p

/-- The digest points whose warm histories the next image takes over: those of the image in force, or of the last one. -/
def Hearth.lastPoints (h : Hearth) : List DigPoint := match h.img with | some i => i.points | none => h.pastPoints

/-- No image is loaded and none is staged (R208, R210); warm digest histories stay (R341). -/
def State.unload (s : State) : State :=
  let s1 := { s with
    hearth := { s.hearth with img := none, staged := none, pastPoints := s.hearth.lastPoints }
    zl := { s.zl with bindings := [] } }
  (((s1.resetWords isImageReg).setF glbImgState_Loaded 0).setF glbImgState_Staged 0).setF glbImgState_StagedEpoch 0 |>.setCaps []

/-- The registers of an image in force, but for the epoch and T0 (R166, R202 to R206, R267, R332). -/
def State.showImage (s : State) (x : ImgInfo) (map : Nat) : State :=
  let s0 := s.resetWords isImageReg
  let s1 :=
    if x.h = 0 then s0
    else
      let a := (((s0.setF glbHotSched_Valid 1).setF glbHotSched_V x.v).setF glbHotSched_H x.h).setF glbHotSched_Plog x.plog
      let b := ((a.setF glbHotLat_L x.lat).setF glbHotLat_D x.d).setF glbHotLat_Span x.span
      (((b.setF glbLatInfo_Relays x.relays).setF glbLatInfo_V3pad x.v3pad).setF glbLatInfo_ReserveMin x.reserveMin).setF
        glbLatInfo_Compiled x.compiled
  let s2 := (((s1.setF glbPlaceMap_Map map).setDigest (glbImgDigest 0) x.digest).setF glbSettle_Settle x.settle).setF
    glbReproChk_ImgArithRev x.arith
  let s3 := s2.setF glbReproChk_Mismatch (b2n (x.arith != s2.getF glbReproSig_ArithRev))
  ((s3.setF pwrHotCeil_Watts x.ceilW).setF pwrHotCeil_Amps x.ceilA).setCaps x.caps

/-- The TRIGGER section: the "Image" registers, and both copies of the registers with two copies (R276). -/
def State.writeTrigger (s : State) : List (Nat × Nat) → State
  | [] => s
  | (o, v) :: es =>
    let off := 0x100000 + o
    let s1 := s.setWord off (BitVec.ofNat 32 v)
    let s2 := if off ∈ twoCopies then
        { s1 with trg := { s1.trg with active := mput (resetWord s1.part) s1.trg.active off (BitVec.ofNat 32 v) } }
      else s1
    s2.writeTrigger es

/-! ### Sites -/

/-- The physical courses of an image, as PLACE_MAP shows them. -/
def mapOf (vm : List Nat) : Nat := (vm.map fun p => 2 ^ p).sum

/-- The virtual sites of an image with their physical sites. -/
def siteList (vm : List Nat) : List (Nat × Nat × Nat) :=
  vm.zipIdx.flatMap fun p => (List.range 12).map fun c => (p.2, c, 12 * p.1 + c)

/-- The mode of a site's unit in an image. -/
def ImgInfo.mode (x : ImgInfo) (v c : Nat) : Nat := listGet 0 (listGet [] x.grid v) c

/-- The mode of the grates of a course: its region (R204). -/
def ImgInfo.region (x : ImgInfo) (v : Nat) : Nat := if v < x.h then 1 else 2

/-- The modes of the sites and grates of an image. -/
def State.setModes (s : State) (x : ImgInfo) : List (Nat × Nat × Nat) → State
  | [] => s
  | (v, c, u) :: r => ((s.setF (hrtUnitCfg_Mode u) (x.mode v c)).setF (grCfg_Mode u) (x.region v)).setModes x r

/-- Every other enabled course relays, and its units are unused (R202). -/
def State.setRelays (s : State) : List Nat → State
  | [] => s
  | u :: us => ((s.setF (hrtUnitCfg_Mode u) 0).setF (grCfg_Mode u) 3).setRelays us

/-- The enabled sites that an image does not map. -/
def State.unmapped (s : State) (vm : List Nat) : List Nat :=
  (List.range 300).filter fun u => !s.courseOff (courseOf u) && !vm.contains (courseOf u)

/-- The statistics of an entry at an epoch start: an empty window, no scale that waits, and the last closed window of the epoch before
with VALID 0 (R189, R194). -/
def Rqt.start (r : Rqt) : Rqt := ⟨Win.empty, { r.closed with flags := r.closed.flags % 32 }, none⟩

/-- The statistics of every entry at an epoch start. -/
def startRqts (m : SMap Rqt) : SMap Rqt :=
  m.filterMap fun e => if e.2.start = Rqt.init then none else some (e.1, e.2.start)

/-- The units of a FULL load cleared. The statistics that R194 keeps over the epoch start are no state that R208 zeroes (DEDUCED, log
entry 113). -/
def keepRqts (mapped : Nat → Bool) (m : SMap HUnit) : SMap HUnit :=
  m.filterMap fun e =>
    if mapped e.1 then
      let x : HUnit := { HUnit.init with rqts := startRqts e.2.rqts }
      if x = HUnit.init then none else some (e.1, x)
    else some e

/-- Step 3 of a FULL load: modes, and all state of every mapped site 0 but for the statistics of R194; nothing is loaded any more
(R208). -/
def State.clearHearth (s : State) (x : ImgInfo) (vm : List Nat) : State :=
  let keep {α : Type} (m : SMap α) : SMap α := m.filter fun e => !vm.contains (courseOf e.1)
  let s1 := ((s.setRelays (s.unmapped vm)).setModes x (siteList vm)).unload
  { s1 with hearth :=
      { s1.hearth with
        units := keepRqts (fun u => vm.contains (courseOf u)) s1.hearth.units
        grates := keep s1.hearth.grates
        edges := []
        present := []
        flights := []
        credits := []
        banks := []
        vwrites := [] } }

/-- The queues of a grate at the start of an epoch: empty, with the credits of their words at the senders (R133). -/
def Grate.startQueues (g : Grate) (epoch : Nat) : Grate :=
  { g with queues := (List.range 13).foldl (fun m q =>
      let c := if (4 ≤ q ∧ q < 8) ∨ 11 ≤ q then qwInit (g.qWord q) else 0
      mput (fun _ => Queue.init) m q ⟨[], epoch, 0, c, none⟩) [] }

/-- The configuration registers of a site in an epoch. -/
def State.cfgSite (s : State) (x : ImgInfo) (epoch v c u : Nat) : State :=
  let s1 := ((s.setF (hrtUnitCfg_Mode u) (x.mode v c)).setF (hrtUnitCfg_Plog u) x.plog).setF (hrtUnitCfg_Plen u)
    (listGet 0 x.plens (12 * v + c))
  let s2 := (s1.setF (hrtUnitCfg_Epoch u) epoch).setF (hrtLatPad_V3pad u) (if isMu c then 0 else x.v3pad)
  ((s2.setF (grCfg_Mode u) (x.region v)).setF (grCfg_Plog u) x.plog).setF (grCfg_Epoch u) epoch

/-- An edge port at the start of an epoch with its words: both queues empty. -/
def EdgePort.start (e : EdgePort) (epoch : Nat) : EdgePort :=
  { e with tx := ⟨[], epoch, 0, qwInit e.txWord, none⟩, rx := ⟨[], epoch, 0, qwInit e.rxWord, none⟩ }

/-- EDGE entries as a table. -/
def edgeTab (es : List Nat) : SMap Nat := es.zipIdx.foldl (fun m e => mput (fun _ => 0) m e.2 e.1) []

/-- The EDGE entries of a port of an image, and its two queue words. -/
def Image.edgeEntries (i : Image) (kind index : Nat) : SMap Nat :=
  match i.edges.find? fun e => e.kind == kind && e.index == index with
  | some e => edgeTab e.entries
  | none => []

/-- The edge ports of an image: kind, index and key (R114). -/
def Image.edgeKeys (i : Image) (vm : List Nat) : List (Nat × Nat × Nat) :=
  (vm.zipIdx.flatMap fun p =>
    if p.2 < i.info.h then [(0, p.2, edgeIngest p.1), (1, p.2, edgeTrg p.1)] else [(2, p.2, edgeWest p.1), (3, p.2, edgeEast p.1)])
    ++ (List.range 24).map fun x => (4, x, edgeCross x)

/-- The edge ports written and started. -/
def State.writeEdges (s : State) (i : Image) (epoch : Nat) : List (Nat × Nat × Nat) → State
  | [] => s
  | (k, x, key) :: r =>
    let e : EdgePort := { EdgePort.init with edge := i.edgeEntries k x, txWord := i.edgeWordOf k x true, rxWord := i.edgeWordOf k x false }
    (s.setEdge key (e.start epoch)).writeEdges i epoch r

/-- The mapped sites written: units with their published scales, and grates with shifted entries. -/
def State.writeSites (s : State) (i : Image) (x : ImgInfo) (mv : List (Hop × Nat)) (epoch : Nat) : List (Nat × Nat × Nat) → State
  | [] => s
  | (v, c, u) :: r =>
    let n : HUnit := { i.unitOf v c with rqts := (s.unit u).rqts }
    let s1 := (s.setUnit u (if isMu c then n else n.publish)).setGrate u ((i.shifted mv v c).startQueues epoch)
    (s1.cfgSite x epoch v c u).writeSites i x mv epoch r

/-- What the loader adds to an image's figures for this part: RELAYS, RESERVE_MIN, V3PAD, PLEN and E_c. -/
def State.figures (s : State) (i : Image) (vm : List Nat) (place : List Byte) : ImgInfo :=
  let f := s.relayFigures i vm place
  { i.info with
    relays := f.1
    reserveMin := f.2
    v3pad := (s.v3diff i).toNat % 4
    plens := i.sites.map fun p => i.plen p.1 p.2
    caps := (List.range 16).map (capElems i.edges (2 ^ i.info.plog)) }

/-- The links under the bindings of an epoch that begins: SEQ restarts, so that each receive port expects 0 (R119, R349). -/
def Zl.rebind (z : Zl) (bs : List Binding) : Zl :=
  { z with
    bindings := bs
    links := z.links.filterMap fun e =>
      let l : ZlLink := { e.2 with rxSeq := [] }
      if l = ZlLink.init then none else some (e.1, l) }

/-- HBMDATA copied to HBM_BASE (R198, R207). -/
def State.copyHbm (s : State) (i : Image) (place : List Byte) : State :=
  if i.hbm = [] then s else s.hbmWrite 6 0x1FF (dfield place 8 8 % 2 ^ 40) i.hbm false

/-- The second pass of a FULL load: the whole image is written and in force under its epoch (R208). -/
def State.writeFull (s : State) (i : Image) (place : List Byte) (epoch : Nat) : State :=
  let vm := s.vmap i.info.base i.info.v
  let x := s.figures i vm place
  let s1 := s.writeSites i x (i.moves vm) epoch (siteList vm)
  let s2 := s1.writeEdges i epoch (i.edgeKeys vm)
  let s3 := s2.copyHbm i place
  let s4 := (s3.showImage x (mapOf vm)).writeTrigger x.trigger
  let s5 := (s4.setF glbImgState_Epoch epoch).setF glbImgState_Loaded 1
  let s6 := if x.h = 0 then s5 else s5.setF glbHotSched_Epoch epoch
  { s6 with
    hearth :=
      { s6.hearth with
        img := some { x with points := keepWarmHist s6.hearth.lastPoints x.points }
        staged := none
        load := none
        pastPoints := [] }
    trg := { s6.trg with tus := [] }
    zl := s6.zl.rebind x.cross }

/-- A tick index moved on by the distance from one tick to another, modulo 2^58. -/
def movedTick (t from' to' : Nat) : Nat := (((t : Int) + to' - from') % (2 ^ 58 : Nat)).toNat

/-- T0 of an epoch, in the table and in HOT_T0 (R151). -/
def State.setT0 (s : State) (epoch t0 : Nat) : State :=
  let s1 := { s with hearth := { s.hearth with t0s := mput (fun _ => 0) s.hearth.t0s epoch (t0 % 2 ^ 58) } }
  if s1.flag glbHotSched_Valid then s1.setF glbHotT0_T0 t0 else s1

/-! ### Staging (R209) -/

/-- A table that a STAGE load writes live: the VRF of a CU and the SRAM of an MU. -/
def liveTable (t : Nat) : Bool := t == 1

/-- A unit with the live writes of an image's records. -/
def HUnit.liveWrites (u : HUnit) (mu : Bool) (rs : List TRec) : HUnit :=
  (rs.filter fun t => liveTable t.table).foldl (fun x t => x.writeEntries mu t.table t.index t.entries) u

/-- The shadow copies of the sites, and the live writes. -/
def State.stageSites (s : State) (i : Image) (mv : List (Hop × Nat)) : List (Nat × Nat × Nat) → State
  | [] => s
  | (v, c, u) :: r =>
    let n := i.unitOf v c
    let old := (s.unit u).liveWrites (isMu c) (i.recsOf 0 v c)
    let s1 := s.setUnit u { old with shadow := (n.tab.filter fun e => decide (e.1 / 2 ^ 17 ≠ 1)).map fun e => (e.1, some e.2) }
    (s1.setGrate u { s1.grate u with shadow := (i.shifted mv v c).tab }).stageSites i mv r

/-- The shadow copies of the edge ports. -/
def State.stageEdges (s : State) (i : Image) : List (Nat × Nat × Nat) → State
  | [] => s
  | (k, x, key) :: r =>
    (s.setEdge key { s.edge key with
      edgeShadow := i.edgeEntries k x, txShadow := i.edgeWordOf k x true, rxShadow := i.edgeWordOf k x false }).stageEdges i r

/-- The first n live entries of an image written, those of the running footprint left out: what a STAGE load that ends in its second
pass leaves (R210). -/
def State.leaveLive (s : State) (o : ImgInfo) (i : Image) : Nat → List TRec → State
  | _, [] => s
  | n, t :: ts =>
    if t.target ≠ 0 ∨ liveTable t.table = false ∨ o.inFootprint t then s.leaveLive o i n ts
    else
      let u := 12 * phys (s.vmap i.info.base i.info.v) t.v + t.col
      (s.setUnit u ((s.unit u).liveWrites (isMu t.col) [{ t with entries := t.entries.take n }])).leaveLive o i
        (n - t.entries.length) ts

/-- The second pass of a STAGE load: the staged image is complete, and its HBMDATA copied (R207, R209). -/
def State.writeStage (s : State) (i : Image) (place : List Byte) : State :=
  let vm := s.vmap i.info.base i.info.v
  let x := s.figures i vm place
  let s1 := (s.stageSites i (i.moves vm) (siteList vm)).stageEdges i (i.edgeKeys vm)
  let s2 := (s1.setF glbImgState_Staged 1).setF glbImgState_StagedEpoch ((s1.getF glbImgState_Epoch + 1) % 16)
  let s3 := (s2.copyHbm i place).setDigest (glbStagedDigest 0) x.digest
  { s3 with hearth := { s3.hearth with staged := some x, load := none } }

/-- Every shadow copy is discarded (R210). -/
def State.dropShadows (s : State) : State :=
  { s with hearth :=
      { s.hearth with
        units := s.hearth.units.filterMap fun e =>
          let x : HUnit := { e.2 with shadow := [] }
          if x = HUnit.init then none else some (e.1, x)
        grates := s.hearth.grates.filterMap fun e =>
          let x : Grate := { e.2 with shadow := [] }
          if x = Grate.init then none else some (e.1, x)
        edges := s.hearth.edges.filterMap fun e =>
          let x : EdgePort := { e.2 with edgeShadow := [], txShadow := 0, rxShadow := 0 }
          if x = EdgePort.init then none else some (e.1, x) } }

/-! ### RUNs that a halt ends (R208, R315, R401) -/

/-- The RESULT of a RUN: choices and tokens written. -/
def Run.result (r : Run) : Nat := r.choices % 2 ^ 32 + r.written % 2 ^ 32 * 2 ^ 32

/-- The courses of a graph, virtual. -/
def GraphEnt.vcourses (g : GraphEnt) : List Nat :=
  (List.range (g.courses * g.replicas)).map (g.first + ·)
    ++ match g.comb with | some c => (List.range g.combCourses).map (c + ·) | none => []

/-- The warm units of a graph. -/
def State.graphUnits (s : State) (g : GraphEnt) : List Nat :=
  g.vcourses.flatMap fun v => (List.range 12).map fun c => 12 * listGet 25 s.courses v + c

/-- The units of a graph stop issuing. -/
def State.stopUnits (s : State) : List Nat → State
  | [] => s
  | u :: us => (if (s.unit u).graphOn then s.setUnit u { s.unit u with graphOn := false } else s).stopUnits us

/-- Descriptors complete with ABORTED and nothing written. -/
def State.abortTags (s : State) : List Nat → State
  | [] => s
  | t :: ts => (s.complete t stAborted 0).abortTags ts

/-- RUN descriptors that have not begun. -/
def Stk.runsWaiting (k : Stk) : List Nat :=
  (k.flights.filter fun f => dOp f.bytes == 0x03 && !f.begun && !f.ended).map Fly.tag

/-- Every RUN in flight completes with ABORTED, and its units stop; one that has not begun has written nothing (R208, R315, R401). -/
def State.abortRuns (s : State) : List Run → State
  | [] => { s with stk := { s.stk with runs := [] } }.abortTags s.stk.runsWaiting
  | r :: rs => ((s.stopUnits (s.graphUnits r.graph)).complete r.tag stAborted r.result).abortRuns rs

end Sys2Proof.Machine
end

