-- ==== Sys2Proof/Machine/CfgNet.lean ====
section
/-!
DEFINITION. The configuration network: what a site does with a slot-63 token (R139, R140, R217, R222, R223).
-/
namespace Sys2Proof.Machine

/-- The payload of a configuration token (R222). -/
structure CfgTok where
  op : Nat
  column : Nat
  target : Nat
  table : Nat
  epoch : Nat
  index : Nat
  data : BitVec 256
  deriving DecidableEq, Repr

/-- The fields of a payload. -/
def CfgTok.ofBits (t : BitVec 512) : CfgTok :=
  let n := t.toNat
  ⟨bitsAt n 508 4, bitsAt n 504 4, bitsAt n 502 2, bitsAt n 499 3, bitsAt n 495 4, bitsAt n 478 17, BitVec.ofNat 256 (bitsAt n 0 256)⟩

/-- A token's epoch is the one in force, or the staged one: that of a staged image until the hot switch makes it the one in force, or of
the image that the second pass of a STAGE load writes (R212, R222). -/
def State.cfgEpoch (s : State) (e : Nat) : Bool :=
  let now := s.getF glbImgState_Epoch
  let staging := match s.hearth.load with | some l => !l.full && l.pass == 3 | none => false
  e == now || ((s.hearth.staged.isSome || staging) && e == (now + 1) % 16)

/-- The configuration network moves tokens in this cycle: in slot 63 while the Hearth runs, and in every slot while it is halted
(R140). -/
def State.cfgSlot (s : State) : Bool := !s.running || s.cycle == 63

/-- A token addressed to a site of an enabled course: it waits for its slot, and at the injector for one of the site's 16 credits (R139);
an unlisted OP or TARGET or a foreign epoch is discarded and counted; a token of the command's OP acts (R222). -/
def State.cfgToken (s : State) (course : Nat) (token : BitVec 512) (op : Nat) (act : CfgTok → Nat → State) : State :=
  let t := CfgTok.ofBits token
  let u := 12 * course + t.column
  if !(decide (course < 25) && decide (t.column < 12)) || s.courseOff course || !s.cfgSlot || decide (16 ≤ (s.grate u).cfgOut) then s
  else if decide (6 < t.op) || t.target == 3 || !s.cfgEpoch t.epoch then s.illegal u
  else if t.op = op then act t u
  else s

/-- The edge port of a course that an INDEX names, and whether its receive word is meant: crossing ports 0 to 23, then the port at the
west edge of the course, ingest or stream, and the one at its east edge, TRG and ACQ or stream (R146; log entry 23). -/
def State.cfgEdge (s : State) (course index : Nat) : Nat × Bool :=
  let k := index / 2
  let hot := s.grMode (12 * course) == 1
  (if k < 24 then edgeCross k
    else if k = 24 then (if hot then edgeIngest course else edgeWest course)
    else if hot then edgeTrg course else edgeEast course, index % 2 == 1)

/-- The entry that a token names exists at its target. -/
def cfgEntryOk (t : CfgTok) (u : Nat) : Bool :=
  if t.target = 0 then decide (t.index < tableSize (isMu u) t.table)
  else if t.target = 1 then grPiece u t.table t.index
  else t.target == 2 && t.table == 2 && decide (t.index < 52)

/-- A write that names no entry is refused in the window of its site, as a WRITE of TBL_CMD is (R145, R488). -/
def State.cfgRefuse (s : State) (t : CfgTok) (u : Nat) : State :=
  if t.target = 0 then s.raise (hrtUnitStatus_WrRefused u) else s.raise (grStatus_WrRefused u)

/-- An entry into the shadow copy of a unit, a grate or an edge port. -/
def State.shadowPut (s : State) (course : Nat) (t : CfgTok) (u : Nat) : State :=
  if !cfgEntryOk t u then s.cfgRefuse t u
  else if t.target = 0 then
    let x := s.unit u
    s.setUnit u { x with shadow := mput (fun _ => none) x.shadow (t.table * 2 ^ 17 + t.index) (some t.data) }
  else if t.target = 1 then
    let g := s.grate u
    s.setGrate u { g with shadow := mput (fun _ => 0) g.shadow (t.table * 1024 + t.index) t.data }
  else
    let k := s.cfgEdge course t.index
    let e := s.edge k.1
    let w := bitsAt t.data.toNat 0 32
    s.setEdge k.1 (if k.2 then { e with rxShadow := w } else { e with txShadow := w })

/-- SHADOW_WRITE (R223). -/
def shadowWrite (course : Nat) (token : BitVec 512) (s : State) : State := s.cfgToken course token 1 fun t u => s.shadowPut course t u

/-- The meaning of SHADOW_WRITE. -/
def execShadowWrite (course : Nat) (token : BitVec 512) (s : State) : Out := .next (shadowWrite course token s)

/-- An entry into the active copy of a unit, a grate or an edge port, as a WRITE of the same entry (R488). An RQT entry that R192 refuses
for a TBL_CMD write is stored unchecked here and in the shadow copy (DESIGN CHOICE, log entry 52). -/
def State.activePut (s : State) (course : Nat) (t : CfgTok) (u : Nat) : State :=
  if !cfgEntryOk t u then s.cfgRefuse t u
  else if t.target = 0 then s.setUnit u ((s.unit u).tblWrite (isMu u) t.table t.index t.data)
  else if t.target = 1 then
    let g := s.grate u
    s.setGrate u { g with tab := mput (fun _ => 0) g.tab (t.table * 1024 + t.index) t.data }
  else
    let k := s.cfgEdge course t.index
    let e := s.edge k.1
    let w := bitsAt t.data.toNat 0 32
    s.setEdge k.1 (if k.2 then { e with rxWord := w } else { e with txWord := w })

/-- A register of a CU is written through a VW port in this cycle. -/
def State.vrBusy (s : State) (u vr : Nat) : Bool := s.hearth.vwrites.any fun w => w.1 == u && w.2.1 == vr

/-- An entry written live. An entry of SRAM goes through the buffer of the MU, and one of the VRF waits in the CU while a VW port writes
that register; each holds its credit until it lands (R110, R139, R223). Every other entry is written at once (R488). -/
def State.livePut (s : State) (course : Nat) (t : CfgTok) (u : Nat) : State :=
  let x := s.unit u
  if t.target = 0 ∧ t.table = 1 ∧ cfgEntryOk t u = true ∧ (isMu u || s.vrBusy u (t.index / 16)) = true then
    let g := s.grate u
    (s.setUnit u { x with cfgBuf := x.cfgBuf ++ [(t.index, t.data)] }).setGrate u { g with cfgOut := g.cfgOut + 1 }
  else s.activePut course t u

/-- LIVE_WRITE (R223). -/
def liveWrite (course : Nat) (token : BitVec 512) (s : State) : State := s.cfgToken course token 2 fun t u => s.livePut course t u

/-- The meaning of LIVE_WRITE. -/
def execLiveWrite (course : Nat) (token : BitVec 512) (s : State) : Out := .next (liveWrite course token s)

/-- SCAN_REQ: while the Hearth is halted, the entry that the token names becomes scan data that its site has ready; the site's state
stays (R139, R223, R228). -/
def scanReq (course : Nat) (token : BitVec 512) (s : State) : State :=
  s.cfgToken course token 3 fun t u =>
    if s.running || !cfgEntryOk t u then s
    else { s with hearth := { s.hearth with scanReady := s.hearth.scanReady ++ [(u, t.target, t.table, t.index)] } }

/-- The meaning of SCAN_REQ. -/
def execScanReq (course : Nat) (token : BitVec 512) (s : State) : Out := .next (scanReq course token s)

/-- The entry of a site that scan data carry. -/
def State.scanEntry (s : State) (u target table index : Nat) : BitVec 256 :=
  if target = 0 then (s.unit u).tblRead (isMu u) table index
  else if target = 1 then mget (fun _ => 0) (s.grate u).tab (table * 1024 + index)
  else
    let k := s.cfgEdge (courseOf u) index
    BitVec.ofNat 256 (if k.2 then (s.edge k.1).rxWord else (s.edge k.1).txWord)

/-- A SCAN_DATA token in the layout of R222, of the site's epoch. -/
def State.scanToken (s : State) (u target table index : Nat) : BitVec 512 :=
  BitVec.ofNat 512 (4 * 2 ^ 508 + columnOf u * 2 ^ 504 + target % 4 * 2 ^ 502 + table % 8 * 2 ^ 499
    + s.getF (hrtUnitCfg_Epoch u) * 2 ^ 495 + index % 2 ^ 17 * 2 ^ 478 + (s.scanEntry u target table index).toNat)

/-- The first scan data that a course has ready: of its westernmost site, the oldest. -/
def State.scanFirst (s : State) (course : Nat) : Option (Nat × Nat × Nat × Nat) :=
  (List.range 12).findSome? fun c => s.hearth.scanReady.find? fun r => r.1 == 12 * course + c

/-- EMPTY: an empty token passes from west to east; the first unit that has scan data ready places it there, and the collector at the east
edge takes it (R139). Without scan data the token passes and changes nothing. -/
def cfgEmpty (course : Nat) (token : BitVec 512) (s : State) : State :=
  s.cfgToken course token 0 fun _ _ =>
    match s.scanFirst course with
    | none => s
    | some (u, target, table, index) =>
      { s with hearth :=
          { s.hearth with
            scanReady := dropFirst (fun r => r.1 == u) s.hearth.scanReady
            collected := mput (fun _ => 0) s.hearth.collected course (s.scanToken u target table index) } }

/-- The meaning of EMPTY. -/
def execCfgEmpty (course : Nat) (token : BitVec 512) (s : State) : Out := .next (cfgEmpty course token s)

/-- SCAN_DATA: while the Hearth is halted, its entry comes to the site (R223, R229). -/
def scanData (course : Nat) (token : BitVec 512) (s : State) : State :=
  s.cfgToken course token 4 fun t u => if s.running then s else s.activePut course t u

/-- The meaning of SCAN_DATA. -/
def execScanData (course : Nat) (token : BitVec 512) (s : State) : Out := .next (scanData course token s)

/-- MARK: a warm unit without input routes learns that its epoch ends, once the Stoker sends its MARKs (R217, R218). -/
def cfgMark (course : Nat) (token : BitVec 512) (s : State) : State :=
  s.cfgToken course token 5 fun _ u =>
    match s.hearth.swap with
    | some w => if w.marksSent && s.grMode u == 2 then s.setUnit u { s.unit u with netMark := true } else s
    | none => s

/-- The meaning of MARK. -/
def execCfgMark (course : Nat) (token : BitVec 512) (s : State) : Out := .next (cfgMark course token s)

/-- SHADOW_CLEAR: every shadow copy of the site is zero (R223). -/
def shadowClear (course : Nat) (token : BitVec 512) (s : State) : State :=
  s.cfgToken course token 6 fun _ u =>
    (s.setUnit u { s.unit u with shadow := [] }).setGrate u { s.grate u with shadow := [] }

/-- The meaning of SHADOW_CLEAR. -/
def execShadowClear (course : Nat) (token : BitVec 512) (s : State) : Out := .next (shadowClear course token s)

end Sys2Proof.Machine
end

