-- ==== Sys2Proof/Machine/Power.lean ====
section
/-!
DEFINITION. The commands of supplies, clocks, resets, the Damper, clock crossings and optical safety (R440 to R466, R479).
-/
namespace Sys2Proof.Machine

/-! ### Resets and release -/

/-- PERST_N_ASSERT: an assertion of 1 µs or more starts a chip reset (R440). -/
def perstAssert (ns : Nat) (s : State) : State :=
  if ns < 1000 then s else { s with pcie := { s.pcie with perst := true } }.chipReset none

/-- The meaning of PERST_N_ASSERT. -/
def execPerstAssert (ns : Nat) (s : State) : Out := .next (perstAssert ns s)

/-- PERST_N_DEASSERT: the power-up sequence may go on; EXTEST acts as BYPASS from here on (R441, R479). -/
def perstDeassert (s : State) : State := { s with pcie := { s.pcie with perst := false } }

/-- The meaning of PERST_N_DEASSERT. -/
def execPerstDeassert (s : State) : Out := .next (perstDeassert s)

/-- CHIP_RESET: the chip reset that a CHIP reaction without a pulse starts, or one from outside the Ashpit; a CHIP reaction
whose pulse still runs waits for its end (R397). -/
def chipResetCmd (s : State) : State :=
  match s.flt.chip with
  | some (n, waits) => if waits && (s.pulseDue || s.pulseOn) then s else s.chipReset (some n)
  | none => s.chipReset none

/-- The meaning of CHIP_RESET. -/
def execChipReset (s : State) : Out := .next (chipResetCmd s)

/-- CHIP_RESET_WRITE: a write of PWR.RESET_CTRL.CHIP starts a chip reset (R448's reset scopes). -/
def chipResetWrite (s : State) : State := s.chipReset none

/-- The meaning of CHIP_RESET_WRITE. -/
def execChipResetWrite (s : State) : Out := .next (chipResetWrite s)

/-- The meaning of POWER_ON_RESET (R449). -/
def execPowerOnReset (s : State) : Out := .next s.powerOn

/-- The FAILED bits of a training, each raising MEM_STACK_FAIL (R386). -/
def State.markFailed (s : State) (failed : BitVec 6) : List Nat → State
  | [] => s
  | i :: is =>
    let f := failed.toNat.testBit i
    let s1 := s.setF (memStackStatus_Failed i) (b2n f)
    (if f then s1.assertSrc (170 + i) (BitVec.ofNat 128 i) else s1).markFailed failed is

/-- The function becomes ready, and a Device Readiness Status message is sent (R441). -/
def Pcie.makeReady (p : Pcie) : Pcie := if p.ready then p else { p with ready := true, drs := p.drs + 1 }

/-- HBM_FILL_DONE: training and fill end. Where HBM was to be filled every sector is zero with zero check bits, a stack that
failed training is marked, and every MEM register holds its reset value; INIT_DONE is set. Hard faults stay (R377, R385 to R387, R448). -/
def hbmFillDone (failed : BitVec 6) (s : State) : State :=
  let s1 := if s.pwr.hbmLost then
      let z := s.resetWords fun off => decide (0x280000 ≤ off ∧ off < 0x300000)
      { z with mem := { Mem.reset with faults := z.mem.faults }, pwr := { z.pwr with hbmLost := false } }.markFailed failed (List.range 6)
    else s
  let s2 := s1.setF memStatus_InitDone 1
  if s2.sec.bootFailed then { s2 with pcie := s2.pcie.makeReady } else s2

/-- The meaning of HBM_FILL_DONE. -/
def execHbmFillDone (failed : BitVec 6) (s : State) : Out :=
  .next (s.when (!s.flag memStatus_InitDone && !s.pwr.ioLow) (hbmFillDone failed s))

/-- CORE_RELEASE: with the fill done and the firmware's signal the core is released; FRC reads 0, the Hearth is halted, every
transmitter is OFF and every allowance is 0, as the reset left them (R441, R447). Leak intervals count from here (R387). -/
def coreRelease (s : State) : State :=
  if s.flag memStatus_InitDone && s.sec.signalled && !s.pcie.perst && !s.pwr.ioLow && !s.pwr.released then
    { s with frc := 0, pwr := { s.pwr with released := true }, pcie := s.pcie.makeReady,
             mem := { s.mem with leakFrom := [] }, flt := { s.flt with hceFrom := 0 } }
  else s

/-- The meaning of CORE_RELEASE. -/
def execCoreRelease (s : State) : Out := .next (coreRelease s)

/-- The Data Link Layer goes down: host accesses behave as with bus mastering disabled, and LINK_LOST is set while PERST_N is
deasserted (R429). -/
def State.linkDown (s : State) : State :=
  let s1 := { s with pcie := { s.pcie with up := false } }.setF glbPcieStatus_LinkUp 0
  if s.pcie.perst then s1 else s1.raise glbPcieStatus_LinkLost

/-! ### Supplies (R444, R449) -/

/-- The source of a rail's monitor: VDD_SRAM, VDD_OPT, VDD_LASER and the HBM stacks, with rails numbered as PWR.RAILS. -/
def railSource (rail : Nat) : Option Nat :=
  if rail = 2 then some 5 else if rail = 5 then some 6 else if rail = 6 then some 7
  else if 7 ≤ rail ∧ rail < 13 then some (218 + (rail - 7)) else none

/-- RAIL_OUT_OF_TOLERANCE: the rail's action (R444, R445, R448, R449). -/
def railOutOfTolerance (rail : Nat) (high : Bool) (s : State) : State :=
  let s1 := s.setF ⟨pwrRails, rail, 1⟩ 0
  if rail = 0 then { s1 with pwr := { s1.pwr with ioLow := true } }.chipReset none
  else
    let s2 := if 7 ≤ rail then { s1 with pwr := { s1.pwr with hbmLost := true } } else s1
    if !s.pwr.released then s2
    else if rail = 1 then
      if high then s2.levelOn 4
      else { s2.levelOn 3 with pwr := { s2.pwr with coreLowFrom := some s.cyc } }
    else if rail = 3 ∨ rail = 4 then s2.linkDown
    else
      let s3 := match railSource rail with
        | none => s2
        | some n => s2.levelOn n
      if rail = 5 then s3.txSettleAll s3.txSafeNow (List.range 34) else s3

/-- The meaning of RAIL_OUT_OF_TOLERANCE. -/
def execRailOutOfTolerance (rail : Nat) (high : Bool) (s : State) : Out :=
  .next (s.when (decide (rail < 13)) (railOutOfTolerance rail high s))

/-- RAIL_RETURN: the rail is within tolerance, its source stops asserting, and a chip held by VDD_IO leaves its reset and boots
(R412, R444). -/
def railReturn (rail : Nat) (s : State) : State :=
  let s1 := s.setF ⟨pwrRails, rail, 1⟩ 1
  if rail = 0 then (if s.pwr.ioLow then { s1 with pwr := { s1.pwr with ioLow := false } }.fireboxBoot else s1)
  else if rail = 1 then
    { (s1.levelOff 3).levelOff 4 with pwr := { s1.pwr with coreLowFrom := none } }
  else
    let s2 := match railSource rail with
      | none => s1
      | some n => s1.levelOff n
    if rail = 5 then s2.txSettleAll s2.txSafeNow (List.range 34) else s2

/-- The meaning of RAIL_RETURN. -/
def execRailReturn (rail : Nat) (s : State) : Out := .next (s.when (decide (rail < 13)) (railReturn rail s))

/-! ### Clocks (R450, R451) -/

/-- PLL_UNLOCK: PLLs are numbered as PWR.PLL_STATUS, and 21 is the PCIe PLL. The core and Flue PLLs raise their sources, an
HBM PLL makes its stack failed, and the PCIe PLL takes the link down (R450). -/
def pllUnlock (pll : Nat) (s : State) : State :=
  if pll = 21 then s.linkDown
  else
    let s1 := s.setF ⟨pwrPllStatus, pll, 1⟩ 0
    if pll = 0 then s1.levelOn 10
    else if pll < 15 then s1.levelOn 11
    else s1.assertSrc (170 + (pll - 15)) (BitVec.ofNat 128 (pll - 15))

/-- The meaning of PLL_UNLOCK. -/
def execPllUnlock (pll : Nat) (s : State) : Out := .next (s.when (decide (pll < 22)) (pllUnlock pll s))

/-- The handshakes of a PLL's crossings that have not ended count from the cycle in which both clocks run (R462). -/
def State.syncAgain (s : State) (pll : Nat) : SMap Nat :=
  s.pwr.cdcSync.map fun e => if s.syncing e.1 && (pll == 0 || e.1 + 1 == pll) then (e.1, s.cyc + 1) else e

/-- PLL_RELOCK: PLL_STATUS shows the lock, and the source stops once no PLL of it is unlocked (R450). -/
def pllRelock (pll : Nat) (s : State) : State :=
  if pll = 21 then s
  else
    let s1 := { s.setF ⟨pwrPllStatus, pll, 1⟩ 1 with pwr := { s.pwr with cdcSync := s.syncAgain pll } }
    if pll = 0 then s1.levelOff 10
    else if pll < 15 then (if s1.getF pwrPllStatus_Flue = 2 ^ 14 - 1 then s1.levelOff 11 else s1)
    else s1

/-- The meaning of PLL_RELOCK. -/
def execPllRelock (pll : Nat) (s : State) : Out := .next (s.when (decide (pll < 22)) (pllRelock pll s))

/-- REFCLK_LOSS: source 12, and the core PLL runs in holdover (R451). -/
def refclkLoss (s : State) : State := (s.levelOn 12).setF pwrStatus_Holdover 1

/-- The meaning of REFCLK_LOSS. -/
def execRefclkLoss (s : State) : Out := .next (refclkLoss s)

/-- REFCLK_RETURN: source 12 stops asserting; HOLDOVER stays until chip reset (R451). -/
def refclkReturn (s : State) : State := s.levelOff 12

/-- The meaning of REFCLK_RETURN. -/
def execRefclkReturn (s : State) : Out := .next (refclkReturn s)

/-- AVS_STEP: a new VDD_CORE target one 5 mV step away, within 650 to 800 mV, at most every 10 µs. Without an acknowledgement
the last target stays and AVS_ERR is set (R452). The first target is the least one (log entry 17). -/
def avsStep (up ack : Bool) (s : State) : State :=
  let cur := s.getF pwrAvs_Target
  if cur ≠ 0 ∧ s.cyc < s.pwr.avsFrom + 15000 then s
  else if !ack then s.raise pwrStatus_AvsErr
  else
    let next := if cur = 0 then 650 else if up then min 800 (cur + 5) else max 650 (cur - 5)
    { s with pwr := { s.pwr with avsFrom := s.cyc } }.setF pwrAvs_Target next

/-- The meaning of AVS_STEP. -/
def execAvsStep (up ack : Bool) (s : State) : Out := .next (avsStep up ack s)

/-- TEMP_THRESHOLD: the highest sensor reads a temperature; source 8 follows TEMP.HIGH and clears 5 °C below, source 9 follows
115 °C and clears at 110 °C (R453). -/
def tempThreshold (celsius : Int) (s : State) : State :=
  let hi : Int := s.getF pwrTemp_High
  let s1 := s.setF pwrTemp_Max (unsint 8 (clampInt (-128) 127 celsius))
  let s2 := if hi ≤ celsius then s1.levelOn 8 else if celsius ≤ hi - 5 then s1.levelOff 8 else s1
  if 115 ≤ celsius then s2.levelOn 9 else if celsius ≤ 110 then s2.levelOff 9 else s2

/-- The meaning of TEMP_THRESHOLD. -/
def execTempThreshold (celsius : Int) (s : State) : Out := .next (tempThreshold celsius s)

/-! ### The Damper (R454 to R459) -/

/-- A physical course holds warm units. -/
def State.courseWarm (s : State) (p : Nat) : Bool := (List.range 12).any fun c => s.getF (grCfg_Mode (12 * p + c)) == 2

/-- A group has demand: a unit of the course runs a graph, or the DMA engine has a request waiting, that is a COPY or FILL
whose data has not landed or a RUN in progress (R455; log entry 18). -/
def State.demand (s : State) (g : Nat) : Bool :=
  if g < 25 then
    s.courseWarm g && s.hearth.units.any fun u => decide (courseOf u.1 = g) && u.2.graphOn
  else
    !s.stk.runs.isEmpty || s.stk.flights.any fun f => !f.ended && (dOp f.bytes == 0x04 || dOp f.bytes == 0x05)

/-- u_g in 1/1,024 A and w_g in 1/1,024 W (R455): the fused constants are in 1/16 units per 64 cycles. -/
def State.unitA (s : State) (g : Nat) : Nat := if g < 25 then s.getF pwrModelCourse_Amps else s.getF pwrModelDma_Amps
def State.unitW (s : State) (g : Nat) : Nat := if g < 25 then s.getF pwrModelCourse_Watts else s.getF pwrModelDma_Watts

/-- Σ a_g·u for allowances in group order. -/
def weigh (f : Nat → Nat) : Nat → List Nat → Nat
  | _, [] => 0
  | g, a :: as => a * f g + weigh f (g + 1) as

/-- I and P in 1/1,024 units (R455). -/
def State.modelI (s : State) (a : List Nat) : Nat :=
  64 * (16 * s.getF pwrHotCeil_Amps + s.getF pwrModelBase_Amps) + weigh s.unitA 0 a
def State.modelP (s : State) (a : List Nat) : Nat :=
  64 * (16 * s.getF pwrHotCeil_Watts + s.getF pwrModelBase_Watts) + weigh s.unitW 0 a

/-- Allowances that the caps admit. -/
def State.capsOk (s : State) (a : List Nat) : Bool :=
  decide (s.modelI a ≤ 64 * s.getF pwrCurrentCap_Amps ∧ s.modelP a ≤ 1024 * s.getF pwrPowerCap_Watts)

/-- The largest uniform limit, from n down, that the caps admit. -/
def State.damperLim (s : State) (want : List Nat) : Nat → Nat
  | 0 => 0
  | n + 1 => if s.capsOk (want.map (min (n + 1))) then n + 1 else s.damperLim want n

/-- The falls, lowest group first, within the slew left. -/
def damperFalls (u : Nat → Nat) : Nat → Nat → List (Nat × Nat) → List Nat
  | _, _, [] => []
  | g, down, (t, a) :: r =>
    if t < a then
      let n := min (a - t) (if u g = 0 then a - t else down / u g)
      (a - n) :: damperFalls u (g + 1) (down - n * u g) r
    else a :: damperFalls u (g + 1) down r

/-- The rises of one group: at most n cycles, while the slew and the caps admit one more. -/
def State.damperRise (s : State) (g t : Nat) : Nat → List Nat → Nat → List Nat × Nat
  | 0, a, up => (a, up)
  | n + 1, a, up =>
    let x := listGet 0 a g
    let a' := listSet a g (x + 1)
    if x < t ∧ s.unitA g ≤ up ∧ s.capsOk a' then s.damperRise g t n a' (up - s.unitA g) else (a, up)

/-- The rises of every group of a list, in order. -/
def State.damperRises (s : State) (ts : List Nat) : List Nat → List Nat → Nat → List Nat
  | [], a, _ => a
  | g :: gs, a, up => let r := s.damperRise g (listGet 0 ts g) 64 a up; s.damperRises ts gs r.1 r.2

/-- Allowances stored. -/
def State.setAllow (s : State) : Nat → List Nat → State
  | _, [] => s
  | g, a :: as => (s.setF (pwrAllow_Cycles g) a).setAllow (g + 1) as

/-- DAMPER_UPDATE: at cycle 0 of a tick the allowances follow the procedure of R456, and source 13 asserts when the caps hold
the allowance of a group with demand below 64 (R457). -/
def damperUpdate (s : State) : State :=
  if s.cycle ≠ 0 then s
  else
    let want := (List.range 26).map fun g => if s.demand g then 64 else 0
    let a0 := (List.range 26).map fun g => if s.demand g then s.getF (pwrAllow_Cycles g) else 0
    let lim := s.damperLim want 64
    let slew := 64 * s.getF pwrSlew_Step
    let ts := want.map (min lim)
    let a1 := damperFalls s.unitA 0 slew (ts.zip a0)
    let a2 := s.damperRises ts (List.range 26) a1 slew
    let held := (List.range 26).any fun g =>
      listGet 0 want g == 64 && decide (listGet 0 a2 g < 64) &&
        (decide (lim < 64) || !s.capsOk (listSet a2 g (listGet 0 a2 g + 1)))
    let s1 := ((s.setAllow 0 a2).setF pwrEst_Amps (s.modelI a2 / 64)).setF pwrEst_Watts (s.modelP a2 / 64)
    if held then s1.assertSrc 13 else s1

/-- The meaning of DAMPER_UPDATE. -/
def execDamperUpdate (s : State) : Out := .next (damperUpdate s)

/-! ### Clock-domain crossings (R461, R462) -/

/-- CDC_TIMEOUT: a crossing that is not acknowledged is abandoned, and further transfers on it fail at once; crossings are
numbered as PWR.CDC_STATUS (R461). -/
def cdcTimeout (crossing : Nat) (s : State) : State :=
  let s1 := (s.raise ⟨pwrCdcStatus, crossing, 1⟩).assertSrc 2
  { s1 with pwr := { s1.pwr with cdcDead := putBits s1.pwr.cdcDead crossing 1 1 } }

/-- The meaning of CDC_TIMEOUT. -/
def execCdcTimeout (crossing : Nat) (s : State) : Out := .next (s.when (decide (crossing < 21)) (cdcTimeout crossing s))

/-- CDC_RESYNC: the handshake of a crossing completes and it works again; the words that were in its FIFO are discarded and counted
(R462). -/
def cdcResync (crossing words : Nat) (s : State) : State :=
  let s1 := s.bump pwrCdcDropF words
  { s1 with pwr := { s1.pwr with cdcDead := putBits s1.pwr.cdcDead crossing 1 0,
                                 cdcSync := mput (fun _ => 0) s1.pwr.cdcSync crossing 0 } }

/-- The meaning of CDC_RESYNC. -/
def execCdcResync (crossing words : Nat) (s : State) : Out :=
  .next (s.when (decide (crossing < 21)) (cdcResync crossing words s))

/-! ### Optical safety (R463 to R466) -/

/-- The SIGNAL status of the port whose receive fibre is a transmitter's companion (the transmit fibre table). -/
def txSignal (t : Nat) : Fld :=
  if t < 24 then zlLinkStatus_Signal t else if t < 28 then chmPortStatus_Signal (t - 24) else timTpStatus_Signal (t - 28)

/-- COMPANION_LOSS: the companion is lost; from ON the transmitter enters PROBE and FLUE_APR is raised (R464, R466). -/
def companionLoss (t : Nat) (s : State) : State :=
  if !txHasCompanion t then s
  else
    let s1 := ((s.setF (optTxState_Companion t) 0).setF (txSignal t) 0).bump (optTxAprCntF t) 1
    if s.getF (optTxState_State t) = txOn then
      (s1.txEnter t txProbe).assertSrc (176 + 3 * txFlue t) (BitVec.ofNat 128 (txFlue t))
    else s1

/-- The meaning of COMPANION_LOSS. -/
def execCompanionLoss (tx : Nat) (s : State) : Out := .next (companionLoss tx s)

/-- COMPANION_PRESENT: the companion is present, and the 0.5 ms toward ON count from here (R463, R464). -/
def companionPresent (t : Nat) (s : State) : State :=
  if !txHasCompanion t then s
  else ((s.setF (optTxState_Companion t) 1).setF (txSignal t) 1).setTx t { s.tx t with presentFrom := s.cyc }

/-- The meaning of COMPANION_PRESENT. -/
def execCompanionPresent (tx : Nat) (s : State) : Out := .next (companionPresent tx s)

/-- TRANSMITTER_ON: in PROBE, with the companion present for 0.5 ms without a break (R463). -/
def transmitterOn (t : Nat) (s : State) : State :=
  if s.getF (optTxState_State t) = txProbe ∧ s.flag (optTxState_Companion t) ∧ (s.tx t).presentFrom + 750000 ≤ s.cyc then
    s.txEnter t txOn
  else s

/-- The meaning of TRANSMITTER_ON. -/
def execTransmitterOn (tx : Nat) (s : State) : Out := .next (s.when (decide (tx < 34)) (transmitterOn tx s))

/-- PROBE_PULSE: every 100 ms from entry a transmitter in PROBE sends a pulse of 2 ms. One without a companion never probes (R463). -/
def probePulse (t : Nat) (s : State) : State :=
  if txHasCompanion t ∧ s.getF (optTxState_State t) = txProbe ∧ (s.tx t).probeFrom + 150000000 ≤ s.cyc then
    s.setTx t { s.tx t with probeFrom := (s.tx t).probeFrom + 150000000, pulseAt := some s.cyc }
  else s

/-- The meaning of PROBE_PULSE. -/
def execProbePulse (tx : Nat) (s : State) : Out := .next (s.when (decide (tx < 34)) (probePulse tx s))

/-- A Flue fault: latched, the laser supply opened, every fibre of the Flue in FAULT, and FLUE_FAULT raised (R465). -/
def State.flueFail (s : State) (k : Nat) : State :=
  let s1 := (s.setF (optFlue_Fault k) 1).setF (optFlue_SupplyOpen k) 1
  (s1.txSettleAll s1.txSafeNow ((List.range 34).filter fun t => txFlue t == k)).assertSrc (178 + 3 * k) (BitVec.ofNat 128 k)

/-- CLAMP_TRIP: the fibre is clamped, enters PROBE for this cycle whatever else applies, and FLUE_CLAMP is raised; the third trip of its
Flue within 1 s is a Flue fault (R465, R466). A monitor fibre never probes (R463): it goes to OFF (DESIGN CHOICE, log entry 119). -/
def clampTrip (t : Nat) (s : State) : State :=
  let k := txFlue t
  if s.getF (optTxState_State t) = txFault then s
  else
    let s1 := ((s.bump (optTxClampCntF t) 1).txEnter t (if txHasCompanion t then txProbe else txOff)).assertSrc (177 + 3 * k) (BitVec.ofNat 128 k)
    let recent := s.cyc :: (mget (fun _ => []) s.pwr.trips k).filter fun c => decide (s.cyc < c + 1500000000)
    let s2 := { s1 with pwr := { s1.pwr with
      trips := mput (fun _ => []) s1.pwr.trips k recent
      clamped := if txHasCompanion t then s1.pwr.clamped ++ [t] else s1.pwr.clamped } }
    if 3 ≤ recent.length then s2.flueFail k else s2

/-- The meaning of CLAMP_TRIP. -/
def execClampTrip (tx : Nat) (s : State) : Out := .next (s.when (decide (tx < 34)) (clampTrip tx s))

/-- The meaning of FLUE_FAULT: light above 0.5 mW in a dark state. FLUE0 to FLUE3 have no lasers (R465). -/
def execFlueFault (flue : Nat) (s : State) : Out := .next (s.when (decide (4 ≤ flue ∧ flue < 14)) (s.flueFail flue))

/-- IDCODE: 0x4832 in bits [27:12] (R479). -/
def idcode : W32 :=
  BitVec.ofNat 32 (bitsAt Config.idcodeRest.toNat 12 4 * 2 ^ 28 + 0x4832 * 2 ^ 12 + bitsAt Config.idcodeRest.toNat 0 12)

/-- The instruction in effect on the test port: EXTEST while PERST_N is asserted, and BYPASS otherwise; the Firebox test port while
FIREBOX_PORT is unlocked, and nothing otherwise (R425, R479). -/
def State.jtagNow (s : State) : Nat :=
  if s.pwr.jtag = 3 then (if s.pcie.perst then 3 else 0)
  else if s.pwr.jtag = 4 then (if s.sec.scopes.toNat.testBit 2 then 4 else 0)
  else s.pwr.jtag

/-- The ball of a TRIG_OUT pin in the order of the signal ball table, rows A, C, E and G without NC: output and whether it is the P pin
(R471). -/
def trigBall (k : Nat) : Option (Nat × Bool) :=
  if k < 4 then some (2 + k / 2, k % 2 == 0) else if 31 ≤ k ∧ k < 35 then some ((k - 31) / 2, k % 2 == 1) else none

/-- The level that the device gives a ball outside EXTEST, where a rule gives it: TRIG_OUT, ERR_OUT_N and PERST_N (R475, R476). -/
def State.ballFunc (s : State) (k : Nat) : Option Bool :=
  match trigBall k with
  | some (m, p) => some (s.trigOutPad m == p)
  | none => if k = 9 then some !s.pcie.perst else if k = 19 then some !s.errOut else none

/-- The balls that EXTEST drives: TRIG_OUT, the flash pins, ERR_OUT_N, AVS_CLK and AVS_MDATA. -/
def ballDriven (k : Nat) : Bool := (trigBall k).isSome || decide (10 ≤ k ∧ k < 15) || k == 19 || k == 20 || k == 29 || k == 35

/-- The level of a ball: under EXTEST the boundary register's cell (R479). -/
def State.ball (s : State) (k : Nat) : Option Bool :=
  if s.jtagNow = 3 && ballDriven k then some (s.pwr.boundary.getLsbD k) else s.ballFunc k

/-- The balls as SAMPLE captures them; a level that no rule gives is free. -/
def State.sampled (s : State) (free : BitVec 36) : BitVec 36 :=
  BitVec.ofNat 36 (maskOf 36 fun k => (s.ball k).getD (free.getLsbD k))

/-- EXTEST: an instruction loaded on the IEEE 1149.1 port: 0 BYPASS, 1 IDCODE, 2 SAMPLE/PRELOAD, 3 EXTEST, others the Firebox
test port. SAMPLE/PRELOAD captures the balls in the boundary register, which EXTEST puts on the pins (R479; log entry 118). -/
def extest (instr : Nat) (s : State) : State :=
  let s1 : State := { s with pwr := { s.pwr with jtag := min instr 4, shift := if instr = 1 then some idcode else none } }
  if instr = 2 then
    let r := s1.draw 36
    { r.2 with pwr := { r.2.pwr with boundary := s.sampled r.1 } }
  else s1

/-- The meaning of EXTEST. -/
def execExtest (instr : Nat) (s : State) : Out := .next (extest instr s)

end Sys2Proof.Machine
end

