-- ==== Sys2Proof/Machine/Cycle.lean ====
section
/-!
DEFINITION. One core cycle passes: what step does on an empty queue (log entry 8). The cycle counters move on, the delayed effects of
the Hearth land that are due in a running cycle, the Damper's hold lines move one cycle, and write buffers empty.
-/
namespace Sys2Proof.Machine

/-! ### Landing -/

/-- A delayed effect lands (R79 to R85, R91, R99, R103, R119, R122, R131, R483). -/
def State.land (s : State) : Act → State
  | .mac u acc w4 omac cols row side t =>
    let x := s.unit u
    s.setUnit u (x.setAcc acc ((x.acc acc).add w4 omac cols row side t))
  | .tile u wsel d t =>
    let x := s.unit u
    s.setUnit u (if wsel then { x with tile1 := d, tileTags1 := t } else { x with tile0 := d, tileTags0 := t })
  | .sideBuf u d t => s.setUnit u { s.unit u with side := d, sideTags := t }
  | .scal u r v => s.setUnit u ((s.unit u).setScalar r v)
  | .take u aseg acc gsz dst bundle p0 p1 t => s.landTake u aseg acc gsz dst bundle p0 p1 t
  | .results u aseg dst lanes t =>
    s.landBytes u dst 1 (bytesAt (128 * aseg) (lanes.flatMap fun l => leBytes 4 l.toNat)) t
  | .vfive u vec ctrl x mask cmp t rq => s.landV5 u vec ctrl x mask cmp t rq
  | .vwrite u dst bs cmp t => s.landVec u dst bs cmp t
  | .recv u vr blk d t => s.landBytes u vr 2 (bytesAt (64 * blk) (leBytes 64 d.toNat)) t
  | .send u q bundle port depth0 t late => s.landSend u q bundle port depth0 t late
  | .muRead u ag line bundle issue ecc tagBad depth0 => s.landRead u ag line bundle issue ecc tagBad depth0
  | .muWrite u ag line bundle issue t => s.landWrite u ag line bundle issue t
  | .xferStore u ag line bundle addr ecc tagBad => s.landStore u ag line bundle addr ecc tagBad
  | .arrive site input t => { s with hearth := { s.hearth with present := s.hearth.present ++ [(site, input, t)] } }
  | .enqueue site q input depth0 t late => s.arriveQ site q input depth0 t late
  | .edgeIn k input site t late => s.arriveEdge k input site t late
  | .linkIn k warm t => s.crossArrive k warm t true

/-- The place of an effect among those of one cycle: register files by port (R91), bank accesses by issue cycle and AG (R108), and
what enters a queue last. -/
def Act.place : Act → Nat × Nat
  | .mac .. | .tile .. | .sideBuf .. | .scal .. | .take .. | .arrive .. => (0, 0)
  | .vwrite .. => (1, 0)
  | .results .. => (2, 0)
  | .recv .. => (3, 0)
  | .vfive .. => (4, 0)
  | .xferStore .. => (5, 0)
  | .muRead _ ag _ _ issue _ _ _ => (5, 4 * issue + ag)
  | .muWrite _ ag _ _ issue _ => (5, 4 * issue + ag)
  | .send .. => (6, 0)
  | .enqueue .. | .edgeIn .. | .linkIn .. => (7, 0)

/-- The effect a goes before b, or beside it. -/
def Act.before (a b : Act) : Bool :=
  decide (a.place.1 < b.place.1) || (a.place.1 == b.place.1 && decide (a.place.2 ≤ b.place.2))

/-- An effect put in its place; effects of one place keep their order. -/
def Act.insert (a : Act) : List Act → List Act
  | [] => [a]
  | b :: bs => if a.before b then a :: b :: bs else b :: a.insert bs

/-- Effects in the order in which they land. -/
def Act.sort (as : List Act) : List Act := as.foldr Act.insert []

/-- Effects land one after another. -/
def State.landAll (s : State) : List Act → State
  | [] => s
  | a :: as => (s.land a).landAll as

/-- The delayed effects that satisfy p land, and leave the list. -/
def State.landIf (s : State) (p : Flight → Bool) : State :=
  ({ s with hearth := { s.hearth with flights := s.hearth.flights.filter fun f => !p f } }).landAll
    (Act.sort ((s.hearth.flights.filter p).map Flight.act))

/-- An entry into a queue that waits for a dequeue of its cycle (R131). -/
def Act.late : Act → Bool
  | .send _ _ _ _ _ _ l => l
  | .enqueue _ _ _ _ _ l => l
  | .edgeIn _ _ _ _ l => l
  | .linkIn .. => true
  | _ => false

/-! ### What a cycle brings -/

/-- The hold lines that the Damper asserts in this cycle: those of courses with warm units, and the DMA engine's (R454). -/
def State.holdLines (s : State) : Nat :=
  maskOf 26 fun g => (decide (g = 25) || s.courseWarm g) && decide (s.getF (pwrAllow_Cycles g) ≤ s.cycle)

/-- The hold lines move one cycle, and a cycle with one of them asserted counts (R319). -/
def State.damperCycle (s : State) : State :=
  let l := s.holdLines
  let s1 := if l = 0 then s else s.bump stkDamperCycF 1
  { s1 with pwr := { s1.pwr with line2 := s1.pwr.line1, line1 := l } }

/-- The live writes of a list of sites that compute units hold: each lands when no VW port writes its register (R223). -/
def State.cuLive (s : State) : List Nat → State
  | [] => s
  | u :: us =>
    let x := s.unit u
    if isMu u || x.cfgBuf.isEmpty then s.cuLive us
    else
      let now := x.cfgBuf.filter fun e => !s.vrBusy u (e.1 / 16)
      let y := now.foldl (fun (y : HUnit) e => y.tblWrite false 1 e.1 e.2)
        { x with cfgBuf := x.cfgBuf.filter fun e => s.vrBusy u (e.1 / 16) }
      let g := s.grate u
      ((s.setUnit u y).setGrate u { g with cfgOut := g.cfgOut - now.length }).cuLive us

/-- Write buffers of a list of pools empty by a free amount, since no rule gives the time that HBM takes (R274). -/
def State.drainPools (s : State) : List Nat → State
  | [] => s
  | c :: cs =>
    let n := (s.pool c).wbuf.length
    if n = 0 then s.drainPools cs
    else
      let r := s.draw 15
      (r.2.acqDrain c (min n (4 * r.1.toNat))).drainPools cs

/-- The clocks of a released core move on (R6); the running cycles of the Hearth count apart (R226, R334). -/
def State.advance (s : State) : State :=
  { s with
    cyc := s.cyc + 1
    frc := if s.pwr.released then s.frc + 1 else s.frc
    hcyc := if s.running then s.hcyc + 1 else s.hcyc
    setNow := []
    incNow := []
    tim := { s.tim with was := none }
    hearth := { s.hearth with banks := [], vwrites := [], present := if s.running then [] else s.hearth.present } }

/-- What a running cycle brings to the Hearth: entries that waited for the end of the last cycle, and then what is due now. -/
def State.hearthCycle (s : State) : State :=
  if s.running then
    let s1 := (s.landIf fun f => f.act.late && decide (f.due ≤ s.hcyc)).advance
    s1.landIf fun f => decide (f.due ≤ s1.hcyc)
  else s.advance

/-- In cycle 0 of the safe state's tick every transmitter leaves its state for SAFE (R401, R466). -/
def State.safeCycle (s : State) : State :=
  if s.safe && s.flt.safeFrom == s.cyc then s.txSettleAll true (List.range 34) else s

/-- In the cycle after a clamp trip the other conditions of R466 apply to the fibre again. -/
def State.clampCycle (s : State) : State :=
  { s with pwr := { s.pwr with clamped := [] } }.txSettleAll s.txSafeNow s.pwr.clamped

/-- VDD_CORE has been below its tolerance for longer than 10 µs (R449). -/
def State.coreLost (s : State) : Bool :=
  match s.pwr.coreLowFrom with
  | some c => decide (c + 15000 < s.cyc)
  | none => false

/-- What a core cycle brings. -/
def State.cycleWork (s : State) : State :=
  let s1 := if s.pwr.released then s.damperCycle else s
  let s2 := s1.hearthCycle.safeCycle.clampCycle
  let s3 := (s2.cuLive (s2.hearth.units.map fun e => e.1)).drainPools (s2.pools.map fun e => e.1)
  let s4 := s3.refreshFirst s3.mem.due
  let s5 := s4.slotGrants (s4.mem.waits.map fun r => pcOf (r.addr / 32))
  s5.refreshIdle s5.mem.due

/-- One core cycle passes; a supply that has been too low for too long makes it a power-on reset (R449). -/
def cyclePass (s : State) : State := if s.coreLost then s.powerOn else s.cycleWork

end Sys2Proof.Machine
end

