-- ==== Sys2Proof/Machine/Ashpit.lean ====
section
/-!
DEFINITION. The commands of the Ashpit (R391 to R406).
-/
namespace Sys2Proof.Machine

/-- The assertion whose information is recorded: of those in the first assertion's cycle the one of lowest rank (R390). -/
def pickAssertion : List Assertion → Option Assertion
  | [] => none
  | a :: as => some <| as.foldl (fun b x => if x.frc = a.frc ∧ x.rank < b.rank then x else b) a

/-- FAULT_STATUS_SET: a source that has asserted, or whose condition holds, sets its status bit and counts; on a change from 0
to 1 it is captured and its reactions apply (R390 to R406). `upset` is a configuration word that an upset has hit since its last check,
if there is one: where the reactions use it, its parity fails (R406). -/
def faultStatusSet (n : Nat) (upset : Option Nat) (t : State) : State :=
  let s := match upset with
    | some w => if w < 261 then t.upsetWord w else t
    | none => t
  match srcInfo n with
  | none => s
  | some i =>
    let mine := s.flt.pend.filter fun a => a.src == n
    let s0 := { s with flt := { s.flt with pend := s.flt.pend.filter fun a => a.src != n } }
    let a? := match pickAssertion mine with
      | some a => some a
      | none => if s.flt.released && i.level && s.levelHolds n then some ⟨n, s.stampFrc, s.levelInfo n, 0⟩ else none
    match a? with
    | none => s0
    | some a =>
      let s1 := s0.bump (fltCntF n) (max 1 mine.length)
      let bit : Fld := ⟨fltSrcStatus (n / 32), n % 32, 1⟩
      let was := s1.flag bit
      let s2 := s1.raise bit
      if was then s2 else (s2.capture n i a.frc a.info).react n i (s2.reactions n) a.frc a.info

/-- The meaning of FAULT_STATUS_SET. -/
def execFaultStatusSet (source : Nat) (upset : Option Nat) (s : State) : Out := .next (faultStatusSet source upset s)

/-- ERR_PULSE_END: the pulse has run its length, the pin follows HOLD, and an armed CHIP reaction starts its chip reset
(R397, R400). -/
def errPulseEnd (s : State) : State :=
  match s.flt.pulse with
  | none => s
  | some (_, last) =>
    if s.cyc < last then s
    else
      let s1 := { s with flt := { s.flt with pulse := none } }
      match s.flt.chip with
      | some (n, _) => s1.chipReset (some n)
      | none => s1

/-- The meaning of ERR_PULSE_END. -/
def execErrPulseEnd (s : State) : Out := .next (errPulseEnd s)

/-- BLOCK_RESTART: the blocks that a BLOCK reaction of a source has held for 1,024 cycles restart (R448's reset scopes). -/
def blockRestart (n : Nat) (s : State) : State :=
  let mine (b : Nat × Nat) : Bool := (b.1 == n || (n == 16 && decide (256 ≤ b.1))) && decide (b.2 ≤ s.cyc)
  let s1 := { s with flt := { s.flt with blocked := s.flt.blocked.filter fun b => !mine b } }
  if 176 ≤ n ∧ n < 218 then
    s1.txSettleAll s1.txSafeNow ((List.range 34).filter fun t => txFlue t == (n - 176) / 3)
  else s1

/-- The meaning of BLOCK_RESTART. -/
def execBlockRestart (source : Nat) (s : State) : Out := .next (blockRestart source s)

/-- HCE_BUCKET_LEAK: the Hearth bucket falls by 1 every LEAK·1,024 ticks (R381, R393). -/
def hceBucketLeak (s : State) : State :=
  let step := s.getF fltHceCfg_Leak * 1024
  if step ≠ 0 ∧ s.flt.hceFrom + step ≤ s.tick then
    { s.useWord 4 with flt := { (s.useWord 4).flt with hceFrom := s.flt.hceFrom + step } }.setF fltHceBucket_Level
      (s.getF fltHceBucket_Level - 1)
  else s

/-- The meaning of HCE_BUCKET_LEAK. -/
def execHceBucketLeak (s : State) : Out := .next (hceBucketLeak s)

/-- ENTER: the safe state, with its halt at the first tick boundary after the write, which stores fresh parity (R401, R406). -/
def safeEnter (s : State) : State := (s.freshParity 2).enterSafe (s.tick + 1)

/-- The meaning of ENTER. -/
def execSafeEnter (s : State) : Out := .next (safeEnter s)

/-- The sources whose status bits are set. -/
def State.srcsSet (s : State) : List Nat := (List.range 256).filter fun n => s.flag ⟨fltSrcStatus (n / 32), n % 32, 1⟩

/-- A source whose REACT has SAFE set still has its status bit set (R402). -/
def State.safeHeld (s : State) : Bool := s.srcsSet.any fun n => s.flag (fltReact_Safe n)

/-- EXIT: the safe state is left, Flues resume by probing, TRIG_OUT follows TRG, and the Hearth stays halted; refused while a cause
remains (R402). It uses the REACT words of the sources whose status bits are set, and the write stores fresh parity unless it is refused
(R406). -/
def safeExit (t : State) : State :=
  if !t.safe then t.freshParity 2
  else
    let s := t.useWords (t.srcsSet.map (5 + ·))
    if s.flag fltStatus_SelfFault || s.safeHeld then s.refuse fltSafeCtrl
    else ((s.freshParity 2).setF fltStatus_Safe 0).txSettleAll false (List.range 34)

/-- The meaning of EXIT. -/
def execSafeExit (s : State) : Out := .next (safeExit s)

/-- FLT_INJ_WRITE: one injection is armed; the write is refused for an unmarked source, a disabled site, or while one waits.
SITE is ignored for source 0 (R405). -/
def fltInjWrite (value : W32) (s : State) : State :=
  let v := value.toNat
  let n := bitsAt v 0 8
  let site := bitsAt v 8 9
  let mode := bitsAt v 29 2
  let marked := match srcInfo n with | none => false | some i => i.inj
  if s.flag fltInj_Armed || !marked || (n != 0 && !s.siteOn site) then s.refuse fltInj
  else
    let s1 := (((s.setF fltInj_Source n).setF fltInj_Site site).setIf (decide (mode < 3) || n == 0) fltInj_Mode mode).freshParity 3
    if mode = 1 ∨ mode = 2 ∨ (mode = 3 ∧ n = 0) then s1.setF fltInj_Armed 1 else s1

/-- The meaning of FLT_INJ_WRITE. -/
def execFltInjWrite (value : W32) (s : State) : Out := .next (fltInjWrite value s)

/-- CLR_CNT_FLT: every CNT[n] is cleared, by a write of CTRL, which stores fresh parity (FLT.CTRL.CLR_CNT, R406). -/
def clrCntFlt (s : State) : State := (s.freshParity 0).clearCounters fun off => decide (off ∈ (List.range 256).map fltCnt)

/-- The meaning of CLR_CNT_FLT. -/
def execClrCntFlt (s : State) : Out := .next (clrCntFlt s)

/-- FLT_PARITY_SCAN: a configuration word is checked; `parityOk` is false where an upset has hit it since its last check
(R405, R406). -/
def fltParityScan (word : Nat) (parityOk : Bool) (s : State) : State :=
  (if parityOk then s else s.upsetWord word).useWord word

/-- The meaning of FLT_PARITY_SCAN. -/
def execFltParityScan (word : Nat) (parityOk : Bool) (s : State) : Out :=
  .next (s.when (decide (word < 261)) (fltParityScan word parityOk s))

/-- ASHPIT_RELEASE: in the first cycle after the core PLL has locked the Ashpit collects every source, with its configuration
at reset values (R397). -/
def ashpitRelease (s : State) : State :=
  if s.flag pwrPllStatus_Core && !s.pwr.ioLow && !s.flt.released then { s with flt := { s.flt with released := true, pinHeld := false } } else s

/-- The meaning of ASHPIT_RELEASE. -/
def execAshpitRelease (s : State) : Out := .next (ashpitRelease s)

end Sys2Proof.Machine
end

