-- ==== Sys2Proof/Machine/Chimney.lean ====
section
/-!
DEFINITION. The commands of the Chimney ports (R260 to R266, R281 to R284).
-/
namespace Sys2Proof.Machine

/-! ### Messages (the message layout) -/

/-- The CRC8 of a message over bits [63:8]. -/
def chmCrc (m : Nat) : Nat := crcBits 8 0x07 0 ((bitsLsb 56 (m / 256)).reverse)

/-- The fields of a message. -/
def chmType (m : Nat) : Nat := bitsAt m 60 4
def chmShadow (m : Nat) : Bool := m.testBit 55
def chmSuspect (m : Nat) : Bool := m.testBit 54
def chmLine (m : Nat) : Nat := bitsAt m 50 4
def chmSeq (m : Nat) : Nat := bitsAt m 46 4
def chmTime (m : Nat) : Nat := bitsAt m 8 38

/-- A message as the port sends it: TYPE, bits [54:50], SEQ and TIME are given; SRC, SHADOW and CRC8 are the device's. -/
def State.chmBuild (s : State) (ty mid seq time : Nat) : W64 :=
  let m := ty % 16 * 2 ^ 60 + s.getF chmCtrl_SrcId * 2 ^ 56 + b2n (s.flag chmCtrl_Shadow) * 2 ^ 55 + mid % 32 * 2 ^ 50
    + seq % 16 * 2 ^ 46 + time % 2 ^ 38 * 2 ^ 8
  BitVec.ofNat 64 (m + chmCrc m)

/-! ### Sending (R260, R262, R264, R265) -/

/-- A slot of a port is reserved to a unit (R262). -/
def State.slotReserved (s : State) (p b : Nat) : Bool :=
  (List.range 8).any fun u =>
    let c := s.trgReg s.trg.next (trgTuCfg u)
    c.testBit 31 && (bitsAt c 27 4).testBit p && bitsAt c 23 4 == b

/-- The block slot that starts in this cycle. -/
def State.slotNow (s : State) : Option Nat := leastBelow 10 fun b => slotCycle b == s.cycle

/-- An unreserved slot of a port started at or after a cycle and before this one: a queue entry with that launch time is late
(R265). -/
def State.slotMissed (s : State) (p launch : Nat) : Bool :=
  decide (launch + 64 ≤ s.frc.toNat) || (List.range 10).any fun b =>
    let t := if slotCycle b < s.cycle then 64 * s.tick + slotCycle b else 64 * (s.tick - 1) + slotCycle b
    decide (launch ≤ t ∧ t < s.frc.toNat) && !s.slotReserved p b

/-- A message other than IDLE leaves: it is counted in SEQ. -/
def State.chmSent (s : State) (p : Nat) (m : W64) (x : ChmPort) : State :=
  s.setChm p { x with seq := (x.seq + 1) % 16, sent := m, sentAt := s.frc.toNat }

/-- An IDLE message: SRC, SHADOW, SEQ and CRC8 as in every message; what the layout gives to other TYPEs alone, bits [54:50] and TIME,
is open (R260). -/
def State.chmIdle (s : State) (p : Nat) (x : ChmPort) : State :=
  let r := s.draw 43
  r.2.setChm p { x with sent := s.chmBuild 0 (bitsAt r.1.toNat 38 5) x.seq (bitsAt r.1.toNat 0 38), sentAt := s.frc.toNat }

/-- CHIMNEY_SLOT_LAUNCH: the message that owns the slot or wins it; echo replies go first, then requests, then queue entries
(R260, R262, R264, R265). Bits [54:50] of an echo message are open. In the safe state the port is silent (R401). -/
def chimneySlotLaunch (p : Nat) (s : State) : State :=
  match s.slotNow with
  | none => s
  | some b =>
    let x := s.chmPort p
    let now := 256 * s.stampFrc
    if !(s.getF chmCtrl_En).testBit p || s.txSafeNow || s.flueDead (txFlue (24 + p)) then s
    else match x.trigs.find? fun t => t.1 == s.tick && t.2.1 == b with
      | some t =>
        s.chmSent p (s.chmBuild 1 (16 * b2n t.2.2.2.2 + t.2.2.2.1) x.seq (now - t.2.2.1)) { x with trigs := x.trigs.erase t }
      | none =>
        if s.slotReserved p b then s.chmIdle p x
        else match x.replies with
          | r :: rs =>
            let d := s.draw 5
            d.2.chmSent p (s.chmBuild 3 d.1.toNat r.1 (now - r.2)) { x with replies := rs }
          | [] =>
            if x.reqPending then
              let d := s.draw 5
              d.2.chmSent p (s.chmBuild 2 d.1.toNat x.seq 0) { x with reqPending := false, echo := some (x.seq, now, s.tick) }
            else match x.txq with
              | [] => s.chmIdle p x
              | e :: es =>
                if s.frc.toNat < e.2.toNat then s.chmIdle p x
                else
                  let m := e.1.toNat
                  let s1 := if s.slotMissed p e.2.toNat then s.bump (chmPortTxLateF p) 1 else s
                  s1.chmSent p (s.chmBuild (chmType m) (bitsAt m 50 5) x.seq (chmTime m)) { x with txq := es }

/-- The meaning of CHIMNEY_SLOT_LAUNCH. -/
def execChimneySlotLaunch (port : Nat) (s : State) : Out := .next (s.when (decide (port < 4)) (chimneySlotLaunch port s))

/-! ### Receiving (R39, R40, R260, R261) -/

/-- The line history after plain bits were sent scrambled. -/
def scrambleHist : Nat → List Bool → Nat
  | h, [] => h
  | h, p :: ps => scrambleHist ((h * 2 + b2n (p != ((h.testBit 57) != (h.testBit 38)))) % 2 ^ 58) ps

/-- The block-lock machine of a port takes a sync header, and the line history moves on. -/
def State.chmSync (s : State) (p : Nat) (valid : Bool) (hist : Nat) : State :=
  let x := s.chmPort p
  let k := blockLock (s.flag (chmPortStatus_BlockLock p)) valid x.good x.winCnt x.winBad
  ((s.setChm p { x with hist := hist, good := k.1, winCnt := k.2.1, winBad := k.2.2.1 }).setF (chmPortStatus_BlockLock p)
    (b2n k.2.2.2)).setF (chmPortStatus_Signal p) 1

/-- A port's receiver listens: it is enabled, not held in reset, and its Flue's crossing passes data (R461). -/
def State.chmListens (s : State) (p : Nat) : Bool :=
  (s.getF chmCtrl_En).testBit p && !s.blockHeld (20 + p) && !s.flueDead (txFlue (24 + p))

/-- A message with a good CRC8 and a listed TYPE (R261). -/
def chmGood (m : Nat) : Bool := decide (chmType m ≤ 4) && m % 256 == chmCrc m

/-- A message block of a port that holds block lock: applied when it is good and of the expected TYPE, and a bad one counted. IDLE
is neither checked nor counted. -/
def State.chmMessage (s : State) (p ty : Nat) (msg : W64) (f : State → State) : State :=
  if !s.chmListens p then s
  else
    let m := msg.toNat
    let s1 := s.chmSync p true (scrambleHist (s.chmPort p).hist ((bitsLsb 64 m).reverse))
    if !s.flag (chmPortStatus_BlockLock p) || chmType m == 0 then s1
    else if !chmGood m then s1.bump (chmPortCrcErrF p) 1
    else if chmType m = ty then f s1
    else s1

/-- CHIMNEY_BLOCK_RECEIVE: a block that carries no applied message; its sync header drives the block-lock machine, and a bad
message is counted. -/
def chimneyBlockReceive (p : Nat) (sync : BitVec 2) (payload : W64) (s : State) : State :=
  if !s.chmListens p then s
  else
    let d := descramble (s.chmPort p).hist ((bitsLsb 64 payload.toNat).reverse)
    let m := ofBitsLsb d.1.reverse
    let s1 := s.chmSync p (syncValid sync) d.2
    if s.flag (chmPortStatus_BlockLock p) && sync == 1 && chmType m != 0 && !chmGood m then s1.bump (chmPortCrcErrF p) 1 else s1

/-- The meaning of CHIMNEY_BLOCK_RECEIVE. -/
def execChimneyBlockReceive (port : Nat) (sync : BitVec 2) (payload : W64) (s : State) : Out :=
  .next (s.when (decide (port < 4)) (chimneyBlockReceive port sync payload s))

/-- CHIMNEY_TRIGGER_RECEIVE: the action time gives a line hit; a shadow message is dropped, and one that is late, or that comes
before ECHO_VALID, counts in LATE (R263, R264). -/
def chimneyTriggerReceive (p : Nat) (msg : W64) (frac : Byte) (s : State) : State :=
  s.chmMessage p 1 msg fun s =>
    let m := msg.toNat
    if chmShadow m && !s.flag chmCtrl_AcceptShadow then s.bump (chmPortShadowDropF p) 1
    else if !s.flag (chmPortStatus_EchoValid p) then s.bump (chmPortLateF p) 1
    else
      let rx := s.stamp frac
      let act : Int := (rx : Int) - sint 32 (s.getF (chmPortOnewayF p)) - chmTime m + 256 * s.getF chmSyslat_Cycles
      let k := act.toNat / 16384
      if !s.trgDone k && decide (rx + 4096 ≤ 256 * s.readyLimit k) then
        s.addHit ⟨k, 36 + chmLine m, s.tagAt k (s.getF chmCtrl_RefCh) (act.toNat % 16384), s.frc.toNat + 16, false, chmSuspect m⟩
      else
        (s.bump (chmPortLateF p) 1).routed 1 0x13 3 k (body32 (leBytes 8 k ++ leBytes 1 p ++ leBytes 1 (chmLine m)))

/-- The meaning of CHIMNEY_TRIGGER_RECEIVE. -/
def execChimneyTriggerReceive (port : Nat) (msg : W64) (frac : Byte) (s : State) : Out :=
  .next (s.when (decide (port < 4)) (chimneyTriggerReceive port msg frac s))

/-- ECHO_REQ: the port will answer in its first unreserved slot (R264). -/
def echoReq (p : Nat) (msg : W64) (frac : Byte) (s : State) : State :=
  s.chmMessage p 2 msg fun s =>
    let x := s.chmPort p
    s.setChm p { x with replies := x.replies ++ [(chmSeq msg.toNat, s.stamp frac)] }

/-- The meaning of ECHO_REQ. -/
def execEchoReq (port : Nat) (msg : W64) (frac : Byte) (s : State) : Out :=
  .next (s.when (decide (port < 4)) (echoReq port msg frac s))

/-- Half of a round trip and a correction, in 1/256 cycle; the rounding of an odd one is open (R264, R347). -/
def State.halfTrip (s : State) (rtt : Nat) (asym : Int) : Nat × State :=
  let r := s.draw 1
  if rtt % 2 = 0 then (unsint 32 (((rtt / 2 : Nat) : Int) + asym), s) else (unsint 32 (((rtt / 2 + r.1.toNat : Nat) : Int) + asym), r.2)

/-- ECHO_RSP: a reply with the SEQ of the outstanding request sets RTT, ONEWAY and ECHO_VALID (R264, R284). -/
def echoRsp (p : Nat) (msg : W64) (frac : Byte) (s : State) : State :=
  s.chmMessage p 3 msg fun s =>
    let x := s.chmPort p
    match x.echo with
    | none => s
    | some e =>
      if e.1 ≠ chmSeq msg.toNat then s
      else
        let rtt := s.stamp frac - e.2.1 - chmTime msg.toNat
        let h := s.halfTrip rtt (sint 32 (s.getF (timChmAsym_Asym p)))
        (((h.2.setChm p { x with echo := none }).setF (chmPortRttF p) rtt).setF (chmPortOnewayF p) h.1).setF
          (chmPortStatus_EchoValid p) 1

/-- The meaning of ECHO_RSP. -/
def execEchoRsp (port : Nat) (msg : W64) (frac : Byte) (s : State) : Out :=
  .next (s.when (decide (port < 4)) (echoRsp port msg frac s))

/-- USER: the message enters the receive queue with its timestamp, or is dropped when the queue is full (R266). -/
def chmUser (p : Nat) (msg : W64) (s : State) : State :=
  s.chmMessage p 4 msg fun s =>
    let x := s.chmPort p
    if x.rxq.length < 16 then s.setChm p { x with rxq := x.rxq ++ [(msg, BitVec.ofNat 64 s.stampFrc)] } else s.bump (chmPortRxDropF p) 1

/-- The meaning of USER. -/
def execChmUser (port : Nat) (msg : W64) (s : State) : Out := .next (s.when (decide (port < 4)) (chmUser port msg s))

/-! ### Register writes and timeouts (R264 to R266) -/

/-- CHM_ECHO_GO: an ECHO_REQ waits for the first unreserved slot. -/
def chmEchoGo (p : Nat) (s : State) : State := s.setChm p { s.chmPort p with reqPending := true }

/-- The meaning of CHM_ECHO_GO. -/
def execChmEchoGo (port : Nat) (s : State) : Out := .next (s.when (decide (port < 4)) (chmEchoGo port s))

/-- CHM_ECHO_TIMEOUT: no reply within 1,024 ticks. -/
def chmEchoTimeout (p : Nat) (s : State) : State :=
  let x := s.chmPort p
  match x.echo with
  | none => s
  | some e => if e.2.2 + 1024 ≤ s.tick then (s.setChm p { x with echo := none }).raise (chmPortStatus_EchoTimeout p) else s

/-- The meaning of CHM_ECHO_TIMEOUT. -/
def execChmEchoTimeout (port : Nat) (s : State) : Out := .next (s.when (decide (port < 4)) (chmEchoTimeout port s))

/-- TXQ_PUSH: TXQ_MSG with TXQ_LAUNCH; refused for another TYPE than TRIGGER and USER, and on a full queue. -/
def txqPush (p : Nat) (s : State) : State :=
  let x := s.chmPort p
  let m := s.getF (chmPortTxqMsg_Msg p)
  if (chmType m == 1 || chmType m == 4) && decide (x.txq.length < 16) then
    s.setChm p { x with txq := x.txq ++ [(BitVec.ofNat 64 m, BitVec.ofNat 64 (s.getF (chmPortTxqLaunch_Frc p)))] }
  else s.refuse (chmPortTxqStat p)

/-- The meaning of TXQ_PUSH. -/
def execTxqPush (port : Nat) (s : State) : Out := .next (s.when (decide (port < 4)) (txqPush port s))

/-- RXQ_POP: the head of the receive queue is removed. -/
def rxqPop (p : Nat) (s : State) : State := s.setChm p { s.chmPort p with rxq := (s.chmPort p).rxq.drop 1 }

/-- The meaning of RXQ_POP. -/
def execRxqPop (port : Nat) (s : State) : Out := .next (s.when (decide (port < 4)) (rxqPop port s))

end Sys2Proof.Machine
end

