-- ==== Sys2Proof/Machine/Digests.lean ====
section
/-!
DEFINITION. Digest windows and their close, of hot and warm points, and the twin digest (R336 to R341).
-/
namespace Sys2Proof.Machine

/-- The digest of a point's window over the shares of the units of a list, in its order: flags and digest. -/
def State.pointDigest (s : State) (us : List Nat) (point window : Nat) : Nat × BitVec 64 :=
  let ps := us.flatMap fun u => (s.unit u).digs.filter fun d => d.point == point && d.window == window
  if ps.isEmpty then (4, 0)
  else (b2n (ps.any DigPart.sus) + 2 * b2n (ps.any DigPart.poi),
    BitVec.ofNat 64 (crc64 0 (ps.flatMap fun d => leBytes 8 d.crc.toNat)))

/-- Closed shares leave the units. -/
def State.dropShares (s : State) (points : List Nat) (window : Nat) : List Nat → State
  | [] => s
  | u :: us =>
    let x := s.unit u
    (if x.digs.isEmpty then s
     else s.setUnit u { x with digs := x.digs.filter fun d => !(points.contains d.point && decide (d.window ≤ window)) }).dropShares
      points window us

/-- The points of a list closed for a window. -/
def State.closePoints (s : State) (us : List Nat) (window : Nat) (p : DigPoint → Bool) : State :=
  match s.hearth.img with
  | none => s
  | some i =>
    let up (x : DigPoint) : DigPoint :=
      if p x then
        let r := s.pointDigest us x.point window
        { x with hist := ((window, r.1, r.2) :: x.hist).take 256 }
      else x
    ({ s with hearth := { s.hearth with img := some { i with points := i.points.map up } } }).dropShares
      ((i.points.filter p).map DigPoint.point) window us

/-- The Hearth ran through the tick that has just ended. -/
def State.ranLast (s : State) : Bool :=
  let back := match s.hearth.halts with | h :: _ => decide (h.2 < 64 * s.tick) | [] => false
  decide (0 < s.tick) && back && (s.running || s.hearth.haltFrc == s.frc.toNat)

/-- The twin digest of the tick that has just ended: 0 without a take, none where the Hearth was halted (R340). -/
def State.twinClose (s : State) (ran : Bool) : State :=
  let k := s.tick - 1
  let d := if s.hearth.twinTick = k + 1 then s.hearth.twinCrc else 0
  let s1 : State := { s with zl := { s.zl with digests := ((k, if ran then some d else none) :: s.zl.digests).take 64 } }
  if ran then s1.setF glbTwinDig_Digest d.toNat else s1

/-- HOT_DIGEST_WINDOW_CLOSE: in cycle 0 the windows of the tick before close (R338 to R340). -/
def hotDigestWindowClose (s : State) : State :=
  let k := s.tick - 1
  let done := match s.zl.digests with | d :: _ => d.1 == k | [] => false
  match s.hotImage with
  | none => s
  | some i =>
    if s.cycle != 0 || s.tick == 0 || done then s
    else
      let ran := s.ranLast
      let s1 := s.twinClose ran
      let w := s.sinceT0 (s.getF glbImgState_Epoch) k
      if !ran || decide (2 ^ 57 ≤ w) then s1
      else
        let us := ((siteList (s.vmap i.base i.v)).filter fun p => decide (p.1 < i.h)).map fun p => p.2.2
        s1.closePoints us w fun p => p.region == 0

/-- The meaning of HOT_DIGEST_WINDOW_CLOSE. -/
def execHotDigestWindowClose (s : State) : Out := .next (hotDigestWindowClose s)

/-- The next window of a warm point. -/
def DigPoint.nextWindow (p : DigPoint) : Nat := match p.hist with | e :: _ => e.1 + 1 | [] => 0

/-- A warm compute unit whose bundles feed a point. -/
def State.feeds (s : State) (point u : Nat) : Bool :=
  !isMu u && s.unitMode u == 2
    && (List.range (s.getF (hrtUnitCfg_Plen u) + 1)).any fun b => bitsAt ((s.unit u).entry 0 b).toNat 11 5 == point

/-- Window w of a warm point can be formed: some feeding unit has completed step w, every unit that fed the window has completed it, and
a unit that has not fed it has passed it by, or its graph runs no more. -/
def State.warmWindowDone (s : State) (g : GraphEnt) (point w : Nat) (us : List Nat) : Bool :=
  let ended := !s.stk.runs.any fun r => r.graph.graph == g.graph
  let fed (u : Nat) : Bool := (s.unit u).digs.any fun d => d.point == point && d.window == w
  let past (u : Nat) : Bool := decide (w < (s.unit u).step) || decide (w < (s.unit u).pastStep)
  let fs := us.filter fun u => s.feeds point u || fed u
  fs.any past && fs.all fun u => past u || (ended && !fed u)

/-- WARM_DIGEST_WINDOW_CLOSE: while the Hearth runs, the next window of a warm point closes once every unit that fed it has completed
that step (R334, R339). -/
def warmDigestWindowClose (point : Nat) (s : State) : State :=
  match s.hearth.img with
  | none => s
  | some i =>
    match i.points.find? fun p => p.point == point && p.region == 1 with
    | none => s
    | some p =>
      match i.graphs.find? fun g => g.graph == p.graph with
      | none => s
      | some g =>
        let us := (List.range 300).filter fun u => (s.graphUnits g).contains u
        let w := p.nextWindow
        if s.running && s.warmWindowDone g point w us then
          s.closePoints us w fun x => x.point == point && x.region == 1
        else s

/-- The meaning of WARM_DIGEST_WINDOW_CLOSE. -/
def execWarmDigestWindowClose (point : Nat) (s : State) : Out := .next (warmDigestWindowClose point s)

end Sys2Proof.Machine
end

