-- ==== Sys2Proof/Machine/Epoch.lean ====
section
/-!
DEFINITION. Epoch swaps: SWAP_EPOCH, the hot switch at tick K, and the warm switch by MARK tokens (R212 to R221).
-/
namespace Sys2Proof.Machine

/-- The epoch that a staged image takes (R212). -/
def State.nextEpoch (s : State) : Nat := (s.getF glbImgState_Epoch + 1) % 16

/-- The swap in progress is replaced. -/
def State.setSwap (s : State) (w : Option Swap) : State := { s with hearth := { s.hearth with swap := w } }

/-- A swap in progress ends with a code (R220, R221). -/
def State.endSwap (s : State) (w : Swap) (code result : Nat) : State :=
  ((s.setSwap none).setF glbImgState_SwapPending 0).loaderDone w.tag code result

/-! ### What switches -/

/-- Shadow tables in place of the active ones. Table 1 was written live: it keeps its entries but for those that a SHADOW_WRITE gave, zeros
too (R209, R214, R223). -/
def shadowed (tab : SMap (BitVec 256)) (shadow : SMap (Option (BitVec 256))) : SMap (BitVec 256) :=
  shadow.foldl (fun m e => mput (fun _ => 0) m e.1 (e.2.getD 0)) (tab.filter fun e => liveTable (e.1 / 2 ^ 17))

/-- The tag blocks or lines of table 1 that shadow entries write, clear (R488). -/
def HUnit.clearShadowTags (u : HUnit) (mu : Bool) : HUnit :=
  u.shadow.foldl (fun v e => if liveTable (e.1 / 2 ^ 17) then v.tblWrite mu 1 (e.1 % 2 ^ 17) (e.2.getD 0) else v) u

/-- A unit takes its shadow state: accumulator sets zero, pattern counters reset, and the scales of the new entries published
(R190, R194, R214). The steps it has completed still count for the windows of its points (R339). -/
def HUnit.switch (u : HUnit) (mu : Bool) : HUnit :=
  let x := u.clearShadowTags mu
  let v := { x with tab := shadowed x.tab x.shadow, accs := [], ctrs := [], rqts := startRqts x.rqts, moved := [], wins := 0,
                    bundle := 0, step := 0, pastStep := max x.pastStep x.step, granted := 0 }
  if mu then v else v.publish

/-- A grate takes its shadow tables. -/
def Grate.switch (g : Grate) : Grate := { g with tab := g.shadow, marked := [] }

/-- A hot site takes the new epoch: its unit with no open digest window, its grate with every queue empty, and its registers (R214,
R338). -/
def State.switchSites (s : State) (x : ImgInfo) (epoch : Nat) : List (Nat × Nat × Nat) → State
  | [] => s
  | (v, c, u) :: r =>
    let s1 := s.setGrate u ((s.grate u).switch.startQueues epoch)
    ((s1.setUnit u { (s1.unit u).switch (isMu u) with digs := [] }).cfgSite x epoch v c u).switchSites x epoch r

/-- An edge port takes its shadow entries and words. -/
def EdgePort.switch (e : EdgePort) : EdgePort := { e with edge := e.edgeShadow, txWord := e.txShadow, rxWord := e.rxShadow }

/-- Hot edge ports take the new epoch. -/
def State.switchEdges (s : State) (epoch : Nat) : List Nat → State
  | [] => s
  | k :: ks => (s.setEdge k ((s.edge k).switch.start epoch)).switchEdges epoch ks

/-- The crossing ports whose courses are hot: 0 to 11 join course 0 of the image, 12 to 23 its last one. -/
def ImgInfo.hotCross (x : ImgInfo) : List Nat := (List.range 24).filter fun p => if p < 12 then x.h != 0 else x.h == x.v

/-- The edge ports that switch at tick K. -/
def ImgInfo.hotEdges (x : ImgInfo) (vm : List Nat) : List Nat :=
  ((vm.take x.h).flatMap fun p => [edgeIngest p, edgeTrg p]) ++ x.hotCross.map edgeCross

/-- A token of the hot region is on a link between two grates, or between a grate and an edge port. -/
def Act.onLink (sites keys : List Nat) : Act → Bool
  | .arrive site _ _ => sites.contains site
  | .edgeIn key _ _ _ _ => keys.contains key
  | _ => false

/-- The hot region switches: tokens on links are lost, and every site and edge port takes the new epoch in this one cycle. -/
def State.switchRegion (s : State) (x : ImgInfo) (epoch : Nat) (vm : List Nat) : State :=
  let sites := (siteList vm).filter fun p => decide (p.1 < x.h)
  let us := sites.map fun p => p.2.2
  let ks := x.hotEdges vm
  let s1 := { s with hearth :=
    { s.hearth with
      present := s.hearth.present.filter fun p => !us.contains p.1
      flights := s.hearth.flights.filter fun f => !f.act.onLink us ks } }
  (s1.switchSites x epoch sites).switchEdges epoch ks

/-- What a hot switch leaves to TRG, ACQ and ING: the swap gap, the old configuration for the takes that came before, and the
release ticks that a change of D makes zero (R59, R214 to R216, R256, R275). -/
def State.swapGap (s : State) (o x : ImgInfo) (k : Nat) : State :=
  let w := o.span / 64
  let k' := (if o.d ≤ x.d then x.d - o.d else o.d - x.d)
  let s1 := (s.breakPools 2 16 (List.range 16)).setF glbSwapTick_K k
  let s2 := s1.setF glbSwapGap_W w
  { s2 with
    hearth := { s2.hearth with gapFrom := k - w, gapTo := k }
    ing := if k' = 0 then s2.ing else { s2.ing with zeroFrom := k, zeroTo := k + k' }
    trg :=
      { s2.trg with
        old := some ⟨k - w - o.d, k - x.d, o.lat, o.d, s2.trg.active, s2.trg.tus, k - w - o.d⟩
        tus := [] } }

/-- The staged image comes into force in the hot region (R214). -/
def State.hotSwitch (s : State) (w : Swap) (x o : ImgInfo) : State :=
  let epoch := s.nextEpoch
  let vm := s.vmap x.base x.v
  let s1 := if x.h = 0 then s else (s.swapGap o x w.k).switchRegion x epoch vm
  let s2 := (s1.showImage x (mapOf vm)).writeTrigger x.trigger
  let s3 := ((s2.setF glbImgState_Epoch epoch).setF glbImgState_Staged 0).setF glbImgState_StagedEpoch 0
  let s4 := (if x.h = 0 then s3 else s3.setF glbHotSched_Epoch epoch).setT0 epoch w.k
  { s4 with
    hearth :=
      { s4.hearth with
        img := some { x with points := keepWarmHist o.points x.points }
        staged := none
        swap := some { w with hotDone := true } }
    zl := s4.zl.rebind x.cross }

/-- A swap is due whose hot switch has still to come. -/
def State.switchDue (s : State) : Option (Swap × ImgInfo × ImgInfo) :=
  match s.hearth.swap, s.hearth.staged, s.hearth.img with
  | some w, some x, some o => if !w.hotDone && w.k == s.tick && s.cycle == 0 then some (w, x, o) else none
  | _, _, _ => none

/-- HOT_EPOCH_SWITCH: at cycle 0 of tick K, once the digest windows of tick K − 1 have closed (R214, R338, R340). -/
def hotEpochSwitch (s : State) : State :=
  match s.switchDue with
  | some (w, x, o) => (hotDigestWindowClose s).hotSwitch w x ((hotDigestWindowClose s).hearth.img.getD o)
  | none => s

/-- The meaning of HOT_EPOCH_SWITCH. -/
def execHotEpochSwitch (s : State) : Out := .next (hotEpochSwitch s)

/-! ### MARK tokens (R217, R218) -/

/-- A MARK of an epoch (R119). -/
def markToken (epoch seq : Nat) : Token := ⟨0, epoch, seq % 256, false, false, true, false, none⟩

/-- A MARK behind the tokens of a queue: what follows it counts from 0. -/
def Queue.mark (q : Queue) (epoch : Nat) : Queue :=
  { q with toks := q.toks ++ [markToken epoch q.sent], sent := 0, epoch := epoch }

/-- A MARK on the transmit queue of each of a list of edge ports whose word is in use. -/
def State.markEdges (s : State) (epoch : Nat) : List Nat → State
  | [] => s
  | k :: ks =>
    let e := s.edge k
    (if qwCredited e.txWord then s.setEdge k { e with tx := e.tx.mark epoch } else s).markEdges epoch ks

/-- A RUN has sent its last token: every chunk is given and sent, every summary has entered, and nothing waits for the combine
group. -/
def Run.sentAll (r : Run) (chunkTokens : Nat) : Bool :=
  decide (r.chunks ≤ r.nextChunk) && r.replicas.all (fun p => p.chunk.isNone || decide (chunkTokens ≤ p.sent))
    && r.combQueue.isEmpty && (r.graph.comb.isNone || decide (r.chunks ≤ r.entered.length))

/-- The warm edge ports that send: the Stoker's ports of the warm courses, and the transmit queues of warm bindings. -/
def ImgInfo.markKeys (x : ImgInfo) (vm : List Nat) : List Nat :=
  ((vm.drop x.h).flatMap fun p => [edgeWest p, edgeEast p])
    ++ ((x.cross.filter fun b => b.warm && !b.rx).map fun b => edgeCross b.port)

/-- The MARKs of a swap, once every RUN of the old epoch has sent its last token. -/
def State.sendMarks (s : State) : State :=
  match s.hearth.swap with
  | none => s
  | some w =>
    match if w.hotDone then s.hearth.img else s.hearth.staged with
    | none => s
    | some x =>
      if w.marksSent || !s.stk.runs.all (fun r => r.sentAll (r.graph.chunk / 32)) then s
      else
        let epoch := if w.hotDone then s.getF glbImgState_Epoch else s.nextEpoch
        (s.setSwap (some { w with marksSent := true })).markEdges epoch (x.markKeys (s.vmap x.base x.v))

/-- STOKER_MARK_ENQUEUE (R217). -/
def stokerMarkEnqueue (s : State) : State := s.sendMarks

/-- The meaning of STOKER_MARK_ENQUEUE. -/
def execStokerMarkEnqueue (s : State) : Out := .next (stokerMarkEnqueue s)

/-- SWAP_EPOCH: K must lie 16 ticks ahead and a staged image must be complete; a Hearth that is halted already has missed the swap.
With no RUN in flight the MARKs go out at once (R213, R217, R221). -/
def swapEpoch (tag : Nat) (s : State) : State :=
  match s.startable tag 0x02 with
  | none => s
  | some d =>
    let k := dfield d 8 8
    let s1 := s.begin tag
    if k < s.tick + 16 ∨ s.hearth.staged = none then s1.loaderDone tag 0x1B k
    else if !s.running then s1.loaderDone tag 0x1D k
    else
      let s2 := (s1.setSwap (some ⟨tag, k, s.tick, false, false, false⟩)).setF glbImgState_SwapPending 1
      let s3 := s2.setF glbSwapGap_Discarded 0
      if s.stk.runs.isEmpty then s3.sendMarks else s3

/-- The meaning of SWAP_EPOCH. -/
def execSwapEpoch (tag : Nat) (s : State) : Out := .next (swapEpoch tag s)

/-! ### The warm switch (R218, R219) -/

/-- The epoch to which a swap in progress leads. -/
def State.swapTo (s : State) (w : Swap) : Nat := if w.hotDone then s.getF glbImgState_Epoch else s.nextEpoch

/-- The image to which a swap in progress leads. -/
def State.swapImage (s : State) (w : Swap) : Option ImgInfo := if w.hotDone then s.hearth.img else s.hearth.staged

/-- The unit at which a delayed effect acts as an operation of the unit. -/
def Act.unitAt : Act → Option Nat
  | .mac u .. => some u
  | .tile u .. => some u
  | .sideBuf u .. => some u
  | .scal u .. => some u
  | .take u .. => some u
  | .results u .. => some u
  | .vfive u .. => some u
  | .vwrite u .. => some u
  | .recv u .. => some u
  | .send u .. => some u
  | .muRead u .. => some u
  | .muWrite u .. => some u
  | .xferStore u .. => some u
  | .arrive .. => none
  | .enqueue .. => none
  | .edgeIn .. => none
  | .linkIn .. => none

/-- No operation of a unit is in flight. -/
def State.unitQuiet (s : State) (u : Nat) : Bool :=
  !s.hearth.flights.any (fun f => f.act.unitAt == some u) && (s.unit u).xfers.isEmpty

/-- The input queues, and the output queues, that a unit's grate uses. -/
def State.usedIq (s : State) (u : Nat) : List Nat := (List.range 4).filter fun q => qwCredited ((s.grate u).qWord q)
def State.usedOq (s : State) (u : Nat) : List Nat := [4, 5, 6, 7].filter fun q => qwCredited ((s.grate u).qWord q)

/-- A MARK stands at the head of an input queue. -/
def State.markHead (s : State) (u q : Nat) : Bool := match s.headOf u q with | some t => t.mark | none => false

/-- A unit of a warm course, of a mode in the new image, may switch: its MARKs are there, its next issue would be bundle 0, nothing
of it is in flight, and its output queues have room for a MARK. -/
def State.warmReady (s : State) (u epoch mode : Nat) : Bool :=
  let x := s.unit u
  let iq := s.usedIq u
  s.running && s.siteOn u && s.grMode u == 2 && (s.unitMode u == 2 || mode == 2) && s.getF (hrtUnitCfg_Epoch u) != epoch
    && x.bundle == 0 && s.unitQuiet u
    && (x.netMark || (!iq.isEmpty && iq.all (s.markHead u)))
    && (s.usedOq u).all (fun q => decide (((s.grate u).queue q).toks.length < s.qDepth u q))

/-- MARKs leave the heads of input queues. -/
def State.dropMarks (s : State) (u : Nat) : List Nat → State
  | [] => s
  | q :: qs => (if s.markHead u q then (s.takeHead u q).1 else s).dropMarks u qs

/-- MARKs join output queues. -/
def State.putMarks (s : State) (u epoch : Nat) : List Nat → State
  | [] => s
  | q :: qs => (s.setGrate u ((s.grate u).setQueue q (((s.grate u).queue q).mark epoch))).putMarks u epoch qs

/-- WARM_UNIT_SWITCH (R218). -/
def warmUnitSwitch (u : Nat) (s : State) : State :=
  match s.hearth.swap with
  | none => s
  | some w =>
    let epoch := s.swapTo w
    match s.swapImage w with
    | none => s
    | some x =>
      if !w.marksSent || !s.warmReady u epoch (x.mode (s.vcourse (courseOf u)) (columnOf u)) then s
      else
        let s1 := (s.dropMarks u (s.usedIq u)).putMarks u epoch (s.usedOq u)
        let s2 := s1.setUnit u { (s1.unit u).switch (isMu u) with graphOn := false, netMark := false }
        let v := s.vcourse (courseOf u)
        let c := columnOf u
        let s3 := ((s2.setF (hrtUnitCfg_Mode u) (x.mode v c)).setF (hrtUnitCfg_Plog u) x.plog).setF (hrtUnitCfg_Plen u)
          (listGet 0 x.plens (12 * v + c))
        (s3.setF (hrtUnitCfg_Epoch u) epoch).setF (hrtLatPad_V3pad u) (if isMu u then 0 else x.v3pad)

/-- The meaning of WARM_UNIT_SWITCH. -/
def execWarmUnitSwitch (site : Nat) (s : State) : Out := .next (warmUnitSwitch site s)

/-- The routes that a warm grate carries: input and mask of each entry in use. -/
def State.grRoutes (s : State) (g : Nat) : List Nat :=
  (inputsOf g).flatMap fun i => (List.range (64 * 2 ^ s.getF (grCfg_Plog g))).filterMap fun e =>
    let m := slotMask (s.grate g) g i e
    if m = 0 then none else some (2048 * i + m)

/-- WARM_GRATE_SWITCH: a warm grate takes its new tables when every route it carries has passed a MARK (R218). -/
def warmGrateSwitch (g : Nat) (s : State) : State :=
  match s.hearth.swap with
  | none => s
  | some w =>
    let epoch := s.swapTo w
    match s.swapImage w with
    | none => s
    | some x =>
      let y := s.grate g
      if s.running && w.marksSent && decide (g < 300) && !s.relay g && s.grMode g == 2 && s.getF (grCfg_Epoch g) != epoch
          && (s.grRoutes g).all y.marked.contains then
        ((s.setGrate g y.switch).setF (grCfg_Plog g) x.plog).setF (grCfg_Epoch g) epoch
      else s

/-- The meaning of WARM_GRATE_SWITCH. -/
def execWarmGrateSwitch (site : Nat) (s : State) : Out := .next (warmGrateSwitch site s)

/-- A queue that waits after its MARK has all its credits back: the counter takes the new INIT_CREDIT. -/
def Queue.creditStart (q : Queue) (init : Nat) : Queue :=
  match q.hold with
  | none => q
  | some n => if n ≤ q.credits then { q with credits := init, hold := none } else q

/-- The word of a grate's queue in the new epoch: the shadow's until the grate has switched. -/
def State.newWord (s : State) (g q epoch : Nat) : Nat :=
  let x := s.grate g
  if s.getF (grCfg_Epoch g) = epoch then x.qWord q else ({ x with tab := x.shadow } : Grate).qWord q

/-- CREDIT_EPOCH_START: the new epoch of a credited sender begins in the cycle in which its counter has risen to the old INIT_CREDIT
(R219). A sender of an edge port takes its new word in the same cycle; keys from 4960 on name transmit queues of crossing ports. -/
def creditEpochStart (k : Nat) (s : State) : State :=
  if k < 4800 then
    let g := k / 16
    let q := inputQueue (k % 16)
    let y := s.grate g
    match (y.queue q).hold with
    | none => s
    | some n =>
      let epoch := match s.hearth.swap with | some w => s.swapTo w | none => s.getF glbImgState_Epoch
      if n ≤ (y.queue q).credits then s.setGrate g (y.setQueue q ((y.queue q).creditStart (qwInit (s.newWord g q epoch)))) else s
  else
    let j := if k < 4960 then k - 4800 else k - 4960 + 128
    let e := s.edge j
    if k < 4960 ∧ j / 32 = 4 then
      match e.rx.hold with
      | none => s
      | some n =>
        if n ≤ e.rx.credits then s.setEdge j { e with rx := e.rx.creditStart (qwInit e.rxShadow), rxWord := e.rxShadow } else s
    else
      match e.tx.hold with
      | none => s
      | some n =>
        if n ≤ e.tx.credits then
          s.setEdge j { e with tx := e.tx.creditStart (qwInit e.txShadow), txWord := e.txShadow, edge := e.edgeShadow }
        else s

/-- The meaning of CREDIT_EPOCH_START. -/
def execCreditEpochStart (sender : Nat) (s : State) : Out := .next (s.when (decide (sender < 4984)) (creditEpochStart sender s))

/-! ### The end of a swap (R220, R221) -/

/-- Every unit that is warm in the new image is in the new epoch. -/
def State.warmDone (s : State) (x : ImgInfo) (epoch : Nat) : Bool :=
  (siteList (s.vmap x.base x.v)).all fun p =>
    decide (p.1 < x.h) || !(x.mode p.1 p.2.1 == 2 || s.unitMode p.2.2 == 2) || s.getF (hrtUnitCfg_Epoch p.2.2) == epoch

/-- SWAP_TIMEOUT: the warm region has not switched SWAP_CTRL.TIMEOUT ticks after the start (R220). The descriptor completes and the swap
ends with it, so that a hot switch at a K that has still to come is not made; the rule does not say whether it is (DESIGN CHOICE, log
entry 94). -/
def swapTimeout (s : State) : State :=
  match s.hearth.swap with
  | none => s
  | some w =>
    match s.swapImage w with
    | none => s
    | some x =>
      if decide (w.startTick + s.getF glbSwapCtrl_Timeout ≤ s.tick) && !s.warmDone x (s.swapTo w) then
        (s.endSwap w 0x1C w.k).assertSrc 19
      else s

/-- The meaning of SWAP_TIMEOUT. -/
def execSwapTimeout (s : State) : Out := .next (swapTimeout s)

/-- Edge ports whose receiving word takes its new value. -/
def State.newRxWords (s : State) : List Nat → State
  | [] => s
  | k :: ks => (s.setEdge k { s.edge k with edge := (s.edge k).edgeShadow, rxWord := (s.edge k).rxShadow }).newRxWords ks

/-- SWAP_EPOCH_COMPLETE: the hot switch has happened and every warm unit has switched (R221). -/
def swapEpochComplete (s : State) : State :=
  match s.hearth.swap, s.hearth.img with
  | some w, some x =>
    if w.hotDone && s.warmDone x (s.getF glbImgState_Epoch) then
      let vm := s.vmap x.base x.v
      (s.newRxWords ((vm.drop x.h).flatMap fun p => [edgeWest p, edgeEast p])).endSwap w 0 w.k
    else s
  | _, _ => s

/-- The meaning of SWAP_EPOCH_COMPLETE. -/
def execSwapEpochComplete (s : State) : Out := .next (swapEpochComplete s)

end Sys2Proof.Machine
end

