-- ==== Sys2Proof/Machine/StkRun.lean ====
section
/-!
DEFINITION. Warm graphs: RUN, the distributor, the stream ports, summaries and the end of a RUN (R313 to R319).
-/
namespace Sys2Proof.Machine

/-! ### RUNs in progress -/

/-- The RUN of a descriptor. -/
def State.runOf (s : State) (tag : Nat) : Option Run := s.stk.runs.find? fun r => r.tag == tag

/-- The state with a RUN replaced. -/
def State.setRun (s : State) (r : Run) : State :=
  { s with stk := { s.stk with runs := s.stk.runs.map fun q => if q.tag == r.tag then r else q } }

/-- The physical course of a virtual one of the image in force. -/
def State.physOf (s : State) (v : Nat) : Nat := listGet 25 s.courses v

/-- The DMA engine's hold line holds (R319). -/
def State.dmaHeld (s : State) : Bool := s.pwr.line2.testBit 25

/-- One more choice of a RUN (R317). -/
def State.choice (s : State) (r : Run) (is : Bool) : State × Run :=
  if is then (s.bump stkChoicesF 1, { r with choices := r.choices + 1 }) else (s, r)

/-! ### Decoding a record (R268, R269, R314) -/

/-- From an element on, the stream has this value, or none, and its tags. -/
structure Seg where
  start : Nat
  value : Option (BitVec 16)
  tags : Tags
  deriving DecidableEq, Repr

/-- The decoder: first element of the tick, elements of it that have passed, the last value, and whether HOLD comes next. -/
structure Dec where
  base : Nat
  next : Nat
  cur : BitVec 16
  sus : Bool
  hold : Bool
  segs : List Seg
  deriving DecidableEq, Repr

/-- One word of a stream; elements are counted from element 0 of device tick `first`. A poisoned word leaves no value. -/
def Dec.word (d : Dec) (e first : Nat) (w : Nat) (poi : Bool) : Dec :=
  if poi then { d with segs := ⟨d.base + d.next, none, ⟨true, true⟩⟩ :: d.segs, hold := false }
  else if d.hold then
    let x := BitVec.ofNat 16 (w / 2 ^ 16)
    { d with next := 0, cur := x, sus := w.testBit 0, hold := false, segs := ⟨d.base, some x, ⟨w.testBit 0, false⟩⟩ :: d.segs }
  else if w / 2 ^ 30 ≤ 1 then
    let at' := d.next + bitsAt w 16 14
    let x := BitVec.ofNat 16 w
    { d with next := at' + 1, cur := x, sus := w.testBit 30, segs := ⟨d.base + at', some x, ⟨w.testBit 30, false⟩⟩ :: d.segs }
  else
    let code := bitsAt w 24 6
    let arg := bitsAt w 0 24
    if code = 1 then { d with base := e * ((arg + 2 ^ 24 - first % 2 ^ 24) % 2 ^ 24), next := 0, hold := true }
    else if code = 2 ∨ code = 4 then
      { d with
        next := d.next + arg
        segs := ⟨d.base + d.next + arg, some d.cur, ⟨d.sus, false⟩⟩ :: ⟨d.base + d.next, none, ⟨true, false⟩⟩ :: d.segs }
    else d

/-- The words of a record's stream, with wrap at the end of the ring. -/
def State.ringWords (s : State) (base size at' : Nat) : Nat → State × List (Nat × Bool)
  | 0 => (s, [])
  | n + 1 =>
    let r := s.hbmRead 4 0x1FF (base + at' % size) 4
    let q := r.1.ringWords base size (at' + 4) n
    (q.1, (ofLe r.2.1, r.2.2) :: q.2)

/-- An input element of an EXPAND run: what has no value is 0 and suspect. -/
def elemAt (segs : List Seg) (a : Int) (lost : Bool) : BitVec 16 × Tags :=
  let none' : BitVec 16 × Tags := (0, ⟨true, false⟩)
  if lost || decide (a < 0) then none'
  else match segs.find? fun g => decide (g.start ≤ a.toNat) with
    | none => none'
    | some g => match g.value with
      | some x => (x, g.tags)
      | none => (0, g.tags)

/-- The input of an EXPAND run: the elements from PRE before the trigger element on (R314). -/
def State.expand (s : State) (pool elems : Nat) (rec' : List Byte) : State × List (BitVec 16 × Tags) :=
  let f := dfield rec'
  let e := s.getF (trgPoolCap_E pool)
  let base := 4096 * s.getF (trgPoolRingBase_Addr pool)
  let size := s.ringSize pool
  let ch := match (s.pool pool).kept.find? fun k => k.1 == f 0 8 with | some k => k.2.2 | none => 0
  let tau := (256 * f 16 2 + f 18 1) * 64 / s.samplesPerTick ch
  let trig : Int := (e : Int) * ((f 8 8 : Int) - f 40 8) + tau * e / 16384
  let r := s.ringWords base size (f 24 8 - base) (f 32 8 / 4)
  let d := r.2.foldl (fun (d : Dec) w => d.word e (f 40 8) w.1 w.2) ⟨0, 0, 0, false, false, []⟩
  (r.1, (List.range elems).map fun (m : Nat) => elemAt d.segs (trig - f 48 4 + m) (decide (f 48 4 + f 56 4 ≤ m)))

/-! ### RUN (R314) -/

/-- Tokens read from an address word, 64 bytes each and the last one filled with zeros, and whether the bus refused one. -/
def State.readTokens (s : State) (aw : Nat) : Nat → Nat → State × List (BitVec 512 × Tags) × Bool
  | 0, _ => (s, [], false)
  | n + 1, bytes =>
    let r := s.awRead 4 aw (min 64 bytes)
    let q := r.1.readTokens (aw + 64) n (bytes - 64)
    (q.1, (BitVec.ofNat 512 (ofLe r.2.1), ⟨false, r.2.2.1⟩) :: q.2.1, r.2.2.2 || q.2.2)

/-- An entry's statistics with an empty open window and no scale that waits. -/
def Rqt.emptied (r : Rqt) : Rqt := { r with win := Win.empty, next := none }

/-- A warm unit at the start of its graph: bundle 0 of step 0, with a first window that begins there (R97, R184). So that no earlier
RUN shows in the tokens of this one (R327), scales, pattern bases and counters and accumulator sets are those of the image and its table
writes (DEDUCED, log entry 115). -/
def HUnit.graphStart (u : HUnit) (mu : Bool) : HUnit :=
  let v := u.moveBack
  let x : HUnit := { v with
    graphOn := true
    bundle := 0
    step := 0
    pastStep := 0
    granted := 0
    accs := []
    ctrs := []
    digs := []
    wins := 0
    rqts := v.rqts.filterMap fun e => if e.2.emptied = Rqt.init then none else some (e.1, e.2.emptied) }
  if mu then x else x.publish

/-- The units of a graph start at bundle 0 of step 0. -/
def State.startUnits (s : State) : List Nat → State
  | [] => s
  | u :: us => (if s.unitMode u = 2 then s.setUnit u ((s.unit u).graphStart (isMu u)) else s).startUnits us

/-- Warm digest history of a graph's points is cleared (R341). -/
def State.clearWarmHist (s : State) (g : Nat) : State :=
  { s with hearth := { s.hearth with img := s.hearth.img.map fun i =>
      { i with points := i.points.map fun p => if p.region == 1 && p.graph == g then { p with hist := [] } else p } } }

/-- A RUN begins: its state is read for the combine group, and every unit of its graph starts (R314, R315, R316). -/
def State.beginRun (s : State) (tag : Nat) (d : List Byte) (g : GraphEnt) (decoded : List (BitVec 16 × Tags)) : State :=
  let n := dfield d 12 4
  let bytes := if g.comb.isSome then g.stateBytes else 0
  let st := s.readTokens (dfield d 32 8) ((bytes + 63) / 64) bytes
  let r : Run :=
    ⟨tag, g, dfield d 10 1, n, dfield d 16 8, dfield d 24 8, dfield d 32 8, dfield d 40 8, decoded,
      dRepro d || !s.flag stkCtrl_Balance, dRepro d, (n + g.chunk - 1) / g.chunk, 0, List.replicate g.replicas ⟨none, 0, 0, []⟩, [], [], [],
      st.2.1, 0, [], 0, bytes, 0, 0, false, false, st.2.2⟩
  let s1 := ((st.1.begin tag).startUnits (s.graphUnits g)).clearWarmHist g.graph
  { s1 with stk := { s1.stk with runs := s1.stk.runs ++ [r] } }

/-- An address that must lie in device memory. -/
def badDevAddr (a : Nat) : Bool := decide (2 ^ 40 ≤ a)

/-- The operands of a RUN are in range, but for its record (R297, R303, R314). -/
def runOperands (d : List Byte) : Bool :=
  let n := dfield d 12 4
  let mode := dfield d 10 1
  let pool := dfield d 11 1
  decide (1 ≤ n ∧ n ≤ 4194304) && decide (mode ≤ 1) && decide (pool < if mode = 1 then 16 else 1)
    && !(if mode = 1 then badDevAddr (dfield d 16 8) else badAddrWord (dfield d 16 8)) && !badAddrWord (dfield d 24 8)
    && !badAddrWord (dfield d 32 8) && !badDevAddr (dfield d 40 8)

/-- RUN: its operands are checked in the order of R314, and it begins. While the DMA line holds, a RUN that has to read its record or
its carried state does not begin yet (R319). -/
def runDesc (tag : Nat) (s : State) : State :=
  match s.startable tag 0x03 with
  | none => s
  | some d =>
    match (match s.hearth.img with | some i => i.graphs.find? fun (g : GraphEnt) => g.graph == dfield d 8 2 | none => none) with
    | none => s.complete tag stNoGraph 0
    | some g =>
      if !runOperands d then s.complete tag stBadOperand 0
      else if s.dmaHeld && (dfield d 10 1 == 1 || (g.comb.isSome && decide (0 < g.stateBytes))) then s
      else if dfield d 10 1 = 0 then s.beginRun tag d g []
      else
        let pool := dfield d 11 1
        let r := s.hbmRead 4 0x1FF (dfield d 16 8) 64
        let n := dfield r.2.1 0 8
        if r.2.2 then r.1.complete tag stPoison 0
        else if n < s.getF (trgPoolRelease_Record pool) ∨ s.getF (trgPoolNext_Record pool) ≤ n then r.1.complete tag stBadOperand 0
        else
          let x := r.1.expand pool (dfield d 12 4) r.2.1
          x.1.beginRun tag d g x.2

/-- The meaning of RUN. -/
def execRunDesc (tag : Nat) (s : State) : Out := .next (runDesc tag s)

/-! ### The distributor (R316, R317) -/

/-- The tokens of a chunk. -/
def GraphEnt.chunkTokens (g : GraphEnt) : Nat := g.chunk / 32

/-- A replica is free: its west port has taken the last token of the chunk it was last given. -/
def Run.free (r : Run) (j : Nat) : Bool :=
  match r.replicas[j]? with
  | none => false
  | some p => p.chunk.isNone || decide (r.graph.chunkTokens ≤ p.sent)

/-- The replica that the next chunk goes to, if one may take it. -/
def Run.pick (r : Run) : Option Nat :=
  let home := r.nextChunk % r.graph.replicas
  if r.chunks ≤ r.nextChunk then none
  else if r.fixed then (if r.free home then some home else none)
  else (List.range r.graph.replicas).find? r.free

/-- CHUNK_ASSIGN: the next chunk goes to a replica; one that is not its own is a choice. -/
def chunkAssign (tag : Nat) (s : State) : State :=
  match s.runOf tag with
  | none => s
  | some r =>
    match r.pick with
    | none => s
    | some j =>
      let give (p : Replica) : Replica := { p with chunk := some r.nextChunk, sent := 0, outChunks := p.outChunks ++ [r.nextChunk] }
      let rs := r.replicas.zipIdx.map fun p => if p.2 = j then give p.1 else p.1
      let c := s.choice { r with replicas := rs, nextChunk := r.nextChunk + 1 } (j != r.nextChunk % r.graph.replicas)
      c.1.setRun c.2

/-- The meaning of CHUNK_ASSIGN. -/
def execChunkAssign (tag : Nat) (s : State) : Out := .next (chunkAssign tag s)

/-! ### Stream ports (R130, R133, R315, R319) -/

/-- The edge port that a number names: 2·course for a west port, 2·course + 1 for an east one. -/
def portKey (port : Nat) : Nat := if port % 2 = 0 then edgeWest (port / 2) else edgeEast (port / 2)

/-- The first, or last, virtual course of a replica and of the combine group. -/
def GraphEnt.edgeCourse (g : GraphEnt) (j : Nat) (last : Bool) : Nat := g.first + g.courses * j + (if last then g.courses - 1 else 0)
def GraphEnt.combCourse (g : GraphEnt) (last : Bool) : Option Nat := g.comb.map fun c => c + (if last then g.combCourses - 1 else 0)

/-- What a port serves: a RUN, and a replica of it or its combine group. West ports feed, and east ports drain. -/
def State.portRole (s : State) (key : Nat) : Option (Run × Option Nat) :=
  let last := decide (96 ≤ key)
  let is (v : Nat) : Bool := (if last then edgeEast (s.physOf v) else edgeWest (s.physOf v)) == key
  s.stk.runs.findSome? fun r =>
    match (List.range r.graph.replicas).find? fun j => is (r.graph.edgeCourse j last) with
    | some j => some (r, some j)
    | none => match r.graph.combCourse last with
      | some v => if is v then some (r, none) else none
      | none => none

/-- Token k of a chunk: its data and tags, whether it is VOID, and whether the bus refused its read (R314). A token of which a read has
timed out is poisoned (R430). -/
def State.inputToken (s : State) (r : Run) (chunk k : Nat) : State × (BitVec 512 × Tags) × Bool × Bool :=
  let b := chunk * r.graph.chunk + 32 * k
  let n := min 32 (r.elems - b)
  if n = 0 then (s, (0, Tags.clear), true, false)
  else if r.inMode = 0 then
    let x := s.awRead 4 (r.inAddr + 2 * b) (2 * n)
    if r.lost.any fun l => decide (l.1 < 2 * (b + n) ∧ 2 * b < l.1 + l.2) then
      let f := x.1.drawBytes (2 * n)
      (f.2, (BitVec.ofNat 512 (ofLe f.1), ⟨false, true⟩), false, x.2.2.2)
    else (x.1, (BitVec.ofNat 512 (ofLe x.2.1), ⟨false, x.2.2.1⟩), false, x.2.2.2)
  else
    let es := (r.decoded.drop b).take n
    let t := es.foldl (fun (t : Tags) e => t.or e.2) Tags.clear
    (s, (BitVec.ofNat 512 (ofLe (es.flatMap fun e => leBytes 2 e.1.toNat)), t), false, false)

/-- A token joins a port's transmit queue (R119). -/
def State.portPush (s : State) (key : Nat) (x : BitVec 512 × Tags) (void : Bool) : State :=
  let e := s.edge key
  let t : Token := ⟨x.1, e.tx.epoch, e.tx.sent % 256, x.2.poi, x.2.sus, false, void, none⟩
  s.setEdge key { e with tx := { e.tx with toks := e.tx.toks ++ [t], sent := e.tx.sent + 1 } }

/-- The Stoker gives a port the next token of what it serves, while the queue has room and the hold line does not hold. -/
def State.portFeed (s : State) (key : Nat) : State :=
  if s.dmaHeld || decide (64 ≤ (s.edge key).tx.toks.length) then s
  else match s.portRole key with
    | none => s
    | some (r, none) => match r.combQueue with
      | [] => s
      | x :: xs => (s.portPush key x false).setRun { r with combQueue := xs, combSent := r.combSent + 1 }
    | some (r, some j) => match r.replicas[j]? with
      | none => s
      | some p => match p.chunk with
        | none => s
        | some c =>
          if r.graph.chunkTokens ≤ p.sent then s
          else
            let x := s.inputToken r c p.sent
            let rs := listSet r.replicas j { p with sent := p.sent + 1 }
            (x.1.portPush key x.2.1 x.2.2.1).setRun { r with replicas := rs, busOff := r.busOff || x.2.2.2 }

/-- STREAM_PORT_SEND: the port takes its next token, and its head crosses where the slot table of the adjoining grate takes it in this
cycle and a credit is there (R133). -/
def streamPortSend (port : Nat) (s : State) : State :=
  let key := portKey port
  let site := edgeSite key
  let input := port % 2
  if !s.running || s.relay site || s.grMode site != 2 then s
  else
    let s1 := if port % 2 = 0 then s.portFeed key else s
    let e := s1.edge key
    match e.tx.toks with
    | [] => s1
    | t :: _ =>
      if slotMask (s1.grate site) site input (s1.grEntry site 0) = 0 || mayWait e.txWord e.tx then s1
      else
        let s2 := s1.setEdge key { e with tx := sentFrom e.txWord e.tx }
        { s2 with hearth := { s2.hearth with present := s2.hearth.present ++ [(site, input, { t with port := some key })] } }

/-- The meaning of STREAM_PORT_SEND. -/
def execStreamPortSend (port : Nat) (s : State) : Out := .next (s.when (decide (port < 50)) (streamPortSend port s))

/-- A token of a RUN written to memory, n of its 64 bytes. -/
def State.portWrite (s : State) (r : Run) (aw : Nat) (t : Token) (n : Nat) : State × Run :=
  let w := s.awWrite 4 aw ((leBytes 64 (if t.void then 0 else t.data.toNat)).take n) t.poison true
  (w.1, { r with sawPoison := r.sawPoison || t.poison, sawSuspect := r.sawSuspect || t.suspect, busOff := r.busOff || w.2 })

/-- An arrived summary in its place: by core cycle, then by chunk (R316). -/
def arrive (l : List (Nat × Nat × List (BitVec 512 × Tags))) (x : Nat × Nat × List (BitVec 512 × Tags)) :
    List (Nat × Nat × List (BitVec 512 × Tags)) :=
  l.filter (fun y => decide (y.1 < x.1) || (y.1 == x.1 && decide (y.2.1 < x.2.1))) ++ [x]
    ++ l.filter (fun y => !(decide (y.1 < x.1) || (y.1 == x.1 && decide (y.2.1 < x.2.1))))

/-- A token of a replica: the output of its chunk, then the chunk's summary for a combine group (R315, R316). -/
def State.replicaOut (s : State) (r : Run) (j : Nat) (p : Replica) (c : Nat) (t : Token) : State :=
  let g := r.graph
  let last := g.outChunk + (if g.comb.isSome then g.sumTokens else 0)
  let p' : Replica := if p.drained + 1 < last then { p with drained := p.drained + 1 } else { p with drained := 0, outChunks := p.outChunks.drop 1 }
  let rs := listSet r.replicas j p'
  if p.drained < g.outChunk then
    let w := s.portWrite r (r.outAddr + 64 * (g.outChunk * c + p.drained)) t 64
    w.1.setRun { w.2 with replicas := rs, written := r.written + 1 }
  else
    let toks := (match r.arriving.find? fun a => a.1 == j with | some a => a.2 | none => [])
      ++ [(if t.void then 0 else t.data, (⟨t.suspect, t.poison⟩ : Tags))]
    let others := r.arriving.filter fun a => a.1 != j
    if p.drained + 1 < last then s.setRun { r with replicas := rs, arriving := others ++ [(j, toks)] }
    else s.setRun { r with replicas := rs, arriving := others, arrived := arrive r.arrived (s.cyc, c, toks) }

/-- A token of the combine group: the carried state, then the FINAL tokens (R315). -/
def State.combineOut (s : State) (r : Run) (t : Token) : State :=
  let g := r.graph
  if 0 < r.stateLeft then
    let w := s.portWrite r (r.stateAddr + (g.stateBytes - r.stateLeft)) t (min 64 r.stateLeft)
    w.1.setRun { w.2 with stateLeft := r.stateLeft - 64 }
  else if r.finals < g.finalTokens then
    let w := s.portWrite r (r.outAddr + 64 * (g.outChunk * r.chunks + r.finals)) t 64
    w.1.setRun { w.2 with finals := r.finals + 1, written := r.written + 1 }
  else s

/-- STREAM_PORT_DRAIN: the head of a port's receive queue goes where its RUN puts it; a MARK only sets the queue's epoch (R137, R315,
R319). -/
def streamPortDrain (port : Nat) (s : State) : State :=
  let key := portKey port
  if !s.running || s.dmaHeld then s
  else
    let r := s.takeEdge key
    match r.2 with
    | none => s
    | some t =>
      if t.mark then
        let e := r.1.edge key
        r.1.setEdge key { e with rx := { e.rx with epoch := t.epoch } }
      else match s.portRole key with
        | none => s
        | some (x, none) => if 0 < x.stateLeft ∨ x.finals < x.graph.finalTokens then r.1.combineOut x t else s
        | some (x, some j) => match x.replicas[j]? with
          | none => s
          | some p => match p.outChunks with
            | [] => s
            | c :: _ => r.1.replicaOut x j p c t

/-- The meaning of STREAM_PORT_DRAIN. -/
def execStreamPortDrain (port : Nat) (s : State) : Out := .next (s.when (decide (port < 50)) (streamPortDrain port s))

/-! ### Summaries and the end (R315 to R317) -/

/-- The summary that enters next: in chunk order, or the first that arrived. -/
def Run.nextSummary (r : Run) : Option (Nat × List (BitVec 512 × Tags)) :=
  if r.graph.order = 0 || r.repro then (r.arrived.find? fun a => a.2.1 == r.entered.length).map fun a => a.2
  else r.arrived.head?.map fun a => a.2

/-- SUMMARY_ENTER: one ahead of a lower chunk's summary is a choice. -/
def summaryEnter (tag : Nat) (s : State) : State :=
  match s.runOf tag with
  | none => s
  | some r =>
    match r.nextSummary with
    | none => s
    | some (c, toks) =>
      let ahead := (List.range c).any fun i => !r.entered.contains i
      let x := s.choice
        { r with arrived := r.arrived.filter fun a => a.2.1 != c, entered := r.entered ++ [c], combQueue := r.combQueue ++ toks } ahead
      x.1.setRun x.2

/-- The meaning of SUMMARY_ENTER. -/
def execSummaryEnter (tag : Nat) (s : State) : Out := .next (summaryEnter tag s)

/-- Every write of a RUN has landed. -/
def Run.ended (r : Run) : Bool :=
  decide (r.chunks ≤ r.nextChunk) && r.replicas.all (fun p => p.outChunks.isEmpty)
    && (r.graph.comb.isNone || (decide (r.chunks ≤ r.entered.length) && r.stateLeft == 0 && decide (r.graph.finalTokens ≤ r.finals)))

/-- The status of a RUN (R315, R322). -/
def Run.status (r : Run) : Nat :=
  if r.busOff then stBusOff else if r.sawPoison then stPoison else if r.sawSuspect then stSuspect else stOk

/-- RUN_COMPLETE: the units of the graph stop, and the descriptor completes (R315, R317). -/
def runComplete (tag : Nat) (s : State) : State :=
  match s.runOf tag with
  | none => s
  | some r =>
    if r.ended then
      let s1 := s.stopUnits (s.graphUnits r.graph)
      ({ s1 with stk := { s1.stk with runs := s1.stk.runs.filter fun q => q.tag != tag } }).complete tag r.status r.result
    else s

/-- The meaning of RUN_COMPLETE. -/
def execRunComplete (tag : Nat) (s : State) : Out := .next (runComplete tag s)

end Sys2Proof.Machine
end

