-- ==== Sys2Proof/Machine/Stoker.lean ====
section
/-!
DEFINITION. The Stoker's queues: doorbells, descriptor fetch and start, completions and interrupts, FENCE and BARRIER, and the
disabling of queues, functions and bus mastering (R297 to R312, R320 to R322, R380).
-/
namespace Sys2Proof.Machine

/-! ### Queues (R298 to R300) -/

/-- A submission queue beyond its registers. -/
def State.sq (s : State) (q : Nat) : Sq := mget (fun _ => Sq.init) s.stk.sqs q

/-- The state with a submission queue replaced. -/
def State.setSq (s : State) (q : Nat) (x : Sq) : State := { s with stk := { s.stk with sqs := mput (fun _ => Sq.init) s.stk.sqs q x } }

/-- The size of a ring. -/
def State.sqSize (s : State) (q : Nat) : Nat := 2 ^ s.getF (stkSqCfg_Log2size q)
def State.cqSize (s : State) (q : Nat) : Nat := 2 ^ s.getF (stkCqCfg_Log2size q)

/-- Descriptors published and not started: from HEAD up to TAIL. -/
def State.published (s : State) (q : Nat) : Nat :=
  (s.getF (stkSqTail_Index q) + s.sqSize q - s.getF (stkSqHead_Index q)) % s.sqSize q

/-- The last value written to a doorbell (R437). -/
def State.rang (s : State) (i : Nat) (v : W32) : State := { s with stk := { s.stk with doorbells := mput (fun _ => 0) s.stk.doorbells i v } }

/-- SQ_DOORBELL: TAIL, unless the value is at or above the ring size (R299). -/
def sqDoorbell (q : Nat) (value : W32) (s : State) : State :=
  let s1 := s.rang q value
  if value.toNat < s.sqSize q then s1.setF (stkSqTail_Index q) value.toNat else s1.raise stkStatus_DbErr

/-- The meaning of SQ_DOORBELL. -/
def execSqDoorbell (queue : Nat) (value : W32) (s : State) : Out := .next (s.when (decide (queue < 16) && s.barOn) (sqDoorbell queue value s))

/-- CQ_DOORBELL: HEAD, unless the value is at or above the ring size (R299). -/
def cqDoorbell (q : Nat) (value : W32) (s : State) : State :=
  let s1 := s.rang (16 + q) value
  if value.toNat < s.cqSize q then s1.setF (stkCqHead_Index q) value.toNat else s1.raise stkStatus_DbErr

/-- The meaning of CQ_DOORBELL. -/
def execCqDoorbell (queue : Nat) (value : W32) (s : State) : Out := .next (s.when (decide (queue < 16) && s.barOn) (cqDoorbell queue value s))

/-- A submission queue reads and starts descriptors (R320). -/
def State.sqOn (s : State) (q : Nat) : Bool := s.flag stkCtrl_En && s.flag (stkSqCtrl_En q)

/-- The address word of the k-th descriptor from HEAD on. -/
def State.sqSlot (s : State) (q k : Nat) : Nat := s.getF (stkSqBase_Addr q) + 64 * ((s.getF (stkSqHead_Index q) + k) % s.sqSize q)

/-- DESCRIPTOR_FETCH: one published descriptor more is read, at most 8 ahead; a queue in host memory waits for bus mastering (R300,
R322). -/
def descriptorFetch (q : Nat) (s : State) : State :=
  let x := s.sq q
  let n := x.fetched.length
  if !s.sqOn q || decide (8 ≤ n) || decide (s.published q ≤ n) || (isHostAddr (s.getF (stkSqBase_Addr q)) && s.busOff) then s
  else
    let r := s.awRead 5 (s.sqSlot q n) 64
    r.1.setSq q { x with fetched := x.fetched ++ [(r.2.1, r.2.2.1)] }

/-- The meaning of DESCRIPTOR_FETCH. -/
def execDescriptorFetch (queue : Nat) (s : State) : Out := .next (s.when (decide (queue < 16)) (descriptorFetch queue s))

/-! ### Descriptors (R297, R303, R304) -/

/-- The function class of an opcode, as the bit of FUNC_EN (R304, R321). -/
def opClass (op : Nat) : Option Nat :=
  if op = 4 ∨ op = 5 then some 0 else if op = 3 then some 1
  else if op = 1 ∨ op = 2 ∨ op = 10 ∨ op = 11 then some 2
  else if op = 8 ∨ op = 9 ∨ op = 12 ∨ op = 13 then some 3 else none

/-- The operand bytes that the opcode table lists: offset and length. -/
def opBytes (op : Nat) : List (Nat × Nat) :=
  listGet [] [[], [(8, 25), (40, 8)], [(8, 8)], [(8, 40)], [(8, 24)], [(8, 24)], [], [(8, 16)], [(8, 8)], [(8, 12), (24, 8)], [(8, 16)],
    [(8, 16)], [(8, 12)], [(8, 20)], [(8, 8)]] op

/-- The operands that are address words, and those that are device addresses; those of RUN are checked with its others. -/
def opWords (op : Nat) : List Nat :=
  listGet [] [[], [8, 24], [], [], [8, 16], [8], [], [], [8], [], [], [], [8], [8, 16], [8]] op
def opDevs (op : Nat) : List Nat := if op = 9 ∨ op = 10 ∨ op = 11 then [8] else []

/-- Bytes that no table lists are 0, and so are the reserved bits of the head. -/
def reservedOk (d : List Byte) : Bool :=
  let used (i : Nat) : Bool := (opBytes (dOp d)).any fun r => decide (r.1 ≤ i ∧ i < r.1 + r.2)
  decide (dfield d 1 1 < 8 ∧ dfield d 2 2 < 512 ∧ dfield d 4 1 < 16 ∧ dfield d 5 3 = 0)
    && d.zipIdx.all fun b => decide (b.2 < 8) || used b.2 || b.1 == 0

/-- What a descriptor's own bytes say: its opcode is listed, and its operands are in range. -/
def descStatus (d : List Byte) : Nat :=
  let op := dOp d
  let n := dfield d 24 8
  if op = 0 ∨ 14 < op then stBadOpcode
  else if reservedOk d && !(opWords op).any (fun o => badAddrWord (dfield d o 8)) && !(opDevs op).any (fun o => badDevAddr (dfield d o 8))
      && (op != 1 || decide (dfield d 32 1 ≤ 1)) && (op != 4 || decide (1 ≤ n ∧ n ≤ 2 ^ 40))
      && (op != 7 || (decide (dfield d 10 2 < 64) && decide (1 ≤ dfield d 12 4))) && (op != 9 || dfield d 8 8 % 4096 == 0) then stOk
  else stBadOperand

/-! ### Start (R301, R302, R320, R321, R380) -/

/-- What holds a queue's head descriptor, or what becomes of it. -/
inductive HeadState where
  | idle | waitFence | waitTag | waitRes | poison | cancel | start
  deriving DecidableEq, Repr

/-- A descriptor in flight satisfies p. -/
def State.anyFly (s : State) (p : Fly → Bool) : Bool := s.stk.flights.any p

/-- The function of an opcode is disabled (R321). -/
def State.funcOff (s : State) (op : Nat) : Bool := match opClass op with | some k => !(s.word stkFuncEn).toNat.testBit k | none => false

/-- The reasons that hold a head descriptor of a queue: a FENCE or BARRIER ahead of it, its tag or the number of descriptors in flight,
and its resources or its function (R217, R301). -/
def State.waitFence (s : State) (q : Nat) : Bool := s.anyFly fun f => f.sq == q && (dOp f.bytes == 6 || dOp f.bytes == 7) && !f.ended
def State.waitTag (s : State) (d : List Byte) : Bool := (s.fly (dTag d)).isSome || decide (512 ≤ s.stk.flights.length)
def State.waitRes (s : State) (d : List Byte) : Bool :=
  let op := dOp d
  s.funcOff op
    || opClass op == some 2 && (s.hearth.load.isSome || s.hearth.swap.isSome || s.anyFly fun f => opClass (dOp f.bytes) == some 2)
    || op == 3 && (s.anyFly fun f => !f.ended && (dOp f.bytes == 2 || (dOp f.bytes == 3 && dfield f.bytes 8 2 == dfield d 8 2)))

/-- The state of a queue's head (R301, R320, R321, R380). -/
def State.headState (s : State) (q : Nat) : HeadState :=
  match (s.sq q).fetched with
  | [] => .idle
  | (d, poi) :: _ =>
    if !s.sqOn q then .idle
    else if poi then .poison
    else if s.funcOff (dOp d) then .cancel
    else if s.waitFence q then .waitFence
    else if s.waitTag d then .waitTag
    else if s.waitRes d then .waitRes
    else .start

/-- The wait bits of SQ.STAT: every reason that holds the head of a queue, WAIT_TAG, WAIT_FENCE and WAIT_RES. -/
def State.waitBits (s : State) (q : Nat) : Bool × Bool × Bool :=
  match (s.sq q).fetched with
  | (d, false) :: _ => if s.sqOn q then (s.waitTag d, s.waitFence q, s.waitRes d) else (false, false, false)
  | _ => (false, false, false)

/-- The head leaves its queue. -/
def State.passHead (s : State) (q : Nat) : State :=
  let x := s.sq q
  (s.setSq q { x with fetched := x.fetched.drop 1, passed := x.passed + 1 }).setF (stkSqHead_Index q)
    ((s.getF (stkSqHead_Index q) + 1) % s.sqSize q)

/-- A completion of a descriptor that has just left its queue without being started: it takes no tag. -/
def State.handUnstarted (s : State) (q : Nat) (d : List Byte) (poisoned : Bool) (status : Nat) : State :=
  let place := (s.sq q).passed - 1
  if poisoned then s.hand q ⟨0, 0x3FF, status, q, s.tick, 0, List.replicate 32 0, false, none, place⟩
  else s.hand (dCq d) ⟨0, dTag d, status, q, s.tick, 0, List.replicate 32 0, dIrq d, none, place⟩

/-- A head that is not executed: poisoned, or of a disabled function. -/
def State.dropHead (s : State) (q : Nat) : State :=
  match (s.sq q).fetched with
  | [] => s
  | (d, poi) :: _ =>
    let s1 := s.passHead q
    if poi then s1.handUnstarted q d true stPoison
    else (s1.bump (stkSqCancelledF q) 1).handUnstarted q d false stCancelled

/-- A head starts: it takes its tag, and one with a bad opcode or operand completes at once. -/
def State.startHead (s : State) (q : Nat) : State :=
  match (s.sq q).fetched with
  | [] => s
  | (d, _) :: _ =>
    let s1 := s.passHead q
    let f : Fly := ⟨dTag d, q, (s.sq q).passed, d, s.tick, false, false, [], 0, none, false⟩
    let s2 := { s1 with stk := { s1.stk with flights := s1.stk.flights ++ [f], rr := q } }
    if descStatus d = stOk then s2 else s2.complete (dTag d) (descStatus d) 0

/-- The queues in the order of choice: high priority first, then from the rotating pointer on. -/
def State.startOrder (s : State) : List Nat :=
  let qs := (List.range 16).map fun i => (s.stk.rr + 1 + i) % 16
  (qs.filter fun q => s.flag (stkSqCfg_Prio q)) ++ (qs.filter fun q => !s.flag (stkSqCfg_Prio q))

/-- A head that can leave its queue. -/
def HeadState.ready (h : HeadState) : Bool := h == .start || h == .cancel || h == .poison

/-- DESCRIPTOR_START: at most one head descriptor starts (R301). -/
def descriptorStart (s : State) : State :=
  match s.startOrder.find? fun q => (s.headState q).ready with
  | none => s
  | some q => if s.headState q = .start then s.startHead q else s.dropHead q

/-- The meaning of DESCRIPTOR_START. -/
def execDescriptorStart (s : State) : Out := .next (descriptorStart s)

/-! ### Posting (R306, R308, R309, R322) -/

/-- A completion queue's ring has no room. -/
def State.cqFull (s : State) (q : Nat) : Bool := (s.getF (stkCqTail_Index q) + 1) % s.cqSize q == s.getF (stkCqHead_Index q)

/-- Bytes 2 to 63 of an entry. -/
def State.entryTail (s : State) (e : Entry) : List Byte :=
  leBytes 2 e.tag ++ leBytes 2 e.status ++ leBytes 1 e.sq ++ leBytes 1 (s.getF glbImgState_Epoch) ++ leBytes 8 e.tick
    ++ leBytes 8 s.stampFrc ++ leBytes 8 e.result ++ body32 e.body

/-- What a posted entry signals (R309). -/
def State.cqSignal (s : State) (q : Nat) (irq : Bool) : State :=
  if !s.flag (stkCqCfg_IrqEn q) then s
  else
    let c := s.cq q
    if irq || decide (s.getF (stkCqCfg_Count q) ≤ c.unsig + 1) then (s.setCq q { c with unsig := 0 }).signal (s.getF (stkCqCfg_Vector q))
    else s.setCq q { c with unsig := c.unsig + 1, unsigTick := if c.unsig = 0 then s.tick else c.unsigTick }

/-- The ring position moves on, and the phase inverts where it wraps (R306). -/
def State.cqAdvance (s : State) (q : Nat) : State :=
  let t := (s.getF (stkCqTail_Index q) + 1) % s.cqSize q
  let s1 := s.setF (stkCqTail_Index q) t
  if t = 0 then s1.setF (stkCqStat_Phase q) (1 - s.getF (stkCqStat_Phase q)) else s1

/-- COMPLETION_POST: the oldest entry that waits is written to its ring, bytes 0 and 1 last (R306, R308). -/
def completionPost (q : Nat) (s : State) : State :=
  let base := s.getF (stkCqBase_Addr q)
  match (s.cq q).held with
  | [] => s
  | e :: es =>
    if !s.flag (stkCqCfg_En q) || s.cqFull q || (isHostAddr base && s.busOff) then s
    else
      let at' := base + 64 * s.getF (stkCqTail_Index q)
      let s1 := (s.awWrite 5 (at' + 2) (s.entryTail e) false).1
      let s2 := (s1.awWrite 5 at' [BitVec.ofNat 8 e.ty, BitVec.ofNat 8 (s.getF (stkCqStat_Phase q))] false).1
      let s3 := ((s2.setCq q { s2.cq q with held := es }).cqAdvance q).bump (stkCqPostedF q) 1
      let s4 := match e.rel with | some t => s3.dropFly t | none => s3
      s4.cqSignal q e.irq

/-- The meaning of COMPLETION_POST. -/
def execCompletionPost (queue : Nat) (s : State) : Out := .next (s.when (decide (queue < 16)) (completionPost queue s))

/-- CQ_IRQ_TIMEOUT: an entry has been left unsignalled for 64 ticks (R309). -/
def cqIrqTimeout (q : Nat) (s : State) : State :=
  let c := s.cq q
  if s.flag (stkCqCfg_IrqEn q) && decide (0 < c.unsig) && decide (c.unsigTick + 64 ≤ s.tick) then
    (s.setCq q { c with unsig := 0 }).signal (s.getF (stkCqCfg_Vector q))
  else s

/-- The meaning of CQ_IRQ_TIMEOUT. -/
def execCqIrqTimeout (queue : Nat) (s : State) : Out := .next (s.when (decide (queue < 16)) (cqIrqTimeout queue s))

/-- CQ_ENABLE: a write of CQ.CFG; EN = 1 sets the tail to 0 and the phase to 1, LOG2SIZE changes only while EN is 0 and within its
range, and IRQ_EN with COUNT 0 refuses the write (R18, R306). -/
def cqEnable (q : Nat) (value : W32) (s : State) : State :=
  let v := value.toNat
  let log := bitsAt v 0 5
  if v.testBit 30 && bitsAt v 8 8 == 0 then s.refuse (stkCqCfg q)
  else
    let s1 := s.setIf (!s.flag (stkCqCfg_En q) && decide (4 ≤ log ∧ log ≤ 16)) (stkCqCfg_Log2size q) log
    let s2 := ((s1.setF (stkCqCfg_IrqEn q) (bitsAt v 30 1)).setF (stkCqCfg_Vector q) (bitsAt v 16 8)).setF (stkCqCfg_Count q) (bitsAt v 8 8)
    if v.testBit 31 then ((s2.setF (stkCqCfg_En q) 1).setF (stkCqTail_Index q) 0).setF (stkCqStat_Phase q) 1
    else s2.setF (stkCqCfg_En q) 0

/-- The meaning of CQ_ENABLE. -/
def execCqEnable (queue : Nat) (value : W32) (s : State) : Out := .next (s.when (decide (queue < 16)) (cqEnable queue value s))

/-! ### Order (R310 to R312) -/

/-- A descriptor of an opcode that is in flight and has not completed. -/
def State.live (s : State) (tag op : Nat) : Option Fly :=
  match s.fly tag with
  | some f => if dOp f.bytes == op && !f.ended then some f else none
  | none => none

/-- FENCE: it waits from its start on (R310). -/
def fenceDesc (tag : Nat) (s : State) : State := match s.startable tag 0x06 with | some _ => s.begin tag | none => s

/-- The meaning of FENCE. -/
def execFenceDesc (tag : Nat) (s : State) : Out := .next (fenceDesc tag s)

/-- A queue still has a descriptor with a place from lo to before hi that has not posted its completion: it has not left the queue, is
in flight, or its completion without a start is held (R310, R311). -/
def State.queueOpen (s : State) (q lo hi : Nat) : Bool :=
  decide (lo < hi) && (decide ((s.sq q).passed < hi) || s.anyFly (fun f => f.sq == q && !f.orphan && decide (lo ≤ f.seq ∧ f.seq < hi))
    || s.stk.cqs.any fun c => c.2.held.any fun e => e.ty == 0 && e.rel.isNone && e.sq == q && decide (lo ≤ e.place ∧ e.place < hi))

/-- FENCE_COMPLETE: every descriptor ahead of it in its queue has posted its completion (R310). -/
def fenceComplete (tag : Nat) (s : State) : State :=
  match s.live tag 0x06 with
  | none => s
  | some f => if f.begun && !s.queueOpen f.sq 0 f.seq then s.complete tag stOk s.stampFrc else s

/-- The meaning of FENCE_COMPLETE. -/
def execFenceComplete (tag : Nat) (s : State) : Out := .next (fenceComplete tag s)

/-- BARRIER: its set and its limit are fixed: for each queue of QUEUES the places from HEAD to TAIL, and what is ahead of it in its own
queue (R311). -/
def barrierDesc (tag : Nat) (s : State) : State :=
  match s.startable tag 0x07, s.fly tag with
  | some d, some f =>
    let qs := (List.range 16).filter fun q => (dfield d 8 2).testBit q && q != f.sq
    let lim := dfield d 16 8
    s.setFly { f with
      begun := true
      waits := (f.sq, 0, f.seq) :: qs.map fun q => (q, (s.sq q).passed, (s.sq q).passed + s.published q)
      limit := if lim = 0 then s.tick else lim }
  | _, _ => s

/-- The meaning of BARRIER. -/
def execBarrierDesc (tag : Nat) (s : State) : Out := .next (barrierDesc tag s)

/-- The watermark of a BARRIER source (R311): the greatest tick with no entry still to come for a cause at or below it. -/
def State.watermark (s : State) (src : Nat) : Int :=
  if src = 0 then (s.ing.relTick : Int) - s.effDelay
  else if src = 1 then s.trg.firings.foldl (fun m f => min m ((f.tag.tick : Int) - 1)) ((s.trg.next : Int) - 1)
  else if src = 2 then
    (List.range 16).foldl (fun m c =>
      let p := s.pool c
      let x := p.finished.foldl (fun m d => min m ((d.capt.tag.tick : Int) - 1)) m
      match p.capt with | some r => min x ((r.tag.tick : Int) - 1) | none => x) ((s.trg.next : Int) - 1)
  else if src = 3 then (s.tick : Int) - (s.getF chmSyslat_Cycles + 63) / 64
  else s.tick

/-- An event of a source with a cause at or below a tick still waits to be posted. -/
def State.heldEvent (s : State) (src limit : Nat) : Bool :=
  s.stk.cqs.any fun c => c.2.held.any fun e => e.ty != 0 && e.sq == src && decide (e.tick ≤ limit)

/-- The queues and the sources that a BARRIER still waits for, as masks. -/
def State.barrierLeft (s : State) (f : Fly) : Nat × Nat :=
  (maskOf 16 fun q => f.waits.any fun w => w.1 == q && s.queueOpen q w.2.1 w.2.2,
    maskOf 6 fun i => (dfield f.bytes 10 2).testBit i && (decide (s.watermark i < f.limit) || s.heldEvent i f.limit))

/-- BARRIER_COMPLETE (R311). -/
def barrierComplete (tag : Nat) (s : State) : State :=
  match s.live tag 0x07 with
  | none => s
  | some f => if f.begun && s.barrierLeft f == (0, 0) then s.complete tag stOk 0 else s

/-- The meaning of BARRIER_COMPLETE. -/
def execBarrierComplete (tag : Nat) (s : State) : Out := .next (barrierComplete tag s)

/-- BARRIER_TIMEOUT: TIMEOUT ticks after its start it ends with what is outstanding (R312). -/
def barrierTimeout (tag : Nat) (s : State) : State :=
  match s.live tag 0x07 with
  | none => s
  | some f =>
    let r := s.barrierLeft f
    if f.begun && decide (f.startTick + dfield f.bytes 12 4 ≤ s.tick) && r != (0, 0) then s.complete tag stTimeout (r.1 + 2 ^ 16 * r.2) else s

/-- The meaning of BARRIER_TIMEOUT. -/
def execBarrierTimeout (tag : Nat) (s : State) : Out := .next (barrierTimeout tag s)

/-! ### Disabling (R320 to R322) -/

/-- n descriptors from HEAD on complete with CANCELLED; those not yet read are read for their tag and queue. -/
def State.cancelAll (s : State) (q : Nat) : Nat → State
  | 0 => s
  | n + 1 =>
    let r : State × List Byte × Bool := match (s.sq q).fetched with
      | (d, poi) :: _ => (s, d, poi)
      | [] => let x := s.awRead 5 (s.sqSlot q 0) 64; (x.1, x.2.1, x.2.2.1)
    (((r.1.passHead q).bump (stkSqCancelledF q) 1).handUnstarted q r.2.1 r.2.2 stCancelled).cancelAll q n

/-- A queue is disabled. -/
def State.disableSq (s : State) (q : Nat) : State := s.cancelAll q (s.published q)

/-- SQ_DISABLE: a write of 0 to SQ.CTRL.EN (R320). -/
def sqDisable (q : Nat) (s : State) : State := (s.disableSq q).setF (stkSqCtrl_En q) 0

/-- The meaning of SQ_DISABLE. -/
def execSqDisable (queue : Nat) (s : State) : Out := .next (s.when (decide (queue < 16)) (sqDisable queue s))

/-- STK_DISABLE: a write of STK.CTRL; EN = 0 does to every queue what SQ_DISABLE does to one (R320). -/
def stkDisable (value : W32) (s : State) : State :=
  let v := value.toNat
  let s1 := if v.testBit 0 then s else (List.range 16).foldl State.disableSq s
  (s1.setF stkCtrl_Balance (bitsAt v 1 1)).setF stkCtrl_En (bitsAt v 0 1)

/-- The meaning of STK_DISABLE. -/
def execStkDisable (value : W32) (s : State) : Out := .next (stkDisable value s)

/-- FUNC_EN_WRITE: the head descriptor of each queue whose class is now off completes with CANCELLED (R321). -/
def funcEnWrite (value : W32) (s : State) : State :=
  let s1 := s.setF ⟨stkFuncEn, 0, 4⟩ value.toNat
  (List.range 16).foldl (fun (s : State) q => if s.headState q = .cancel then s.dropHead q else s) s1

/-- The meaning of FUNC_EN_WRITE. -/
def execFuncEnWrite (value : W32) (s : State) : Out := .next (funcEnWrite value s)

/-- BUS_MASTER_CHANGE: the host sets or clears Bus Master Enable, which STK.STATUS.BM_OFF shows (R322). -/
def busMasterChange (on : Bool) (s : State) : State := s.setF glbPcieStatus_Bm (b2n on)

/-- The meaning of BUS_MASTER_CHANGE. -/
def execBusMasterChange (on : Bool) (s : State) : Out := .next (busMasterChange on s)

end Sys2Proof.Machine
end

