-- ==== Sys2Proof/Machine/Host.lean ====
section
/-!
DEFINITION. The commands of the PCI Express attachment: link, function-level reset, BAR2 size and interrupts (R427 to R443).
-/
namespace Sys2Proof.Machine

/-- A tag that no descriptor holds: work that goes on after its descriptor was abandoned. -/
def noTag : Nat := 512

/-- An STK register (R323's map). -/
def isStkWord (off : Nat) : Bool := decide (0x200000 ≤ off ∧ off < 0x280000)

/-- A loader descriptor that has not ended (R304, R442). -/
def Fly.loader (f : Fly) : Bool := opClass (dOp f.bytes) == some 2 && !f.ended

/-- Event entries that a queue holds. -/
def Cq.events (c : Cq) : Nat := (c.held.filter fun e => e.ty != 0).length

/-- FLR: the Stoker and the PCI Express interface take their reset values; descriptors in flight are abandoned without
completions. A loader descriptor keeps its tag and runs to its end with its outcome in LOAD_STATUS, and a request of the Firebox that is
being served runs on; the completions of both are discarded. Event entries that the queues held are lost and counted (R442; log entry 19). -/
def flr (s : State) : State :=
  let lost := (s.stk.cqs.map fun e => e.2.events).sum
  let s1 := s.resetWords fun off => isStkWord off || off == glbPcieStatus || off == memBar2Base || off == memBar2Base + 4
  let s2 : State :=
    { s1 with
      stk := { Stk.reset with flights := (s.stk.flights.filter Fly.loader).map fun f => { f with orphan := true } }
      pcie := { Pcie.reset with sent := s.pcie.sent, posted := s.pcie.posted, up := s.pcie.up, perst := s.pcie.perst,
                                ready := s.pcie.ready, drs := s.pcie.drs, rateReq := s.pcie.rateReq }
      ing := { s.ing with snapTag := none }
      sec :=
        { s.sec with
          waiting := []
          busy := s.sec.busy.map fun b => (b.1.map fun _ => noTag, b.2) } }
  if lost = 0 then s2 else (s2.bump stkEvtLostF lost).assertSrc 27

/-- The meaning of FLR. -/
def execFlr (s : State) : Out := .next (flr s)

/-- PCIE_LINK_DOWN (R429). -/
def pcieLinkDown (s : State) : State := s.linkDown

/-- The meaning of PCIE_LINK_DOWN. -/
def execPcieLinkDown (s : State) : Out := .next (pcieLinkDown s)

/-- The link options that the device supports: width, rate and Flit mode (R427). -/
def linkOption (width speed : Nat) (flit : Bool) : Bool :=
  decide (width ∈ [1, 2, 4, 8, 16] ∧ 1 ≤ speed ∧ speed ≤ 7) && (decide (speed ≤ 5) || flit)

/-- PCIE_LINK_UP: the link is in L0 at a width and rate, and host accesses resume. Below the highest rate that both ports advertise the
device requests a change to that rate (R428, R429). -/
def pcieLinkUp (width speed : Nat) (flit : Bool) (both : Nat) (s : State) : State :=
  let s1 := { s with pcie := { s.pcie with up := true, rateReq := if speed < both then some both else none } }.setF glbPcieStatus_LinkUp 1
  ((s1.setF glbPcieStatus_Width width).setF glbPcieStatus_Speed speed).setF glbPcieStatus_Flit (b2n flit)

/-- The meaning of PCIE_LINK_UP. The device comes up with no other option than those it supports, and a chip held in reset with none
(R427, R444). -/
def execPcieLinkUp (width speed : Nat) (flit : Bool) (both : Nat) (s : State) : Out :=
  .next (s.when (linkOption width speed flit && !s.pwr.ioLow) (pcieLinkUp width speed flit both s))

/-- MSIX_SEND: the message of a pending vector goes out when nothing holds it back (R439). -/
def msixSend (v : Nat) (s : State) : State := s.trySend v

/-- The meaning of MSIX_SEND. -/
def execMsixSend (v : Nat) (s : State) : Out := .next (s.when (decide (v < 256)) (msixSend v s))

/-- BAR2_RESIZE: a new size of 1 to 512 GiB; refused while Memory Space Enable is 1 (R433, R436). -/
def bar2Resize (log2GiB : Nat) (s : State) : State :=
  if s.flag glbPcieStatus_Mse || decide (9 < log2GiB) then s else { s with pcie := { s.pcie with bar2Log := log2GiB } }

/-- The meaning of BAR2_RESIZE. -/
def execBar2Resize (log2GiB : Nat) (s : State) : Out := .next (bar2Resize log2GiB s)

end Sys2Proof.Machine
end

