-- ==== Sys2Proof/Machine/Loader.lean ====
section
/-!
DEFINITION. The loader's commands: loads of an image, halt and release of the Hearth (R207 to R210, R226, R227).
-/
namespace Sys2Proof.Machine

/-- The load in progress is replaced. -/
def State.setLoad (s : State) (l : Option Load) : State := { s with hearth := { s.hearth with load := l } }

/-! ### LOAD_IMAGE -/

/-- A LOAD_IMAGE descriptor of one mode starts its first pass (R207). -/
def State.startLoad (s : State) (tag : Nat) (full : Bool) : State :=
  match s.startable tag 0x01 with
  | none => s
  | some d =>
    if decide (dfield d 32 1 = if full then 0 else 1) && s.hearth.load.isNone then
      (s.begin tag).setLoad (some ⟨tag, full, 1, d, [], none⟩)
    else s

/-- LOAD_IMAGE_FULL: the first pass begins while the previous configuration runs (R208). -/
def loadImageFull (tag : Nat) (s : State) : State := s.startLoad tag true

/-- The meaning of LOAD_IMAGE_FULL. -/
def execLoadImageFull (tag : Nat) (s : State) : Out := .next (loadImageFull tag s)

/-- LOAD_IMAGE_STAGE: the first pass begins (R209). -/
def loadImageStage (tag : Nat) (s : State) : State := s.startLoad tag false

/-- The meaning of LOAD_IMAGE_STAGE. -/
def execLoadImageStage (tag : Nat) (s : State) : Out := .next (loadImageStage tag s)

/-! ### The end of a pass (R207 to R211) -/

/-- The first pass ends: a failed check ends the load and changes nothing else; a FULL load halts the Hearth at the next tick
boundary, and a STAGE load zeroes the shadow copies. -/
def State.firstPass (s : State) (l : Load) : State :=
  let r := s.loadBytes l.desc
  let rest := r.1.setLoad none
  if r.2.2.2.2 then rest.complete l.tag stBusOff 0
  else if r.2.2.2.1 then rest.loaderDone l.tag 0x04 0
  else
    match r.1.checkImage r.2.1 r.2.2.1 l.full with
    | .error v => rest.loaderEnd l.tag v.code v.sect v.src v.cons 0
    | .ok i =>
      let l' : Load := { l with place := r.2.2.1, info := some i.info }
      if l.full then (r.1.setLoad (some { l' with pass := 2 })).armHalt (r.1.tick + 1)
      else r.1.dropShadows.setLoad (some { l' with pass := 3 })

/-- The epoch of a FULL load: forced once by a twin restart, else the next one (R208, R366). -/
def State.loadEpoch (s : State) : Nat :=
  if s.flag zlTwinCtrl_ForceEpoch then s.getF zlTwinCtrl_LoadEpoch else s.nextEpoch

/-- A FULL load has written its image: the start tick is T0, and the Hearth is released there unless it has passed (R208). Where nothing
may release the Hearth the load ends with LOAD_OK and RESULT 0, whatever its start tick (R403). -/
def State.startImage (s : State) (l : Load) (epoch : Nat) : State :=
  let start := dfield l.desc 40 8
  let t0 := if start = 0 then s.tick + 1 else start
  let s1 := s.setT0 epoch t0
  if s.noRelease then s1.loaderDone l.tag 0x00 0
  else if start ≠ 0 ∧ start ≤ s.tick then s1.loaderDone l.tag 0x1A 0
  else
    let s2 := s1.armRun t0
    { s2 with hearth := { s2.hearth with runTag := some l.tag } }

/-- The live writes that a STAGE load has made when its second pass ends: all of them where the digest has changed or the envelope fails,
and a free number where a poisoned word has ended it before (R210; log entry 95). -/
def State.stageLeft (s : State) (l : Load) (buf : List Byte) (poison : Bool) : State :=
  match s.hearth.img with
  | some o =>
    let p := s.sec.plainImage buf
    match parseImage p.1 p.2 (dfield l.place 0 1) with
    | .ok i =>
      let n := (i.recs.map fun t => t.entries.length).sum
      if poison then
        let r := s.draw 32
        r.2.leaveLive o i (r.1.toNat % (n + 1)) i.recs
      else s.leaveLive o i n i.recs
    | .error _ => s
  | none => s

/-- A second pass that fails: no image is loaded after a FULL load, and no shadow copy is left after a STAGE load (R210). -/
def State.secondFail (s : State) (l : Load) (code : Nat) : State :=
  ((if l.full then s.unload else s.dropShadows).setLoad none).loaderDone l.tag code 0

/-- The second pass ends: the image is read again and written (R207 to R210). -/
def State.secondPass (s : State) (l : Load) (x : ImgInfo) : State :=
  let r := s.loadBytes l.desc
  if r.2.2.2.2 then
    ((if l.full then r.1.unload else (r.1.stageLeft l r.2.1 true).dropShadows).setLoad none).complete l.tag stBusOff 0
  else if r.2.2.2.1 then (if l.full then r.1 else r.1.stageLeft l r.2.1 true).secondFail l 0x04
  else
    match r.1.rereadImage r.2.1 l.place x with
    | .error code => (if l.full then r.1 else r.1.stageLeft l r.2.1 false).secondFail l code
    | .ok i =>
      if l.full then
        let epoch := r.1.loadEpoch
        ((r.1.writeFull i l.place epoch).setF zlTwinCtrl_ForceEpoch 0).startImage l epoch
      else (r.1.writeStage i l.place).loaderDone l.tag 0x00 0

/-- The scan in flight whose data has still to land: its tag, code and result. -/
def State.scanLanding (s : State) : Option (Nat × Nat × Nat) :=
  s.stk.flights.findSome? fun f =>
    if (dOp f.bytes == 0x0A || dOp f.bytes == 0x0B) && !f.ended then f.outcome.map fun o => (f.tag, o.1, o.2) else none

/-- LOADER_PASS_END: the pass in progress has read its last byte; with no load in progress a scan's data has landed. -/
def loaderPassEnd (s : State) : State :=
  match s.hearth.load with
  | some l =>
    if l.pass = 1 then s.firstPass l
    else match l.info with
      | some x => if l.pass = 3 then s.secondPass l x else s
      | none => s
  | none => match s.scanLanding with
    | some o => s.loaderDone o.1 o.2.1 o.2.2
    | none => s

/-- The meaning of LOADER_PASS_END. -/
def execLoaderPassEnd (s : State) : Out := .next (loaderPassEnd s)

/-! ### Halt (R226, R221, R404) -/

/-- HALT: a running Hearth halts at the next tick boundary; while it is halted, a pending release is cancelled. -/
def haltWrite (s : State) : State := if s.running then s.armHalt (s.tick + 1) else s.cancelRelease

/-- The meaning of HALT. -/
def execHaltWrite (s : State) : Out := .next (haltWrite s)

/-- A swap meets a halt: one due in this cycle is made first, and a later one is missed (R221). -/
def State.swapAtHalt (s : State) : State :=
  let s1 := hotEpochSwitch s
  match s1.hearth.swap with
  | some w => if !w.hotDone then s1.endSwap w 0x1D w.k else s1
  | none => s1

/-- The Hearth stops in this cycle (R226, R275). -/
def State.stopHearth (s : State) : State :=
  let s1 := s.swapAtHalt
  let s2 := (((s1.setF glbImgState_Running 0).setF glbImgState_Halted 1).setF glbHaltTick_Tick s1.tick).breakPools 1 8 (List.range 16)
  { s2 with hearth := { s2.hearth with haltFrc := s1.frc.toNat } }

/-- The load that waits for the halt: the placement is cleared, and the second pass begins (R208). -/
def State.beginSecond (s : State) (l : Load) (x : ImgInfo) : State :=
  (s.cancelRelease.clearHearth x (s.vmap x.base x.v)).setLoad (some { l with pass := 3 })

/-- A FULL load that waits for the halt. -/
def State.waitingLoad (s : State) : Option (Load × ImgInfo) :=
  match s.hearth.load with
  | some l => if l.full && l.pass == 2 then l.info.map fun x => (l, x) else none
  | none => none

/-- HEARTH_HALT: an armed halt takes effect at cycle 0 of its tick. In the safe state, and for a FULL load, the RUNs in flight end with
ABORTED (R208, R226, R401). -/
def hearthHalt (s : State) : State :=
  match s.hearth.haltAt with
  | none => s
  | some k =>
    if s.cycle ≠ 0 ∨ s.tick < k then s
    else
      let s1 := { s with hearth := { s.hearth with haltAt := none } }
      let s2 := if s.running then s1.stopHearth else s1
      let s3 := if s.safe || s2.waitingLoad.isSome then s2.abortRuns s2.stk.runs else s2
      match s3.waitingLoad with
      | some (l, x) => s3.beginSecond l x
      | none => s3

/-- The meaning of HEARTH_HALT. -/
def execHearthHalt (s : State) : Out := .next (hearthHalt s)

/-! ### Release (R227, R208, R403) -/

/-- RUN_WRITE: a release is armed for RUN_TICK, or the write is refused (R227). -/
def runWrite (s : State) : State :=
  let r := s.getF glbRunTick_Tick
  if s.canRun r then s.armRun r else s

/-- The meaning of RUN_WRITE. -/
def execRunWrite (s : State) : Out := .next (runWrite s)

/-- T0 of every epoch moves by the distance from the halt to the release (R227). -/
def State.shiftT0 (s : State) (halt release : Nat) : State :=
  let moved := s.hearth.t0s.foldl (fun (m : SMap Nat) e => mput (fun _ => 0) m e.1 (movedTick e.2 halt release)) []
  let s1 := { s with hearth := { s.hearth with t0s := moved } }
  if s1.flag glbHotSched_Valid then s1.setF glbHotT0_T0 (movedTick (s.getF glbHotT0_T0) halt release) else s1

/-- The units as a release leaves them: no window of a hot unit stands closed for a tick to come, since FRC may have moved back (R184,
R294). -/
def State.reopenWindows (s : State) : SMap HUnit :=
  s.hearth.units.filterMap fun e =>
    let x : HUnit := if s.unitMode e.1 = 1 then { e.2 with wins := 0 } else e.2
    if x = HUnit.init then none else some (e.1, x)

/-- The Hearth is released in this cycle. At the start tick of a FULL load T0 is that tick (R208); another release moves T0, so that the
Hearth goes on at the phase at which it stopped (R227). A RUN write while a FULL load's release is pending replaces the tick of that
release, and T0 stays at the load's start tick (DESIGN CHOICE, log entry 110). -/
def State.releaseHearth (s : State) : State :=
  let halt := s.getF glbHaltTick_Tick
  let s1 := ((s.setF glbImgState_Running 1).setF glbImgState_Halted 0).setF glbImgState_ReleasePending 0
  let s2 := if s.hearth.runTag.isSome then s1 else s1.shiftT0 halt s.tick
  let s3 : State := { s2 with hearth :=
    { s2.hearth with
      units := s2.reopenWindows
      runAt := none
      runTag := none
      halts := ((s.hearth.haltFrc, s.frc.toNat) :: s2.hearth.halts).take 16 } }
  match s.hearth.runTag with
  | none => s3
  | some t => s3.loaderDone t 0 s.tick

/-- HEARTH_RELEASE: an armed release takes effect at cycle 0 of its tick, and is cancelled where nothing may release the Hearth. -/
def hearthRelease (s : State) : State :=
  match s.hearth.runAt with
  | none => s
  | some r =>
    if s.cycle ≠ 0 ∨ s.tick < r ∨ s.running then s
    else if s.noRelease then s.cancelRelease
    else s.releaseHearth

/-- The meaning of HEARTH_RELEASE. -/
def execHearthRelease (s : State) : Out := .next (hearthRelease s)

end Sys2Proof.Machine
end

