-- ==== Sys2Proof/Machine/Memory.lean ====
section
/-!
DEFINITION. The commands of HBM and of the BAR2 window (R370 to R388, R436).
-/
namespace Sys2Proof.Machine

/-- HBM_SECTOR_READ: a master asks for a sector. A granted read decodes it and delivers it, and meets the hard faults that the sector
has (R370, R371, R373, R377, R378, R383). -/
def hbmSectorRead (master addr : Nat) (err : BitVec 288) (hard : Option (BitVec 288)) (s : State) : State :=
  let s1 := match hard with
    | some f => { s with mem := { s.mem with faults := mput (fun _ => 0) s.mem.faults (addr / 32) f } }
    | none => s
  s1.hbmRequest ⟨master, addr, none, err⟩

/-- The meaning of HBM_SECTOR_READ. -/
def execHbmSectorRead (master addr : Nat) (err : BitVec 288) (hard : Option (BitVec 288)) (s : State) : Out :=
  .next (hbmSectorRead master addr err hard s)

/-- HBM_SECTOR_WRITE: a master writes a sector or part of one (R371, R373, R379, R382, R383). -/
def hbmSectorWrite (master addr : Nat) (mask : W32) (data : BitVec 256) (poison : Bool) (s : State) : State :=
  s.hbmRequest ⟨master, addr, some (mask, data, poison), 0⟩

/-- The meaning of HBM_SECTOR_WRITE. -/
def execHbmSectorWrite (master addr : Nat) (mask : W32) (data : BitVec 256) (poison : Bool) (s : State) : Out :=
  .next (hbmSectorWrite master addr mask data poison s)

/-- MERGE_TIMEOUT: an entry allocated for MERGE_CFG.TIMEOUT cycles is written back (R383). -/
def mergeTimeout (sector : Nat) (s : State) : State :=
  match s.held sector with
  | none => s
  | some e =>
    if s.getF memMergeCfg_Timeout ≤ s.cyc - e.born then
      (s.bump (memStackMergeRmwF (stackOf sector)) 1).writeBack e e.master e.site 0
    else s

/-- The meaning of MERGE_TIMEOUT. -/
def execMergeTimeout (sector : Nat) (s : State) : Out := .next (mergeTimeout sector s)

/-- A read of a sector waits. -/
def State.readWaits (s : State) (sec : Nat) : Bool := s.mem.waits.any fun r => r.put.isNone && r.addr / 32 == sec

/-- A waiting write needs an entry of a pseudo-channel's buffer: a part of a sector that no entry holds, without poison. -/
def State.entryNeeded (s : State) (pc : Nat) : Bool :=
  (s.waitsAt pc).any fun r => match r.put with
    | some (mask, _, poison) => !poison && mask != 0 && mask != 0xFFFFFFFF && (s.held (r.addr / 32)).isNone
    | none => false

/-- READ_MODIFY_WRITE: a held entry is merged into its sector, with the bit errors that the read meets: at its timeout, for a waiting
write that needs an entry of its full buffer, whose oldest it is, or for a waiting read of its sector (R383, R384). -/
def readModifyWrite (sector cause : Nat) (err : BitVec 288) (s : State) : State :=
  match s.held sector with
  | none => s
  | some e =>
    let st := stackOf sector
    if cause = 0 ∧ s.getF memMergeCfg_Timeout ≤ s.cyc - e.born ∨ cause = 2 ∧ s.readWaits sector then
      (s.bump (memStackMergeRmwF st) 1).writeBack e e.master e.site err
    else if cause = 1 ∧ s.entryNeeded (pcOf sector) ∧ s.evictee (pcOf sector) = some e then
      (s.bump (memStackMergeEvictF st) 1).writeBack e e.master e.site err
    else s

/-- The meaning of READ_MODIFY_WRITE. -/
def execReadModifyWrite (sector cause : Nat) (err : BitVec 288) (s : State) : Out := .next (readModifyWrite sector cause err s)

/-- HBM_REFRESH: a refresh of a bank falls due and takes a slot, at once or in a later cycle. It changes no data, drops no request and
reorders none (R373, R375; log entry 11). -/
def hbmRefresh (pchan _bank : Nat) (s : State) : State := s.refreshDue pchan

/-- The meaning of HBM_REFRESH. -/
def execHbmRefresh (pchan bank : Nat) (s : State) : Out := .next (s.when (decide (pchan < 384)) (hbmRefresh pchan bank s))

/-- HOT_REFRESH: a stack reports its temperature and refreshes at twice the rate above 85 °C (R375). -/
def hotRefresh (stack celsius : Nat) (s : State) : State :=
  (s.setF (memStackStatus_Temp stack) celsius).setF (memStackStatus_HotRefresh stack) (b2n (decide (85 < celsius)))

/-- The meaning of HOT_REFRESH. -/
def execHotRefresh (stack celsius : Nat) (s : State) : Out := .next (s.when (decide (stack < 6)) (hotRefresh stack celsius s))

/-- HBM_BUCKET_LEAK: a bucket falls by 1 every LEAK·1,024 ticks, unless it is 0 (R381). -/
def hbmBucketLeak (stack : Nat) (s : State) : State := s.bucketLeak stack

/-- The meaning of HBM_BUCKET_LEAK. -/
def execHbmBucketLeak (stack : Nat) (s : State) : Out := .next (s.when (decide (stack < 6)) (hbmBucketLeak stack s))

/-- MEM_INJ_WRITE: a write of MEM.INJ (R388, R405). The whole write is refused while an injection waits. -/
def memInjWrite (value : W32) (s : State) : State :=
  let v := value.toNat
  if s.flag memInj_Armed then s.refuse memInj
  else
    let s1 := s.setIf (decide (bitsAt v 3 3 < 6)) memInj_Stack (bitsAt v 3 3)
    let s2 := s1.setIf (decide (bitsAt v 0 2 < 3)) memInj_Mode (bitsAt v 0 2)
    if bitsAt v 0 2 = 1 ∨ bitsAt v 0 2 = 2 then s2.setF memInj_Armed 1 else s2

/-- The meaning of MEM_INJ_WRITE. -/
def execMemInjWrite (value : W32) (s : State) : Out := .next (memInjWrite value s)

/-- The counters of MEM. -/
def memCounters : List Nat :=
  memDecodeErr :: (List.range 6).flatMap fun i =>
    [memStackCe i, memStackUe i, memStackBucketOvf i, memStackPoisonWr i, memStackPoisonKept i, memStackMergeRmw i,
     memStackMergeEvict i]

/-- CLR_CNT_MEM: every MEM counter is cleared; bucket levels are unchanged (CTRL.CLR_CNT). -/
def clrCntMem (s : State) : State := s.clearCounters fun off => decide (off ∈ memCounters)

/-- The meaning of CLR_CNT_MEM. -/
def execClrCntMem (s : State) : Out := .next (clrCntMem s)

/-- The device address of a BAR2 offset (R372). -/
def State.bar2Addr (s : State) (off : Nat) : Nat := s.getF memBar2Base_Addr * 2 ^ 30 + off

/-- The size of BAR2 (R433). -/
def State.bar2Size (s : State) : Nat := 2 ^ (30 + s.pcie.bar2Log)

/-- BAR2_READ: a host read through the window, of at most the size that Device Control sets; poisoned data sets EP (R372, R380, R436).
Before the core is released the offset reads 0 (R441), a read that cannot cross to the core gives zeros with EP (R461; log entry 101), and
in D3hot the request is not supported. -/
def bar2Read (off len : Nat) (s : State) : State :=
  if s.pwr.ioLow then s
  else if s.pcie.asleep then { s with bar2Data := [], bar2Ep := false }.aer 20
  else if decide (s.bar2Size < off + len) || decide (s.pcie.maxRead < len) then s
  else if !s.barOn then { s with bar2Data := List.replicate len 0, bar2Ep := s.pcieDead }
  else
    let r := s.hbmRead 7 0x1FF (s.bar2Addr off) len
    { r.1 with bar2Data := r.2.1, bar2Ep := r.2.2 }

/-- The meaning of BAR2_READ. -/
def execBar2Read (off len : Nat) (s : State) : Out := .next (bar2Read off len s)

/-- BAR2_WRITE: a host write through the window, of at most the size that Device Control sets; a poisoned request poisons every sector it
touches (R372, R379, R436), and AER reports it. A write that cannot cross to the core is discarded (R461; log entry 101). -/
def bar2Write (off : Nat) (bytes : List Byte) (poisoned : Bool) (s : State) : State :=
  if s.pwr.ioLow then s
  else if s.pcie.asleep then s.aer 20
  else if !s.barOn || decide (s.bar2Size < off + bytes.length) || decide (s.pcie.maxPayload < bytes.length) then s
  else (if poisoned then s.aer 12 else s).hbmWrite 7 0x1FF (s.bar2Addr off) bytes poisoned

/-- The meaning of BAR2_WRITE. -/
def execBar2Write (off : Nat) (bytes : List Byte) (poisoned : Bool) (s : State) : Out := .next (bar2Write off bytes poisoned s)

end Sys2Proof.Machine
end

