-- ==== Sys2Proof/Machine/CfgSpace.lean ====
section
/-!
DEFINITION. Configuration space (R427, R431, R432, R441). spec/ names its identity values and capabilities; the places of the fields
are those of the PCI Express Base Specification, and the offsets of the capabilities are the model's (PRESUMED, log entry 100).
-/
namespace Sys2Proof.Machine

/-! ### What a read returns -/

/-- Subsystem vendor and subsystem ID: bytes 0 to 3 of the board record in the boot flash, and 0 where the record is absent, that is
erased (R431, R478). -/
def Sec.subsystem (c : Sec) : Nat :=
  let n := ofLe (c.flashBytes 0 4)
  if n = 0xFFFFFFFF then 0 else n

/-- A capability header of the first 256 bytes: identifier, next offset, and the word beside them. -/
def capHead (id next hi : Nat) : Nat := id + 2 ^ 8 * next + 2 ^ 16 * hi

/-- An extended capability header: identifier, version 1 and next offset. -/
def extHead (id next : Nat) : Nat := id + 2 ^ 16 + 2 ^ 20 * next

/-- The low word of a BAR pair: its address bits and its type (R433). -/
def State.barLow (s : State) (off type size : Nat) : Nat := s.pcie.word off - s.pcie.word off % size + type

/-- The value of a double word of configuration space, where spec/ fixes one or a write stores one. -/
def State.cfgWord (s : State) (off : Nat) : Option Nat :=
  let w := s.pcie.word
  if off = 0x00 then some (Config.vendorId.toNat + 2 ^ 16 * 0x4832)
  else if off = 0x04 then
    some (w off + 2 * s.getF glbPcieStatus_Mse + 4 * s.getF glbPcieStatus_Bm + 2 ^ 16 * 0x10)
  else if off = 0x08 then some ((match s.part.stepping with | .a0 => 0xA0 | .b0 => 0xB0) + 2 ^ 8 * 0x120000)
  else if off = 0x10 then some (s.barLow off 0x4 (2 ^ 26))
  else if off = 0x18 then some (s.barLow off 0xC (2 ^ (30 + min 2 s.pcie.bar2Log)))
  else if off = 0x1C then some (w off - w off % 2 ^ (s.pcie.bar2Log - 2))
  else if off = 0x20 then some (s.barLow off 0x4 (2 ^ 16))
  else if off = 0x2C then some s.sec.subsystem
  else if off = 0x34 then some 0x40
  else if off = 0x40 then some (capHead 0x01 0x50 0x0003)
  else if off = 0x44 then some (w off + 8)
  else if off = 0x50 then some (capHead 0x11 0x70 (255 + 2 ^ 14 * b2n s.pcie.funcMask + 2 ^ 15 * b2n s.pcie.msixEnable))
  else if off = 0x54 then some (0x1000 + 4)
  else if off = 0x58 then some (0x2000 + 4)
  else if off = 0x70 then some (capHead 0x10 0 0x0002)
  else if off = 0x74 then some 0x10008022
  else if off = 0x7C then some 0x00000907
  else if off = 0x80 then some (2 ^ 16 * (s.getF glbPcieStatus_Speed + 2 ^ 4 * s.getF glbPcieStatus_Width))
  else if off = 0x94 then some 0x0003001F
  else if off = 0x100 then some (extHead 0x0001 0x150)
  else if off = 0x118 then some (w off + 0xA0)
  else if off = 0x150 then some (extHead 0x0015 0x160)
  else if off = 0x154 then some 0x00FFC000
  else if off = 0x158 then some (2 + 2 ^ 5 + 2 ^ 8 * (10 + s.pcie.bar2Log))
  else if off = 0x160 then some (extHead 0x0025 0x170)
  else if off = 0x170 then some (extHead 0x0026 0x1A0)
  else if off = 0x1A0 then some (extHead 0x002A 0x1D0)
  else if off = 0x1D0 then some (extHead 0x0031 0x200)
  else if off = 0x200 then some (extHead Config.pl128Id.toNat 0x230)
  else if off = 0x230 then some (extHead 0x0022 0x240)
  else if off = 0x240 then some (extHead 0x002F 0)
  else if off = 0x244 then some 0x6
  else if off ∈ [0x0C, 0x14, 0x24, 0x28, 0x30, 0x38, 0x3C, 0x78, 0x98, 0x104, 0x108, 0x10C, 0x110, 0x114, 0x248, 0x24C] then some (w off)
  else none

/-- The bits of a double word that a write stores. -/
def cfgMask (off : Nat) : Nat :=
  if off = 0x04 then 0x140
  else if off = 0x10 then 0xFC000000
  else if off = 0x18 then 0xC0000000
  else if off = 0x20 then 0xFFFF0000
  else if off ∈ [0x14, 0x1C, 0x24] then 0xFFFFFFFF
  else if off = 0x44 then 3
  else if off = 0x78 then 0x79FF
  else if off = 0x98 then 0x101F
  else if off = 0x108 ∨ off = 0x10C then 0x5FF030
  else if off = 0x114 then 0xF1C1
  else if off = 0x118 then 0x140
  else if off = 0x248 then 0x4
  else 0

/-- A read of configuration space: retried until the function is ready (R441). What it returns of a register that spec/ gives no value
is free. -/
def State.cfgRead (s : State) (off size : Nat) : State :=
  let s1 := { s with readData := 0, readUr := false, readRetry := !s.pcie.ready }
  if !s.pcie.ready then s1
  else
    let d := off - off % 4
    let v := match s.cfgWord d with
      | some n => (n, s1)
      | none => let r := s1.draw 32; (r.1.toNat, r.2)
    { v.2 with readData := BitVec.ofNat 64 (bitsAt v.1 (8 * (off - d)) (8 * size)) }

/-! ### What a write does -/

/-- The double word that a write of size bytes at an offset makes of a value. -/
def mergeWrite (cur off size v : Nat) : Nat := putBits cur (8 * (off % 4)) (8 * size) v

/-- The bits of a double word that a write of 1 clears: the status registers of AER and Device Status (log entry 100). -/
def cfgW1c (off : Nat) : Nat :=
  if off = 0x104 then 0x5FF030 else if off = 0x110 then 0xF1C1 else if off = 0x78 then 0xF0000 else 0

/-- The stored bits of a double word after a write gives it a value: a Device Control size that the device does not support and the power
states D1 and D2 leave their field as it was (R427), and the bits that the write does not store stay, but for those that it clears. -/
def State.cfgNew (s : State) (d x ones : Nat) : Nat :=
  let old := s.pcie.word d
  let keep (bad : Bool) (lo n x : Nat) : Nat := if bad then putBits x lo n (bitsAt old lo n) else x
  let y :=
    if d = 0x78 then keep (decide (2 < bitsAt x 5 3)) 5 3 (keep (decide (5 < bitsAt x 12 3)) 12 3 x)
    else if d = 0x44 then keep (x % 4 == 1 || x % 4 == 2) 0 2 x
    else x
  let held := old &&& (0xFFFFFFFF - cfgMask d)
  (y &&& cfgMask d) ||| (held &&& (0xFFFFFFFF - (ones &&& cfgW1c d)))

/-- A write stored in a double word: its value and the ones among the bytes written. -/
def State.cfgStore (s : State) (d x ones : Nat) : State := { s with pcie := s.pcie.setWord d (s.cfgNew d x ones) }

/-- A write of configuration space: it is retried until the function is ready (R441). Command carries bus mastering and memory space,
MSI-X its enable and mask, the Resizable BAR control the size of BAR2, and Device Control the function-level reset (R431, R436, R439,
R442). -/
def State.cfgWrite (t : State) (off size v : Nat) : State :=
  let d := off - off % 4
  let s : State := { t with readRetry := !t.pcie.ready }
  match s.cfgWord d with
  | none => s
  | some cur =>
    let x := mergeWrite cur off size v
    let ones := mergeWrite 0 off size v
    let bit (i : Nat) : Bool := x.testBit i
    if !s.pcie.ready then s
    else if d = 0x04 then ((s.cfgStore d x ones).setF glbPcieStatus_Mse (b2n (bit 1))).setF glbPcieStatus_Bm (b2n (bit 2))
    else if d = 0x50 then { s with pcie := { s.pcie with funcMask := bit 30, msixEnable := bit 31 } }
    else if d = 0x158 then (if 10 ≤ bitsAt x 8 6 then bar2Resize (bitsAt x 8 6 - 10) s else s)
    else if d = 0x78 then (if bit 15 then flr s else s.cfgStore d x ones)
    else s.cfgStore d x ones

end Sys2Proof.Machine
end

