-- ==== Sys2Proof/Machine/Time.lean ====
section
/-!
DEFINITION. Device time, the timing ports, and the loading of FRC from a SYNC (R277 to R296).
-/
namespace Sys2Proof.Machine

/-! ### Device time (R277, R278) -/

/-- One revolution of device time, in units of 2^-16 ns. -/
def timeSpan : Nat := 2 ^ 48 * 10 ^ 9 * 65536

/-- A time in the 96-bit format as a count of 2^-16 ns. -/
def unitsOfTime (t : Nat) : Nat := (bitsAt t 48 48 * 10 ^ 9 + bitsAt t 16 32) * 65536 + bitsAt t 0 16

/-- A count of 2^-16 ns in the 96-bit format. -/
def timeOfUnits (u : Nat) : Nat :=
  let n := u / 65536
  n / 10 ^ 9 % 2 ^ 48 * 2 ^ 48 + n % 10 ^ 9 * 2 ^ 16 + u % 65536

/-- Three register words as one 96-bit number. -/
def State.word96 (s : State) (off : Nat) : Nat :=
  (s.word off).toNat + 2 ^ 32 * (s.word (off + 4)).toNat + 2 ^ 64 * (s.word (off + 8)).toNat

/-- Three register words set from a 96-bit number. -/
def State.setWord96 (s : State) (off t : Nat) : State :=
  s.setWords off [BitVec.ofNat 32 t, BitVec.ofNat 32 (t / 2 ^ 32), BitVec.ofNat 32 (t / 2 ^ 64)]

/-- Units elapsed since REF at a time in FRC form (R277, R282). -/
def elapsed (ref rate x : Nat) : Int :=
  let d := 256 * sint 64 (x / 256 + 2 ^ 64 - ref) + (x % 256 : Nat)
  d * (2 ^ 17 * (2 ^ 40 + sint 32 rate)) / (3 * 2 ^ 40 * 256)

/-- time(F + φ/256) as a count of 2^-16 ns, after an adjustment in those units (R277, R282, R283). -/
def timeUnits (base ref rate x : Nat) (adj : Int) : Nat :=
  (((unitsOfTime base : Nat) + elapsed ref rate x + adj) % (timeSpan : Int)).toNat

/-- Device time at an FRC value, in the 96-bit format. -/
def State.timeAtFrc (s : State) (frc : Nat) : Nat :=
  timeOfUnits (timeUnits (s.word96 (timBaseTime 0)) (s.getF timRefFrc_Ref) (s.getF timRate_Rate) (256 * frc) 0)

/-- The time form of a timestamp of this cycle, under the values in force before any change of the cycle (R280, R282). -/
def State.timeForm (s : State) (x : Nat) (adj : Int) : Nat :=
  match s.tim.was with
  | some w => timeOfUnits (timeUnits w.base w.ref w.rate x adj)
  | none => timeOfUnits (timeUnits (s.word96 (timBaseTime 0)) (s.getF timRefFrc_Ref) (s.getF timRate_Rate) x adj)

/-- The device time of this cycle as a timestamp gives it. -/
def State.timeNow (s : State) : Nat := s.timeForm (256 * s.stampFrc) 0

/-- The values in force before the changes of this cycle are kept (R280). An FRC load, SET or ADJ_GO and a RATE write that meet in one
cycle give the same BASE, REF and RATE in any order, but for the range that ADJ_GO tests. -/
def State.keepTime (s : State) : State :=
  match s.tim.was with
  | some _ => s
  | none => { s with tim :=
      { s.tim with was := some ⟨s.frc.toNat, s.word96 (timBaseTime 0), s.getF timRefFrc_Ref, s.getF timRate_Rate, none⟩ } }

/-- SET: BASE from SET_TIME and REF to the current cycle, refused for an invalid time (R278, R279). -/
def timSet (s : State) : State :=
  let t := s.word96 (timSetTime 0)
  if 10 ^ 9 ≤ bitsAt t 16 32 then s.refuse timCtrl
  else (s.keepTime.setWord96 (timBaseTime 0) t).setF timRefFrc_Ref s.frc.toNat

/-- The meaning of SET. -/
def execTimSet (s : State) : Out := .next (timSet s)

/-- ADJ_GO: ADJ is added to BASE, refused where the sum leaves the range, which is that of BASE before a RATE write of this cycle
(R279, R280). -/
def timAdjGo (s : State) : State :=
  let base := s.word96 (timBaseTime 0)
  let adj := sint 64 (s.getF timAdj_Adj)
  let u : Int := (unitsOfTime ((s.tim.was.bind TimeWas.preRate).getD base) : Nat) + adj
  if u < 0 ∨ (timeSpan : Int) ≤ u then s.refuse timCtrl
  else s.keepTime.setWord96 (timBaseTime 0) (timeOfUnits (((unitsOfTime base : Nat) + adj) % (timeSpan : Int)).toNat)

/-- The meaning of ADJ_GO. -/
def execTimAdjGo (s : State) : Out := .next (timAdjGo s)

/-- RATE_WRITE: BASE and REF are moved to the current cycle under the old RATE, then RATE changes (R279). -/
def rateWrite (value : W32) (s : State) : State :=
  let s1 := s.keepTime
  let s2 := { s1 with tim := { s1.tim with was := s1.tim.was.map fun (w : TimeWas) => { w with preRate := some (s.word96 (timBaseTime 0)) } } }
  ((s2.setWord96 (timBaseTime 0) (s.timeAtFrc s.frc.toNat)).setF timRefFrc_Ref s.frc.toNat).setF timRate_Rate value.toNat

/-- The meaning of RATE_WRITE. -/
def execRateWrite (value : W32) (s : State) : Out := .next (rateWrite value s)

/-- NOW_TIME_READ: a read of NOW_TIME[0] samples FRC and its time. -/
def nowTimeRead (s : State) : State :=
  let t := s.timeNow
  { (s.setWord96 (timNowTime 0) t).setF timNowFrc_Frc s.stampFrc with readData := BitVec.ofNat 64 (t % 2 ^ 32), readUr := false, readRetry := false }

/-- The meaning of NOW_TIME_READ. -/
def execNowTimeRead (s : State) : Out := .next (nowTimeRead s)

/-! ### Timing ports (R281 to R289) -/

/-- A timing port beyond its registers. -/
def State.tp (s : State) (p : Nat) : TpPort := mget (fun _ => ⟨[], []⟩) s.tim.tps p

/-- The state with a timing port replaced. -/
def State.setTp (s : State) (p : Nat) (x : TpPort) : State :=
  { s with tim := { s.tim with tps := mput (fun _ => ⟨[], []⟩) s.tim.tps p x } }

/-- The four FCS bytes of a frame: CRC-32 of IEEE 802.3, in transmission order. -/
def fcsOf (f : List Byte) : List Byte := leBytes 4 (crcBitsR 0xEDB88320 0xFFFFFFFF (bytesBitsLsb f) ^^^ 0xFFFFFFFF)

/-- The FCS at the end of a frame is that of the bytes before it (R285). -/
def fcsOk (f : List Byte) : Bool := f.drop (f.length - 4) == fcsOf (f.take (f.length - 4))

/-- A big-endian field of a frame. -/
def beField (f : List Byte) (off n : Nat) : Nat := ofBe ((f.drop off).take n)

/-- A frame with bytes written from an offset on. -/
def patch (f : List Byte) (off : Nat) (bs : List Byte) : List Byte := f.take off ++ bs ++ f.drop (off + bs.length)

/-- The place of the Ethertype of a frame, behind at most one IEEE 802.1Q tag (R285). -/
def etherAt (f : List Byte) : Nat := if beField f 12 2 = 0x8100 then 16 else 12

/-- Where the PTP message of a frame starts, and where its UDP checksum stands if it has one, when the frame carries PTP in a
transport of R285. -/
def ptpAt (f : List Byte) : Option (Nat × Option Nat) :=
  let o := etherAt f
  if beField f o 2 = 0x88F7 then some (o + 2, none)
  else if beField f o 2 = 0x0800 ∧ beField f (o + 2) 1 = 0x45 ∧ beField f (o + 11) 1 = 17
      ∧ (beField f (o + 24) 2 = 319 ∨ beField f (o + 24) 2 = 320) then some (o + 30, some (o + 28))
  else none

/-- ONE_STEP_INSERT (R287): the Sync with the timestamp written into it, none where ONE_STEP cannot handle the frame. -/
def oneStep (f : List Byte) (t : Nat) : Option (List Byte) :=
  match ptpAt f with
  | none => none
  | some (m, ck) =>
    if beField f m 1 % 16 ≠ 0 ∨ f.length < m + 44 then none
    else
      let f1 := patch f (m + 34) (beBytes 6 (bitsAt t 48 48) ++ beBytes 4 (bitsAt t 16 32))
      let f2 := patch f1 (m + 8) (beBytes 8 (beField f (m + 8) 8 + bitsAt t 0 16))
      some (match ck with | none => f2 | some c => patch f2 c [0, 0])

/-- The ring index after one. -/
def tpNext (i size : Nat) : Nat := if i + 1 < size then i + 1 else 0

/-- TSQ_ENTRY (R288): an entry joins the queue or is lost. -/
def State.tsqPut (s : State) (p id t : Nat) : State :=
  let x := s.tp p
  if x.tsq.length < 16 then s.setTp p { x with tsq := x.tsq ++ [(id, t)] }
  else (s.bump (timTpTsqLostF p) 1).raise (timTpStatus_TsqOvf p)

/-- TP_FRAME_TRANSMIT (R286, R287): the descriptor at the head of the ring is handled. The boundary is the time from the start of
this cycle to the frame's first bit at the timestamp point, in 1/256 cycle. A frame read with poison leaves with its FCS
inverted (R380). In the safe state the port is silent (R401). -/
def tpFrameTransmit (p boundary : Nat) (s : State) : State :=
  let head := s.getF (timTpTxHead_Index p)
  if !s.flag (timTpCtrl_TxEn p) || s.txSafeNow || s.flueDead (txFlue (28 + p)) || s.getF (timTpTxTail_Index p) == head || decide (1024 ≤ boundary) then s
  else
    let r := s.hbmRead 9 0x1FF (32 * s.getF (timTpTxBase_Addr p) + 32 * head) 32
    let d := r.2.1
    let len := dfield d 8 2
    let fl := dfield d 10 1
    let next := tpNext head (s.getF (timTpTxSize_Entries p))
    if len < 60 ∨ 2044 < len then (r.1.setF (timTpTxHead_Index p) next).raise (timTpStatus_TxDescErr p)
    else if fl.testBit 2 && decide (s.frc.toNat < dfield d 16 8) then s
    else
      let q := r.1.hbmRead 9 0x1FF (dfield d 0 8 % 2 ^ 40) len
      let x := 256 * s.stampFrc + boundary + 8576
      let t := s.timeForm x (sint 32 (s.getF (timTpTxAdj_Adj p)))
      let f := if fl.testBit 1 then (oneStep q.2.1 t).getD q.2.1 else q.2.1
      let fcs := if q.2.2 then (fcsOf f).map (~~~ ·) else fcsOf f
      let s1 := (q.1.setF (timTpTxHead_Index p) next).bump (timTpTxFramesF p) 1
      let s2 := if fl.testBit 1 && (oneStep q.2.1 t).isNone then s1.bump (timTpOnestepErrF p) 1 else s1
      let s3 := if fl.testBit 2 && decide (dfield d 16 8 < s.frc.toNat) then s2.bump (timTpTxLateF p) 1 else s2
      let s4 := s3.setTp p { s3.tp p with sent := f ++ fcs }
      if fl.testBit 0 then s4.tsqPut p (dfield d 12 2 % 4096) t else s4

/-- The meaning of TP_FRAME_TRANSMIT. -/
def execTpFrameTransmit (port boundary : Nat) (s : State) : Out := .next (s.when (decide (port < 2)) (tpFrameTransmit port boundary s))

/-- TSQ_POP: the head entry goes; a pop of an empty queue is ignored (R288). -/
def tsqPop (p : Nat) (s : State) : State := s.setTp p { s.tp p with tsq := (s.tp p).tsq.drop 1 }

/-- The meaning of TSQ_POP. -/
def execTsqPop (port : Nat) (s : State) : Out := .next (s.when (decide (port < 2)) (tsqPop port s))

/-- TP_FRAME_RECEIVE (R285, R289): a frame, with its FCS, whose first bit crosses the reference plane at this time. -/
def tpFrameReceive (p : Nat) (frame : List Byte) (frac : Byte) (s : State) : State :=
  let head := s.getF (timTpRxHead_Index p)
  if !s.flag (timTpCtrl_RxEn p) || !s.flag (timTpStatus_BlockLock p) || s.blockHeld (24 + p) || s.flueDead (txFlue (28 + p)) then s
  else if !fcsOk frame then s.bump (timTpRxFcsErrF p) 1
  else if decide (2048 < frame.length) || head == s.getF (timTpRxTail_Index p) then s.bump (timTpRxDropF p) 1
  else
    let da := 32 * s.getF (timTpRxBase_Addr p) + 32 * head
    let r := s.hbmRead 9 0x1FF da 32
    let t := s.timeForm (s.stamp frac) (sint 32 (s.getF (timTpRxAdj_Adj p)))
    let s1 := r.1.hbmWrite 9 0x1FF (dfield r.2.1 0 8 % 2 ^ 40) frame false
    let vlan := b2n (beField frame 12 2 == 0x8100)
    let s2 := s1.hbmWrite 9 0x1FF (da + 8)
      (leBytes 2 frame.length ++ leBytes 1 (1 + 2 * vlan) ++ List.replicate 9 0 ++ leBytes 12 t) false
    (s2.setF (timTpRxHead_Index p) (tpNext head (s.getF (timTpRxSize_Entries p)))).bump (timTpRxFramesF p) 1

/-- The meaning of TP_FRAME_RECEIVE. -/
def execTpFrameReceive (port : Nat) (frame : List Byte) (frac : Byte) (s : State) : Out :=
  .next (s.when (decide (port < 2)) (tpFrameReceive port frame frac s))

/-- TP_BLOCK_LOCK: a port's receiver gains or loses block lock, and its optical signal is present or not (R285). -/
def tpBlockLock (p : Nat) (locked signal : Bool) (s : State) : State :=
  let s1 := s.setF (timTpStatus_Signal p) (b2n (locked || signal))
  s1.setF (timTpStatus_BlockLock p) (b2n (locked && !s.blockHeld (24 + p)))

/-- The meaning of TP_BLOCK_LOCK. -/
def execTpBlockLock (port : Nat) (locked signal : Bool) (s : State) : Out :=
  .next (s.when (decide (port < 2)) (tpBlockLock port locked signal s))

/-! ### Chips in step (R290 to R294) -/

/-- A SYNC goes out on every link of SYNC_TX that is frozen; any other sets SKIPPED (R290, R354). -/
def State.sendSync (s : State) (valid : Bool) (start : Nat) : List Nat → State
  | [] => s
  | n :: ns =>
    let t :=
      if !(s.getF timSyncTx_Links).testBit n then s
      else if s.flag (zlLinkStatus_Frozen n) then s.setZlink n { s.zlink n with syncOut := some (valid, start) }
      else s.raise timSyncStat_Skipped
    t.sendSync valid start ns

/-- This chip is released at START as a RUN write would, or START_LATE is set: in the safe state and in holdover, and where START
has passed (R290, R292, R403, R451). -/
def State.runOrLate (s : State) (start : Nat) : State :=
  if s.noRelease then s.raise timSyncStat_StartLate
  else if s.running then s
  else if start < s.tick + 2 then s.raise timSyncStat_StartLate
  else if s.canRun start then s.armRun start
  else s

/-- SYNC_SEND: a write of SYNC_CTRL; with GO set, SYNCs go out, and with SELF this chip is released at START (R290). -/
def syncSend (value : W32) (s : State) : State :=
  let v := value.toNat
  let s1 := ((s.setF timSyncCtrl_Forward (bitsAt v 3 1)).setF timSyncCtrl_Self (bitsAt v 2 1)).setF timSyncCtrl_Start (bitsAt v 1 1)
  if !v.testBit 0 then s1
  else
    let start := s.getF timSyncStart_Tick
    let s2 := s1.sendSync (v.testBit 1) start (List.range 24)
    if v.testBit 2 || (v.testBit 1 && s.noRelease) then s2.runOrLate start else s2

/-- The meaning of SYNC_SEND. -/
def execSyncSend (value : W32) (s : State) : Out := .next (syncSend value s)

/-- A count moved by an FRC load, 0 where it would fall below. -/
def movedBy (k : Int) (n : Nat) : Nat := ((n : Int) + k).toNat

/-- A time of an edge, plus one, in 1/256 cycle modulo 2^72, moved by k cycles. -/
def movedEdge (k : Int) (e : Nat) : Nat := unsint 72 ((e : Int) - 1 + 256 * k) + 1

/-- What an FRC load by k cycles moves beside FRC: the device ticks whose decision cycle is still to come on the new FRC are undecided,
and halts and TRIG_IN edges keep their place in time (R256, R294, R474). -/
def State.trgMoved (s : State) (k : Int) : State :=
  { s with
    hearth := { s.hearth with
      haltFrc := movedBy k s.hearth.haltFrc
      halts := s.hearth.halts.map fun h => (movedBy k h.1, movedBy k h.2) }
    trg := { s.trg with
      next := (s.frc.toNat + 63 - s.trgLat) / 64
      edgeAt := s.trg.edgeAt.map fun e => (e.1, movedEdge k e.2)
      edges := s.trg.edges.map fun e => (e.1, movedEdge k e.2) } }

/-- FRC_LOAD: FRC and REF move by k, and START and FORWARD are acted on (R291 to R294). Times of the SYNC are in 1/256 cycle. FRC never
moves while the Hearth runs (R147): where the Hearth has been released since the SYNC came, the load is dropped and REFUSED is set, as
for a SYNC that comes then (log entry 96). -/
def frcLoad (s : State) : State :=
  match s.tim.load with
  | none => s
  | some l =>
    if s.running then { s with tim := { s.tim with load := none } }.raise timSyncStat_Refused
    else
    let k := (l.target - l.rx + 128) / 256
    let s0 := s.keepTime
    let s1 : State :=
      { s0 with frc := BitVec.ofNat 64 (unsint 64 (s.frc.toNat + k)), tim := { s0.tim with load := none } }.trgMoved k
    let s2 := (s1.setF timRefFrc_Ref (unsint 64 (s.getF timRefFrc_Ref + k))).setF timSyncJump_K (unsint 64 k)
    let s3 := ((s2.setF timSyncStat_Resid (unsint 8 (l.target - (l.rx + 256 * k)))).setF timSyncStat_Link l.link).raise timSyncStat_Loaded
    let s4 := s3.setF timSyncAccept_Links 0
    let s5 := if l.startValid then s4.runOrLate l.start else s4
    if s.flag timSyncCtrl_Forward then s5.sendSync l.startValid l.start (List.range 24) else s5

/-- The meaning of FRC_LOAD. -/
def execFrcLoad (s : State) : Out := .next (frcLoad s)

end Sys2Proof.Machine
end

