-- ==== Sys2Proof/Machine/RegView.lean ====
section
/-!
DEFINITION. What a read of a register word returns before any effect of the read: the stored word, with the fields that the device
computes from the rest of its state (R13, R16, R78, and the register maps).
-/
namespace Sys2Proof.Machine

/-- A word with a field of its register replaced. -/
def withF (w : W32) (f : Fld) (v : Nat) : W32 := BitVec.ofNat 32 (putBits w.toNat f.lsb f.width v)

/-- One of the two words of a 64-bit value: the low one at the register's offset. -/
def pairWord (off base v : Nat) : W32 := BitVec.ofNat 32 (if off = base then v else v / 2 ^ 32)

/-- A site's window (HRT map). A disabled course reads 0 but for SITE_ID, and a memory unit has no LAT_PAD, UFL or AMX registers
(R78). -/
def State.viewHrt (s : State) (off : Nat) : W32 :=
  let u := (off - 0x1000000) / 0x8000
  let w := s.word off
  let r := off % 0x8000
  let dis := s.courseOff (courseOf u)
  if off = hrtSiteId u then
    withF (withF (withF (withF w (hrtSiteId_Disabled u) (b2n dis)) (hrtSiteId_Kind u) (b2n (isMu u)))
      (hrtSiteId_Vcourse u) (s.vcourse (courseOf u))) (hrtSiteId_Column u) (columnOf u)
  else if dis then 0
  else if off = hrtUnitStatus u then
    let runs := s.running && (s.unitMode u == 1 || (s.unitMode u == 2 && (s.unit u).graphOn))
    let held := s.running && (s.unit u).graphOn && s.flag (hrtUnitStatus_Stalled u)
    withF (withF (withF (withF w (hrtUnitStatus_Halted u) (b2n (!s.running))) (hrtUnitStatus_Running u) (b2n (runs && !held)))
      (hrtUnitStatus_Stalled u) (b2n held)) (hrtUnitStatus_DamperHold u) (b2n (held && s.flag (hrtUnitStatus_DamperHold u)))
  else if isMu u && (r == 0xC || r == 0x3C || (decide (0x60 ≤ r) && decide (r < 0x80))) then 0
  else w

/-- A grate's window (FAB map). QSTAT.CREDITS shows a counter above 127 cut to its 7 bits (DESIGN CHOICE, log entry 109). -/
def State.viewGr (s : State) (off : Nat) : W32 :=
  let g := (off - 0x800000) / 0x4000
  let w := s.word off
  let r := off % 0x4000
  if off = grId g then
    withF (withF (withF (withF w (grId_Relay g) (b2n (s.courseOff (courseOf g)))) (grId_Kind g) (b2n (isMu g)))
      (grId_Vcourse g) (s.vcourse (courseOf g))) (grId_Column g) (columnOf g)
  else if 0x200 ≤ r ∧ r < 0x234 then
    let q := (r - 0x200) / 4
    let x := (s.grate g).queue q
    withF (withF (withF 0 (grQstat_Credits g q) x.credits) (grQstat_Epoch g q) x.epoch) (grQstat_Occ g q) x.toks.length
  else w

/-- The Stoker's registers. -/
def State.viewStk (s : State) (off : Nat) : W32 :=
  let w := s.word off
  let q := (off - 0x200100) / 0x40
  let c := (off - 0x200600) / 0x40
  if off = stkStatus then withF w stkStatus_BmOff (b2n (!s.flag glbPcieStatus_Bm))
  else if off = stkInflight then withF w stkInflight_Count s.stk.flights.length
  else if 0x200100 ≤ off ∧ off < 0x200500 ∧ off = stkSqStat q then
    let h := s.waitBits q
    withF (withF (withF (withF (withF w (stkSqStat_Inflight q) (s.stk.flights.filter fun f => f.sq == q).length)
      (stkSqStat_WaitTag q) (b2n h.1)) (stkSqStat_WaitFence q) (b2n h.2.1))
      (stkSqStat_WaitRes q) (b2n h.2.2)) (stkSqStat_Active q) (b2n (s.published q != 0))
  else if 0x200600 ≤ off ∧ off < 0x200A00 ∧ off = stkCqStat c then
    withF (withF w (stkCqStat_Held c) (min 256 (s.cq c).held.length)) (stkCqStat_Full c) (b2n (s.cqFull c))
  else w

/-- The next ring byte that a pool writes to HBM: what its buffer holds has still to be written (WR_PTR). -/
def State.wrPtr (s : State) (c : Nat) : Nat :=
  let p := s.pool c
  4096 * s.getF (trgPoolRingBase_Addr c) + (if s.ringSize c = 0 then 0 else (p.pos - p.wbuf.length) % s.ringSize c)

/-- A pool's registers. -/
def State.viewPool (s : State) (off : Nat) : W32 :=
  let c := (off - 0x102000) / 0x80
  let w := s.word off
  let p := s.pool c
  if off = trgPoolStatus c then
    withF (withF (withF w (trgPoolStatus_Stopped c) (b2n p.stopped.isSome)) (trgPoolStatus_Capturing c) (b2n p.capt.isSome))
      (trgPoolStatus_Armed c) (b2n (s.poolArmed c))
  else if off = trgPoolWrPtr c ∨ off = trgPoolWrPtr c + 4 then pairWord off (trgPoolWrPtr c) (s.wrPtr c)
  else w

/-- A Chimney port's registers. -/
def State.viewChm (s : State) (off : Nat) : W32 :=
  let p := (off - 0x140100) / 0x40
  let w := s.word off
  let x := s.chmPort p
  let head := match x.rxq with | m :: _ => m | [] => (0, 0)
  if off = chmPortTxqStat p then withF w (chmPortTxqStat_Level p) x.txq.length
  else if off = chmPortRxqStat p then withF w (chmPortRxqStat_Level p) x.rxq.length
  else if off = chmPortRxqMsg p ∨ off = chmPortRxqMsg p + 4 then pairWord off (chmPortRxqMsg p) head.1.toNat
  else if off = chmPortRxqTime p ∨ off = chmPortRxqTime p + 4 then pairWord off (chmPortRxqTime p) head.2.toNat
  else w

/-- TIM's registers: the conversion, and the heads of the timestamp queues (R279, R288). -/
def State.viewTim (s : State) (off : Nat) : W32 :=
  let w := s.word off
  let p := (off - 0x40400) / 0x100
  let r := (off - 0x40400) % 0x100
  if timConvTime 0 ≤ off ∧ off < timConvTime 3 then
    BitVec.ofNat 32 (s.timeAtFrc (s.getF timConvFrc_Frc) / 2 ^ (8 * (off - timConvTime 0)))
  else if off < 0x40400 ∨ 0x40600 ≤ off then w
  else if r = 4 then withF w (timTpStatus_TsqNe p) (b2n (!(s.tp p).tsq.isEmpty))
  else if 0x40 ≤ r ∧ r < 0x50 then
    match (s.tp p).tsq with
    | [] => 0
    | (id, t) :: _ =>
      if r = 0x40 then BitVec.ofNat 32 (2 ^ 31 + id % 4096 * 2 ^ 16 + bitsAt t 0 16)
      else if r = 0x44 then BitVec.ofNat 32 (bitsAt t 16 32)
      else if r = 0x48 then BitVec.ofNat 32 (bitsAt t 48 32) else BitVec.ofNat 32 (bitsAt t 80 16)
  else w

/-- Ingest's registers (R50, R54, R55): a channel's words in the stream of the release tick. -/
def State.viewIng (s : State) (off : Nat) : W32 :=
  let w := s.word off
  let c := (off - 0x80040) / 0x10
  let l := (off - 0x81000) / 0x40
  if off = ingAlign then withF w ingAlign_Effective s.effDelay
  else if 0x80040 ≤ off ∧ off < 0x80140 ∧ off = ingChWords c then
    let n (c : Nat) : Nat := if s.flag (ingChCfg_En c) then 39 * (s.getF (ingChCfg_Fibres c) + 1) else 0
    withF (withF w (ingChWords_FirstWord c) ((s.streamChans.filter (· < c)).map n).sum) (ingChWords_Words c) (n c)
  else if 0x81000 ≤ off ∧ off < 0x85000 ∧ off = ingLaneStatus l then
    withF w (ingLaneStatus_AlignOk l) (b2n (s.alignOk l))
  else w

/-- What a read of a word of BAR0 returns. -/
def State.view (s : State) (off : Nat) : W32 :=
  if 0x1000000 ≤ off ∧ off < 0x1000000 + 0x8000 * 300 then s.viewHrt off
  else if 0x800000 ≤ off ∧ off < 0x800000 + 0x4000 * 300 then s.viewGr off
  else if 0x200000 ≤ off ∧ off < 0x280000 then s.viewStk off
  else if 0x102000 ≤ off ∧ off < 0x102800 then s.viewPool off
  else if 0x140100 ≤ off ∧ off < 0x140200 then s.viewChm off
  else if 0x40000 ≤ off ∧ off < 0x80000 then s.viewTim off
  else if 0x80000 ≤ off ∧ off < 0x100000 then s.viewIng off
  else if 0x300000 ≤ off ∧ off < 0x300800 then
    let t := (off - 0x300100) / 0x20
    if 0x300100 ≤ off ∧ off = optTxState t then withF (s.word off) (optTxState_Pulse t) (b2n (s.txPulsing t)) else s.word off
  else if 0x300800 ≤ off ∧ off < 0x300838 then
    let k := (off - 0x300800) / 4
    withF (s.word off) (optFlue_PllLock k) (b2n ((s.word pwrPllStatus).toNat.testBit (k + 1)))
  else if off = fltStatus then withF (s.word off) fltStatus_PulseActive (b2n s.pulseOn)
  else if off = fltPinCtrl then withF (s.word off) fltPinCtrl_Level (b2n s.errOut)
  else if off = secIdstate then
    withF (withF (withF (withF (withF (s.word off) secIdstate_Lifecycle s.sec.lifecycle) secIdstate_Debug s.sec.scopes.toNat)
      secIdstate_Tree s.sec.tree) secIdstate_Block s.sec.block) secIdstate_Leaf s.sec.leaf
  else s.word off

end Sys2Proof.Machine
end

