-- ==== Sys2Proof/Machine/Security.lean ====
section
/-!
DEFINITION. The commands of the Firebox: the mailbox, tree regeneration, glitch detection, and the end of a request
(R396, R413, R417, R419 to R426).
-/
namespace Sys2Proof.Machine

/-- GET_INFO: DEVICE_ID, lifecycle, FW_VERSION, unreserved blocks and leaves left in the current block, 48 bytes (R426; the
places of the last four are log entry 14). -/
def getInfo (s : State) : State :=
  s.mailbox true fun s =>
    s.serve rcOk (s.sec.deviceIdBytes ++ leBytes 4 s.sec.lifecycle ++ leBytes 4 (s.word glbFwVersion).toNat
      ++ leBytes 4 s.sec.unreserved ++ leBytes 4 (1024 - s.sec.leaf))

/-- The meaning of GET_INFO. -/
def execGetInfo (s : State) : Out := .next (getInfo s)

/-- OTP_FAIL raises SEC_FIREBOX (R413). -/
def State.otpFail (s : State) : State := (s.serve rcOtpFail []).assertSrc 14

/-- MAILBOX_ATTEST: a signed report for the nonce at SEC.ADDR; a block whose bit fails verification gives OTP_FAIL
(R416, R418, R424). -/
def mailboxAttest (s : State) : State :=
  s.mailbox false fun s =>
    let r := s.mailIn 32
    if r.2.length < 32 then r.1.serve rcBadArg []
    else
      match r.1.sec.takeLeaf r.1.part.weakBlocks with
      | .busy => r.1.serve rcBusy []
      | .exhausted => r.1.serve rcExhausted []
      | .failed c => { r.1 with sec := c }.otpFail
      | .use q c => { r.1 with sec := c }.serve rcOk (r.1.attestReport r.2 q)

/-- The meaning of MAILBOX_ATTEST. -/
def execMailboxAttest (s : State) : Out := .next (mailboxAttest s)

/-- GET_KEM_CERT: the KEM certificate in the boot flash (R421). -/
def getKemCert (s : State) : State := s.mailbox false fun s => s.serve rcOk s.sec.kemCertificate

/-- The meaning of GET_KEM_CERT. -/
def execGetKemCert (s : State) : Out := .next (getKemCert s)

/-- ENROLL_OWNER: in state VENDOR, over the owner's key and its own signature block; a hash that an interrupted enrolment left
programmed gives OTP_FAIL. The hash is programmed and verified by reading it back, and OWNER_SET follows when the request ends, so that
a reset before that leaves the state at VENDOR with the hash programmed (R419). The block must carry the key that is enrolled (log
entry 15). -/
def enrollOwner (s : State) : State :=
  s.mailbox false fun s =>
    if s.sec.lifecycle ≠ 0 then s.serve rcDenied []
    else if s.sec.ownerHash ≠ 0 then s.otpFail
    else
      let r := s.mailIn 65535
      let key := r.2.take 60
      let blk := r.2.drop 60
      if r.2.length < 188 ∨ dfield blk 4 1 ≠ 1 then r.1.serve rcBadArg []
      else if ¬(sbKey blk = key ∧ sbVerifies blk (sha256 (r.1.sec.deviceIdBytes ++ key)) = true) then
        r.1.serve rcBadSignature []
      else
        let hash := sha256N key &&& ~~~r.1.part.weakHash
        let s1 := { r.1 with sec := { r.1.sec with ownerHash := hash } }
        if hash = sha256N key then { s1 with sec := { s1.sec with enrolling := true } }.serve rcOk [] else s1.otpFail

/-- The meaning of ENROLL_OWNER. -/
def execEnrollOwner (s : State) : Out := .next (enrollOwner s)

/-- The ASCII bytes "VENDOR-OFF". -/
def vendorOffText : List Byte := [0x56, 0x45, 0x4E, 0x44, 0x4F, 0x52, 0x2D, 0x4F, 0x46, 0x46]

/-- FUSE_OFF_VENDOR: in state ENROLLED, over the device, the text and the last nonce, by the owner's key (R420). -/
def fuseOffVendor (s : State) : State :=
  s.mailbox false fun s =>
    if s.sec.lifecycle ≠ 1 then s.serve rcDenied []
    else
      let r := s.mailIn 65535
      match r.1.sec.nonce with
      | none => r.1.serve rcBadArg []
      | some n =>
        let msg := r.1.sec.deviceIdBytes ++ vendorOffText ++ leBytes 32 n.toNat
        if dfield r.2 4 1 ≠ 1 then r.1.serve rcBadArg []
        else if r.1.sec.sbOk r.2 (sha256 msg) then
          { r.1 with sec := { r.1.sec with vendorOff := true } }.serve rcOk []
        else r.1.serve rcBadSignature []

/-- The meaning of FUSE_OFF_VENDOR. -/
def execFuseOffVendor (s : State) : Out := .next (fuseOffVendor s)

/-- A fresh nonce: a free value, or where that has been given before the least one that has not (R425; log entry 6). -/
def Sec.freshNonce (c : Sec) : BitVec 256 :=
  let n := Config.nonce c.drawn
  if n ∈ c.past then BitVec.ofNat 256 ((leastBelow (c.past.length + 1) fun v => !c.past.contains (BitVec.ofNat 256 v)).getD 0) else n

/-- DEBUG_CHALLENGE: a fresh nonce, and any earlier one no longer counts (R425). -/
def debugChallenge (s : State) : State :=
  s.mailbox false fun s =>
    let n := s.sec.freshNonce
    { s with sec := { s.sec with nonce := some n, drawn := s.sec.drawn + 1, past := n :: s.sec.past } }.serve rcOk (leBytes 32 n.toNat)

/-- The meaning of DEBUG_CHALLENGE. -/
def execDebugChallenge (s : State) : Out := .next (debugChallenge s)

/-- DEBUG_UNLOCK: a token that verifies, carries the current nonce and names this part unlocks its scopes and uses up the
nonce (R425). -/
def debugUnlock (s : State) : State :=
  s.mailbox false fun s =>
    let r := s.mailIn 65535
    let tok := r.2.take 72
    if r.2.length < 72 ∨ dfield tok 0 4 ≠ 0x47424444 then r.1.serve rcBadArg []
    else if !r.1.sec.sbOk (r.2.drop 72) (sha256 tok) then r.1.serve rcBadSignature []
    else if r.1.sec.nonce ≠ some (BitVec.ofNat 256 (dfield tok 40 32)) ∨ (tok.drop 8).take 32 ≠ r.1.sec.deviceIdBytes then
      r.1.serve rcBadArg []
    else
      { r.1 with sec := { r.1.sec with scopes := r.1.sec.scopes ||| BitVec.ofNat 3 (dfield tok 4 4), nonce := none } }.serve
        rcOk []

/-- The meaning of DEBUG_UNLOCK. -/
def execDebugUnlock (s : State) : Out := .next (debugUnlock s)

/-- DEBUG_LOCK: every scope is locked (R425, R426). -/
def debugLock (s : State) : State :=
  s.mailbox false fun s => { s with sec := { s.sec with scopes := 0 } }.serve rcOk []

/-- The meaning of DEBUG_LOCK. -/
def execDebugLock (s : State) : Out := .next (debugLock s)

/-- READ_LOG: 64 entries of 16 bytes, source and FRC, oldest first (R396, R426). -/
def readLog (s : State) : State :=
  s.mailbox false fun s =>
    s.serve rcOk (((s.flt.log.flatMap fun (e : Nat × Nat) => leBytes 8 e.1 ++ leBytes 8 e.2) ++ List.replicate 1024 0).take 1024)

/-- The meaning of READ_LOG. -/
def execReadLog (s : State) : Out := .next (readLog s)

/-- SET_SVN: FW_SVN is programmed up to the running firmware's version (R409, R426). -/
def setSvn (s : State) : State :=
  s.mailbox false fun s =>
    { s with sec := s.sec.programSvn s.sec.svn }.serve rcOk []

/-- The meaning of SET_SVN. -/
def execSetSvn (s : State) : Out := .next (setSvn s)

/-- TREE_REGENERATED: the top table is rebuilt and written back, the first tree becomes ready, or the next one does
(R415, R417). -/
def treeRegenerated (s : State) : State :=
  let c := s.sec
  if c.bootFailed || c.stopped || !c.running then s
  else if c.topBuild then
    { s with sec := { c with topBuild := false, flash := c.tableRebuilt } }
  else if !c.ready then s.when (decide (c.block < 1024)) { s with sec := { c with ready := true } }
  else s.when (c.leafBlocks.getLsbD c.block && decide (c.block < 1023)) { s with sec := { c with nextReady := true } }

/-- The meaning of TREE_REGENERATED. -/
def execTreeRegenerated (s : State) : Out := .next (treeRegenerated s)

/-- What a glitch leaves of the Firebox: its fuses and flash, with its SRAM and key registers zeroed. The Stoker's descriptors still wait
(R413). -/
def Sec.zeroed (c : Sec) : Sec := { c.afterReset with bootFailed := c.bootFailed, stopped := true, waiting := c.waiting }

/-- GLITCH_DETECT: the Firebox zeroes its SRAM and key registers, its fault log among them, stops with no request being served, and
raises SEC_GLITCH; only a chip reset ends that (R413). -/
def glitchDetect (s : State) : State :=
  ({ s with sec := s.sec.zeroed, flt := { s.flt with log := [] } }.setF secStatus_Busy 0).assertSrc 15

/-- The meaning of GLITCH_DETECT. -/
def execGlitchDetect (s : State) : Out := .next (glitchDetect s)

/-- FIREBOX_REQUEST_DONE: the output is written, and RESULT and DONE are set and the vector signalled, or the ATTEST
descriptor completes; an enrolment's OWNER_SET is programmed (R419). The next waiting request is then served (R305, R424, R426). -/
def fireboxRequestDone (s : State) : State :=
  match s.sec.busy with
  | none => s
  | some (who, r, len, out) =>
    let s0 := { s with sec := { s.sec with busy := none, enrolling := false, ownerSet := s.sec.ownerSet || s.sec.enrolling } }.setF
      secStatus_Busy 0
    match who with
    | none =>
      let w := s0.awWrite 10 (s0.getF secAddr_Addr) (out.take (s0.getF secLen_Bytes)) false
      let s1 := (w.1.setF secResult_Code r).raise secStatus_Done
      (if s1.flag secCtrl_IrqEn then s1.signal (s1.getF secCtrl_Vector) else s1).serveNext
    | some tag =>
      match s0.fly tag with
      | none => s0.serveNext
      | some f =>
        let w := s0.awWrite 10 (dfield f.bytes 16 8) out false
        (w.1.complete tag (if w.2 ∧ out ≠ [] then stBusOff else r) len).serveNext

/-- The meaning of FIREBOX_REQUEST_DONE. -/
def execFireboxRequestDone (s : State) : Out := .next (fireboxRequestDone s)

end Sys2Proof.Machine
end

