-- ==== Sys2Proof/Machine/StkSvc.lean ====
section
/-!
DEFINITION. The Stoker's DMA and service descriptors, and RESYNC (R304, R305, R323, R341, R368, R407, R430).
-/
namespace Sys2Proof.Machine

/-! ### COPY and FILL (R305) -/

/-- Bytes read at an address word, each with the poison of its sector, and whether the bus refused the access. -/
def State.tagRead (s : State) (aw n : Nat) : State × List (Byte × Bool) × Bool :=
  if isHostAddr aw then
    let r := s.awRead 4 aw n
    (r.1, r.2.1.map fun b => (b, r.2.2.1), r.2.2.2)
  else
    let a := aw % 2 ^ 40
    let r := s.sectorsEach 4 (a - a % 32) (sectorSpan a n)
    (r.1, ((r.2.flatMap fun x => x.1.map fun b => (b, x.2)).drop (a % 32)).take n, false)

/-- Bytes written at an address word in k pieces, each up to the end of its sector: a piece is poisoned where a byte of it is. -/
def State.tagWrite (s : State) (aw : Nat) (bs : List (Byte × Bool)) : Nat → State
  | 0 => s
  | k + 1 =>
    let n := 32 - aw % 32
    let now := bs.take n
    (s.awWrite 4 aw (now.map fun b => b.1) (now.any fun b => b.2) true).1.tagWrite (aw + n) (bs.drop n) k

/-- What reaches the destination of a COPY: in the overlap of the two ranges the result is undefined. -/
def State.overlapFree (s : State) (src dst : Nat) (bs : List (Byte × Bool)) : State × List (Byte × Bool) :=
  let r := s.drawBytes bs.length
  let n := bs.length
  if src + n ≤ dst ∨ dst + n ≤ src then (s, bs)
  else (r.2, (bs.zip r.1).zipIdx.map fun x =>
    if src ≤ dst + x.2 ∧ dst + x.2 < src + n then (x.1.2, x.1.1.2) else x.1.1)

/-- COPY: the bytes move with their poison (R305, R322). -/
def copyDesc (tag : Nat) (s : State) : State :=
  match s.startable tag 0x04 with
  | none => s
  | some d =>
    if s.dmaHeld then s
    else
      let src := dfield d 8 8
      let dst := dfield d 16 8
      let n := dfield d 24 8
      let r := s.tagRead src n
      let o := r.1.overlapFree src dst r.2.1
      let off := isHostAddr dst && s.busOff
      let s1 := o.1.tagWrite dst o.2 (sectorSpan dst n)
      let poi := r.2.1.any fun b => b.2
      s1.landing tag (if r.2.2 || off then stBusOff else if poi then stPoison else stOk) (if off then 0 else n)

/-- The meaning of COPY. -/
def execCopyDesc (tag : Nat) (s : State) : Out := .next (copyDesc tag s)

/-- FILL: the pattern repeats from byte 0 of DST (R304, R305). -/
def fillDesc (tag : Nat) (s : State) : State :=
  match s.startable tag 0x05 with
  | none => s
  | some d =>
    if s.dmaHeld then s
    else
      let dst := dfield d 8 8
      let n := dfield d 16 8
      let pat := leBytes 8 (dfield d 24 8)
      let bs := (List.range n).map fun i => (listGet 0 pat (i % 8), false)
      let off := isHostAddr dst && s.busOff
      (s.tagWrite dst bs (sectorSpan dst n)).landing tag (if off then stBusOff else stOk) (if off then 0 else n)

/-- The meaning of FILL. -/
def execFillDesc (tag : Nat) (s : State) : Out := .next (fillDesc tag s)

/-! ### Services (R304, R305) -/

/-- The end of a TIMESTAMP: FRC in the cycle of completion, and its device time at DST where there is one. -/
def State.timestampEnd (s : State) (tag : Nat) (d : List Byte) : State :=
  let dst := dfield d 8 8
  if dst = 0 then s.complete tag stOk s.stampFrc
  else
    let w := s.awWrite 4 dst (leBytes 12 s.timeNow) false
    w.1.complete tag (if w.2 then stBusOff else stOk) s.stampFrc

/-- TIMESTAMP: one that writes nothing completes now, and one with a DST when its bytes land. -/
def timestampDesc (tag : Nat) (s : State) : State :=
  match s.startable tag 0x08 with
  | none => s
  | some d => if dfield d 8 8 = 0 then s.timestampEnd tag d else s.landing tag stOk 0

/-- The meaning of TIMESTAMP. -/
def execTimestampDesc (tag : Nat) (s : State) : Out := .next (timestampDesc tag s)

/-- SNAPSHOT: SNAP_BASE and TICKS are programmed, and the snapshot starts at START (R75, R305). -/
def snapshotDesc (tag : Nat) (s : State) : State :=
  match s.startable tag 0x09 with
  | none => s
  | some d =>
    let start := dfield d 24 8
    let n := dfield d 16 4
    if s.flag ingStatus_SnapBusy then s.complete tag stBusy 0
    else if (start ≠ 0 ∧ start < s.tick + 2) ∨ 2 ^ 24 ≤ n then s.complete tag stBadOperand 0
    else
      let s1 := ((s.begin tag).setF ingSnapBase_Addr (dfield d 8 8 / 4096)).setF ingSnapCtrl_Ticks n
      s1.snapStart start (some tag)

/-- The meaning of SNAPSHOT. -/
def execSnapshotDesc (tag : Nat) (s : State) : Out := .next (snapshotDesc tag s)

/-- One point of the digest table: head and 256 entries, oldest first (R341). -/
def DigPoint.table (p : DigPoint) (epoch : Nat) : List Byte :=
  let es := p.hist.take 256
  let newest := match es with | e :: _ => e.1 | [] => 0
  leBytes 1 p.point ++ leBytes 1 p.region ++ leBytes 2 p.graph ++ leBytes 1 p.depth ++ leBytes 1 epoch ++ leBytes 2 es.length
    ++ leBytes 8 newest ++ List.replicate 16 0
    ++ (es.reverse.flatMap fun e => leBytes 6 e.1 ++ leBytes 1 e.2.1 ++ [0] ++ leBytes 8 e.2.2.toNat)
    ++ List.replicate (16 * (256 - es.length)) 0

/-- Points in ascending POINT order. -/
def pointOrder (l : List DigPoint) : List DigPoint := (List.range 32).flatMap fun n => l.filter fun p => p.point == n

/-- The digest table (R341). -/
def State.digestTable (s : State) : List Byte :=
  let ps := match s.hearth.img with | some i => pointOrder i.points | none => []
  leBytes 4 0x47494444 ++ leBytes 2 1 ++ leBytes 1 ps.length ++ [0] ++ s.regBytes glbReproSig 1 ++ s.regBytes glbReproChk 1
    ++ s.regBytes glbFwVersion 1 ++ s.regBytes glbFuseMap 1 ++ leBytes 8 s.stampFrc ++ s.regBytes (glbImgDigest 0) 8
    ++ ps.flatMap fun p => p.table (s.getF glbImgState_Epoch)

/-- READ_DIGESTS: every history sampled in this cycle and written, cut at MAX (R305, R341). -/
def readDigests (tag : Nat) (s : State) : State :=
  match s.startable tag 0x0C with
  | none => s
  | some d =>
    let t := s.digestTable
    let max := dfield d 16 4
    let w := s.awWrite 4 (dfield d 8 8) (t.take max) false
    w.1.landing tag (if w.2 then stBusOff else if max < t.length then stShort else stOk) (min max t.length)

/-- The meaning of READ_DIGESTS. -/
def execReadDigests (tag : Nat) (s : State) : Out := .next (readDigests tag s)

/-- ATTEST: the descriptor waits for the Firebox, which serves requests one at a time (R305, R426). -/
def attestDesc (tag : Nat) (s : State) : State :=
  match s.startable tag 0x0D with
  | none => s
  | some _ =>
    let s1 := s.begin tag
    { s1 with sec := { s1.sec with waiting := s1.sec.waiting ++ [tag] } }.serveNext

/-- The meaning of ATTEST. -/
def execAttestDesc (tag : Nat) (s : State) : Out := .next (attestDesc tag s)

/-! ### RESYNC (R323, R368, R407) -/

/-- The bytes of a word, as a read of it would return them. -/
def State.viewBytes (s : State) (off : Nat) : List Byte := leBytes 4 (s.view off).toNat

/-- A layout of fields at rising offsets, with zeros between them, cut or filled to n bytes. -/
def layout (n : Nat) (fs : List (Nat × List Byte)) : List Byte :=
  let l := fs.foldl (fun (acc : List Byte) f => acc ++ List.replicate (f.1 - acc.length) 0 ++ f.2) []
  (l ++ List.replicate n 0).take n

/-- The FAULTS bytes (R407). -/
def State.resyncFaults (s : State) : List Byte :=
  layout 256 ([(0x00, s.regBytes (fltSrcStatus 0) 8), (0x20, s.viewBytes fltStatus), (0x24, s.viewBytes fltPinCtrl),
    (0x28, s.viewBytes fltResetCause), (0x2C, s.viewBytes fltHceBucket)]
    ++ (List.range 3).flatMap fun k => [(0x40 + 0x40 * k, s.viewBytes (fltFeSource k)),
      (0x48 + 0x40 * k, s.regBytes (fltFeFrc k) 2), (0x50 + 0x40 * k, s.regBytes (fltFeInfo k 0) 4)])

/-- The LINKS bytes (R368). -/
def State.resyncLinks (s : State) : List Byte :=
  leBytes 3 (maskOf 24 fun n => s.flag (zlLinkStatus_FrameLock n)) ++ leBytes 3 (maskOf 24 fun n => s.flag (zlLinkStatus_Frozen n))
    ++ leBytes 3 (maskOf 24 fun n => s.flag (zlLinkStatus_LinkDown n)) ++ leBytes 1 (s.getF zlTwinStatus_State)
    ++ leBytes 1 (s.getF zlTwinCtrl_Role) ++ leBytes 1 (bitsAt (s.word zlTwinStatus).toNat 4 4) ++ List.replicate 4 0

/-- The summary of a submission queue, a completion queue, and a pool. -/
def State.resyncSq (s : State) (q : Nat) : List Byte :=
  leBytes 4 (s.getF (stkSqHead_Index q)) ++ leBytes 4 (s.getF (stkSqTail_Index q))
    ++ leBytes 2 (s.stk.flights.filter fun f => f.sq == q).length ++ leBytes 2 ((s.view (stkSqStat q)).toNat % 16)
    ++ leBytes 1 (s.getF (stkSqCtrl_En q)) ++ List.replicate 3 0
def State.resyncCq (s : State) (q : Nat) : List Byte :=
  leBytes 4 (s.getF (stkCqTail_Index q)) ++ leBytes 4 (s.getF (stkCqHead_Index q)) ++ leBytes 2 (min 256 (s.cq q).held.length)
    ++ leBytes 1 (s.getF (stkCqStat_Phase q)) ++ leBytes 1 (s.getF (stkCqCfg_En q)) ++ leBytes 4 (s.getF (stkCqLostF q))
def State.resyncPool (s : State) (c : Nat) : List Byte :=
  leBytes 8 (s.getF (trgPoolNext_Record c)) ++ leBytes 8 (s.getF (trgPoolRelease_Record c)) ++ leBytes 8 (s.wrPtr c)
    ++ s.viewBytes (trgPoolStatus c) ++ leBytes 4 (s.getF (trgPoolOverflowF c))

/-- The 4,096 bytes of a summary: PATH is 0 for a descriptor and 1 for the register. -/
def State.resyncBytes (s : State) (path : Nat) : List Byte :=
  layout 4096
    [(0x000, leBytes 4 0x43535952 ++ leBytes 2 1 ++ leBytes 2 path ++ leBytes 8 s.stampFrc
        ++ leBytes 12 s.timeNow ++ leBytes 4 (s.getF stkResyncSeq_Seq)),
     (0x020, s.viewBytes glbImgState ++ s.viewBytes glbLoadStatus ++ s.viewBytes glbHotSched ++ s.viewBytes stkStatus),
     (0x030, s.regBytes (glbImgDigest 0) 8), (0x050, s.regBytes (glbStagedDigest 0) 8),
     (0x070, s.regBytes glbSwapTick 2), (0x078, leBytes 8 (s.getF stkChoicesF)),
     (0x100, leBytes 64 (maskOf 512 fun t => (s.fly t).isSome)),
     (0x200, (List.range 16).flatMap s.resyncSq), (0x300, (List.range 16).flatMap s.resyncCq),
     (0x400, (List.range 6).flatMap fun i => leBytes 8 (BitVec.ofInt 64 (s.watermark i)).toNat),
     (0x480, leBytes 4 (s.getF stkEvtLostF)), (0x500, (List.range 16).flatMap s.resyncPool),
     (0x700, (List.range 8).flatMap fun k => leBytes 4 (s.word (trgTuFired k)).toNat), (0x720, s.viewBytes trgStatus),
     (0x800, s.resyncFaults),
     (0x900, leBytes 32 (maskOf 256 fun l => s.flag (ingLaneStatus_TickLock l) && s.alignOk l)),
     (0x920, s.viewBytes ingStatus), (0x924, s.viewBytes ingAlign), (0x930, s.resyncLinks)]

/-- One more RESYNC. -/
def State.resyncCount (s : State) : State := s.setF stkResyncSeq_Seq (s.getF stkResyncSeq_Seq + 1)

/-- RESYNC: the summary of this cycle goes to DST. -/
def resyncDesc (tag : Nat) (s : State) : State :=
  match s.startable tag 0x0E with
  | none => s
  | some d =>
    let s1 := s.resyncCount
    let w := s1.awWrite 4 (dfield d 8 8) (s1.resyncBytes 0) false
    w.1.landing tag (if w.2 then stBusOff else stOk) (s1.getF stkResyncSeq_Seq)

/-- The meaning of RESYNC. -/
def execResyncDesc (tag : Nat) (s : State) : Out := .next (resyncDesc tag s)

/-- RESYNC_GO: the summary goes to RESYNC_ADDR; refused while a register RESYNC is writing. -/
def resyncGo (s : State) : State :=
  if s.stk.resyncBusy then s.refuse stkResyncCtrl
  else
    let s1 := s.resyncCount
    let w := s1.awWrite 4 (s1.getF stkResyncAddr_Addr) (s1.resyncBytes 1) false
    { w.1 with stk := { w.1.stk with resyncBusy := !w.2 } }

/-- The meaning of RESYNC_GO. -/
def execResyncGo (s : State) : Out := .next (resyncGo s)

/-! ### Landing and timeouts (R305, R323, R430) -/

/-- DMA_COMPLETE: the last byte of a transfer lands, and its descriptor completes; with no tag, the register RESYNC has landed. -/
def dmaComplete (tag : Option Nat) (s : State) : State :=
  match tag with
  | none => if s.stk.resyncBusy then { s with stk := { s.stk with resyncBusy := false } }.raise stkStatus_ResyncDone else s
  | some t =>
    match s.fly t with
    | none => s
    | some f =>
      match f.outcome with
      | none => s
      | some (st, res) =>
        if opClass (dOp f.bytes) = some 2 then s
        else if dOp f.bytes = 0x08 then (if f.ended then s else s.timestampEnd t f.bytes)
        else s.complete t st res

/-- The meaning of DMA_COMPLETE. -/
def execDmaComplete (tag : Option Nat) (s : State) : Out := .next (dmaComplete tag s)

/-- What a request for host memory gave: poisoned data at its timeout, and BUS_OFF by Unsupported Request or Completer Abort (R430). -/
def timeoutStatus (refused : Bool) : Nat := if refused then stBusOff else stPoison

/-- A COPY whose source lies in host memory had len bytes of it, from off on, replaced by poisoned data. -/
def State.copyTimeout (s : State) (f : Fly) (off len : Nat) (refused : Bool) : State :=
  let d := f.bytes
  let n := min len (dfield d 24 8 - off)
  let aw := dfield d 16 8 + off
  match f.outcome with
  | none => s
  | some (st, res) =>
    if !isHostAddr (dfield d 8 8) || f.ended || n == 0 then s
    else
      let r := s.drawBytes n
      (r.2.tagWrite aw (r.1.map fun b => (b, true)) (sectorSpan aw n)).setFly
        { f with outcome := some (if st = stBusOff then st else timeoutStatus refused, res) }

/-- A RUN: offsets below 2·ELEMS name bytes of IN, and those from there on bytes of the carried state. The tokens of those bytes that the
ports have not yet taken are poisoned. -/
def State.runTimeout (s : State) (r : Run) (off len : Nat) (refused : Bool) : State :=
  let split := 2 * r.elems
  let mark (r : Run) : Run := if refused then { r with busOff := true } else { r with sawPoison := true }
  if len = 0 then s
  else if off < split then (if r.inMode = 0 ∧ isHostAddr r.inAddr then s.setRun (mark { r with lost := r.lost ++ [(off, len)] }) else s)
  else if !isHostAddr r.stateAddr || r.graph.comb.isNone || decide (r.graph.stateBytes ≤ off - split) then s
  else
    let a := off - split
    let hit (k : Nat) : Bool := decide (64 * k < min r.graph.stateBytes (a + len) ∧ a < 64 * (k + 1))
    let f := s.drawBytes (64 * r.combQueue.length)
    let toks := r.combQueue.zipIdx.map fun x =>
      if hit (r.combSent + x.2) then (BitVec.ofNat 512 (ofLe ((f.1.drop (64 * x.2)).take 64)), ⟨false, true⟩) else x.1
    f.2.setRun (mark { r with combQueue := toks })

/-- A load whose image or signature block lies in host memory: the pass that reads it ends. -/
def State.loadTimeout (s : State) (l : Load) (refused : Bool) : State :=
  if !(isHostAddr (dfield l.desc 8 8) || isHostAddr (dfield l.desc 24 8)) then s
  else if l.pass = 1 then
    if refused then (s.setLoad none).complete l.tag stBusOff 0 else (s.setLoad none).loaderDone l.tag 0x04 0
  else if l.pass = 3 then
    let s1 := if l.full then s else s.stageLeft l (s.loadBytes l.desc).2.1 true
    if refused then ((if l.full then s1.unload else s1.dropShadows).setLoad none).complete l.tag stBusOff 0
    else s1.secondFail l 0x04
  else s

/-- A descriptor fetch of a queue in host memory: the newest descriptor read ahead is poisoned, and one whose read was refused has not been
read (R322, R380). -/
def State.fetchTimeout (s : State) (q : Nat) (refused : Bool) : State :=
  let x := s.sq q
  let rest := x.fetched.take (x.fetched.length - 1)
  if !isHostAddr (s.getF (stkSqBase_Addr q)) || x.fetched.isEmpty then s
  else if refused then s.setSq q { x with fetched := rest }
  else
    let r := s.drawBytes 64
    r.2.setSq q { x with fetched := rest ++ [(r.1, true)] }

/-- COMPLETION_TIMEOUT: a request for host memory reached its Completion Timeout and is taken as a read of poisoned data; `refused` says
that it was completed with Unsupported Request or Completer Abort status instead. Tags below 512 name a descriptor in flight, and 512 + q
the last descriptor fetch of submission queue q (R430; log entry 68). -/
def completionTimeout (tag off len : Nat) (refused : Bool) (t : State) : State :=
  let s := if refused then t else t.aer 14
  if 512 ≤ tag then s.fetchTimeout (tag - 512) refused
  else match s.fly tag with
    | none => s
    | some f =>
      let op := dOp f.bytes
      if op = 0x04 then s.copyTimeout f off len refused
      else if op = 0x03 then (match s.runOf tag with | some r => s.runTimeout r off len refused | none => s)
      else if op = 0x0D then
        match s.sec.busy with
        | some (some t, _, len, out) => if t = tag && isHostAddr (dfield f.bytes 8 8) then
            { s with sec := { s.sec with busy := some (some t, timeoutStatus refused, len, out) } } else s
        | _ => s
      else if op = 0x01 then
        (match s.hearth.load with
        | some l => if l.tag = tag then s.loadTimeout l refused else s
        | none => s)
      else s

/-- The meaning of COMPLETION_TIMEOUT. -/
def execCompletionTimeout (tag off len : Nat) (refused : Bool) (s : State) : Out :=
  .next (s.when (decide (tag < 528)) (completionTimeout tag off len refused s))

end Sys2Proof.Machine
end

