-- ==== Sys2Proof/Machine/ZlOps.lean ====
section
/-!
DEFINITION. Frames, containers, the Reed-Solomon code, and the shared operations of the Zhevvel Links and twins (R343 to R368).
-/
namespace Sys2Proof.Machine

/-! ### The codeword (R344) -/

/-- The product of two elements of GF(2^11) under x^11 + x^2 + 1, over the n low bits of the second. -/
def gf11Mul (a b : Nat) : Nat → Nat
  | 0 => 0
  | n + 1 =>
    if b = 0 then 0
    else
      let r := gf11Mul (let d := 2 * a; if d < 2048 then d else (d - 2048) ^^^ 5) (b / 2) n
      if b % 2 = 1 then a ^^^ r else r

/-- The product in GF(2^11). -/
def gf11 (a b : Nat) : Nat := if a = 0 then 0 else gf11Mul a b 11

/-- A power in GF(2^11), over the n low bits of the exponent. -/
def gf11Pow (a : Nat) : Nat → Nat → Nat
  | 0, _ => 1
  | n + 1, e =>
    let h := gf11Pow (gf11 a a) n (e / 2)
    if e % 2 = 1 then gf11 a h else h

/-- α^e, and the inverse of an element. -/
def gf11Alpha (e : Nat) : Nat := gf11Pow 2 11 (e % 2047)
def gf11Inv (a : Nat) : Nat := gf11Pow a 11 2046

/-- A polynomial over the field times x + c, coefficients from the highest power down. -/
def gf11MulLin (p : List Nat) (c : Nat) : List Nat :=
  List.zipWith (· ^^^ ·) (p ++ [0]) (0 :: p.map fun a => gf11 a c)

/-- The generator polynomial with roots α^0 to α^(n−1). -/
def rsGen : Nat → List Nat
  | 0 => [1]
  | n + 1 => gf11MulLin (rsGen n) (gf11Alpha n)

/-- The remainder of data symbols, the first as the highest power, times x^36. -/
def rsRem (gen : List Nat) : List Nat → List Nat → List Nat
  | reg, [] => reg
  | reg, d :: ds =>
    match reg with
    | [] => []
    | r :: rs =>
      let f := d ^^^ r
      rsRem gen (List.zipWith (· ^^^ ·) (rs ++ [0]) (gen.map fun g => gf11 f g)) ds

/-- The 36 parity symbols of 1,882 data symbols. -/
def rsParity (data : List Nat) : List Nat := rsRem ((rsGen 36).drop 1) (List.replicate 36 0) data

/-- The 21,104 frame bits of 20,702 data bits; the last six are 0. -/
def frameBits (data : Nat) : BitVec 21104 :=
  let ds := (List.range 1882).map fun i => bitsAt data (11 * i) 11
  BitVec.ofNat 21104 (data % 2 ^ 20702 + ((rsParity ds).zipIdx.map fun p => p.1 * 2 ^ (20702 + 11 * p.2)).sum)

/-! ### Decoding the codeword (R344)

Up to 18 symbols are corrected. Symbol s of the codeword stands at power 1,917 − s. Polynomials here have their lowest power first. -/

/-- The symbols of a frame that are not 0, each with its power. -/
def frameSyms (f : Nat) : List (Nat × Nat) :=
  ((List.range 1918).map fun i => (1917 - i, bitsAt f (11 * i) 11)).filter fun e => e.2 != 0

/-- Syndrome j: the value of the codeword at α^j. -/
def rsSyndrome (es : List (Nat × Nat)) (j : Nat) : Nat := es.foldl (fun a e => a ^^^ gf11 e.2 (gf11Alpha (j * e.1))) 0

/-- The 36 syndromes. -/
def rsSyndromes (f : Nat) : List Nat := (List.range 36).map (rsSyndrome (frameSyms f))

/-- The sum of two polynomials, and the value of one. -/
def polyAdd : List Nat → List Nat → List Nat
  | [], q => q
  | p, [] => p
  | a :: p, b :: q => (a ^^^ b) :: polyAdd p q
def polyEval (p : List Nat) (x : Nat) : Nat := p.foldr (fun c a => c ^^^ gf11 x a) 0

/-- Coefficient n of the product of two polynomials. -/
def polyConv (p q : List Nat) (n : Nat) : Nat :=
  (List.range (n + 1)).foldl (fun a i => a ^^^ gf11 (listGet 0 p i) (listGet 0 q (n - i))) 0

/-- The search for the error locator: the locator, the one before its last change of length, the length, the steps since, and the
discrepancy then. -/
structure Locator where
  loc : List Nat
  prev : List Nat
  len : Nat
  gap : Nat
  disc : Nat
  deriving DecidableEq, Repr

/-- Syndrome n taken into the search. -/
def Locator.step (ss : List Nat) (c : Locator) (n : Nat) : Locator :=
  let d := polyConv c.loc ss n
  if d = 0 then { c with gap := c.gap + 1 }
  else
    let k := gf11 d (gf11Inv c.disc)
    let new := polyAdd c.loc (List.replicate c.gap 0 ++ c.prev.map (gf11 k))
    if 2 * c.len ≤ n then ⟨new, c.loc, n + 1 - c.len, 1, d⟩ else { c with loc := new, gap := c.gap + 1 }

/-- The error locator that the syndromes give, and the number of errors that it stands for. -/
def errorLocator (ss : List Nat) : Locator := (List.range 36).foldl (Locator.step ss) ⟨[1], [1], 0, 1, 1⟩

/-- The value of the error at a power, from the locator and the syndromes. -/
def errorValue (loc ss : List Nat) (p : Nat) : Nat :=
  let x := gf11Alpha (2047 - p % 2047)
  let om := (List.range 36).map (polyConv loc ss)
  let der := loc.zipIdx.drop 1 |>.map fun c => if c.2 % 2 = 1 then c.1 else 0
  gf11 (gf11 (gf11Alpha p) (polyEval om x)) (gf11Inv (polyEval der x))

/-- A frame with its codeword corrected and the number of symbols corrected; none where the codeword is uncorrectable. -/
def rsCorrect (f : Nat) : Option (Nat × Nat) :=
  let ss := rsSyndromes f
  if ss.all (· == 0) then some (f, 0)
  else
    let c := errorLocator ss
    if 18 < c.len then none
    else
      let at' := (List.range 1918).filter fun p => polyEval c.loc (gf11Alpha (2047 - p % 2047)) == 0
      let g := at'.foldl (fun g p => g ^^^ errorValue c.loc ss p * 2 ^ (11 * (1917 - p))) f
      if at'.length = c.len ∧ (rsSyndromes g).all (· == 0) then some (g, c.len) else none

/-! ### Lane blocks (R39, R344) -/

/-- The 2,638 line bits of a lane's bits, after 58 line bits: 39 bits at a time, each XORed with the line bits 39 and 58 before it. The
result carries the 58 bits below it. -/
def laneScramble (d : Nat) : Nat → Nat → Nat → Nat
  | 0, _, y => y
  | k + 1, n, y =>
    let c := d / 2 ^ n % 2 ^ 39 ^^^ y / 2 ^ (n + 19) % 2 ^ 39 ^^^ y / 2 ^ n % 2 ^ 39
    laneScramble d k (n + 39) (y + c * 2 ^ (n + 58))

/-- A lane block and the last 58 line bits after it. -/
def laneBlock (hist d : Nat) : BitVec 2640 × Nat :=
  let y := laneScramble d 68 0 hist % 2 ^ 2696
  (BitVec.ofNat 2640 (2 * 2 ^ 2638 + y / 2 ^ 58), y / 2 ^ 2638)

/-- The bits of a received lane block, and the last 58 line bits after it. -/
def laneBits (hist : Nat) (b : BitVec 2640) : Nat × Nat :=
  let y := hist + b.toNat % 2 ^ 2638 * 2 ^ 58
  ((y ^^^ y * 2 ^ 39 ^^^ y * 2 ^ 58) / 2 ^ 58 % 2 ^ 2638, y / 2 ^ 2638)

/-- Every eighth bit of a number, the lowest first, over 2^k of them; and the converse. -/
def gather8 : Nat → Nat → Nat
  | 0, x => x % 2
  | k + 1, x => if x = 0 then 0 else gather8 k (x % 2 ^ (8 * 2 ^ k)) + gather8 k (x / 2 ^ (8 * 2 ^ k)) * 2 ^ 2 ^ k
def spread8 : Nat → Nat → Nat
  | 0, x => x % 2
  | k + 1, x => if x = 0 then 0 else spread8 k (x % 2 ^ 2 ^ k) + spread8 k (x / 2 ^ 2 ^ k) * 2 ^ (8 * 2 ^ k)

/-- The lane blocks of a frame: frame bit i on lane i mod 8, at position i div 8. -/
def frameLanes (hist : List Nat) (f : BitVec 21104) : List (BitVec 2640 × Nat) :=
  (List.range 8).map fun w => laneBlock (listGet 0 hist w) (gather8 12 (f.toNat / 2 ^ w))

/-- The frame that eight lane blocks carry, the line bits after them, and whether every block has a valid header. -/
def lanesFrame (hist : List Nat) (lanes : List (BitVec 2640)) : Nat × List Nat × Bool :=
  let ds := (List.range 8).map fun w => laneBits (listGet 0 hist w) (listGet 0 lanes w)
  ((ds.zipIdx.map fun d => spread8 12 d.1.1 * 2 ^ d.2).sum, ds.map fun d => d.2,
    (List.range 8).all fun w => (listGet 0 lanes w).toNat / 2 ^ 2638 == 2)

/-! ### Containers (R118, R344) -/

/-- A VOID container: zero payload; the spec leaves its EPOCH and SEQ open. -/
def State.voidContainer (s : State) : BitVec 528 × State :=
  let r := s.draw 12
  ((⟨0, bitsAt r.1.toNat 8 4, bitsAt r.1.toNat 0 8, false, false, false, true, none⟩ : Token).container, r.2)

/-- A 64-bit word of a container. -/
def cword (c : BitVec 528) (k : Nat) : Nat := bitsAt c.toNat (64 * k) 64

/-- Container j of the data bits of a frame. -/
def dataContainer (data j : Nat) : BitVec 528 := BitVec.ofNat 528 (bitsAt data (110 + 528 * j) 528)

/-- CRC32 over FSEQ and the reliable containers in ascending slot order (R352). -/
def reliableCrc (fseq : Nat) (cs : List (BitVec 528)) : Nat :=
  crcBitsR 0xEDB88320 0xFFFFFFFF (bytesBitsLsb (leBytes 2 fseq ++ cs.flatMap fun c => leBytes 66 c.toNat)) ^^^ 0xFFFFFFFF

/-- The reliable data slots of a link (R350). -/
def State.reliableSlots (s : State) (n : Nat) : List Nat :=
  (List.range 39).filter fun j => decide (1 ≤ j) && (s.getF (zlLinkModeMap_Reliable n)).testBit (j - 1)

/-- The binding of a data slot in one direction. -/
def State.bindingAt (s : State) (n j : Nat) (rx : Bool) : Option Binding :=
  s.zl.bindings.find? fun b => b.link == n && b.rx == rx && b.slots.testBit j

/-! ### Events (R368) -/

/-- A LINK event: tick of the cause, link, cause, detail and argument. -/
def State.linkEvent (s : State) (tick link cause detail arg : Nat) : State :=
  s.routed 3 0x15 5 tick
    (body32 (leBytes 8 tick ++ leBytes 1 link ++ leBytes 1 cause ++ leBytes 1 detail ++ List.replicate 5 0 ++ leBytes 8 arg))

/-- A fault source of a link asserts: 1 late frame, 3 transmit underrun. -/
def State.linkSrc (s : State) (n k : Nat) : State := s.assertSrc (64 + 4 * n + k) (BitVec.ofNat 128 n)

/-! ### Sending (R345, R352, R353, R356) -/

/-- Word 0 of the control container for a tick. -/
def State.zlWord0 (s : State) : Nat :=
  s.getF zlTwinCtrl_Role * 2 ^ 62 + s.getF zlTwinStatus_State * 2 ^ 59 + b2n s.running * 2 ^ 58
    + s.getF glbImgState_Epoch * 2 ^ 54
    + s.phaseAt (s.getF glbImgState_Epoch) (s.getF glbHotSched_Plog) s.tick % 16 * 2 ^ 50 + s.getF zlSys_Seat * 2 ^ 46
    + s.getF (glbImgDigest_Digest 0)

/-- This chip's twin digest of a tick, where it is valid. -/
def State.ownDigest (s : State) (k : Nat) : Option (BitVec 64) :=
  match s.zl.digests.find? fun d => d.1 == k with
  | none => none
  | some d => d.2

/-- The control container (R347, R353, R354); an echo answer goes before a request, and words whose VALID bit is 0 are open. -/
def State.zlControl (s : State) (n : Nat) : BitVec 528 × State :=
  let l := s.zlink n
  let launch := 256 * (64 * (s.tick + 1)) + 7488
  let dig := s.ownDigest (s.tick - 2)
  let d := s.draw 64
  let w1 := match dig with | some x => x.toNat | none => d.1.toNat
  let y := d.2.draw 192
  let sync := match l.syncOut with
    | some (v, start) =>
      (64 * (s.tick + 1) + 29) + (64 * 2 ^ 56 + s.getF zlSys_Seat * 2 ^ 52 + b2n v * 2 ^ 51) * 2 ^ 64 + start % 2 ^ 58 * 2 ^ 128
    | none => y.1.toNat
  let e := y.2.draw 46
  let echo := match l.ansOut with
    | some (q, rx) => 2 * 2 ^ 62 + q % 16 * 2 ^ 58 + (launch - rx) % 2 ^ 40
    | none => if l.reqOut then 2 ^ 62 + l.echoSeq % 16 * 2 ^ 58 + e.1.toNat % 2 ^ 40
      else e.1.toNat / 2 ^ 40 * 2 ^ 58 + e.1.toNat % 2 ^ 40
  let valid := b2n dig.isSome + 2 * b2n l.syncOut.isSome + 4 * b2n (l.ansOut.isSome || l.reqOut)
  let l1 : ZlLink :=
    if l.ansOut.isSome then { l with ansOut := none, syncOut := none }
    else if l.reqOut then
      { l with reqOut := false, syncOut := none, echoSeq := (l.echoSeq + 1) % 16, echo := some (l.echoSeq, launch, s.tick) }
    else { l with syncOut := none }
  let s1 := e.2.setZlink n l1
  let s2 := if n = 23 then { s1 with zl := { s1.zl with own := ((s.tick, BitVec.ofNat 64 s.zlWord0) :: s1.zl.own).take 64 } } else s1
  (BitVec.ofNat 528 (s.zlWord0 + w1 * 2 ^ 64 + (s.tick - 2) % 2 ^ 58 * 2 ^ 128 + sync * 2 ^ 192 + echo * 2 ^ 384 + valid * 2 ^ 448), s2)

/-- The head of a crossing port's transmit queue leaves for the link, with the port's SEQ (R119). -/
def State.crossTake (s : State) (x : Nat) (t : Token) : BitVec 528 × State :=
  let k := edgeCross x
  let e := s.edge k
  let q := e.tx
  let under := qwCheckOnly e.txWord && q.credits == 0
  let s1 := s.setEdge k { e with tx := { sentFrom e.txWord q with sent := q.sent + 1 } }
  let s2 := s1.giveCredit (edgeSite k) e.txWord t
  let s3 := if under then (s2.bump (grCreditUnderF (edgeSite k)) 1).portFault k 0x14 else s2
  (({ t with seq := q.sent % 256 } : Token).container, s3)

/-- ZL_HOT_TRANSMIT (R356): a hot port that acts by its entry of this cycle, in the schedule of its region (R115), gives its head, or a
poisoned zero token. -/
def State.hotTransmit (s : State) (n x : Nat) : BitVec 528 × State :=
  let k := edgeCross x
  let e := s.edge k
  if !s.running || !(mget (fun _ => 0) e.edge (s.grEntry (s.portSite k) 0)).testBit 15 then s.voidContainer
  else match e.tx.toks with
    | t :: _ => s.crossTake x t
    | [] =>
      let s1 := (s.setEdge k { e with tx := { e.tx with sent := e.tx.sent + 1 } }).bump (zlLinkTxUnderrunF n) 1
      (({ Token.bad with epoch := e.tx.epoch, seq := e.tx.sent % 256 } : Token).container, s1.linkSrc n 3)

/-- The container of a data slot. -/
def State.dataSlot (s : State) (n j : Nat) : BitVec 528 × State :=
  let l := s.zlink n
  if n = 23 ∧ s.zl.voidAll then s.voidContainer
  else if j ∈ s.reliableSlots n then
    match l.turn with
    | some f =>
      match (l.kept.find? fun k => k.fseq == f).bind fun k => k.conts.find? fun c => c.1 == j with
      | some c => (c.2, s)
      | none => s.voidContainer
    | none =>
      if !l.fresh || s.flag (zlLinkStatus_LinkDown n) || !s.running then s.voidContainer
      else match s.bindingAt n j false with
        | none => s.voidContainer
        | some b =>
          let e := s.edge (edgeCross b.port)
          match e.tx.toks with
          | t :: _ => if mayWait e.txWord e.tx then s.voidContainer else s.crossTake b.port t
          | [] => s.voidContainer
  else match s.bindingAt n j false with
    | none => s.voidContainer
    | some b => s.hotTransmit n b.port

/-- What the next frame carries in its reliable slots: a frame that is due to be sent again, or new tokens, which wait while the replay
buffer is full (R352). -/
def State.zlPlan (s : State) (n : Nat) : State :=
  let l := s.zlink n
  s.setZlink n { l with
    turn := l.resend.head?
    resend := l.resend.drop 1
    fresh := l.resend.isEmpty && !s.flag (zlLinkStatus_LinkDown n) && decide (l.kept.length < 64) }

/-- The header is taken and the frame launched, with its reliable containers kept until they are acknowledged (R344, R352). A frame of
new tokens that a go-back has found under construction is one more to send again. -/
def State.zlLaunch (s : State) (n : Nat) : State :=
  let l := s.zlink n
  let rel := s.reliableSlots n
  let conts := rel.map fun j => (j, listGet 0 l.build j)
  let fresh := !rel.isEmpty && l.fresh
  let r := s.draw 12
  let fseq := if rel.isEmpty then r.1.toNat else match l.turn with
    | some f => f
    | none => if fresh then (l.fseq + 1) % 4096 else l.fseq
  let cr := (List.range 4).map fun i => min 63 (listGet 0 l.credits i)
  let crc := reliableCrc fseq (conts.map Prod.snd)
  let ack := match l.accepted with | some a => a | none => 0
  let head := s.tick % 2 ^ 24 * 2 ^ 86 + fseq * 2 ^ 74 + ack * 2 ^ 62 + b2n l.accepted.isSome * 2 ^ 61 + b2n l.nak * 2 ^ 60
    + (cr.zipIdx.map fun p => p.1 * 2 ^ (54 - 6 * p.2)).sum + crc * 16
  let data := head + (l.build.zipIdx.map fun p => p.1.toNat * 2 ^ (110 + 528 * p.2)).sum
  let kept :=
    if fresh then l.kept ++ [⟨fseq, conts, s.tick⟩]
    else l.kept.map fun (k : KeptFrame) => if l.turn = some k.fseq then { k with sentTick := s.tick } else k
  let blocks := frameLanes l.txHist (frameBits data)
  r.2.setZlink n
    { l with
      fseq := if fresh then fseq else l.fseq
      kept := kept
      resend := if fresh && !l.resend.isEmpty then l.resend ++ [fseq] else l.resend
      turn := none
      fresh := false
      nak := false
      credits := l.credits.zipIdx.map fun p => p.1 - listGet 0 cr p.2
      build := []
      sentTick := s.tick
      sent := frameBits data
      lanes := blocks.map fun b => b.1
      txHist := blocks.map fun b => b.2 }

/-! ### Go-back (R352) -/

/-- ZL_GO_BACK: from the next frame on every frame not acknowledged is to be sent again; the 32nd without progress ends reliable
traffic. -/
def State.goBack (s : State) (n : Nat) : State :=
  let l := s.zlink n
  if l.kept.isEmpty || s.flag (zlLinkStatus_LinkDown n) then s
  else
    let s1 := (s.setZlink n { l with resend := l.kept.map fun k => k.fseq, goBacks := l.goBacks + 1 }).bump (zlLinkRetryF n) 1
    if l.goBacks + 1 < 32 then s1
    else
      ((s1.setZlink n { s1.zlink n with resend := [], turn := none }).setF (zlLinkStatus_LinkDown n) 1).linkEvent s.tick n 3 0 0

/-- An ACK covers the kept frames up to its FSEQ. -/
def ZlLink.acked (l : ZlLink) (a : Nat) : ZlLink :=
  if l.kept.any fun k => k.fseq == a then
    let rest := (l.kept.dropWhile fun k => k.fseq != a).drop 1
    { l with kept := rest, goBacks := 0, resend := l.resend.filter fun f => rest.any fun k => k.fseq == f }
  else l

/-- c credits return to the transmit queue of a crossing port, each counted, or above INIT_CREDIT recorded (R136). -/
def State.portCredits (s : State) (k : Nat) : Nat → State
  | 0 => s
  | c + 1 =>
    let e := s.edge k
    let top := match e.tx.hold with | some h => h | none => qwInit e.txWord
    let s1 := if e.tx.credits < top then s.setEdge k { e with tx := { e.tx with credits := e.tx.credits + 1 } }
      else (s.bump (grCreditOverF (edgeSite k)) 1).portFault k 0x15
    s1.portCredits k c

/-- Credits return to the transmit bindings of a link in the order of their first slots (R357). -/
def State.linkCredits (s : State) : List (Binding × Nat) → State
  | [] => s
  | (b, c) :: rest =>
    let k := edgeCross b.port
    let w := (s.edge k).txWord
    (if qwCredited w || qwCheckOnly w then s.portCredits k c else s).linkCredits rest

/-- The header of a frame that decodes: acknowledgement, NAK and credits. -/
def State.zlHeader (s : State) (n data : Nat) : State :=
  let l := s.zlink n
  let ack := bitsAt data 62 12
  let s1 := if data.testBit 61 then s.setZlink n (l.acked ack) else s
  let s2 := if data.testBit 60 then s1.goBack n else s1
  s2.linkCredits ((s2.linkBindings n false).zipIdx.map fun p => (p.1, if p.2 < 4 then bitsAt data (54 - 6 * p.2) 6 else 0))

/-! ### Receiving -/

/-- ZL_FRAME_LOCK_LOSS and its converse (R346): the lock machine takes a frame; the TICK it counts, whether its conditions held,
and the state. -/
def State.zlSync (s : State) (n : Nat) (decodes : Bool) (t24 : Nat) : Nat × State :=
  let l := s.zlink n
  let next := l.lastTick % 2 ^ 24
  let good := decodes && decide (1 ≤ l.lastTick) && t24 == next
  if s.flag (zlLinkStatus_FrameLock n) then
    let l1 : ZlLink := { l with failRun := if good then 0 else l.failRun + 1, lastTick := next + 1 }
    if good || decide (l1.failRun < 4) then (next, s.setZlink n l1)
    else
      let l2 : ZlLink := { l1 with failRun := 0, goodRun := 0, lastTick := if decodes then t24 + 1 else 0 }
      (next, (((s.setZlink n l2).setF (zlLinkStatus_FrameLock n) 0).bump (zlLinkLockLossF n) 1).linkEvent s.tick n 1 0 0)
  else
    let run := if good then l.goodRun + 1 else 0
    let l1 : ZlLink := { l with failRun := 0, goodRun := run, lastTick := if decodes then t24 + 1 else 0 }
    if run < 2 then (t24, s.setZlink n l1)
    else (t24, ((s.setZlink n { l1 with goodRun := 0 }).setF (zlLinkStatus_FrameLock n) 1).linkEvent s.tick n 2 0 0)

/-- The tick nearest to now whose low 24 bits are given. -/
def nearTick (now t24 : Nat) : Nat :=
  let d := sint 24 (t24 + 2 ^ 24 - now % 2 ^ 24)
  ((now : Int) + d).toNat

/-- SYNC_RECEIVE (R291). -/
def State.syncReceive (s : State) (n rx : Nat) (c : BitVec 528) : State :=
  if !(s.getF timSyncAccept_Links).testBit n then s
  else if s.running then s.raise timSyncStat_Refused
  else if (match s.tim.load with | some l => !(l.at' == s.cyc && decide (n < l.link)) | none => false) then s
  else
    let w1 := cword c 4
    let target : Int := (256 * cword c 3 + bitsAt w1 56 8 : Nat) + sint 32 (s.getF (zlLinkDz_Dz n))
    { s with tim := { s.tim with load := some ⟨target, rx, w1.testBit 51, bitsAt (cword c 5) 0 58, n, s.cyc⟩ } }

/-- ZL_ECHO_ANSWER (R347). -/
def State.echoReceive (s : State) (n rx : Nat) (w : Nat) : State :=
  let l := s.zlink n
  let q := bitsAt w 58 4
  if bitsAt w 62 2 = 1 then s.setZlink n { l with ansOut := some (q, rx) }
  else if bitsAt w 62 2 = 2 then
    match l.echo with
    | none => s
    | some e =>
      if e.1 ≠ q then s
      else
        let rtt := rx - e.2.1 - bitsAt w 0 40
        let h := s.halfTrip rtt (sint 32 (s.getF (zlLinkAsym_Asym n)))
        (((h.2.setZlink n { l with echo := none }).setF (zlLinkRtt_Rtt n) rtt).setF (zlLinkDz_Dz n) h.1).setF
          (zlLinkStatus_EchoValid n) 1
  else s

/-! ### Twins (R359 to R367) -/

/-- The states of TWIN_STATUS. -/
def twDetached : Nat := 0
def twAttaching : Nat := 1
def twInSync : Nat := 2
def twDiverged : Nat := 3
def twDetaching : Nat := 4

/-- A difference: STATE, DIV_TICK, DIV_CAUSE, the digests, source 160 and a LINK event (R362). -/
def State.diverge (s : State) (tick cause : Nat) (own peer : BitVec 64) : State :=
  let s1 := ((s.setF zlTwinStatus_State twDiverged).setF zlTwinStatus_DivCause cause).setF zlDivTick_Tick tick
  let s2 := (s1.setF zlDivLocal_Digest own.toNat).setF zlDivPeer_Digest peer.toNat
  (s2.assertSrc 160 (BitVec.ofNat 128 (tick % 2 ^ 58))).linkEvent tick 23 5 cause 0

/-- TWIN_DIGEST_COMPARE (R361, R362) on the control container of frame T of link 23. -/
def State.twinCompare (s : State) (t : Nat) (c : BitVec 528) : State :=
  let st := s.getF zlTwinStatus_State
  if st ≠ twAttaching ∧ st ≠ twInSync then s
  else
    let peer := BitVec.ofNat 64 (cword c 1)
    let k := t - 2
    let join := s.getF zlJoin_Tick
    let s1 := match s.ownDigest k with
      | some own =>
        if !(cword c 7).testBit 0 then s.bump zlDigMissF 1
        else if own = peer then s
        else if k < join + s.getF glbSettle_Settle then s.bump zlSettleDiffF 1
        else s.diverge k 1 own peer
      | none => s.bump zlDigMissF 1
    if s1.getF zlTwinStatus_State = twDiverged ∨ t < join then s1
    else match s1.zl.own.find? fun w => w.1 == t with
      | none => s1
      | some w =>
        let a := w.2.toNat
        let b := cword c 0
        let d k := s1.diverge t k (BitVec.ofNat 64 (s1.getF zlDivLocal_Digest)) (BitVec.ofNat 64 (s1.getF zlDivPeer_Digest))
        if bitsAt a 0 32 ≠ bitsAt b 0 32 then d 2
        else if bitsAt a 54 4 ≠ bitsAt b 54 4 then d 3
        else if bitsAt a 50 4 ≠ bitsAt b 50 4 then d 4
        else s1

/-- What a clean frame of link 23 tells the twin as it decodes (R361, R364, R367). A chip that is already DETACHED stays so when its peer
is DETACHING (log entry 98). -/
def State.twinReceive (s : State) (t : Nat) (c : BitVec 528) : State :=
  let role := bitsAt (cword c 0) 62 2
  let s1 := if s.flag zlTwinStatus_Promoted && role == 1 && !s.zl.demoteDue && s.getF zlTwinCtrl_Role != 2 then
      (({ s with zl := { s.zl with demoteDue := true } }.raise zlTwinStatus_DualLead).assertSrc 162 (BitVec.ofNat 128 (s.tick % 2 ^ 58))).linkEvent s.tick 23 7 0 0
    else s
  let st := s1.getF zlTwinStatus_State
  let s2 := if bitsAt (cword c 0) 59 3 = twDetaching ∧ st ≠ twDetached ∧ st ≠ twDetaching then
      { s1 with zl := { s1.zl with detachFrom := s1.tick } }.setF zlTwinStatus_State twDetaching
    else s1
  s2.twinCompare t c

/-- TWIN_HEARTBEAT_MISS (R363) at the release of a frame of link 23: the ROLE it carried where it was clean. -/
def State.heartbeat (s : State) (role : Option Nat) : State :=
  let own := s.getF zlTwinCtrl_Role
  if s.getF zlTwinStatus_State ≠ twInSync ∨ (own ≠ 1 ∧ own ≠ 2) then s
  else if role = some (3 - own) then s.setF zlTwinStatus_Miss 0
  else
    let m := s.getF zlTwinStatus_Miss + 1
    let s1 := (s.setF zlTwinStatus_Miss (min m 8)).bump zlHbMissF 1
    if m < 8 then s1
    else if own = 2 then { s1 with zl := { s1.zl with promoteDue := true } }
    else ((s1.raise zlTwinStatus_PeerLost).setF zlTwinStatus_State twDetached).assertSrc 163 (BitVec.ofNat 128 (s.tick % 2 ^ 58))

end Sys2Proof.Machine
end

