-- ==== Sys2Proof/Machine/Zhevvel.lean ====
section
/-!
DEFINITION. The commands of the Zhevvel Links and of the twin (R343 to R368).
-/
namespace Sys2Proof.Machine

/-! ### Links -/

/-- A link's receiver listens: it is enabled, not held in reset, and its Flue's crossing passes data (R461). -/
def State.zlListens (s : State) (n : Nat) : Bool :=
  s.flag (zlLinkCfg_En n) && !s.flueDead (txFlue n) && (List.range 4).all fun k => !s.blockHeld (64 + 4 * n + k)

/-- ZL_FRAME_SEND: in cycle j of a tick, for j from 0 to 38, the link takes container j; in cycle 39 it takes the header and
launches the frame (R344, R345, R352 to R356). In the safe state the link is silent (R401). -/
def zlFrameSend (n : Nat) (s : State) : State :=
  let j := s.cycle
  let l := s.zlink n
  if !s.flag (zlLinkCfg_En n) || s.txSafeNow || s.flueDead (txFlue n) then s
  else if j = 0 then
    let r := (s.zlPlan n).zlControl n
    r.2.setZlink n { r.2.zlink n with build := [r.1] }
  else if j < 39 then
    if l.build.length ≠ j then s
    else
      let r := s.dataSlot n j
      r.2.setZlink n { r.2.zlink n with build := l.build ++ [r.1] }
  else if j = 39 ∧ l.build.length = 39 then s.zlLaunch n
  else s

/-- The meaning of ZL_FRAME_SEND. -/
def execZlFrameSend (link : Nat) (s : State) : Out := .next (s.when (decide (link < 24)) (zlFrameSend link s))

/-- The frame's reliable containers are accepted (R352). -/
def State.zlAccepts (s : State) (n data : Nat) : Bool :=
  let cs := (s.reliableSlots n).map (dataContainer data)
  bitsAt data 4 32 == reliableCrc (bitsAt data 74 12) cs && bitsAt data 74 12 == (s.zlink n).expect

/-- The reliable part of a frame: accepted, or discarded with CRC_ERR and a NAK (ZL_RELIABLE_REJECT, R352). -/
def State.zlReliable (s : State) (n : Nat) (ok : Bool) : State :=
  let l := s.zlink n
  if s.reliableSlots n = [] then s
  else if ok then s.setZlink n { l with expect := (l.expect + 1) % 4096, accepted := some l.expect, nak := false }
  else (s.setZlink n { l with nak := true }).bump (zlLinkCrcErrF n) 1

/-- The frame of eight received lane blocks: whether all headers are valid, the number of symbols corrected where the codeword can be
corrected, and the data bits, as received where it cannot (R344, R351). -/
def State.zlDecode (s : State) (n : Nat) (lanes : List (BitVec 2640)) : Bool × Option Nat × Nat :=
  let f := lanesFrame (s.zlink n).rxHist lanes
  match rsCorrect f.1 with
  | some c => (f.2.2, some c.2, c.1 % 2 ^ 20702)
  | none => (f.2.2, none, f.1 % 2 ^ 20702)

/-- ZL_FRAME_RECEIVE: in the cycle in which a frame has decoded. The age is the time since its sync header crossed the reference plane,
in 1/256 cycle. Frame lock looks at the lane headers too, and all else at the codeword alone (R344, R346, R347, R349, R351, R352,
R354, R357, R358, R361). A link that is not frozen delivers by the LZ in force too, but a frame whose release cycle does not fit counts
no LATE there (DESIGN CHOICE, log entry 116). -/
def zlFrameReceive (n : Nat) (lanes : List (BitVec 2640)) (age : Nat) (s : State) : State :=
  if !s.zlListens n then s
  else
    let x := s.zlDecode n lanes
    let d := x.2.2
    let decodes := x.2.1.isSome
    let symErrs := x.2.1.getD 0
    let s0 := s.setZlink n { s.zlink n with rxHist := (lanesFrame (s.zlink n).rxHist lanes).2.1 }
    let y := ((s0.setF (zlLinkStatus_LaneLock n) (b2n x.1)).setF (zlLinkStatus_Signal n) 1).zlSync n (x.1 && decodes) (bitsAt d 86 24)
    let s1 := y.2
    let t := nearTick s1.tick y.1
    let lz := s1.getF (zlLinkLz_Lz n)
    let late := decide (64 * t + lz < s1.frc.toNat) || decide (s1.frc.toNat + 256 < 64 * t + lz)
    if !s1.flag (zlLinkStatus_FrameLock n) then s1
    else
      let s2 := if decodes then (s1.bump (zlLinkFecCeF n) symErrs).zlHeader n d else s1.bump (zlLinkFecUeF n) 1
      let s3 := if late && s2.flag (zlLinkStatus_Frozen n) then ((s2.bump (zlLinkLateF n) 1).linkSrc n 1).linkEvent t n 4 0 0 else s2
      let ok := decodes && !late && s3.zlAccepts n d
      let s4 := s3.zlReliable n ok
      let rel := s4.reliableSlots n
      let l := s4.zlink n
      let conts := (List.range 39).map fun j => (dataContainer d j, !decodes, decide (j ∉ rel) || ok)
      let s5 := if late then s4 else s4.setZlink n { l with frames := l.frames ++ [⟨t, conts⟩] }
      if !decodes then s5
      else
        let c := dataContainer d 0
        let rx := 256 * s5.stampFrc - age
        let s6 := (s5.setF (zlLinkStatus_PeerSeat n) (bitsAt (cword c 0) 46 4)).setF (zlLinkStatus_PeerRole n) (bitsAt (cword c 0) 62 2)
        let v := cword c 7
        let s7 := if v.testBit 1 then s6.syncReceive n rx c else s6
        let s8 := if v.testBit 2 then s7.echoReceive n rx (cword c 6) else s7
        if n = 23 ∧ late = false then s8.twinReceive t c else s8

/-- The meaning of ZL_FRAME_RECEIVE. -/
def execZlFrameReceive (link : Nat) (lanes : List (BitVec 2640)) (age : Nat) (s : State) : Out :=
  .next (s.when (decide (link < 24)) (zlFrameReceive link lanes age s))

/-- A token enters the receive queue of a crossing port; a full queue meets R132 or R136 (R357). -/
def State.crossIn (s : State) (b : Binding) (t : Token) : State :=
  s.crossArrive (edgeCross b.port) b.warm t false

/-- The SEQ that a receive port expects next, and the state with it moved on. -/
def State.setRxSeq (s : State) (n port v : Nat) : State :=
  let l := s.zlink n
  s.setZlink n { l with rxSeq := mput (fun _ => 0) l.rxSeq port (v % 256) }

/-- A container at its release: none for an absent frame (R349, R351, R352, R357). -/
def State.releaseSlot (s : State) (n j : Nat) (c : Option (BitVec 528 × Bool × Bool)) : State :=
  match s.bindingAt n j true with
  | none => s
  | some b =>
    if !s.running then s
    else match c with
      | some (x, sus, give) =>
        let t := tokenOf x
        if !give || t.void then s
        else (s.setRxSeq n b.port (t.seq + 1)).crossIn b { t with suspect := t.suspect || sus }
      | none =>
        if j ∈ s.reliableSlots n then s
        else
          let q := mget (fun _ => 0) (s.zlink n).rxSeq b.port
          (s.setRxSeq n b.port (q + 1)).crossIn b
            ⟨0, (s.edge (edgeCross b.port)).rx.epoch, q, false, true, false, false, none⟩

/-- ZL_CONTAINER_RELEASE: container j of the frame T for which this cycle is 64T + j + LZ reaches its destination; the control
container's release judges the heartbeat of link 23 (R345, R349, R363). -/
def zlContainerRelease (n j : Nat) (s : State) : State :=
  let at' : Int := (s.frc.toNat : Int) - j - s.getF (zlLinkLz_Lz n)
  if !s.flag (zlLinkCfg_En n) || at' < 0 || at' % 64 != 0 then s
  else
    let t := at'.toNat / 64
    let l := s.zlink n
    let f := l.frames.find? fun f => f.tick == t
    let c := f.bind fun f => f.conts[j]?
    let s1 := if j = 0 ∧ n = 23 then
        let clean := match c with | some (x, sus, _) => if sus then none else some (bitsAt (cword x 0) 62 2) | none => none
        let st := s.getF zlTwinStatus_State
        let s0 := if clean.isNone && (st == twAttaching || st == twInSync) then s.bump zlDigMissF 1 else s
        s0.heartbeat clean
      else if j = 0 then s else s.releaseSlot n j c
    if j = 38 then s1.setZlink n { s1.zlink n with frames := (s1.zlink n).frames.filter fun f => decide (t < f.tick) } else s1

/-- The meaning of ZL_CONTAINER_RELEASE. -/
def execZlContainerRelease (link slot : Nat) (s : State) : Out :=
  .next (s.when (decide (link < 24 ∧ slot < 39)) (zlContainerRelease link slot s))

/-- ZL_RETRY_TIMEOUT: the oldest frame that is not acknowledged was sent 2·ceil(LZ/64) + 4 ticks ago, and is not about to be sent again
(R352). -/
def zlRetryTimeout (n : Nat) (s : State) : State :=
  match (s.zlink n).kept with
  | [] => s
  | k :: _ =>
    let l := s.zlink n
    if l.resend.head? == some k.fseq || l.turn == some k.fseq then s
    else if k.sentTick + 2 * ((s.getF (zlLinkLz_Lz n) + 63) / 64) + 4 ≤ s.tick then s.goBack n
    else s

/-- The meaning of ZL_RETRY_TIMEOUT. -/
def execZlRetryTimeout (link : Nat) (s : State) : Out := .next (s.when (decide (link < 24)) (zlRetryTimeout link s))

/-- ZL_ECHO_GO: an echo request for the next control container (R347). -/
def zlEchoGo (n : Nat) (s : State) : State := s.setZlink n { s.zlink n with reqOut := true }

/-- The meaning of ZL_ECHO_GO. -/
def execZlEchoGo (link : Nat) (s : State) : Out := .next (s.when (decide (link < 24)) (zlEchoGo link s))

/-- ZL_ECHO_TIMEOUT: no answer within 1,024 ticks (R347). -/
def zlEchoTimeout (n : Nat) (s : State) : State :=
  let l := s.zlink n
  match l.echo with
  | none => s
  | some e => if e.2.2 + 1024 ≤ s.tick then (s.setZlink n { l with echo := none }).raise (zlLinkStatus_EchoTimeout n) else s

/-- The meaning of ZL_ECHO_TIMEOUT. -/
def execZlEchoTimeout (link : Nat) (s : State) : Out := .next (s.when (decide (link < 24)) (zlEchoTimeout link s))

/-- FREEZE: LZ is frozen when the echo is valid and LZ lies within its bounds; else the write is refused (R348). -/
def zlFreeze (n : Nat) (s : State) : State :=
  let dz := (sint 32 (s.getF (zlLinkDz_Dz n)) + 255) / 256
  let lz : Int := s.getF (zlLinkLz_Lz n)
  if s.flag (zlLinkStatus_EchoValid n) && decide (dz + 320 ≤ lz ∧ lz ≤ dz + 575) then
    (s.setF (zlLinkCfg_Freeze n) 1).setF (zlLinkStatus_Frozen n) 1
  else s.refuse (zlLinkCfg n)

/-- The meaning of FREEZE. -/
def execZlFreeze (link : Nat) (s : State) : Out := .next (s.when (decide (link < 24)) (zlFreeze link s))

/-- ZL_LINK_DISABLE: EN is written to 0; FROZEN, ECHO_VALID and LINK_DOWN are cleared, and the link starts anew when it is enabled
again (R348). -/
def zlLinkDisable (n : Nat) (s : State) : State :=
  let s1 := ((s.setF (zlLinkCfg_En n) 0).setF (zlLinkCfg_Freeze n) 0).setF (zlLinkStatus_Frozen n) 0
  let s2 := ((s1.setF (zlLinkStatus_EchoValid n) 0).setF (zlLinkStatus_LinkDown n) 0).setF (zlLinkStatus_FrameLock n) 0
  (((s2.setF (zlLinkStatus_LaneLock n) 0).setF (zlLinkStatus_Signal n) 0).setZlink n ZlLink.init).txUpdate n

/-- The meaning of ZL_LINK_DISABLE. -/
def execZlLinkDisable (link : Nat) (s : State) : Out := .next (s.when (decide (link < 24)) (zlLinkDisable link s))

/-! ### Twins -/

/-- ATTACH is allowed (R365). -/
def State.canAttach (s : State) : Bool :=
  s.getF zlTwinCtrl_Role != 0 && s.getF zlTwinStatus_State == twDetached && s.flag (zlLinkStatus_Frozen 23)
    && s.flag (zlLinkStatus_FrameLock 23) && decide (s.tick + 16 ≤ s.getF zlJoin_Tick) && s.getF glbSettle_Settle != 0xFFFF

/-- ATTACH (R365). -/
def twinAttach (s : State) : State :=
  if s.canAttach then
    ({ s with zl := { s.zl with voidAll := false, promoteDue := false } }.setF zlTwinStatus_State twAttaching).setF zlTwinStatus_Miss 0
  else s.refuse zlTwinCtrl

/-- The meaning of ATTACH. -/
def execTwinAttach (s : State) : Out := .next (twinAttach s)

/-- TWIN_IN_SYNC: in tick JOIN + SETTLE an attaching chip is in step (R365). -/
def twinInSync (s : State) : State :=
  if s.getF zlTwinStatus_State = twAttaching ∧ s.getF zlJoin_Tick + s.getF glbSettle_Settle ≤ s.tick then
    ((s.setF zlTwinStatus_State twInSync).setF zlTwinStatus_Miss 0).linkEvent s.tick 23 9 0 0
  else s

/-- The meaning of TWIN_IN_SYNC. -/
def execTwinInSync (s : State) : Out := .next (twinInSync s)

/-- RESTART: a common restart at JOIN is armed (R366). -/
def twinRestart (s : State) : State := { s with zl := { s.zl with restartArmed := true } }

/-- The meaning of RESTART. -/
def execTwinRestart (s : State) : Out := .next (twinRestart s)

/-- TWIN_RESTART_CHECK: at tick S the chip is in step when its T0 is S (R366). A chip in DIVERGED stays there, which only a detach ends
(R362). -/
def twinRestartCheck (s : State) : State :=
  let join := s.getF zlJoin_Tick
  if s.zl.restartArmed && decide (join ≤ s.tick) then
    let s1 := { s with zl := { s.zl with restartArmed := false, voidAll := false, promoteDue := false } }
    let s2 := if s.getF zlTwinStatus_State = twDiverged then s1
      else if s.getF glbHotT0_T0 = join then (s1.setF zlTwinStatus_State twInSync).setF zlTwinStatus_Miss 0
      else ((s1.setF zlTwinStatus_State twDiverged).setF zlTwinStatus_DivCause 4).setF zlDivTick_Tick join
    (s2.raise zlTwinStatus_CoverageGap).linkEvent join 23 10 0 (s.getF glbHaltTick_Tick)
  else s

/-- The meaning of TWIN_RESTART_CHECK. -/
def execTwinRestartCheck (s : State) : Out := .next (twinRestartCheck s)

/-- DETACH: comparisons stop and promotion is blocked (R367). -/
def twinDetach (s : State) : State :=
  if s.getF zlTwinStatus_State = twDetaching then s
  else { s with zl := { s.zl with detachFrom := s.tick, promoteDue := false } }.setF zlTwinStatus_State twDetaching

/-- The meaning of DETACH. -/
def execTwinDetach (s : State) : Out := .next (twinDetach s)

/-- TWIN_DETACHED: after 16 ticks in DETACHING (R367). -/
def twinDetached (s : State) : State :=
  if s.getF zlTwinStatus_State = twDetaching ∧ s.zl.detachFrom + 16 ≤ s.tick then
    ({ s with zl := { s.zl with voidAll := true } }.setF zlTwinStatus_State twDetached).linkEvent s.tick 23 8 0 0
  else s

/-- The meaning of TWIN_DETACHED. -/
def execTwinDetached (s : State) : Out := .next (twinDetached s)

/-- TWIN_PROMOTE: at the tick boundary after the 8th miss an in-step shadow becomes the lead (R360, R363). -/
def twinPromote (s : State) : State :=
  let s1 := { s with zl := { s.zl with promoteDue := false } }
  if !s.zl.promoteDue || s.cycle != 0 then s
  else if s.getF zlTwinStatus_State ≠ twInSync ∨ s.getF zlTwinCtrl_Role ≠ 2 then s1
  else
    let s2 := ((s1.setF zlTwinCtrl_Role 1).setF zlTwinStatus_State twDetached).setF chmCtrl_Shadow 0
    ((s2.raise zlTwinStatus_Promoted).assertSrc 161 (BitVec.ofNat 128 (s.tick % 2 ^ 58))).linkEvent s.tick 23 6 0 0

/-- The meaning of TWIN_PROMOTE. -/
def execTwinPromote (s : State) : Out := .next (twinPromote s)

/-- TWIN_DEMOTE: at the tick boundary after a dual lead the promoted chip is a shadow again (R360, R364). -/
def twinDemote (s : State) : State :=
  if !s.zl.demoteDue || s.cycle != 0 then s
  else (({ s with zl := { s.zl with demoteDue := false } }.setF zlTwinCtrl_Role 2).setF zlTwinStatus_State twDetached).setF chmCtrl_Shadow 1

/-- The meaning of TWIN_DEMOTE. -/
def execTwinDemote (s : State) : Out := .next (twinDemote s)

end Sys2Proof.Machine
end

