-- ==== Sys2Proof/Machine/RegAccess.lean ====
section
/-!
DEFINITION. Register accesses through BAR0 and BAR4: reads with their effects, writes with the conditions of each field, and the
actions that a register write performs (R12 to R18, R434, R435, R437, R441).
-/
namespace Sys2Proof.Machine

/-! ### Conditions of a field (R18) -/

/-- A lane that LANE.CTRL.PRESET, a test loop and the PRBS generator may not touch: it belongs to an enabled channel and its fibre
bit is 1: the one in force, also while a write of GRP_EN waits for its release tick (R69, R71; DESIGN CHOICE, log entry 104). -/
def State.laneBusy (s : State) (l : Nat) : Bool := (s.chanOf l).isSome && s.fibreOn (fibreOf l)

/-- Conditions of ING fields; lsb names the field of the register and v is its new value. -/
def State.okIng (s : State) (off lsb v : Nat) : Bool :=
  let p := (off - 0x80200) / 4
  let l := (off - 0x81000) / 0x40
  if off = ingCtrl then if v = 1 then s.getF ingAlign_Delay != 0 else s.hotImage.isNone
  else if off = ingAlign then decide (v ≤ 8) && !s.flag ingCtrl_En
  else if 0x80200 ≤ off ∧ off < 0x80240 then
    (List.range 256).all fun l => !(s.getF (ingLaneCtrl_Preset l) == p && s.laneBusy l)
  else if 0x81000 ≤ off ∧ off = ingLaneCtrl l then lsb != 8 || !s.laneBusy l
  else true

/-- Conditions of TRG fields. -/
def State.okTrg (s : State) (off lsb v : Nat) : Bool :=
  let n := (off - 0x100100) / 0x10
  let r := (off - 0x100400) % 0x20
  let c := (off - 0x102000) / 0x80
  let q := (off - 0x102000) % 0x80
  if off = trgCtrl then lsb != 0 || decide (96 ≤ v ∧ v ≤ 768)
  else if off < 0x100400 then off != trgSdCfg n || s.hotImage.isNone
  else if off < 0x100500 then
    if r = 0 then lsb != 23 || decide (v < 10)
    else if r = 8 ∨ r = 0x10 then decide (v < 2 ^ 21) else true
  else if 0x100680 ≤ off ∧ off < 0x1006A0 then lsb != 0 || v != 0
  else if 0x102000 ≤ off ∧ 8 ≤ q ∧ q < 0x20 then !s.flag (trgPoolCtrl_En c)
  else if 0x102000 ≤ off ∧ q = 0x20 then !s.flag (trgPoolCtrl_En c) && decide (2 ≤ v)
  else true

/-- Conditions of TIM fields: the base and size of a ring stand while its enable is 1. -/
def State.okTim (s : State) (off v : Nat) : Bool :=
  let p := (off - 0x40400) / 0x100
  let r := (off - 0x40400) % 0x100
  if off < 0x40400 then true
  else if r = 0x10 ∨ r = 0x14 then !s.flag (timTpCtrl_TxEn p)
  else if r = 0x18 then !s.flag (timTpCtrl_TxEn p) && decide (16 ≤ v ∧ v ≤ 4096)
  else if r = 0x28 ∨ r = 0x2C then !s.flag (timTpCtrl_RxEn p)
  else if r = 0x30 then !s.flag (timTpCtrl_RxEn p) && decide (16 ≤ v ∧ v ≤ 4096)
  else true

/-- Conditions of STK fields. -/
def State.okStk (s : State) (off lsb v : Nat) : Bool :=
  let q := (off - 0x200100) / 0x40
  let c := (off - 0x200600) / 0x40
  if 0x200100 ≤ off ∧ off < 0x200500 then
    if off = stkSqBase q ∨ off = stkSqBase q + 4 then !s.flag (stkSqCtrl_En q)
    else if off = stkSqCfg q then lsb != 0 || (!s.flag (stkSqCtrl_En q) && decide (4 ≤ v ∧ v ≤ 16)) else true
  else if 0x200600 ≤ off ∧ off < 0x200A00 then
    if off = stkCqBase c ∨ off = stkCqBase c + 4 then !s.flag (stkCqCfg_En c) else true
  else true

/-- Conditions of ZL fields. -/
def State.okZl (s : State) (off lsb v : Nat) : Bool :=
  let n := (off - 0x180100) / 0x80
  if off = zlSys then !s.flag glbImgState_Loaded
  else if off = zlTwinCtrl then lsb != 0 || (s.getF zlTwinStatus_State == twDetached && decide (v < 3))
  else if off < 0x180100 then true
  else if off = zlLinkModeMap n ∨ off = zlLinkModeMap n + 4 then !s.zl.bindings.any fun b => b.link == n
  else if off = zlLinkLz n ∨ off = zlLinkAsym n then !s.flag (zlLinkStatus_Frozen n)
  else true

/-- Conditions of the remaining blocks. -/
def State.okRest (s : State) (off lsb v : Nat) : Bool :=
  if off = glbSwapCtrl then v != 0
  else if off = pwrTemp then decide (60 ≤ v ∧ v ≤ 110)
  else if off = pwrPowerCap then decide (1 ≤ v ∧ v ≤ 650 ∧ s.getF pwrHotCeil_Watts ≤ v)
  else if off = pwrCurrentCap then decide (v ≤ 11520 ∧ 16 * s.getF pwrHotCeil_Amps + s.getF pwrModelBase_Amps ≤ v)
  else if off = pwrSlew then decide (16 ≤ v ∧ v ≤ 34)
  else if off = fltPinCtrl then lsb != 0 || decide (2 ≤ v)
  else if off = fltHceCfg then lsb != 0 || v != 0
  else if off = memMergeCfg then decide (16 ≤ v)
  else if 0x280100 ≤ off ∧ off < 0x280280 ∧ off % 0x40 = 0 then lsb != 0 || v != 0
  else if off = fabQsampRing then !s.flag fabQsampCtrl_En && decide (2 ≤ v)
  else if 0xf00100 ≤ off ∧ off < 0xf01000 then if lsb = 4 then decide (v < 300) else if lsb = 0 then decide (v ≤ 12) else true
  else if 0x1000000 ≤ off ∧ off % 0x8000 = 0xC then !s.running
  else true

/-- The condition for writing a field holds (R18): the field is named by its register word and lowest bit, and v is the value
written. -/
def State.fieldOk (s : State) (off lsb v : Nat) : Bool :=
  if 0x40000 ≤ off ∧ off < 0x80000 then s.okTim off v
  else if 0x80000 ≤ off ∧ off < 0x100000 then s.okIng off lsb v
  else if 0x100000 ≤ off ∧ off < 0x140000 then s.okTrg off lsb v
  else if 0x180000 ≤ off ∧ off < 0x200000 then s.okZl off lsb v
  else if 0x200000 ≤ off ∧ off < 0x280000 then s.okStk off lsb v
  else s.okRest off lsb v

/-! ### Writes that are refused whole (R18) -/

/-- A channel configuration may stand: a listed format, no fibre past 31 and none shared with an enabled channel, and not while a
hot image consumes the channel (R46, R48, R51). -/
def State.chCfgOk (s : State) (c v : Nat) : Bool :=
  let first := bitsAt v 0 5
  let last := first + bitsAt v 5 3
  let on := v.testBit 31
  bitsAt v 29 2 != 3 && !(on && decide (31 < last))
    && !(on && (List.range 16).any fun d => d != c && (List.range 32).any fun f => decide (first ≤ f ∧ f ≤ last)
        && s.flag (ingChCfg_En d) && s.chCovers d f)
    && !(match s.hotImage with | some i => i.channels.any fun e => e.1 == c | none => false)

/-- The test loop and generator bits of LANE.CTRL may be written (R71). -/
def State.loopOk (s : State) (l v : Nat) : Bool :=
  let loop := bitsAt v 4 2
  let sets := loop != 0 && loop != s.getF (ingLaneCtrl_Loop l)
  let gens := v.testBit 2 && !s.flag (ingLaneCtrl_PrbsGen l)
  !((sets || gens) && s.laneBusy l)
    && !(sets && loop == 3 && (List.range 256).any fun m => m != l && m % 32 == l % 32 && s.getF (ingLaneCtrl_Loop m) == 3)

/-- No other unit's pending copy reserves the slot of a port that this one would reserve (R262). -/
def State.slotFree (s : State) (k v : Nat) : Bool :=
  let slot := if bitsAt v 23 4 < 10 then bitsAt v 23 4 else s.getF (trgTuCfg_ChmSlot k)
  !v.testBit 31 || (List.range 8).all fun j =>
    j == k || !s.flag (trgTuCfg_ChmEn j) || s.getF (trgTuCfg_ChmSlot j) != slot
      || (s.getF (trgTuCfg_ChmPorts j) &&& bitsAt v 27 4) == 0

/-- The write of a whole register is not refused. -/
def State.writeOk (s : State) (off v : Nat) : Bool :=
  let c := (off - 0x80040) / 0x10
  let l := (off - 0x81000) / 0x40
  let k := (off - 0x100400) / 0x20
  if 0x80040 ≤ off ∧ off < 0x80140 ∧ off = ingChCfg c then s.chCfgOk c v
  else if 0x81000 ≤ off ∧ off < 0x85000 ∧ off = ingLaneCtrl l then s.loopOk l v
  else if 0x100400 ≤ off ∧ off < 0x100500 ∧ off = trgTuCfg k then s.slotFree k v
  else if off = fabQsampCtrl then !(v.testBit 31 && bitsAt v 0 16 == 0)
  else if fltReact 0 ≤ off ∧ off < fltReact 256 then
    !v.testBit 5 || (match srcInfo ((off - fltReact 0) / 4) with | some i => i.block | none => true)
  else true

/-! ### Plain writes (R13, R14, R18) -/

/-- The fields of the register word at an offset. -/
def wordFields (off : Nat) : List FieldRow :=
  match findRow (regRowsAt off) off with
  | none => []
  | some (r, w) => fieldsOfWord r.fields w

/-- The bits of a word of SRC_STATUS whose level sources assert in this cycle (R391). -/
def State.levelBits (s : State) (off : Nat) : Nat :=
  if fltSrcStatus 0 ≤ off ∧ off < fltSrcStatus 8 then
    let n := 8 * (off - fltSrcStatus 0)
    maskOf 32 fun i => s.flt.released && (match srcInfo (n + i) with | some x => x.level && s.levelHolds (n + i) | none => false)
  else 0

/-- A W1C write: each bit written as 1 is cleared, but for those that the device sets in this cycle (R14), as a level source does in
every cycle of its condition (R391). -/
def State.w1cFields (s : State) (off : Nat) (v : W32) : List FieldRow → State
  | [] => s
  | f :: fs =>
    let n := if f.acc = .w1c then
        let cur := bitsAt (s.word off).toNat f.lsb f.width
        let set := bitsAt ((mget (fun _ => 0) s.setNow off).toNat ||| s.levelBits off) f.lsb f.width
        some (cur &&& ((2 ^ f.width - 1 - bitsAt v.toNat f.lsb f.width) ||| set))
      else none
    match n with
    | none => s.w1cFields off v fs
    | some x => (s.setF ⟨off, f.lsb, f.width⟩ x).w1cFields off v fs

/-- A write of the RW fields, each under its own condition; the conditions are judged on the state old before the write. -/
def State.rwFields (s old : State) (off : Nat) (v : W32) : List FieldRow → State
  | [] => s
  | f :: fs =>
    let x := bitsAt v.toNat f.lsb f.width
    if f.acc = .rw then (s.setIf (old.fieldOk off f.lsb x) ⟨off, f.lsb, f.width⟩ x).rwFields old off v fs
    else s.rwFields old off v fs

/-- A write would change some RW field of a word. -/
def State.rwChanges (s : State) (off : Nat) (v : W32) (fs : List FieldRow) : Bool :=
  fs.any fun f => f.acc == .rw && bitsAt v.toNat f.lsb f.width != bitsAt (s.word off).toNat f.lsb f.width

/-- What follows from a W1C bit that a write has cleared: clearing FE[k].SOURCE.VALID clears MULTI. -/
def State.w1cDone (s : State) (off : Nat) : State :=
  let k := (off - 0x20100) / 0x40
  if 0x20100 ≤ off ∧ off < 0x201C0 ∧ off = fltFeSource k ∧ !s.flag (fltFeSource_Valid k) then s.setF (fltFeSource_Multi k) 0 else s

/-- A write of a W1C register word. -/
def State.w1cWord (s : State) (off : Nat) (v : W32) : State := (s.w1cFields off v (wordFields off)).w1cDone off

/-- A lane whose enable has changed begins anew, with no lock and no signal (log entry 33). Setting EN leaves nothing measured (R57);
the losses of lock and what is still to be reported of them stay (R62, R65). -/
def State.laneAnew (s : State) (l : Nat) : State :=
  let x := s.lane l
  let held := !s.flag (ingLaneCtrl_En l) && x.measured
  let s1 := ((s.setF (ingLaneStatus_Signal l) 0).setF (ingLaneStatus_BlockLock l) 0).setF (ingLaneStatus_TickLock l) 0
  (s1.setF (ingLaneStatus_PrbsLock l) 0).setLane l { Lane.init with
    measured := held, offset := x.offset, losses := x.losses, cleanGen := x.cleanGen, lastClean := x.lastClean, rejoin := x.rejoin
    lossEv := x.lossEv }

/-- What follows from new RW values; old is the state before the write. -/
def State.rwDone (s old : State) (off : Nat) : State :=
  let l := (off - 0x81000) / 0x40
  let t := (off - 0x300100) / 0x20
  let n := (off - 0x280100) / 0x40
  let r := (off - fltReact 0) / 4
  if off = ingCtrl then
    if s.flag ingCtrl_En == old.flag ingCtrl_En then s else { s with ing := { s.ing with enFrom := s.cyc + 1 } }
  else if 0x81000 ≤ off ∧ off < 0x85000 ∧ off = ingLaneCtrl l then
    let s1 := if s.flag (ingLaneCtrl_En l) == old.flag (ingLaneCtrl_En l) then s else s.laneAnew l
    (List.range 4).foldl (fun (s : State) i => s.txUpdate (30 + i)) s1
  else if 0x300100 ≤ off ∧ off < 0x300540 ∧ off = optTxCtrl t then s.txUpdate t
  else if off = chmCtrl then (List.range 4).foldl (fun (s : State) i => s.txUpdate (24 + i)) s
  else if off = timTpCtrl 0 then s.txUpdate 28
  else if off = timTpCtrl 1 then s.txUpdate 29
  else if off = pwrTemp then
    let x := sint 8 (s.getF pwrTemp_Max)
    if s.getF pwrTemp_High = old.getF pwrTemp_High then s else tempThreshold x s
  else if off = fltHceCfg then { s with flt := { s.flt with hceFrom := s.tick } }
  else if off = fabQsampCtrl then (if s.flag fabQsampCtrl_En then s.setF fabQsampWr_Index 0 else s)
  else if 0x280100 ≤ off ∧ off < 0x280280 ∧ off = memStackCfg n then
    { s with mem := { s.mem with leakFrom := mput (fun _ => 0) s.mem.leakFrom n s.tick } }
  else if fltReact 0 ≤ off ∧ off < fltReact 256 then
    match srcInfo r with
    | none => old
    | some i => if i.cls = .f then (s.setF (fltReact_Pin r) 1).setF (fltReact_Safe r) 1 else s
  else if off = zlTwinCtrl then
    if s.getF zlTwinCtrl_Role = old.getF zlTwinCtrl_Role then s else s.setF chmCtrl_Shadow (b2n (s.getF zlTwinCtrl_Role == 2))
  else s

/-- Fresh parity where the word at an offset is an Ashpit configuration word (R406). -/
def State.parityAt (s : State) (off : Nat) : State :=
  match parityWord off with
  | some w => s.freshParity w
  | none => s

/-- A write of a register word that only stores: refused whole, or field by field (R18), with its W1C bits. -/
def State.plainWrite (s : State) (off : Nat) (v : W32) : State :=
  let fs := wordFields off
  if !s.writeOk off v.toNat && s.rwChanges off v fs then s.refuse off
  else (((s.rwFields s off v fs).rwDone s off).parityAt off).w1cWord off v

/-! ### Writes that act -/

/-- An action bit of a write. -/
def State.act (s : State) (bit : Bool) (f : State → State) : State := if bit then f s else s

/-- A write of SEC.CMD starts the command that its code names; an unlisted code ends with BAD_COMMAND (R426). -/
def secCommand (code : Nat) (s : State) : State :=
  if code = 1 then getInfo s else if code = 2 then mailboxAttest s else if code = 3 then getKemCert s
  else if code = 4 then enrollOwner s else if code = 5 then fuseOffVendor s else if code = 6 then debugChallenge s
  else if code = 7 then debugUnlock s else if code = 8 then debugLock s else if code = 9 then readLog s
  else if code = 0xA then setSvn s else s.mailbox false fun s => s.serve rcBadCommand []

/-- A write of ZL.LINK[n].CFG: EN and PRESET are stored, FREEZE = 1 is judged first (R348), and EN = 0 disables the link. -/
def linkCfgWrite (n : Nat) (v : W32) (s : State) : State :=
  let was := s.flag (zlLinkCfg_Freeze n)
  let frozen := if v.toNat.testBit 30 && !was then zlFreeze n s else s
  if v.toNat.testBit 30 && !frozen.flag (zlLinkCfg_Freeze n) then frozen
  else
    let s1 := frozen.setF (zlLinkCfg_Preset n) (bitsAt v.toNat 8 4)
    let s2 := if v.toNat.testBit 30 then s1 else s1.setF (zlLinkCfg_Freeze n) 0
    let s3 := if v.toNat.testBit 31 then s2.setF (zlLinkCfg_En n) 1 else if s2.flag (zlLinkCfg_En n) then zlLinkDisable n s2 else s2
    s3.txUpdate n

/-- A write of TIM.CTRL; SET and ADJ_GO together are refused (R279). -/
def timCtrlWrite (v : W32) (s : State) : State :=
  let n := v.toNat
  if n.testBit 0 && n.testBit 1 then s.refuse timCtrl else (s.act (n.testBit 0) timSet).act (n.testBit 1) timAdjGo

/-- A write of SQ[q].CTRL. -/
def sqCtrlWrite (q : Nat) (v : W32) (s : State) : State := if v.toNat.testBit 0 then s.setF (stkSqCtrl_En q) 1 else sqDisable q s

/-- A write of half of POOL[c].RELEASE: the other half keeps its value (R12, R273). -/
def releaseHalf (c : Nat) (high : Bool) (v : W32) (s : State) : State :=
  let r := BitVec.ofNat 64 (s.getF (trgPoolRelease_Record c))
  poolReleaseWrite c (if high then v ++ r.extractLsb' 0 32 else r.extractLsb' 32 32 ++ v) s

/-- Writes in FAB and HRT windows. -/
def State.writeHearth (s : State) (off : Nat) (v : W32) : State :=
  let n := v.toNat
  let g := (off - 0x800000) / 0x4000
  let u := (off - 0x1000000) / 0x8000
  let r := off % 0x8000
  if off = fabCtrl then s.act (n.testBit 0) clrCntFab
  else if 0x800000 ≤ off ∧ off < 0x800000 + 0x4000 * 300 then
    if off = grTblCmd g then (s.act (n.testBit 1) (grateTblWrite g)).act (n.testBit 0) (grateTblRead g .clean) else s.plainWrite off v
  else if 0x1000000 ≤ off ∧ off < 0x1000000 + 0x8000 * 300 then
    if s.courseOff (courseOf u) || (isMu u && (r == 0xC || r == 0x3C || (decide (0x60 ≤ r) && decide (r < 0x80)))) then s
    else if off = hrtTblCmd u then (s.act (n.testBit 1) (hrtTblWrite u)).act (n.testBit 0) (hrtTblRead u .clean)
    else if off = hrtAmxSel u then amxSelWrite u v s
    else s.plainWrite off v
  else s.plainWrite off v

/-- Writes in TIM, ING, TRG and CHM. -/
def State.writeEdge (s : State) (off : Nat) (v : W32) : State :=
  let n := v.toNat
  let c := (off - 0x102000) / 0x80
  let p := (off - 0x140100) / 0x40
  if off = timCtrl then timCtrlWrite v s
  else if off = timRate then rateWrite v s
  else if off = timSyncCtrl then syncSend v s
  else if off = timTpTsqPop 0 then s.act (n.testBit 0) (tsqPop 0)
  else if off = timTpTsqPop 1 then s.act (n.testBit 0) (tsqPop 1)
  else if off = ingCtrl then ((s.plainWrite off v).act (n.testBit 1) clrCntIng).act (n.testBit 2) snapGo
  else if off = ingGrpEn then grpEnWrite v s
  else if off = ingReplayCtrl then replayCtrlWrite v s
  else if off = trgCommit then trgCommit' v s
  else if off = trgForce then s.act (n.testBit 0) forceHit
  else if 0x102000 ≤ off ∧ off < 0x102800 then
    if off = trgPoolCtrl c then poolCtrlWrite c v s
    else if off = trgPoolRelease c then releaseHalf c false v s
    else if off = trgPoolRelease c + 4 then releaseHalf c true v s
    else s.plainWrite off v
  else if 0x140100 ≤ off ∧ off < 0x140200 then
    if off = chmPortEcho p then s.act (n.testBit 0) (chmEchoGo p)
    else if off = chmPortTxqStat p then s.act (n.testBit 31) (txqPush p)
    else if off = chmPortRxqStat p then s.act (n.testBit 31) (rxqPop p)
    else s.plainWrite off v
  else s.plainWrite off v

/-- Writes in ZL, STK and MEM. -/
def State.writeLinks (s : State) (off : Nat) (v : W32) : State :=
  let n := v.toNat
  let k := (off - 0x180100) / 0x80
  let q := (off - 0x200100) / 0x40
  let c := (off - 0x200600) / 0x40
  if off = zlTwinCtrl then
    (((s.plainWrite off v).act (n.testBit 3) twinAttach).act (n.testBit 4) twinRestart).act (n.testBit 5) twinDetach
  else if 0x180100 ≤ off ∧ off < 0x180100 + 0x80 * 24 then
    if off = zlLinkCfg k then linkCfgWrite k v s
    else if off = zlLinkEcho k then s.act (n.testBit 0) (zlEchoGo k)
    else s.plainWrite off v
  else if off = stkCtrl then stkDisable v s
  else if off = stkFuncEn then funcEnWrite v s
  else if off = stkResyncCtrl then s.act (n.testBit 0) resyncGo
  else if 0x200100 ≤ off ∧ off < 0x200500 then if off = stkSqCtrl q then sqCtrlWrite q v s else s.plainWrite off v
  else if 0x200600 ≤ off ∧ off < 0x200A00 then if off = stkCqCfg c then cqEnable c v s else s.plainWrite off v
  else if off = memCtrl then s.act (n.testBit 0) clrCntMem
  else if off = memInj then memInjWrite v s
  else s.plainWrite off v

/-- Writes in GLB, PWR, FLT and SEC. -/
def State.writeSys (s : State) (off : Nat) (v : W32) : State :=
  let n := v.toNat
  if off = glbHearthCtrl then (s.act (n.testBit 0) haltWrite).act (n.testBit 1) runWrite
  else if off = pwrResetCtrl then s.act (n.testBit 0) chipResetWrite
  else if off = fltCtrl then (s.plainWrite off v).act (n.testBit 0) clrCntFlt
  else if off = fltSafeCtrl then ((s.parityAt off).act (n.testBit 0) safeEnter).act (n.testBit 1) safeExit
  else if off = fltInj then fltInjWrite v s
  else if off = secCmd then secCommand (bitsAt n 0 8) s
  else s.plainWrite off v

/-- A 32-bit write at a BAR0 offset. An offset that no register occupies takes no effect (R17). -/
def State.writeWord (s : State) (off : Nat) (v : W32) : State :=
  if off < 0x40000 then s.writeSys off v
  else if off < 0x180000 then s.writeEdge off v
  else if off < 0x300000 then s.writeLinks off v
  else if off < 0x800000 then s.plainWrite off v
  else s.writeHearth off v

/-! ### Reads (R12, R13, R15) -/

/-- The RC fields of a register's word, at bits of the whole register. -/
def rcFields (r : RegRow) : List FieldRow := r.fields.filter fun f => f.acc == .rc

/-- The 32-bit read of word w of a register at an offset: the value and what the read leaves. An RC field returns what it held before
the increments of this cycle, and holds those afterwards (R15). A read of the low word captures the high word, which the next
read of the high word returns (R12). -/
def State.readOf (s : State) (r : RegRow) (w off : Nat) : W32 × State :=
  match rcFields r with
  | f :: _ =>
    let base := off - 4 * w
    let fld : Fld := ⟨base, f.lsb, f.width⟩
    let c := mget (fun _ => (0, 0)) s.incNow base
    let n := if c.2 = 0 then s.getF fld else c.1
    if w = 0 then
      let s0 := s.setF fld (satAdd f.width 0 c.2)
      let s1 := { s0 with incNow := mput (fun _ => (0, 0)) s0.incNow base (0, c.2) }
      (BitVec.ofNat 32 n,
        if r.bytes = 8 then { s1 with hiCap := mput (fun _ => none) s1.hiCap (off + 4) (some (BitVec.ofNat 32 (n / 2 ^ 32))) } else s1)
    else
      match mget (fun _ => none) s.hiCap off with
      | some x => (x, { s with hiCap := mput (fun _ => none) s.hiCap off none })
      | none => (BitVec.ofNat 32 (n / 2 ^ 32), s.setWord off 0)
  | [] =>
    if r.bytes = 8 ∧ w = 0 then (s.view off, { s with hiCap := mput (fun _ => none) s.hiCap (off + 4) (some (s.view (off + 4))) })
    else
      match mget (fun _ => none) s.hiCap off with
      | some x => (x, { s with hiCap := mput (fun _ => none) s.hiCap off none })
      | none => (s.view off, s)

/-- A 32-bit read at a BAR0 offset. NOW_TIME[0] samples the time (R277). PWR.AVS.MEAS and TX[t].POWER are measurements, which no
rule gives: free values, but for the power of a dark fibre, which is 0 (R463). -/
def State.readWord (s : State) (off : Nat) : W32 × State :=
  let t := (off - 0x300100) / 0x20
  if off = timNowTime 0 then
    let s1 := nowTimeRead s
    (s1.view off, s1)
  else if off = pwrAvs then
    let d := s.draw 16
    (withF (s.view off) pwrAvs_Meas d.1.toNat, d.2)
  else if 0x300100 ≤ off ∧ off < 0x300540 ∧ off = optTxPower t && !s.txLit t then (withF (s.view off) (optTxPower_Microwatts t) 0, s)
  else if 0x300100 ≤ off ∧ off < 0x300540 ∧ off = optTxPower t then
    let d := s.draw 16
    (withF (s.view off) (optTxPower_Microwatts t) d.1.toNat, d.2)
  else
    match findRow (regRowsAt off) off with
    | none => (0, s)
    | some (r, w) => s.readOf r w off

/-- A read of both words in one cycle: atomic for a 64-bit register, and otherwise two reads, low address first (R12, R435). -/
def State.readBoth (s : State) (off : Nat) : W64 × State :=
  match findRow (regRowsAt off) off with
  | some (r, w) =>
    if r.bytes = 8 ∧ w = 0 then
      let a := s.readOf r 0 off
      let b := a.2.readOf r 1 (off + 4)
      (b.1 ++ a.1, b.2)
    else
      let a := s.readWord off
      let b := a.2.readWord (off + 4)
      (b.1 ++ a.1, b.2)
  | none =>
    let b := s.readWord (off + 4)
    (b.1 ++ (0 : W32), b.2)

/-! ### Requests (R435, R437, R441) -/

/-- BAR0 accepts a request of this size at this offset (R435). -/
def sizeOk (off size : Nat) : Bool := (size == 4 && off % 4 == 0) || (size == 8 && off % 8 == 0)

/-- A BAR0 offset is decoded: before the core is released, GLB and SEC alone are (R441). -/
def State.decodes (s : State) (off : Nat) : Bool := s.pwr.released || decide (off < 0x10000) || decide (0x30000 ≤ off ∧ off < 0x40000)

/-- The response to a read. -/
def State.answer (s : State) (v : W64) (ur : Bool) : State := { s with readData := v, readUr := ur, readRetry := false }

/-- A request that the function does not support: its completion says so, and AER reports it (R427). -/
def State.unsupported (s : State) : State := (s.answer 0 true).aer 20

/-- A write through BAR0. -/
def State.bar0Write (s : State) (off size : Nat) (v : W64) : State :=
  let c := (off - 0x102000) / 0x80
  if s.pcie.asleep then s.aer 20
  else if !sizeOk off size then s.raise glbPcieStatus_BadAccess
  else if s.pcieDead || !s.decodes off then s
  else if size = 4 then s.writeWord off (v.extractLsb' 0 32)
  else if 0x102000 ≤ off ∧ off < 0x102800 ∧ off = trgPoolRelease c then poolReleaseWrite c v s
  else (s.writeWord off (v.extractLsb' 0 32)).writeWord (off + 4) (v.extractLsb' 32 32)

/-- A read through BAR0. -/
def State.bar0Read (s : State) (off size : Nat) : State :=
  if s.pcie.asleep then s.unsupported
  else if !sizeOk off size then (s.raise glbPcieStatus_BadAccess).unsupported
  else if s.pcieDead then s.answer (if size = 4 then 0xFFFFFFFF else 0xFFFFFFFFFFFFFFFF) false
  else if !s.decodes off then s.answer 0 false
  else if size = 4 then
    let r := s.readWord off
    r.2.answer ((0 : W32) ++ r.1) false
  else
    let r := s.readBoth off
    r.2.answer r.1 false

/-- A word of the MSI-X table; a vector is masked after reset. -/
def State.msixWord (s : State) (i : Nat) : W32 := mget (fun k => if k % 4 = 3 then (1 : W32) else 0) s.pcie.table i

/-- A word of BAR4 (R437). -/
def State.bar4Word (s : State) (off : Nat) : W32 :=
  let d (i : Nat) : W32 := if off % 8 = 0 then mget (fun _ => 0) s.stk.doorbells i else 0
  if off < 0x80 then d (off / 8)
  else if 0x100 ≤ off ∧ off < 0x180 then d (16 + (off - 0x100) / 8)
  else if 0x1000 ≤ off ∧ off < 0x2000 then s.msixWord ((off - 0x1000) / 4)
  else if 0x2000 ≤ off ∧ off < 0x2020 then s.pcie.pending.extractLsb' (8 * (off - 0x2000)) 32
  else 0

/-- A write of a word of the MSI-X table: the address is aligned to four bytes, and word 3 holds the mask bit (R439). -/
def State.msixWrite (s : State) (off : Nat) (v : W32) : State :=
  let i := (off - 0x1000) / 4
  let x := if i % 4 = 0 then v &&& 0xFFFFFFFC else if i % 4 = 3 then v &&& 1 else v
  if 0x1000 ≤ off ∧ off < 0x2000 then
    { s with pcie := { s.pcie with table := mput (fun k => if k % 4 = 3 then (1 : W32) else 0) s.pcie.table i x } }
  else s

/-- A BAR4 offset lies in the bytes of a doorbell. -/
def isDoorbell (off : Nat) : Bool := (decide (off < 0x80) || decide (0x100 ≤ off ∧ off < 0x180)) && decide (off % 8 < 4)

/-- A write through BAR4 (R437). -/
def State.bar4Write (s : State) (off size : Nat) (v : W64) : State :=
  if s.pcie.asleep then s.aer 20
  else if !s.barOn then s
  else if isDoorbell off then
    if !((size == 4 || size == 8) && off % 8 == 0) then s.raise glbPcieStatus_BadAccess
    else if off < 0x80 then sqDoorbell (off / 8) (v.extractLsb' 0 32) s
    else cqDoorbell ((off - 0x100) / 8) (v.extractLsb' 0 32) s
  else if !sizeOk off size then s
  else if size = 4 then s.msixWrite off (v.extractLsb' 0 32)
  else (s.msixWrite off (v.extractLsb' 0 32)).msixWrite (off + 4) (v.extractLsb' 32 32)

/-- The bytes of BAR4 that a read of another size or alignment than an aligned 4 or 8 returns: those of a doorbell and of the reserved
regions stand (R437), and no rule gives what such a read of the MSI-X structures returns. -/
def State.bar4Bytes (s : State) (off : Nat) : Nat → State × List Byte
  | 0 => (s, [])
  | n + 1 =>
    let r := if 0x1000 ≤ off ∧ off < 0x2020 then
        let d := s.draw 8
        (d.1, d.2)
      else (((s.bar4Word (off - off % 4)) >>> (8 * (off % 4))).extractLsb' 0 8, s)
    let q := r.2.bar4Bytes (off + 1) n
    (q.1, r.1 :: q.2)

/-- A read through BAR4 (R437). -/
def State.bar4Read (s : State) (off size : Nat) : State :=
  if s.pcie.asleep then s.unsupported
  else if s.pcieDead then s.answer (if size = 4 then 0xFFFFFFFF else 0xFFFFFFFFFFFFFFFF) false
  else if !s.pwr.released then s.answer 0 false
  else if !sizeOk off size then
    let d := s.bar4Bytes off (min 8 size)
    d.1.answer (BitVec.ofNat 64 (ofLe d.2)) false
  else if size = 4 then s.answer ((0 : W32) ++ s.bar4Word off) false
  else s.answer (s.bar4Word (off + 4) ++ s.bar4Word off) false

/-! ### The commands -/

/-- A configuration request stays in one double word: 1, 2 or 4 bytes at a multiple of its size. -/
def cfgSizeOk (off size : Nat) : Bool := (size == 1 || size == 2 || size == 4) && off % size == 0

/-- A write of a register in a space; a chip that VDD_IO holds in reset takes none (R444). -/
def State.spaceWrite (s : State) (space : Space) (off size : Nat) (value : W64) : State :=
  if s.pwr.ioLow then s
  else match space with
  | .bar0 => s.bar0Write off size value
  | .bar4 => s.bar4Write off size value
  | .config => s.when (cfgSizeOk off size) (s.cfgWrite off size value.toNat)

/-- A read of a register in a space; a chip that VDD_IO holds in reset answers none (R444). -/
def State.spaceRead (s : State) (space : Space) (off size : Nat) : State :=
  if s.pwr.ioLow then s
  else match space with
  | .bar0 => s.bar0Read off size
  | .bar4 => s.bar4Read off size
  | .config => s.when (cfgSizeOk off size) (s.cfgRead off size)

/-- The meaning of REGISTER_WRITE. -/
def execRegisterWrite (space : Space) (off size : Nat) (value : W64) (s : State) : Out := .next (s.spaceWrite space off size value)

/-- The meaning of W1C_STATUS_WRITE. -/
def execW1cStatusWrite (off : Nat) (value : W32) (s : State) : Out :=
  .next (s.when (off % 4 == 0 && !s.pcieDead && !s.pcie.asleep && !s.pwr.ioLow && s.decodes off) (s.w1cWord off value))

/-- The meaning of RC_COUNTER_READ. -/
def execRcCounterRead (space : Space) (off size : Nat) (s : State) : Out := .next (s.spaceRead space off size)

/-- The meaning of PAIR_LOW_WORD_READ. -/
def execPairLowWordRead (off : Nat) (s : State) : Out := .next (s.when (off % 8 == 0 && !s.pwr.ioLow) (s.bar0Read off 4))

end Sys2Proof.Machine
end

