-- ==== Sys2Proof/Machine/Scan.lean ====
section
/-!
DEFINITION. Scans of the halted Hearth: SCAN_OUT and SCAN_IN (R228, R229, R423).
-/
namespace Sys2Proof

/-- The frozen state that block contents stand for which this run has not written: the layout is specific to the stepping, and spec/
does not give it (R229). -/
opaque Config.scanState : List (List Byte) → Machine.ScanRec

namespace Machine

/-- The distance of two site blocks. -/
def scanPitch : Nat := 0x280000

/-- Contents of a scan of an image that came from an envelope are sealed, unless debug lifts it (R423, R425). -/
def State.scanSealed (s : State) (x : ImgInfo) : Bool := x.encrypted && !s.sec.scopes.getLsbD 1

/-- The 64-byte header of a block (R229). -/
def State.scanHeader (s : State) (x : ImgInfo) (p : Nat × Nat × Nat) (len : Nat) : List Byte :=
  let halt := s.getF glbHaltTick_Tick
  let epoch := s.getF (hrtUnitCfg_Epoch p.2.2)
  let head := leBytes 4 0x4E414353 ++ leBytes 1 s.part.stepping.num ++ leBytes 1 (s.getF glbReproSig_ArithRev)
    ++ leBytes 1 (b2n (isMu p.2.1)) ++ leBytes 1 p.1 ++ leBytes 1 p.2.1 ++ leBytes 1 epoch
    ++ leBytes 1 (s.phaseAt (s.getF glbImgState_Epoch) x.plog halt) ++ leBytes 1 0 ++ leBytes 4 len ++ leBytes 8 halt
  head ++ leBytes 4 (s.getF glbPlaceMap_Map) ++ leBytes 4 0 ++ leBytes 32 x.digest.toNat

/-- The contents of one block: free bytes, since their layout is open, sealed where the image was encrypted, as the initialisation
vector, the tag and the ciphertext (R423): what is sealed, and what is written. A stopped Firebox holds no key to seal with (R413): the
bytes are free then. -/
def State.scanContents (s : State) (x : ImgInfo) : State × List Byte × List Byte :=
  let n := s.draw 32
  let r := n.2.drawBytes (n.1.toNat % (scanPitch - 91))
  if s.scanSealed x then
    let iv := r.2.drawBytes 12
    if s.sec.stopped then
      let f := iv.2.drawBytes r.1.length
      (f.2, r.1, f.1)
    else
      let z := gcmSeal (Config.scanKey (s.sec.key labelScan) x.digest) iv.1 [] r.1
      (iv.2, r.1, iv.1 ++ z.2 ++ z.1)
  else (r.2, r.1, r.1)

/-- The blocks of a scan, as far as LEN allows: the contents before any sealing, and the bytes written. -/
def State.scanBlocks (s : State) (x : ImgInfo) (base len : Nat) : List (Nat × Nat × Nat) → State × List (List Byte) × Nat
  | [] => (s, [], 0)
  | p :: ps =>
    let c := s.scanContents x
    let off := scanPitch * (12 * p.1 + p.2.1)
    let bs := (s.scanHeader x p c.2.2.length ++ c.2.2).take (len - off)
    let s1 := if bs.isEmpty then c.1 else c.1.hbmWrite 6 0x1FF (base + off) bs false
    let r := s1.scanBlocks x base len ps
    (r.1, c.2.1 :: r.2.1, bs.length + r.2.2)

/-- A store restricted to the sites of an image. -/
def onSites {α : Type} (us : List Nat) (m : SMap α) : SMap α := m.filter fun e => us.contains e.1

/-- SCAN_OUT: the state of every mapped site, as the halt froze it, goes to HBM (R228, R229). -/
def scanOut (tag : Nat) (s : State) : State :=
  match s.startable tag 0x0A with
  | none => s
  | some d =>
    let s1 := s.begin tag
    if s.running then s1.loaderDone tag 0x1E 0
    else match s.hearth.img with
      | none => s1.landing tag 0x00 0
      | some x =>
        let sites := siteList (s.vmap x.base x.v)
        let us := sites.map fun p => p.2.2
        let r := s1.scanBlocks x (dfield d 8 8 % 2 ^ 40) (dfield d 16 8) sites
        let rec' : ScanRec :=
          ⟨r.2.1, onSites us s.hearth.units, onSites us s.hearth.grates, s.hearth.edges, s.hearth.present, s.hearth.flights,
            s.hearth.credits, s.hcyc, s.sinceT0 (s.getF glbImgState_Epoch) (s.getF glbHaltTick_Tick)⟩
        ({ r.1 with hearth := { r.1.hearth with scans := rec' :: r.1.hearth.scans } }).landing tag 0x00 r.2.2

/-- The meaning of SCAN_OUT. -/
def execScanOut (tag : Nat) (s : State) : Out := .next (scanOut tag s)

/-- The blocks of a scan in HBM: header and contents of each, with what was poisoned. -/
def State.readBlocks (s : State) (base len : Nat) : List (Nat × Nat × Nat) → State × List (List Byte × List Byte) × Bool × Nat
  | [] => (s, [], false, 0)
  | p :: ps =>
    let off := scanPitch * (12 * p.1 + p.2.1)
    let h := s.hbmRead 6 0x1FF (base + off) (min 64 (len - off))
    let n := dfield h.2.1 12 4
    let c := h.1.hbmRead 6 0x1FF (base + off + 64) (min n (len - off - 64))
    let r := c.1.readBlocks base len ps
    (r.1, (h.2.1, c.2.1) :: r.2.1, h.2.2 || c.2.2 || r.2.2.1, h.2.1.length + c.2.1.length + r.2.2.2)

/-- A block that differs from the part or the loaded image (R229). -/
def State.blockForeign (s : State) (x : ImgInfo) (h : List Byte) : Bool :=
  dfield h 4 1 != s.part.stepping.num || dfield h 5 1 != s.getF glbReproSig_ArithRev || dfield h 32 32 != x.digest.toNat

/-- The contents of a scan as SCAN_IN takes them: those of an encrypted image are decrypted, unless debug lifts it; none where they do
not open, as with any key but this part's (R423). -/
def State.scanOpen (s : State) (x : ImgInfo) (cs : List (List Byte)) : Option (List (List Byte)) :=
  if s.scanSealed x then
    let key := Config.scanKey (s.sec.key labelScan) x.digest
    let ps := cs.map fun c => if s.sec.stopped then none else gcmOpen key (c.take 12) [] (c.drop 28) ((c.drop 12).take 16)
    if ps.any Option.isNone then none else some (ps.filterMap id)
  else some cs

/-- What the contents of a scan stand for: the record of a scan with those contents, else what the part makes of them. -/
def State.scanFor (s : State) (x : ImgInfo) (cs : List (List Byte)) : Option ScanRec :=
  (s.scanOpen x cs).map fun ps => (s.hearth.scans.find? fun r => r.contents == ps).getD (Config.scanState ps)

/-- A store with the entries of another put in. -/
def overlay {α : Type} [DecidableEq α] (d : Nat → α) (m : SMap α) (es : SMap α) : SMap α :=
  es.foldl (fun m e => mput d m e.1 e.2) m

/-- Epochs of the sites from their blocks. -/
def State.scanEpochs (s : State) : List ((Nat × Nat × Nat) × Nat) → State
  | [] => s
  | (p, e) :: r => ((s.setF (hrtUnitCfg_Epoch p.2.2) e).setF (grCfg_Epoch p.2.2) e).scanEpochs r

/-- The state of a scan in place of that of the mapped sites; effects in flight keep their distance to the running cycle. -/
def State.restore (s : State) (r : ScanRec) (us : List Nat) : State :=
  let h := s.hearth
  let off {α : Type} (m : SMap α) : SMap α := m.filter fun e => !us.contains e.1
  { s with hearth :=
      { h with
        units := overlay (fun _ => HUnit.init) (off h.units) (onSites us r.units)
        grates := overlay (fun _ => Grate.init) (off h.grates) (onSites us r.grates)
        edges := overlay (fun _ => EdgePort.init) [] r.edges
        present := r.present
        flights := r.flights.map fun f => { f with due := f.due - r.hcyc + s.hcyc }
        credits := r.credits.map fun c => (c.1, c.2 - r.hcyc + s.hcyc)
        banks := []
        vwrites := [] } }

/-- SCAN_IN: a scan of this part and image goes back into the Hearth, with its epoch and phase (R228, R229). T0 lies as far before the
halt as it did in the scan, so that windows go on by their relative number (R335). -/
def scanIn (tag : Nat) (s : State) : State :=
  match s.startable tag 0x0B with
  | none => s
  | some d =>
    let s1 := s.begin tag
    if s.running then s1.loaderDone tag 0x1E 0
    else match s.hearth.img with
      | none => s1.landing tag 0x1F 0
      | some x =>
        let sites := siteList (s.vmap x.base x.v)
        let r := s1.readBlocks (dfield d 8 8 % 2 ^ 40) (dfield d 16 8) sites
        let heads := r.2.1.map fun b => b.1
        let h0 := listGet [] heads 0
        if r.2.2.1 then r.1.landing tag 0x04 0
        else if heads.any (s.blockForeign x) || dfield h0 24 4 != s.getF glbPlaceMap_Map then r.1.landing tag 0x1F 0
        else match r.1.scanFor x (r.2.1.map fun b => b.2) with
          | none => r.1.landing tag 0x1F 0
          | some c =>
            let epoch := dfield h0 9 1 % 16
            let per := 2 ^ x.plog
            let s2 := (r.1.restore c (sites.map fun p => p.2.2)).scanEpochs (sites.zip (heads.map fun h => dfield h 9 1 % 16))
            let s3 := s2.setF glbImgState_Epoch epoch
            let s4 := if x.h = 0 then s3 else s3.setF glbHotSched_Epoch epoch
            let phase := dfield h0 10 1 % per
            let ran := if c.ran % per = phase then c.ran else phase
            (s4.setT0 epoch (movedTick 0 ran (s.getF glbHaltTick_Tick))).landing tag 0x00 r.2.2.2

/-- The meaning of SCAN_IN. -/
def execScanIn (tag : Nat) (s : State) : Out := .next (scanIn tag s)

end Machine

end Sys2Proof
end

