-- ==== Sys2Proof/Machine/Dispatch.lean ====
section
/-!
DEFINITION. The dispatch of the commands: one arm per constructor, each one direct call of its meaning.
-/
namespace Sys2Proof.Machine

/-- The effect of a command on the state (each constructor's docstring names its rule). -/
def exec (i : Instr) (s : State) : Host.Outcome State Fault Refusal :=
  match i with
  | .registerWrite space off size value => Sys2Proof.Machine.execRegisterWrite space off size value s
  | .w1cStatusWrite off value => Sys2Proof.Machine.execW1cStatusWrite off value s
  | .rcCounterRead space off size => Sys2Proof.Machine.execRcCounterRead space off size s
  | .pairLowWordRead off => Sys2Proof.Machine.execPairLowWordRead off s
  | .laneTickHeader lane sync raw => Sys2Proof.Machine.execLaneTickHeader lane sync raw s
  | .dataBlock lane sync raw => Sys2Proof.Machine.execDataBlock lane sync raw s
  | .crc16Verdict lane => Sys2Proof.Machine.execCrc16Verdict lane s
  | .ingestReleaseTick => Sys2Proof.Machine.execIngestReleaseTick s
  | .grpEnWrite value => Sys2Proof.Machine.execGrpEnWrite value s
  | .snapGo => Sys2Proof.Machine.execSnapGo s
  | .clrCntIng => Sys2Proof.Machine.execClrCntIng s
  | .replayCtrlWrite value => Sys2Proof.Machine.execReplayCtrlWrite value s
  | .replayRead record lane => Sys2Proof.Machine.execReplayRead record lane s
  | .hotBundleIssue site chk => Sys2Proof.Machine.execHotBundleIssue site chk s
  | .warmBundleIssue site chk => Sys2Proof.Machine.execWarmBundleIssue site chk s
  | .mac8 site asrc aseg wsel acc ecc => Sys2Proof.Machine.execMac8 site asrc aseg wsel acc ecc s
  | .mac4 site asrc aseg wsel acc ecc => Sys2Proof.Machine.execMac4 site asrc aseg wsel acc ecc s
  | .omac8 site asrc aseg wsel acc ecc => Sys2Proof.Machine.execOmac8 site asrc aseg wsel acc ecc s
  | .omac4 site asrc aseg wsel acc ecc => Sys2Proof.Machine.execOmac4 site asrc aseg wsel acc ecc s
  | .ldw site asrc wsel ecc => Sys2Proof.Machine.execLdw site asrc wsel ecc s
  | .ldo site asrc ecc => Sys2Proof.Machine.execLdo site asrc ecc s
  | .gend site asrc aseg acc gsz dst ecc => Sys2Proof.Machine.execGend site asrc aseg acc gsz dst ecc s
  | .vectorInstruction site vec ctrl ecc => Sys2Proof.Machine.execVectorInstruction site vec ctrl ecc s
  | .scalarOperation site slot => Sys2Proof.Machine.execScalarOperation site slot s
  | .recv site queue rvr rblk => Sys2Proof.Machine.execRecv site queue rvr rblk s
  | .send site queue svr sblk ecc oq => Sys2Proof.Machine.execSend site queue svr sblk ecc oq s
  | .muRead site ag pat step ecc tagBad oq => Sys2Proof.Machine.execMuRead site ag pat step ecc tagBad oq s
  | .muWrite site ag pat step => Sys2Proof.Machine.execMuWrite site ag pat step s
  | .muXfer site ag pat step store => Sys2Proof.Machine.execMuXfer site ag pat step store s
  | .muAccessGrant site ags oq => Sys2Proof.Machine.execMuAccessGrant site ags oq s
  | .xferComplete site ag => Sys2Proof.Machine.execXferComplete site ag s
  | .configBufferDrain site => Sys2Proof.Machine.execConfigBufferDrain site s
  | .hrtTblRead site ecc => Sys2Proof.Machine.execHrtTblRead site ecc s
  | .hrtTblWrite site => Sys2Proof.Machine.execHrtTblWrite site s
  | .grateTblRead site ecc => Sys2Proof.Machine.execGrateTblRead site ecc s
  | .grateTblWrite site => Sys2Proof.Machine.execGrateTblWrite site s
  | .amxSelWrite site value => Sys2Proof.Machine.execAmxSelWrite site value s
  | .tokenCrossing site linkErr tblErr => Sys2Proof.Machine.execTokenCrossing site linkErr tblErr s
  | .steerFireHot site ecc so => Sys2Proof.Machine.execSteerFireHot site ecc so s
  | .steerFireWarm site so => Sys2Proof.Machine.execSteerFireWarm site so s
  | .creditReturn sender => Sys2Proof.Machine.execCreditReturn sender s
  | .qsampSample => Sys2Proof.Machine.execQsampSample s
  | .qsampRecord => Sys2Proof.Machine.execQsampRecord s
  | .clrCntFab => Sys2Proof.Machine.execClrCntFab s
  | .cfgEmpty course token => Sys2Proof.Machine.execCfgEmpty course token s
  | .shadowWrite course token => Sys2Proof.Machine.execShadowWrite course token s
  | .liveWrite course token => Sys2Proof.Machine.execLiveWrite course token s
  | .scanReq course token => Sys2Proof.Machine.execScanReq course token s
  | .scanData course token => Sys2Proof.Machine.execScanData course token s
  | .cfgMark course token => Sys2Proof.Machine.execCfgMark course token s
  | .shadowClear course token => Sys2Proof.Machine.execShadowClear course token s
  | .hotWindowClose site => Sys2Proof.Machine.execHotWindowClose site s
  | .warmWindowClose site => Sys2Proof.Machine.execWarmWindowClose site s
  | .scalePublish site => Sys2Proof.Machine.execScalePublish site s
  | .loadImageFull tag => Sys2Proof.Machine.execLoadImageFull tag s
  | .loadImageStage tag => Sys2Proof.Machine.execLoadImageStage tag s
  | .swapEpoch tag => Sys2Proof.Machine.execSwapEpoch tag s
  | .hotEpochSwitch => Sys2Proof.Machine.execHotEpochSwitch s
  | .stokerMarkEnqueue => Sys2Proof.Machine.execStokerMarkEnqueue s
  | .warmUnitSwitch site => Sys2Proof.Machine.execWarmUnitSwitch site s
  | .warmGrateSwitch site => Sys2Proof.Machine.execWarmGrateSwitch site s
  | .creditEpochStart sender => Sys2Proof.Machine.execCreditEpochStart sender s
  | .swapTimeout => Sys2Proof.Machine.execSwapTimeout s
  | .swapEpochComplete => Sys2Proof.Machine.execSwapEpochComplete s
  | .haltWrite => Sys2Proof.Machine.execHaltWrite s
  | .runWrite => Sys2Proof.Machine.execRunWrite s
  | .hearthHalt => Sys2Proof.Machine.execHearthHalt s
  | .hearthRelease => Sys2Proof.Machine.execHearthRelease s
  | .scanOut tag => Sys2Proof.Machine.execScanOut tag s
  | .scanIn tag => Sys2Proof.Machine.execScanIn tag s
  | .trgDecision => Sys2Proof.Machine.execTrgDecision s
  | .trigOutPulseEnd out => Sys2Proof.Machine.execTrigOutPulseEnd out s
  | .triggerRecordPost => Sys2Proof.Machine.execTriggerRecordPost s
  | .scoreTake course => Sys2Proof.Machine.execScoreTake course s
  | .captureTake course => Sys2Proof.Machine.execCaptureTake course s
  | .acqWriteResume pool => Sys2Proof.Machine.execAcqWriteResume pool s
  | .recordComplete pool => Sys2Proof.Machine.execRecordComplete pool s
  | .trigInEdge input rising frac => Sys2Proof.Machine.execTrigInEdge input rising frac s
  | .forceHit => Sys2Proof.Machine.execForceHit s
  | .trgCommit value => Sys2Proof.Machine.execTrgCommit value s
  | .commitApply => Sys2Proof.Machine.execCommitApply s
  | .poolReleaseWrite pool value => Sys2Proof.Machine.execPoolReleaseWrite pool value s
  | .poolCtrlWrite pool value => Sys2Proof.Machine.execPoolCtrlWrite pool value s
  | .poolStop pool => Sys2Proof.Machine.execPoolStop pool s
  | .poolStart pool => Sys2Proof.Machine.execPoolStart pool s
  | .chimneySlotLaunch port => Sys2Proof.Machine.execChimneySlotLaunch port s
  | .chimneyTriggerReceive port msg frac => Sys2Proof.Machine.execChimneyTriggerReceive port msg frac s
  | .echoReq port msg frac => Sys2Proof.Machine.execEchoReq port msg frac s
  | .echoRsp port msg frac => Sys2Proof.Machine.execEchoRsp port msg frac s
  | .chmUser port msg => Sys2Proof.Machine.execChmUser port msg s
  | .chmEchoGo port => Sys2Proof.Machine.execChmEchoGo port s
  | .chmEchoTimeout port => Sys2Proof.Machine.execChmEchoTimeout port s
  | .txqPush port => Sys2Proof.Machine.execTxqPush port s
  | .rxqPop port => Sys2Proof.Machine.execRxqPop port s
  | .timSet => Sys2Proof.Machine.execTimSet s
  | .timAdjGo => Sys2Proof.Machine.execTimAdjGo s
  | .rateWrite value => Sys2Proof.Machine.execRateWrite value s
  | .nowTimeRead => Sys2Proof.Machine.execNowTimeRead s
  | .tpFrameTransmit port boundary => Sys2Proof.Machine.execTpFrameTransmit port boundary s
  | .tsqPop port => Sys2Proof.Machine.execTsqPop port s
  | .tpFrameReceive port frame frac => Sys2Proof.Machine.execTpFrameReceive port frame frac s
  | .syncSend value => Sys2Proof.Machine.execSyncSend value s
  | .frcLoad => Sys2Proof.Machine.execFrcLoad s
  | .sqDoorbell queue value => Sys2Proof.Machine.execSqDoorbell queue value s
  | .cqDoorbell queue value => Sys2Proof.Machine.execCqDoorbell queue value s
  | .descriptorFetch queue => Sys2Proof.Machine.execDescriptorFetch queue s
  | .descriptorStart => Sys2Proof.Machine.execDescriptorStart s
  | .runDesc tag => Sys2Proof.Machine.execRunDesc tag s
  | .chunkAssign tag => Sys2Proof.Machine.execChunkAssign tag s
  | .streamPortSend port => Sys2Proof.Machine.execStreamPortSend port s
  | .streamPortDrain port => Sys2Proof.Machine.execStreamPortDrain port s
  | .summaryEnter tag => Sys2Proof.Machine.execSummaryEnter tag s
  | .runComplete tag => Sys2Proof.Machine.execRunComplete tag s
  | .copyDesc tag => Sys2Proof.Machine.execCopyDesc tag s
  | .fillDesc tag => Sys2Proof.Machine.execFillDesc tag s
  | .fenceDesc tag => Sys2Proof.Machine.execFenceDesc tag s
  | .fenceComplete tag => Sys2Proof.Machine.execFenceComplete tag s
  | .barrierDesc tag => Sys2Proof.Machine.execBarrierDesc tag s
  | .barrierComplete tag => Sys2Proof.Machine.execBarrierComplete tag s
  | .barrierTimeout tag => Sys2Proof.Machine.execBarrierTimeout tag s
  | .timestampDesc tag => Sys2Proof.Machine.execTimestampDesc tag s
  | .snapshotDesc tag => Sys2Proof.Machine.execSnapshotDesc tag s
  | .readDigests tag => Sys2Proof.Machine.execReadDigests tag s
  | .attestDesc tag => Sys2Proof.Machine.execAttestDesc tag s
  | .resyncDesc tag => Sys2Proof.Machine.execResyncDesc tag s
  | .resyncGo => Sys2Proof.Machine.execResyncGo s
  | .completionPost queue => Sys2Proof.Machine.execCompletionPost queue s
  | .cqIrqTimeout queue => Sys2Proof.Machine.execCqIrqTimeout queue s
  | .cqEnable queue value => Sys2Proof.Machine.execCqEnable queue value s
  | .sqDisable queue => Sys2Proof.Machine.execSqDisable queue s
  | .stkDisable value => Sys2Proof.Machine.execStkDisable value s
  | .funcEnWrite value => Sys2Proof.Machine.execFuncEnWrite value s
  | .busMasterChange on => Sys2Proof.Machine.execBusMasterChange on s
  | .damperUpdate => Sys2Proof.Machine.execDamperUpdate s
  | .hotDigestWindowClose => Sys2Proof.Machine.execHotDigestWindowClose s
  | .warmDigestWindowClose point => Sys2Proof.Machine.execWarmDigestWindowClose point s
  | .zlFrameSend link => Sys2Proof.Machine.execZlFrameSend link s
  | .zlFrameReceive link lanes age => Sys2Proof.Machine.execZlFrameReceive link lanes age s
  | .zlContainerRelease link slot => Sys2Proof.Machine.execZlContainerRelease link slot s
  | .zlRetryTimeout link => Sys2Proof.Machine.execZlRetryTimeout link s
  | .zlEchoGo link => Sys2Proof.Machine.execZlEchoGo link s
  | .zlEchoTimeout link => Sys2Proof.Machine.execZlEchoTimeout link s
  | .zlFreeze link => Sys2Proof.Machine.execZlFreeze link s
  | .zlLinkDisable link => Sys2Proof.Machine.execZlLinkDisable link s
  | .twinAttach => Sys2Proof.Machine.execTwinAttach s
  | .twinInSync => Sys2Proof.Machine.execTwinInSync s
  | .twinRestart => Sys2Proof.Machine.execTwinRestart s
  | .twinRestartCheck => Sys2Proof.Machine.execTwinRestartCheck s
  | .twinDetach => Sys2Proof.Machine.execTwinDetach s
  | .twinDetached => Sys2Proof.Machine.execTwinDetached s
  | .twinPromote => Sys2Proof.Machine.execTwinPromote s
  | .twinDemote => Sys2Proof.Machine.execTwinDemote s
  | .hbmSectorRead master addr err hard => Sys2Proof.Machine.execHbmSectorRead master addr err hard s
  | .hbmSectorWrite master addr mask data poison => Sys2Proof.Machine.execHbmSectorWrite master addr mask data poison s
  | .mergeTimeout sector => Sys2Proof.Machine.execMergeTimeout sector s
  | .readModifyWrite sector cause err => Sys2Proof.Machine.execReadModifyWrite sector cause err s
  | .hbmRefresh pchan bank => Sys2Proof.Machine.execHbmRefresh pchan bank s
  | .hbmBucketLeak stack => Sys2Proof.Machine.execHbmBucketLeak stack s
  | .memInjWrite value => Sys2Proof.Machine.execMemInjWrite value s
  | .clrCntMem => Sys2Proof.Machine.execClrCntMem s
  | .bar2Read off len => Sys2Proof.Machine.execBar2Read off len s
  | .bar2Write off bytes poisoned => Sys2Proof.Machine.execBar2Write off bytes poisoned s
  | .faultStatusSet source upset => Sys2Proof.Machine.execFaultStatusSet source upset s
  | .errPulseEnd => Sys2Proof.Machine.execErrPulseEnd s
  | .blockRestart source => Sys2Proof.Machine.execBlockRestart source s
  | .hceBucketLeak => Sys2Proof.Machine.execHceBucketLeak s
  | .safeEnter => Sys2Proof.Machine.execSafeEnter s
  | .safeExit => Sys2Proof.Machine.execSafeExit s
  | .fltInjWrite value => Sys2Proof.Machine.execFltInjWrite value s
  | .clrCntFlt => Sys2Proof.Machine.execClrCntFlt s
  | .fltParityScan word parityOk => Sys2Proof.Machine.execFltParityScan word parityOk s
  | .getInfo => Sys2Proof.Machine.execGetInfo s
  | .mailboxAttest => Sys2Proof.Machine.execMailboxAttest s
  | .getKemCert => Sys2Proof.Machine.execGetKemCert s
  | .enrollOwner => Sys2Proof.Machine.execEnrollOwner s
  | .fuseOffVendor => Sys2Proof.Machine.execFuseOffVendor s
  | .debugChallenge => Sys2Proof.Machine.execDebugChallenge s
  | .debugUnlock => Sys2Proof.Machine.execDebugUnlock s
  | .debugLock => Sys2Proof.Machine.execDebugLock s
  | .readLog => Sys2Proof.Machine.execReadLog s
  | .setSvn => Sys2Proof.Machine.execSetSvn s
  | .treeRegenerated => Sys2Proof.Machine.execTreeRegenerated s
  | .glitchDetect => Sys2Proof.Machine.execGlitchDetect s
  | .perstAssert ns => Sys2Proof.Machine.execPerstAssert ns s
  | .perstDeassert => Sys2Proof.Machine.execPerstDeassert s
  | .chipReset => Sys2Proof.Machine.execChipReset s
  | .chipResetWrite => Sys2Proof.Machine.execChipResetWrite s
  | .powerOnReset => Sys2Proof.Machine.execPowerOnReset s
  | .hbmFillDone failed => Sys2Proof.Machine.execHbmFillDone failed s
  | .coreRelease => Sys2Proof.Machine.execCoreRelease s
  | .ashpitRelease => Sys2Proof.Machine.execAshpitRelease s
  | .flr => Sys2Proof.Machine.execFlr s
  | .pcieLinkDown => Sys2Proof.Machine.execPcieLinkDown s
  | .pcieLinkUp width speed flit both => Sys2Proof.Machine.execPcieLinkUp width speed flit both s
  | .completionTimeout tag off len refused => Sys2Proof.Machine.execCompletionTimeout tag off len refused s
  | .msixSend vector => Sys2Proof.Machine.execMsixSend vector s
  | .railOutOfTolerance rail high => Sys2Proof.Machine.execRailOutOfTolerance rail high s
  | .pllUnlock pll => Sys2Proof.Machine.execPllUnlock pll s
  | .refclkLoss => Sys2Proof.Machine.execRefclkLoss s
  | .avsStep up ack => Sys2Proof.Machine.execAvsStep up ack s
  | .tempThreshold celsius => Sys2Proof.Machine.execTempThreshold celsius s
  | .cdcTimeout crossing => Sys2Proof.Machine.execCdcTimeout crossing s
  | .cdcResync crossing words => Sys2Proof.Machine.execCdcResync crossing words s
  | .companionLoss tx => Sys2Proof.Machine.execCompanionLoss tx s
  | .probePulse tx => Sys2Proof.Machine.execProbePulse tx s
  | .transmitterOn tx => Sys2Proof.Machine.execTransmitterOn tx s
  | .clampTrip tx => Sys2Proof.Machine.execClampTrip tx s
  | .flueFault flue => Sys2Proof.Machine.execFlueFault flue s
  | .laneSignalLoss lane => Sys2Proof.Machine.execLaneSignalLoss lane s
  | .chimneyBlockReceive port sync payload => Sys2Proof.Machine.execChimneyBlockReceive port sync payload s
  | .tpBlockLock port locked signal => Sys2Proof.Machine.execTpBlockLock port locked signal s
  | .prbs31Check lane bits => Sys2Proof.Machine.execPrbs31Check lane bits s
  | .loaderPassEnd => Sys2Proof.Machine.execLoaderPassEnd s
  | .dmaComplete tag => Sys2Proof.Machine.execDmaComplete tag s
  | .fireboxRequestDone => Sys2Proof.Machine.execFireboxRequestDone s
  | .railReturn rail => Sys2Proof.Machine.execRailReturn rail s
  | .pllRelock pll => Sys2Proof.Machine.execPllRelock pll s
  | .refclkReturn => Sys2Proof.Machine.execRefclkReturn s
  | .hotRefresh stack celsius => Sys2Proof.Machine.execHotRefresh stack celsius s
  | .companionPresent tx => Sys2Proof.Machine.execCompanionPresent tx s
  | .bar2Resize log2GiB => Sys2Proof.Machine.execBar2Resize log2GiB s
  | .extest instr => Sys2Proof.Machine.execExtest instr s

end Sys2Proof.Machine
end

