-- ==== Sys2Proof/Safety.lean ====
section
/-!
DEFINITION. What counts as a safe run, the canonical form of the stores, and the words in which statements say what a command
leaves unchanged.
-/
namespace Sys2Proof

/-- A step answers a next state. -/
def Completes (s : Machine.State) : Prop := ∃ t, Machine.step s = .next t

/-- Every one of the first n steps answers a next state. -/
def RunsFor : Nat → Machine.State → Prop
  | 0, _ => True
  | n + 1, s => ∃ t, Machine.step s = .next t ∧ RunsFor n t

namespace Machine

/-- The register store is in canonical form: offsets strictly rising, and no word listed that holds its reset value. -/
def State.RegsWf (s : State) : Prop := mwf (resetWord s.part) s.regs

/-- Every byte-addressed store of the device and the register store are in canonical form. -/
def State.Canon (s : State) : Prop :=
  s.RegsWf ∧ mwf (fun _ => 0) s.mem.hbm ∧ mwf (fun _ => 0) s.mem.check ∧ mwf (fun _ => 0) s.hostMem

/-- The components of State. -/
inductive Comp where
  | part | pending | frc | cyc | hcyc | regs | hiCap | readData | readUr | readRetry | bar2Data | bar2Ep | setNow | incNow | freeIx
  | hostMem | mem | ing | stk | flt | sec | pcie | pwr | trg | pools | chm | tim | zl | hearth
  deriving DecidableEq, Repr

/-- A component is the same in two states. -/
def Comp.same (s t : State) : Comp → Prop
  | .part => t.part = s.part
  | .pending => t.pending = s.pending
  | .frc => t.frc = s.frc
  | .cyc => t.cyc = s.cyc
  | .hcyc => t.hcyc = s.hcyc
  | .regs => t.regs = s.regs
  | .hiCap => t.hiCap = s.hiCap
  | .readData => t.readData = s.readData
  | .readUr => t.readUr = s.readUr
  | .readRetry => t.readRetry = s.readRetry
  | .bar2Data => t.bar2Data = s.bar2Data
  | .bar2Ep => t.bar2Ep = s.bar2Ep
  | .setNow => t.setNow = s.setNow
  | .incNow => t.incNow = s.incNow
  | .freeIx => t.freeIx = s.freeIx
  | .hostMem => t.hostMem = s.hostMem
  | .mem => t.mem = s.mem
  | .ing => t.ing = s.ing
  | .stk => t.stk = s.stk
  | .flt => t.flt = s.flt
  | .sec => t.sec = s.sec
  | .pcie => t.pcie = s.pcie
  | .pwr => t.pwr = s.pwr
  | .trg => t.trg = s.trg
  | .pools => t.pools = s.pools
  | .chm => t.chm = s.chm
  | .tim => t.tim = s.tim
  | .zl => t.zl = s.zl
  | .hearth => t.hearth = s.hearth

/-- Nothing but the components named has changed. -/
def Frame (touched : List Comp) (s t : State) : Prop := ∀ c, c ∉ touched → c.same s t

/-- No register word but those at the offsets named has changed. -/
def WordsKept (offs : List Nat) (s t : State) : Prop := ∀ off, off ∉ offs → t.word off = s.word off

/-- A register access of the host reaches the registers: VDD_IO does not hold the chip in reset, the function is not in D3hot, and the
crossing to the core works (R427, R444, R461). -/
def HostReaches (s : State) : Prop := s.pwr.ioLow = false ∧ s.pcie.asleep = false ∧ s.pcieDead = false

/-- The completion entry of a descriptor in flight (R306). -/
def Fly.entry (f : Fly) (status tick result : Nat) : Entry :=
  ⟨0, f.tag, status, f.sq, tick, result, List.replicate 32 0, dIrq f.bytes, some f.tag, 0⟩

/-- Between two states the descriptor in flight has ended with a status and a result: its entry was handed to its queue. -/
def Ended (f : Fly) (status result : Nat) (s t : State) : Prop :=
  (t.cq (dCq f.bytes)).held = (s.cq (dCq f.bytes)).held ++ [f.entry status s.tick result]

/-- A descriptor is in flight with a tag, has not ended, owes its queue an entry, and is not QUIET. -/
def Runs (s : State) (tag : Nat) (f : Fly) : Prop :=
  s.fly tag = some f ∧ f.ended = false ∧ f.orphan = false ∧ dQuiet f.bytes = false

/-- One of an opcode that has not begun. -/
def Waits (s : State) (tag op : Nat) (f : Fly) : Prop := Runs s tag f ∧ dOp f.bytes = op ∧ f.begun = false

end Machine

end Sys2Proof
end

