-- ==== Sys2Proof/Certificates/Slice0/Obligations.lean ====
section
/-!
DEFINITION. The statements for the provers. Each says what a command or the machine does, by the rules of spec/; a statement that
names a log entry rests on the model's own choice there.
-/
open Sys2Proof Sys2Proof.Machine

/-! ### The machine as a whole -/

/-- A step runs the command at the front of the queue. For every command c, queue rest cs and state s, a step of s with c at the
front of its queue is exec of c on s with the queue's rest. -/
def Obligations.StepRunsFrontCommand : Prop :=
  ∀ (c : Instr) (cs : List Instr) (s : State), step { s with pending := c :: cs } = exec c { s with pending := cs }

/-- On an empty queue one core cycle passes. From every state with an empty queue in which VDD_CORE has not been below its
tolerance for longer than 10 µs the step answers a next state: FRC has counted one cycle if the core is released and stands
still if not, the running cycles of the Hearth count one cycle if the Hearth runs and none if it is halted, and the queue and
the part are as they were. After such an undervoltage the step is a power-on reset. That an empty queue is a cycle is the
model's choice (log entry 8). -/
def Obligations.EmptyQueueStepPassesOneCycle : Prop :=
  ∀ s : State, s.pending = [] →
    (s.coreLost = false → ∃ t, step s = .next t ∧ t.pending = [] ∧ t.part = s.part ∧ t.cyc = s.cyc + 1 ∧
      t.frc = (if s.pwr.released then s.frc + 1 else s.frc) ∧ t.hcyc = (if s.running then s.hcyc + 1 else s.hcyc)) ∧
    (s.coreLost = true → step s = .next s.powerOn)

/-- What core release leaves, with every store in canonical form. In State.reset the register store and the byte stores of HBM,
of its check symbols and of host memory are in canonical form, FRC reads 0, no command waits, the Hearth is halted and does
not run, no image is loaded, the fill is done, and every register word but RAILS, PLL_STATUS and MEM.STATUS holds its reset
value. That the model starts at core release is its choice (log entry 13). -/
def Obligations.ResetState : Prop :=
  State.reset.Canon ∧ State.reset.frc = 0 ∧ State.reset.pending = [] ∧ State.reset.getF glbImgState_Halted = 1 ∧ State.reset.running = false ∧
    State.reset.hearth.img = none ∧ State.reset.getF memStatus_InitDone = 1 ∧
    ∀ off, off ∉ [pwrRails, pwrPllStatus, memStatus] → State.reset.word off = resetWord State.reset.part off

/-- Every step keeps the stores in canonical form. From every state whose register store and byte stores are in canonical form,
whatever command stands in front, a step leads to a state whose stores are in canonical form. -/
def Obligations.StepKeepsCanon : Prop :=
  ∀ s t : State, s.Canon → step s = .next t → t.Canon

/-- No step changes the part, and a step takes one command from the queue. For every state, whatever command stands in front:
when the step answers a next state, grade, stepping, fuse map and the fused Damper constants are those of before, and the
queue is the rest of the queue. -/
def Obligations.StepKeepsPartAndQueue : Prop :=
  ∀ s t : State, step s = .next t → t.part = s.part ∧ t.pending = s.pending.tail

/-- No command takes back a programmed fuse. For every state and whatever command stands in front: after the step the vendor key
is off if it was, the owner key is set if it was and holds the same value, every leaf-block mark that was set is set, and
FW_SVN is not smaller. -/
def Obligations.OtpOnlyGrows : Prop :=
  ∀ s t : State, step s = .next t →
    (s.sec.vendorOff = true → t.sec.vendorOff = true) ∧
    (s.sec.ownerSet = true → t.sec.ownerSet = true ∧ t.sec.ownerHash = s.sec.ownerHash) ∧
    (∀ b, b < 1024 → s.sec.leafBlocks.getLsbD b = true → t.sec.leafBlocks.getLsbD b = true) ∧
    s.sec.fwSvn ≤ t.sec.fwSvn ∧ t.sec.vendorHash = s.sec.vendorHash

/-! ### Register accesses (R12 to R18, R435, R437) -/

/-- A BAR0 request of a wrong size, or at an offset of a gap, has no effect on registers. The host's accesses reach the function.
For every offset and size that R435 does not accept: a read answers with Unsupported Request, a write is discarded, both set
GLB.PCIE_STATUS.BAD_ACCESS, and no other register word and no other component of the state changes, but that the read's error
shows in AER (the place of AER's registers is the model's, log entry 100). With the crossing alive, a 4-byte read at an
aligned offset outside every register map, wherever it lies in BAR0 or beyond it, answers 0 without Unsupported Request and
changes nothing else; and a write at such an offset below the FAB and HRT windows, that is below 0x80_0000, changes nothing. -/
def Obligations.AccessesThatReachNoRegister : Prop :=
  (∀ (s : State) (off size : Nat) (v : W64), s.pwr.ioLow = false → s.pcie.asleep = false →
      ¬ ((size = 4 ∧ off % 4 = 0) ∨ (size = 8 ∧ off % 8 = 0)) →
    (∃ t, exec (.rcCounterRead .bar0 off size) s = .next t ∧ t.readUr = true ∧ t.getF glbPcieStatus_BadAccess = 1 ∧
      t.pcie = s.pcie.aer 20 ∧ WordsKept [glbPcieStatus] s t ∧ Frame [.regs, .setNow, .readData, .readUr, .readRetry, .pcie] s t) ∧
    (∃ t, exec (.registerWrite .bar0 off size v) s = .next t ∧ t.getF glbPcieStatus_BadAccess = 1 ∧
      WordsKept [glbPcieStatus] s t ∧ Frame [.regs, .setNow] s t)) ∧
  (∀ (s : State) (off : Nat) (v : W64), off % 4 = 0 → HostReaches s → s.decodes off = true → findRow (regRowsAt off) off = none →
    (∃ t, exec (.rcCounterRead .bar0 off 4) s = .next t ∧ t.readData = 0 ∧ t.readUr = false ∧
      Frame [.readData, .readUr, .readRetry] s t) ∧
    (off < 0x800000 → exec (.registerWrite .bar0 off 4 v) s = .next s))

/-- A field write under a condition stores, is refused, or changes nothing. PWR.SLEW.STEP may be written with 16 to 34. A 4-byte
write of such a value stores it; a write of another value leaves the field as it was and sets PWR.STATUS.WR_REFUSED, unless
it is the value that the field holds, which is not refused. No other register word and no other component changes. -/
def Obligations.SlewWrite : Prop :=
  ∀ (s : State) (v : W64), HostReaches s → s.pwr.released = true → ∃ t, exec (.registerWrite .bar0 pwrSlew 4 v) s = .next t ∧
    (16 ≤ bitsAt v.toNat 0 6 ∧ bitsAt v.toNat 0 6 ≤ 34 → t.getF pwrSlew_Step = bitsAt v.toNat 0 6 ∧ WordsKept [pwrSlew] s t) ∧
    (¬ (16 ≤ bitsAt v.toNat 0 6 ∧ bitsAt v.toNat 0 6 ≤ 34) → t.getF pwrSlew_Step = s.getF pwrSlew_Step ∧
      (s.getF pwrSlew_Step ≠ bitsAt v.toNat 0 6 → t.getF pwrStatus_WrRefused = 1 ∧ WordsKept [pwrStatus] s t) ∧
      (s.getF pwrSlew_Step = bitsAt v.toNat 0 6 → WordsKept [] s t)) ∧
    Frame [.regs, .setNow] s t

/-- An RC counter that increments in the cycle of a read keeps the increment. For every RC counter of the register maps, 32 or 64
bits wide, that has not counted yet in this cycle: when it increments and is then read whole, the read returns the value that
it had before the increment, and the counter holds 1. Only the counter's own words, the read response, and the records of
increments and captured high words change. -/
def Obligations.RcReadKeepsTheIncrement : Prop :=
  ∀ (s : State) (off : Nat) (r : RegRow) (f : FieldRow), findRow (regRowsAt off) off = some (r, 0) → rcFields r = [f] →
    (r.bytes = 4 ∧ f.lsb + f.width ≤ 32 ∨ r.bytes = 8 ∧ f.lsb + f.width ≤ 64) → 0 < f.width → off % r.bytes = 0 →
    off ∉ [timNowTime 0, pwrAvs] → (∀ t, t < 34 → off ≠ optTxPower t) → HostReaches s → s.decodes off = true →
    mget (fun _ => (0, 0)) s.incNow off = (0, 0) →
    ∃ t, exec (.rcCounterRead .bar0 off r.bytes) (s.bump ⟨off, f.lsb, f.width⟩ 1) = .next t ∧
      t.readData = BitVec.ofNat 64 (s.getF ⟨off, f.lsb, f.width⟩) ∧ t.readUr = false ∧ t.getF ⟨off, f.lsb, f.width⟩ = 1 ∧
      WordsKept [off, off + 4] s t ∧ Frame [.regs, .incNow, .hiCap, .readData, .readUr, .readRetry] s t

/-- A W1C bit that the device sets in the cycle of its clearing write ends the cycle set. For STATUS bits of PWR, TIM, ING, TRG,
CHM, ZL, MEM and OPT that are W1C: a write of 1 clears the bit if the device has not set it in this cycle, and leaves it set
if it has; a write of 0 leaves it. The write changes no word outside its register and no other component. -/
def Obligations.W1cBitSetInThisCycleStays : Prop :=
  ∀ (s : State) (v : W32) (f : Fld), f ∈ [pwrStatus_WrRefused, timStatus_WrRefused, ingStatus_WrRefused,
      ingStatus_AlignViolation, trgStatus_WrRefused, chmStatus_WrRefused, zlStatus_WrRefused, memStatus_WrRefused,
      optStatus_WrRefused] → HostReaches s → s.pwr.released = true →
    ∃ t, exec (.w1cStatusWrite f.off v) s = .next t ∧
      (v.toNat.testBit f.lsb = true → (mget (fun _ => 0) s.setNow f.off).toNat.testBit f.lsb = false → t.getF f = 0) ∧
      (v.toNat.testBit f.lsb = true → (mget (fun _ => 0) s.setNow f.off).toNat.testBit f.lsb = true → t.getF f = s.getF f) ∧
      (v.toNat.testBit f.lsb = false → t.getF f = s.getF f) ∧ WordsKept [f.off] s t ∧ Frame [.regs] s t

/-- A read of the low word captures the high word. For a 64-bit register without RC fields whose reads sample nothing: a 4-byte
read of the low word answers it and captures the high word of the same cycle; a read of the high word answers the captured
value once, and the live value when nothing is captured. No register word changes. -/
def Obligations.PairReadCapturesTheHighWord : Prop :=
  ∀ (s : State) (off : Nat) (r : RegRow), findRow (regRowsAt off) off = some (r, 0) →
    findRow (regRowsAt (off + 4)) (off + 4) = some (r, 1) → rcFields r = [] → r.bytes = 8 → off % 8 = 0 →
    (∀ o, o = off ∨ o = off + 4 → o ∉ [timNowTime 0, pwrAvs] ∧ ∀ t, t < 34 → o ≠ optTxPower t) →
    HostReaches s → s.decodes off = true → s.decodes (off + 4) = true →
    (∃ t, exec (.pairLowWordRead off) s = .next t ∧ t.readData = (0 : W32) ++ s.view off ∧ t.readUr = false ∧
      mget (fun _ => none) t.hiCap (off + 4) = some (s.view (off + 4)) ∧ Frame [.hiCap, .readData, .readUr, .readRetry] s t) ∧
    (∃ t, exec (.rcCounterRead .bar0 (off + 4) 4) s = .next t ∧ t.readUr = false ∧
      (∀ x, mget (fun _ => none) s.hiCap (off + 4) = some x →
        t.readData = (0 : W32) ++ x ∧ mget (fun _ => none) t.hiCap (off + 4) = none) ∧
      (mget (fun _ => none) s.hiCap (off + 4) = none → t.readData = (0 : W32) ++ s.view (off + 4)) ∧
      Frame [.hiCap, .readData, .readUr, .readRetry] s t)

/-! ### Ingest (R38 to R75) -/

/-- A block of a lane in tick lock goes to its place. A listening lane that is not in the serial loop holds block lock and tick
lock, and a block with a data sync header that keeps block lock arrives. In a data position its descrambled payload becomes
the block's bits of the newest lane tick, the CRC16 takes it, the position moves on and no register word but the lane's
STATUS changes. In position 0, whatever sync header it carries, a block that qualifies and whose TICK is due passes: the
failure count is 0, the TICK is kept, a new lane tick begins, and ARRIVAL is the saturated number of cycles from the start of
its device tick, keyed under the OFFSET of the lane's channel. -/
def Obligations.LaneBlocksUnderTickLock : Prop :=
  ∀ (s : State) (l : Nat) (raw : W64), s.laneListens l = true → s.getF (ingLaneCtrl_Loop l) ≠ 1 →
    s.flag (ingLaneStatus_BlockLock l) = true → s.flag (ingLaneStatus_TickLock l) = true →
    let x := s.lane l
    let p := ofBitsLsb (descramble x.hist (bitsLsb 64 raw.toNat)).1
    ((blockLock true true x.good x.winCnt x.winBad).2.2.2 = true →
      (x.pos ≠ 0 → ∀ h b, x.buf = h :: b → ∃ t, exec (.dataBlock l 1 raw) s = .next t ∧
        (t.lane l).buf = { h with data := BitVec.ofNat 2496 (putBits h.data.toNat (64 * (x.pos - 1)) 64 p) } :: b ∧
        (t.lane l).crc = crcBits 16 0x1021 x.crc (bitsLsb 64 p) ∧ (t.lane l).pos = (x.pos + 1) % 40 ∧
        WordsKept [ingLaneStatus l] s t ∧ Frame [.regs, .ing] s t) ∧
      (x.pos = 0 → s.hdrQualifies l 2 p = true → hdrTick p = (x.lastTick + x.since + 1) % 2 ^ 24 →
        ∃ t, exec (.laneTickHeader l 2 raw) s = .next t ∧ (t.lane l).fails = 0 ∧ (t.lane l).since = 0 ∧
          (t.lane l).lastTick = hdrTick p ∧ (t.lane l).pos = 1 ∧
          ((t.lane l).buf.head?.map LaneTick.dev) = some (s.devTick (s.laneOffset l) (hdrTick p)) ∧ (t.lane l).offset = s.laneOffset l ∧
          t.getF (ingLaneStatus_Arrival l) =
            unsint 10 (clampInt (-512) 511 (sint 64 (s.frc.toNat + 2 ^ 64 - 64 * s.devTick (s.laneOffset l) (hdrTick p)))) ∧
          t.getF (ingLaneHdrObs_Tick l) = hdrTick p ∧ t.getF (ingLaneHdrObs_Status l) = hdrStatus p ∧
          Frame [.regs, .setNow, .incNow, .ing] s t))

/-- The CRC verdict, the loss of light and the PRBS checker act on their lane alone. A verdict that is due is entered in its lane
tick and leaves the lane, and counts in CRC_ERR only on a mismatch of an enabled lane. Loss of light clears SIGNAL; outside
the near-end serial loop, whose receiver does not use the light, it clears block lock and tick lock, and a lane that held a
lock counts one more loss, while in that loop nothing else changes. PRBS31 bits move an enabled checker: the received ones
where no loop is inside the device, and the ones of the lane's running generator in the two near-end loops. -/
def Obligations.LaneVerdictsAndSignalLoss : Prop :=
  (∀ (s : State) (l : Nat) (dev due : Nat) (ok : Bool), l < 256 → (s.lane l).verdict = some (dev, ok, due) → due ≤ s.cyc →
    ∃ t, exec (.crc16Verdict l) s = .next t ∧ (t.lane l).verdict = none ∧ (t.lane l).buf = ((s.lane l).judge dev ok).buf ∧
      (ok = false → s.flag (ingLaneCtrl_En l) = true →
        t.getF (ingLaneCrcErrF l) = satAdd (ingLaneCrcErrF l).width (s.getF (ingLaneCrcErrF l)) 1) ∧
      (ok = true → Frame [.ing] s t) ∧ Frame [.regs, .incNow, .ing] s t ∧ WordsKept [(ingLaneCrcErrF l).off] s t) ∧
  (∀ (s : State) (l : Nat), l < 256 → ∃ t, exec (.laneSignalLoss l) s = .next t ∧ t.getF (ingLaneStatus_Signal l) = 0 ∧
      (s.getF (ingLaneCtrl_Loop l) = 1 → t.ing = s.ing ∧ t.flag (ingLaneStatus_BlockLock l) = s.flag (ingLaneStatus_BlockLock l) ∧
        t.flag (ingLaneStatus_TickLock l) = s.flag (ingLaneStatus_TickLock l)) ∧
      (s.getF (ingLaneCtrl_Loop l) ≠ 1 → t.getF (ingLaneStatus_BlockLock l) = 0 ∧ t.getF (ingLaneStatus_TickLock l) = 0 ∧
        (s.flag (ingLaneStatus_BlockLock l) = true ∨ s.flag (ingLaneStatus_TickLock l) = true → (t.lane l).losses = (s.lane l).losses + 1)) ∧
      WordsKept [ingLaneStatus l, (ingLaneLockLossF l).off] s t ∧ Frame [.regs, .incNow, .ing] s t) ∧
  (∀ (s : State) (l : Nat) (bs : List Bool), l < 256 → s.flag (ingLaneCtrl_PrbsChk l) = true →
    s.flag (ingLaneCtrl_En l) = true →
    let near := s.getF (ingLaneCtrl_Loop l) = 1 ∨ s.getF (ingLaneCtrl_Loop l) = 2
    let g := mget (fun _ => 0) s.ing.gens l
    (near → s.flag (ingLaneCtrl_PrbsGen l) = true ∧ g ≠ 0) →
    let r := prbsBits (s.lane l).prbs (s.flag (ingLaneStatus_PrbsLock l)) (if near then (prbsGen bs.length g).1 else bs)
    ∃ t, exec (.prbs31Check l bs) s = .next t ∧ (t.lane l).prbs = r.1 ∧ t.getF (ingLaneStatus_PrbsLock l) = b2n r.2.1 ∧
      t.getF (ingLanePrbsErr_Count l) = satAdd 48 (s.getF (ingLanePrbsErr_Count l)) r.2.2.1 ∧
      t.getF (ingLanePrbsBits_Count l) = satAdd 48 (s.getF (ingLanePrbsBits_Count l)) r.2.2.2 ∧
      (near → mget (fun _ => 0) t.ing.gens l = (prbsGen bs.length g).2) ∧
      Frame [.regs, .incNow, .ing] s t)

/-- Writes of ING registers and replay reads. A write of GRP_EN stores the fibre bits, and they wait for a release tick exactly
when they differ from those in force. A write of REPLAY_CTRL with EN = 1 is refused when TICKS is 0, and, where EN was 0,
when START is less than 16 ticks ahead or FIRST is not below TICKS; it stores its fields otherwise, as clearing EN always
does. SNAP_GO starts a snapshot from the next release tick if none runs. CLR_CNT sets every lane and channel counter and
REPLAY_STAT to 0 and changes no other word. A replay record that a release tick at most 8 ticks ahead needs is read and held
for that tick. -/
def Obligations.IngestRegisterCommands : Prop :=
  (∀ (s : State) (v : W32), ∃ t, exec (.grpEnWrite v) s = .next t ∧ t.getF ingGrpEn_FibEn = v.toNat ∧
    t.ing = { s.ing with grpPending := s.ing.grp != v } ∧ WordsKept [ingGrpEn] s t ∧ Frame [.regs, .ing] s t) ∧
  (∀ (s : State) (v : W32),
    let n := bitsAt v.toNat 0 24
    let bad := v.toNat.testBit 31 = true ∧ (n = 0 ∨ (s.flag ingReplayCtrl_En = false ∧
      (s.getF ingReplayStart_Start < s.tick + 16 ∨ n ≤ s.getF ingReplayFirst_First)))
    ∃ t, exec (.replayCtrlWrite v) s = .next t ∧
      (bad → t.getF ingStatus_WrRefused = 1 ∧ WordsKept [ingStatus] s t ∧ Frame [.regs, .setNow] s t) ∧
      (¬ bad → t.getF ingReplayCtrl_En = b2n (v.toNat.testBit 31) ∧ t.getF ingReplayCtrl_Loop = b2n (v.toNat.testBit 30) ∧
        t.getF ingReplayCtrl_Ticks = n ∧ WordsKept [ingReplayCtrl] s t ∧ Frame [.regs, .ing] s t)) ∧
  (∀ s : State, s.flag ingStatus_SnapBusy = false → 0 < s.getF ingSnapCtrl_Ticks → ∃ t, exec .snapGo s = .next t ∧
    t.ing = { s.ing with snapLeft := s.getF ingSnapCtrl_Ticks, snapIdx := 0, snapFrom := 0, snapCyc := s.cyc + 1, snapTag := none } ∧
    t.getF ingStatus_SnapBusy = 1 ∧ t.getF ingSnapStat_Written = 0 ∧ Frame [.regs, .ing] s t) ∧
  (∀ s : State, ∃ t, exec .clrCntIng s = .next t ∧ WordsKept ingCounters s t ∧
    (∀ off, off ∈ ingCounters → t.word off = resetWord s.part off) ∧ Frame [.regs, .incNow] s t) ∧
  (∀ (s : State) (rec l r : Nat), l < 256 → s.replayNext rec l = some r →
    r ≤ s.tick + 8 ∧ s.replayAt r = some rec ∧
    ∃ t, exec (.replayRead rec l) s = .next t ∧ (∃ x ∈ t.ing.replay, x.tick = r ∧ x.record = rec ∧ x.lane = l) ∧
      Frame [.regs, .setNow, .incNow, .mem, .pools, .ing, .flt] s t)

/-- The release tick presents its words once, at cycle 0. In cycle 0 of a tick after CTRL.EN was set, and not yet released, the
words of the channels of the loaded hot image (of all enabled channels where there is none) in ascending channel number
become the stream of the tick, taken from the lane ticks of the device tick the delay names, the maps of the last 16 ticks
take the new pair, and the tick is recorded. Nothing of the Hearth changes. -/
def Obligations.ReleaseTickRunsOncePerTick : Prop :=
  ∀ s : State, s.flag ingCtrl_En = true → s.ing.enFrom ≤ s.cyc → s.ing.relCyc ≠ s.cyc + 1 → s.cycle = 0 →
    s.ing.grpPending = false → s.replayAt s.tick = none → ¬ (s.ing.zeroFrom ≤ s.tick ∧ s.tick < s.ing.zeroTo) →
    ∃ t, exec .ingestReleaseTick s = .next t ∧ t.ing.relTick = s.tick ∧ t.ing.relCyc = s.cyc + 1 ∧
      t.ing.stream = s.streamChans.flatMap (fun c => s.chanWords c ((s.chanLanes c).map (fun l => s.liveOut l s.relDev))) ∧
      (∃ m, t.ing.maps = (m :: s.ing.maps).take 16 ∧ m.1 = s.tick) ∧ t.hearth = s.hearth

/-! ### Compute units (R76 to R101) -/

/-- MAC8, MAC4, OMAC8, OMAC4, LDW and LDO issue in an active unit. In an active compute unit with no injection armed, each pass
command puts on its way, for the end of the fourth cycle after issue, the column sums of its activation slice with the tile
that WSEL names, in the mode of its name, with the side sums for OMAC8 and OMAC4 alone and the OR of the tags read, with
poison added where a lane word of the register file is uncorrectable; LDW of an even register puts a tile load on its way
that passes issued from the next cycle on use, and LDO a side-buffer load. Nothing else of the Hearth changes but
FAULT_INFO's record, and in a hot unit with a clean word nothing else at all; an LDW of an odd register counts ILLEGAL and
loads nothing. -/
def Obligations.MacSlotsIssue : Prop :=
  ∀ (s : State) (u a g c : Nat) (wsel : Bool) (e : WordErrs), s.cuOn u = true → s.flag fltInj_Armed = false →
    let x := s.unit u
    let bad : Tags := ⟨false, decide (0 < e.ue)⟩
    let act := ((x.vrBytes (a % 512)).drop (32 * (g % 16))).take 32
    let sid := ((x.vrBytes (a % 512)).drop (32 * ((g % 16 + 1) % 16))).take 16
    let tile := if wsel then x.tile1 else x.tile0
    let row : Int := ((act.map BitVec.toNat).sum : Nat)
    let tg := (bad.or (x.blkTags (a % 512) (g % 16 / 2))).or (if wsel then x.tileTags1 else x.tileTags0)
    let tgo := (tg.or (x.blkTags (a % 512) ((g % 16 + 1) % 16 / 2))).or x.sideTags
    let does (i : Instr) (f : Flight) : Prop := ∃ t, exec i s = .next t ∧ t.hearth.flights = s.hearth.flights ++ [f] ∧
      t.hearth.grates = s.hearth.grates ∧ t.hearth.edges = s.hearth.edges ∧ Frame [.regs, .setNow, .incNow, .flt, .hearth] s t ∧
      (s.unitMode u = 1 → e = .clean → t = { s with hearth := { s.hearth with flights := s.hearth.flights ++ [f] } })
    does (.mac8 u a g wsel c e) ⟨s.hcyc + 5, .mac u (c % 4) false false (passCols act tile false) row (List.replicate 64 0) tg⟩ ∧
    does (.mac4 u a g wsel c e) ⟨s.hcyc + 5, .mac u (c % 4) true false (passCols act tile true) row (List.replicate 64 0) tg⟩ ∧
    does (.omac8 u a g wsel c e) ⟨s.hcyc + 5, .mac u (c % 4) false true (passCols act tile false) row (passSide sid x.side) tgo⟩ ∧
    does (.omac4 u a g wsel c e) ⟨s.hcyc + 5, .mac u (c % 4) true true (passCols act tile true) row (passSide sid x.side) tgo⟩ ∧
    (a % 2 = 0 → does (.ldw u a wsel e) ⟨s.hcyc + 1, .tile u wsel
      (BitVec.ofNat 8192 (x.vrNat (a % 512) + 2 ^ 4096 * x.vrNat ((a + 1) % 512)))
      ((bad.or (x.vrTags (a % 512))).or (x.vrTags ((a + 1) % 512)))⟩) ∧
    (a % 2 = 1 → exec (.ldw u a wsel e) s = .next (s.bump (hrtIllegalF u) 1)) ∧
    does (.ldo u a e) ⟨s.hcyc + 1, .sideBuf u (BitVec.ofNat 4096 (x.vrNat (a % 512))) (bad.or (x.vrTags (a % 512)))⟩

/-- GEND, a vector instruction and a scalar operation issue. In an active unit with no injection armed: a listed GEND reads its
parameter pair, poisoned where a lane word of the register file is uncorrectable, and puts the taking of its set on its way;
a listed vector instruction with VEN set puts its V5 stage on its way, at the fixed delay of the stepping and V3PAD, with the
lanes and mask that the front stages form; one with VEN clear does nothing; a scalar operation with a result puts its write
on its way for the end of the cycle, and NOP nothing. Unlisted ones count ILLEGAL and issue nothing. -/
def Obligations.GendVectorScalarIssue : Prop :=
  ∀ (s : State) (u : Nat), s.cuOn u = true → s.flag fltInj_Armed = false →
    let x := s.unit u
    (∀ a g c z d e, (∃ t, exec (.gend u a g c z d e) s = .next t ∧
      (a ≠ 511 ∧ g ≤ 3 → t.hearth.flights = s.hearth.flights ++ [⟨s.hcyc + 5, .take u (g % 4) (c % 4) (z % 4) (d % 512)
        (s.bundleNow u) (BitVec.ofNat 4096 (x.vrNat (a % 512))) (BitVec.ofNat 4096 (x.vrNat ((a + 1) % 512)))
        (((⟨false, decide (0 < e.ue)⟩ : Tags).or (x.vrTags (a % 512))).or (x.vrTags ((a + 1) % 512)))⟩] ∧
        Frame [.regs, .setNow, .incNow, .flt, .hearth] s t) ∧
      (¬ (a ≠ 511 ∧ g ≤ 3) → t = s.bump (hrtIllegalF u) 1))) ∧
    (∀ (vec : BitVec 80) (ctrl : BitVec 16) (e : WordErrs), vecListed vec = true → bitsAt ctrl.toNat 0 10 = 0 →
      let f := Vec.ofBits vec
      let r := vecFront f (x.lanes f.srcA) (x.lanes f.srcB) (x.lanes f.srcC) x.scalar (x.permAt f.perm) (x.maskReg f.mask)
      ∃ t, exec (.vectorInstruction u vec ctrl e) s = .next t ∧
        (vec.toNat.testBit 79 = true → ∃ tg rq, (0 < e.ue → tg.poi = true) ∧ t.hearth.flights = s.hearth.flights ++
          [⟨s.hcyc + (s.v5Delay u + 1), .vfive u vec ctrl r.1 (x.maskReg f.mask) r.2 tg rq⟩] ∧
          Frame [.regs, .setNow, .incNow, .flt, .hearth] s t ∧ (s.unitMode u = 1 → e = .clean → Frame [.hearth] s t)) ∧
        (vec.toNat.testBit 79 = false → t = s)) ∧
    (∀ (vec : BitVec 80) (ctrl : BitVec 16) (e : WordErrs), (vecListed vec && bitsAt ctrl.toNat 0 10 == 0) = false →
      exec (.vectorInstruction u vec ctrl e) s = .next (s.bump (hrtIllegalF u) 1)) ∧
    (∀ sl : BitVec 24, ∃ t, exec (.scalarOperation u sl) s = .next t ∧
      (bitsAt sl.toNat 20 4 ≤ 13 → ∀ r v, s.scalarValue u sl.toNat = some (r, v) →
        t = { s with hearth := { s.hearth with flights := s.hearth.flights ++ [⟨s.hcyc + 1, .scal u r v⟩] } }) ∧
      (bitsAt sl.toNat 20 4 = 0 → t = s) ∧ (13 < bitsAt sl.toNat 20 4 → t = s.bump (hrtIllegalF u) 1))

/-- RECV takes the head, SEND reads its block. In an active hot unit with no injection armed: RECV on a queue whose head is no
MARK takes the head and puts its data, zeros for a VOID token, on the way to the block; RECV on an empty queue puts poisoned
zeros on the way and counts OVERRUN. SEND puts its block's token with the block's tags on the way to the output queue, and
one whose queue word is uncorrectable counts TBL_UE and is on its way as to a queue of depth 0. -/
def Obligations.RecvAndSendIssue : Prop :=
  ∀ (s : State) (u q v b : Nat), s.cuOn u = true → s.unitMode u = 1 → s.flag fltInj_Armed = false → q < 2 →
    (∀ k ks, ((s.grate u).queue q).toks = k :: ks → k.mark = false → ∃ t, exec (.recv u q v b) s = .next t ∧
      ((t.grate u).queue q).toks.length = ks.length ∧ t.hearth.flights = s.hearth.flights ++ [⟨s.hcyc + 2,
        if k.void then .recv u (v % 512) (b % 8) 0 Tags.clear
          else .recv u (v % 512) (b % 8) k.data ⟨k.suspect, k.poison⟩⟩] ∧ t.hearth.units = s.hearth.units) ∧
    (((s.grate u).queue q).toks = [] → ∃ t, exec (.recv u q v b) s = .next t ∧
      t.getF (hrtOverrunF u) = satAdd (hrtOverrunF u).width (s.getF (hrtOverrunF u)) 1 ∧
      t.hearth.flights = s.hearth.flights ++ [⟨s.hcyc + 2, .recv u (v % 512) (b % 8) 0 ⟨false, true⟩⟩]) ∧
    (∃ t, exec (.send u q v b .clean .uncorrectable) s = .next t ∧ t.getF (grTblUeF u) = satAdd (grTblUeF u).width (s.getF (grTblUeF u)) 1 ∧
      ∃ k, t.hearth.flights = s.hearth.flights ++ [⟨s.hcyc + 2, .send u (4 + q) (s.bundleNow u) q true k false⟩]) ∧
    (∃ t, exec (.send u q v b .clean .clean) s = .next t ∧ t = { s with hearth := { s.hearth with flights := s.hearth.flights ++
      [⟨s.hcyc + 2, .send u (4 + q) (s.bundleNow u) q false
        ⟨BitVec.ofNat 512 (((s.unit u).entry 1 (16 * (v % 512) + 2 * (b % 8))).toNat
            + 2 ^ 256 * ((s.unit u).entry 1 (16 * (v % 512) + 2 * (b % 8) + 1)).toNat),
          s.getF (hrtUnitCfg_Epoch u), 0, ((s.unit u).blkTags (v % 512) (b % 8)).poi,
          ((s.unit u).blkTags (v % 512) (b % 8)).sus, false, false, none⟩ false⟩] } })

/-- A pass adds into its set, and GEND zeroes the set it takes. When a pass lands, its accumulator set holds, in each of the 64
columns, the sum of what it held and the column sum, its row sum and pass count have grown, and the other sets are as they
were. That the sum stays exact for any number of passes is the model's choice beyond R80's bound (log entry 42). When GEND
takes a set, the set is as after reset, every other set is as it was, and the group results of the set's columns under the
parameter pair are on their way, 64 of them after passes in W4 and 32 else (of a set without a pass the model's choice, log
entry 84), with the tags of the pair and the set, and poisoned where the number of passes is not GSZ + 1 or their modes
differ. -/
def Obligations.PassLandsAndGendZeroes : Prop :=
  (∀ (s : State) (u a c : Nat) (w4 omac : Bool) (cols : List Int) (row : Int) (side : List Int) (tg : Tags), c < 64 →
    let t := s.land (.mac u a w4 omac cols row side tg)
    listGet 0 ((t.unit u).acc a).cols c = listGet 0 ((s.unit u).acc a).cols c + listGet 0 cols c ∧
    ((t.unit u).acc a).row = ((s.unit u).acc a).row + row ∧ ((t.unit u).acc a).passes = ((s.unit u).acc a).passes + 1 ∧
    (∀ b, b ≠ a → (t.unit u).acc b = (s.unit u).acc b) ∧ Frame [.hearth] s t) ∧
  (∀ (s : State) (u g a z d n : Nat) (p0 p1 : BitVec 4096) (tg : Tags),
    let t := s.land (.take u g a z d n p0 p1 tg)
    (t.unit u).acc a = Acc.init ∧ (∀ b, b ≠ a → (t.unit u).acc b = (s.unit u).acc b) ∧
    let x := (s.unit u).acc a
    let bad := decide (x.passes ≠ z + 1) || x.mixed
    t.hearth.flights = s.hearth.flights ++ [⟨s.hcyc + 7, .results u g d
      ((List.range (if x.mode4 = some true then 64 else 32)).map fun c =>
        BitVec.ofNat 32 (groupResult x (leBytes 512 p0.toNat) (leBytes 512 p1.toNat) c))
      { tg.or x.tags with poi := (tg.or x.tags).poi || bad }⟩])

/-- Hot and warm units issue their bundles. An active hot compute unit, with no injection armed, issues every slot of the listed
bundle that tick and cycle select; a bundle with an unlisted value is a NOP that counts ILLEGAL; a bundle from an
uncorrectable entry is a NOP that counts TP_UE and puts nothing on its way. A warm compute unit whose queues are ready, their
words not uncorrectable, issues its next bundle and moves on, after bundle PLEN to bundle 0 of the next step; one that the
Damper holds counts a stalled cycle and stays at its bundle. -/
def Obligations.BundlesIssue : Prop :=
  ∀ (s : State) (u : Nat) (chk : Checks), s.running = true → s.siteOn u = true → isMu u = false → s.flag fltInj_Armed = false →
    let b := (s.unit u).entry 0 (s.bundleNow u)
    let o := s.sendCheck u b chk
    (s.unitMode u = 1 → chk.tp = .clean → cuListed b = true → exec (.hotBundleIssue u chk) s = .next (o.2.cuIssue u b chk o.1)) ∧
    (s.unitMode u = 1 → chk.tp = .clean → cuListed b = false → exec (.hotBundleIssue u chk) s = .next (s.bump (hrtIllegalF u) 1)) ∧
    (s.unitMode u = 1 → chk.tp = .uncorrectable → ∃ t, exec (.hotBundleIssue u chk) s = .next t ∧
      t.getF (hrtTpUeF u) = satAdd (hrtTpUeF u).width (s.getF (hrtTpUeF u)) 1 ∧ t.hearth.flights = s.hearth.flights ∧
      Frame [.regs, .setNow, .incNow, .flt, .hearth] s t) ∧
    (s.unitMode u = 2 → (s.unit u).graphOn = true → (s.unit u).xfers = [] → s.damperHolds u = false → chk.tp = .clean →
      cuListed b = true → s.portsReady u b = true → o.1 = false → ∃ t, exec (.warmBundleIssue u chk) s = .next t ∧
        (t.unit u).bundle = (if s.getF (hrtUnitCfg_Plen u) ≤ (s.unit u).bundle then 0 else (s.unit u).bundle + 1) ∧
        (t.unit u).step = (if s.getF (hrtUnitCfg_Plen u) ≤ (s.unit u).bundle then (s.unit u).step + 1 else (s.unit u).step) ∧
        t.hearth.flights = (o.2.cuIssue u b chk false).hearth.flights) ∧
    (s.unitMode u = 2 → (s.unit u).graphOn = true → (s.unit u).xfers = [] → s.damperHolds u = true →
      ∃ t, exec (.warmBundleIssue u chk) s = .next t ∧
        t.getF (hrtStallCycF u) = satAdd (hrtStallCycF u).width (s.getF (hrtStallCycF u)) 1 ∧ t.hearth = s.hearth)

/-! ### Memory units, tables and statistics (R102 to R112, R183 to R193, R483, R488) -/

/-- A hot unit's read and write issue at their fixed times. In a hot memory unit, for an AG below 4 and a pattern below 8: a read
through a listed pattern reaches the banks of its line in the next cycle, and with STEP its counters move on; a read through
an unlisted pattern counts ILLEGAL and puts a poisoned token on its way to the output queue; where the output queue's word is
uncorrectable, the token of either is on its way as to a queue of depth 0. A write through a listed pattern takes the head of
its input queue and reaches its banks two cycles later with that token. -/
def Obligations.HotMemoryAccessesIssue : Prop :=
  ∀ (s : State) (u ag k : Nat) (step : Bool), s.muOn u 1 = true → ag < 4 → k < 8 →
    let x := s.unit u
    let p := x.pat ag k
    (p.listed = true → ∀ e tb oq, ∃ t, exec (.muRead u ag k step e tb oq) s = .next t ∧
      t.hearth.flights = s.hearth.flights ++
        [⟨s.hcyc + 1, .muRead u ag (p.line (x.ctrsOf ag k)) (s.bundleNow u) s.hcyc e tb (oq == .uncorrectable)⟩] ∧
      (t.unit u = if step then x.stepPat ag k (x.ctrsOf ag k) else x) ∧
      (oq = .clean → t.hearth.grates = s.hearth.grates ∧ Frame [.hearth] s t)) ∧
    (p.listed = false → ∀ e tb oq, ∃ t, exec (.muRead u ag k step e tb oq) s = .next t ∧
      t.getF (hrtIllegalF u) = satAdd (hrtIllegalF u).width (s.getF (hrtIllegalF u)) 1 ∧
      (∃ tok, tok.poison = true ∧ t.hearth.flights = s.hearth.flights ++
        [⟨s.hcyc + 6, .send u (4 + ag) (s.bundleNow u) ag (oq == .uncorrectable) tok false⟩]) ∧ t.hearth.units = s.hearth.units) ∧
    (p.listed = true → ∀ h hs, ((s.grate u).queue ag).toks = h :: hs → h.mark = false →
      ∃ t, exec (.muWrite u ag k step) s = .next t ∧ ((t.grate u).queue ag).toks.length = hs.length ∧
        (∃ n, t.hearth.flights = s.hearth.flights ++ [⟨s.hcyc + 2, .muWrite u ag (p.line (x.ctrsOf ag k)) n s.hcyc h⟩]) ∧
        (t.unit u = if step then x.stepPat ag k (x.ctrsOf ag k) else x))

/-- Bursts begin and end, the arbiter grants, and a buffered write drains. In a warm memory unit with no burst of an earlier
bundle and none of the AG, XFER through a listed pattern begins one with the blocks left of its row; a hot unit counts it
ILLEGAL. The arbiter, once in a cycle, grants the read of the AG at its pointer when the output queue has room, its word is
clean and the banks are free. A burst whose blocks have all landed is gone after XFER_COMPLETE. The oldest buffered
configuration write whose banks are free is written and leaves the buffer. -/
def Obligations.WarmBurstsAndGrants : Prop :=
  (∀ (s : State) (u ag k : Nat) (step store : Bool), s.muOn u 2 = true → ag < 4 → k < 8 → (s.unit u).xferFree ag = true →
    ((s.unit u).pat ag k).listed = true → ∃ t, exec (.muXfer u ag k step store) s = .next t ∧
      (t.unit u).xfers = (s.unit u).xfers ++ [⟨ag, store, (s.unit u).step, (s.unit u).bundle, (s.unit u).burst ag k⟩] ∧ t.hearth.flights = s.hearth.flights ∧ Frame [.hearth] s t) ∧
  (∀ (s : State) (u ag k : Nat) (step store : Bool), s.muOn u 1 = true →
    exec (.muXfer u ag k step store) s = .next (s.bump (hrtIllegalF u) 1)) ∧
  (∀ (s : State) (u k : Nat) (step : Bool) (ags : List (WordErrs × Bool)) (oq : List (Nat × Ecc)), s.muOn u 2 = true → (s.unit u).graphOn = true → (s.unit u).xfers = [] →
    s.damperHolds u = false →
    let b := ((s.unit u).bundleAt true (s.unit u).bundle).toNat
    let ag := (s.unit u).ptr
    muListed false b = true → (s.unit u).arbCyc ≠ s.cyc + 1 → ag < 4 → s.ask u b ag = .read k step → s.readRoom u ag = true →
    errAt oq ag = .clean → s.grantable u ag (.read k step) = true → ∃ t, exec (.muAccessGrant u ags oq) s = .next t ∧ (t.unit u).arbCyc = s.cyc + 1 ∧
      (t.unit u).granted.testBit ag = true) ∧
  (∀ (s : State) (u ag : Nat), s.xferEnded u ag = true → ∃ t, exec (.xferComplete u ag) s = .next t ∧
    (t.unit u).xfers = (s.unit u).xfers.filter (fun x => x.ag != ag) ∧ t.hearth.grates = s.hearth.grates ∧ Frame [.hearth] s t) ∧
  (∀ (s : State) (u i : Nat) (d : BitVec 256), s.siteOn u = true → isMu u = true →
    (s.unit u).cfgBuf.find? (fun e => s.pairFree u e.1) = some (i, d) → ∃ t, exec (.configBufferDrain u) s = .next t ∧
      (t.unit u).cfgBuf = dropFirst (fun e => s.pairFree u e.1) (s.unit u).cfgBuf ∧ (t.unit u).entry 1 i = d ∧ (t.grate u).cfgOut = (s.grate u).cfgOut - 1 ∧ Frame [.hearth] s t)

/-- Indirect access to unit and grate tables. With the Hearth halted, table debug unlocked and the entry in range, a unit's read
command puts the entry, as its readers see it, into the eight TBL_DATA words and a write command puts TBL_DATA into the
entry, but for a write of a CU's table 0 or 2 after which R191 or R192 would not hold, which is refused; a grate's commands
do the same with its piece, but for a write that would set a memory unit's mask bits in the slot table of a CU's grate, which
is refused. While the Hearth runs, with table debug locked, or for an entry that does not exist, a unit's two commands are
refused with UNIT_STATUS.WR_REFUSED of that unit's HRT window and a grate's two with STATUS.WR_REFUSED of that grate's FAB
window, and the tables keep their contents. -/
def Obligations.TablesReadAndWrite : Prop :=
  ∀ (s : State) (u : Nat), s.siteOn u = true →
    let tb := s.getF (hrtTblSel_Table u)
    let ix := s.getF (hrtTblAddr_Index u)
    (s.hrtTblOk u = true →
      (∃ t, exec (.hrtTblRead u .clean) s = .next t ∧ ((isMu u && tb == 1 && (((s.unit u).lineTags (2 * ix)).poi ||
          ((s.unit u).lineTags (2 * ix + 1)).poi)) = false → ∀ i, i < 8 → t.word (hrtTblData u 0 + 4 * i) =
          BitVec.ofNat 32 (bitsAt ((s.unit u).tblRead (isMu u) tb ix).toNat (32 * i) 32)) ∧ t.hearth = s.hearth) ∧
      (let d := s.data8 (hrtTblData u 0)
       let ok := ((s.unit u).tblWrite (isMu u) tb ix d).rqtOk (s.unitMode u == 2) (s.getF (hrtUnitCfg_Plen u))
       let bad := isMu u = false ∧ (tb = 2 ∧ rqBad d = true ∨ (tb = 0 ∨ tb = 2) ∧ ok = false)
       ∃ t, exec (.hrtTblWrite u) s = .next t ∧
         (¬ bad → (t.unit u).entry tb ix = d ∧ t.hearth.grates = s.hearth.grates ∧ Frame [.hearth] s t) ∧
         (bad → t.getF (hrtUnitStatus_WrRefused u) = 1 ∧ t.hearth = s.hearth ∧ Frame [.regs, .setNow] s t))) ∧
    (s.grTblOk u = true →
      (∃ t, exec (.grateTblRead u .clean) s = .next t ∧ (∀ i, i < 8 → t.word (grTblData u 0 + 4 * i) =
          BitVec.ofNat 32 (bitsAt (mget (fun _ => 0) (s.grate u).tab (s.grTblKey u)).toNat (32 * i) 32)) ∧ t.hearth = s.hearth) ∧
      (let d := s.data8 (grTblData u 0)
       let bad := s.getF ⟨grTblSel u, 0, 2⟩ = 0 ∧ isMu u = false ∧ slotSetsPorts d = true
       ∃ t, exec (.grateTblWrite u) s = .next t ∧
         (¬ bad → mget (fun _ => 0) (t.grate u).tab (s.grTblKey u) = d ∧ t.hearth.units = s.hearth.units ∧ Frame [.hearth] s t) ∧
         (bad → t.getF (grStatus_WrRefused u) = 1 ∧ t.hearth = s.hearth ∧ Frame [.regs, .setNow] s t))) ∧
    (s.hrtTblOk u = false → ∀ i ∈ [Instr.hrtTblRead u .clean, .hrtTblWrite u], ∃ t, exec i s = .next t ∧ t.hearth = s.hearth ∧
      t.getF (hrtUnitStatus_WrRefused u) = 1 ∧ WordsKept [hrtUnitStatus u] s t ∧ Frame [.regs, .setNow] s t) ∧
    (s.grTblOk u = false → ∀ i ∈ [Instr.grateTblRead u .clean, .grateTblWrite u], ∃ t, exec i s = .next t ∧ t.hearth = s.hearth ∧
      t.getF (grStatus_WrRefused u) = 1 ∧ WordsKept [grStatus u] s t ∧ Frame [.regs, .setNow] s t) ∧
    (s.running = true → s.hrtTblOk u = false ∧ s.grTblOk u = false)

/-- Statistics windows close, new scales come into force, and AMX_SEL captures. At cycle 56 of a tick not yet closed, an active
hot unit's 32 windows are empty and their closed statistics carry the tick. A warm unit's windows close when the bundle count
reaches the place of R184, with the step's number. The numbers of the windows of a table of fewer than 8 bundles are the
model's choice (log entry 90). At cycle 0 an active hot unit's waiting scales come into force, each as the scales of its
table entry, and an entry without one keeps its table entry. AMX_SEL captures of the entry it names the closed window, the
largest quarter in AMX_TENSOR, the quarters in AMX_Q, and the flags. -/
def Obligations.WindowsCloseAndScalesPublish : Prop :=
  (∀ (s : State) (u : Nat), s.cuOn u = true → s.unitMode u = 1 → s.cycle = 56 → (s.unit u).closedFor s.tick = false →
    ∃ t, exec (.hotWindowClose u) s = .next t ∧ (∀ i, i < 32 → ((t.unit u).rqt i).win = Win.empty ∧
      ((t.unit u).rqt i).closed.window = s.tick ∧ ((t.unit u).rqt i).closed.q = ((s.unit u).rqt i).win.q) ∧
      (t.unit u).closedFor s.tick = true ∧ Frame [.hearth] s t) ∧
  (∀ (s : State) (u k : Nat), s.cuOn u = true → s.unitMode u = 2 → (s.unit u).graphOn = true →
    let n := s.getF (hrtUnitCfg_Plen u)
    (s.unit u).step * (n + 1) + (s.unit u).bundle + 7 = n + k * (n + 1) → (s.unit u).closedFor k = false →
    ∃ t, exec (.warmWindowClose u) s = .next t ∧ (∀ i, i < 32 → ((t.unit u).rqt i).win = Win.empty ∧
      ((t.unit u).rqt i).closed.window = k) ∧ Frame [.hearth] s t) ∧
  (∀ (s : State) (u : Nat), s.cuOn u = true → s.unitMode u = 1 → s.cycle = 0 → ∃ t, exec (.scalePublish u) s = .next t ∧
    (∀ i, i < 32 → ((t.unit u).rqt i).next = none ∧
      (((s.unit u).rqt i).next = none → (t.unit u).entry 2 i = (s.unit u).entry 2 i) ∧
      (∀ sc, ((s.unit u).rqt i).next = some sc → (t.unit u).entry 2 i = rqSetScales ((s.unit u).entry 2 i) sc)) ∧ Frame [.hearth] s t) ∧
  (∀ (s : State) (u : Nat) (v : W32), s.siteOn u = true → isMu u = false →
    let c := ((s.unit u).rqt (bitsAt v.toNat 0 5)).closed
    c.q.length ≤ 4 → ∃ t, exec (.amxSelWrite u v) s = .next t ∧ t.getF (hrtAmxSel_Entry u) = bitsAt v.toNat 0 5 ∧
      t.getF (hrtAmxPeriod_Window u) = c.window % 2 ^ (hrtAmxPeriod_Window u).width ∧
      t.getF (hrtAmxTensor_Absmax u) = (c.q.foldl max 0) % 2 ^ (hrtAmxTensor_Absmax u).width ∧
      (∀ k, k < c.q.length → t.word (hrtAmxQ u k) = BitVec.ofNat 32 (listGet 0 c.q k)) ∧
      t.word (hrtAmxFlags u) = BitVec.ofNat 32 c.flags ∧ Frame [.regs] s t)

/-! ### The slot fabric and the configuration network (R113 to R146, R222, R223) -/

/-- A token on a mesh input crosses to the outputs of its entry. While the Hearth is halted nothing crosses. A relay grate passes
a token from its north input on to the south, present two cycles later. In an inner, programmed grate whose queues are empty
and whose one present token stands on mesh input i, with no error and no injection: the token is present no longer, each mesh
output of its mask has it on the way for two cycles later, and under a zero mask it is dropped and STRAY counts. A token
whose word 0 meets an uncorrectable code counts LINK_UE and goes on poisoned, with that word as received. -/
def Obligations.TokensCrossGrates : Prop :=
  (∀ (s : State) (g : Nat) (le : List (Nat × LinkErr)) (te : List (Nat × Ecc)), s.running = false → exec (.tokenCrossing g le te) s = .next s) ∧
  (∀ (s : State) (g : Nat) (k : Token) (le : List (Nat × LinkErr)) (te : List (Nat × Ecc)), s.running = true → g < 288 → s.relay g = true →
    s.hearth.present = [(g, 2, k)] → 12 ≤ g → ∃ t, exec (.tokenCrossing g le te) s = .next t ∧ t.hearth.present = [] ∧
      t.hearth.flights = s.hearth.flights ++ [⟨s.hcyc + 2, .arrive (g + 12) 2 k⟩] ∧ Frame [.hearth] s t) ∧
  (∀ (s : State) (g i : Nat) (k : Token), s.running = true → 12 ≤ g → g < 288 → columnOf g ≠ 0 → s.relay g = false →
    s.grMode g ≠ 0 → s.flag fltInj_Armed = false → s.hearth.present = [(g, i, k)] → i < 4 → k.mark = false →
    (∀ q, 4 ≤ q → q < 13 → ((s.grate g).queue q).toks = []) →
    let m := slotMask (s.grate g) g i (s.grEntry g 0)
    (m ≠ 0 → ∀ f : BitVec 528, ∃ t, exec (.tokenCrossing g [(i, ⟨[.uncorrectable], f⟩)] []) s = .next t ∧
      t.getF (grLinkUeF g) = satAdd (grLinkUeF g).width (s.getF (grLinkUeF g)) 1 ∧
      ∀ o n j, o < 11 → m.testBit o = true → s.dest g o = .mesh n j →
        (⟨s.hcyc + 2, .arrive n j { tokenOf (k.container ^^^ wrongBits [.uncorrectable] f) with poison := true, port := k.port }⟩ : Flight)
          ∈ t.hearth.flights) ∧
    ∃ t, exec (.tokenCrossing g [] []) s = .next t ∧ t.hearth.present = [] ∧
      (m ≠ 0 → ∀ o n j, o < 11 → m.testBit o = true → s.dest g o = .mesh n j →
        (⟨s.hcyc + 2, .arrive n j k⟩ : Flight) ∈ t.hearth.flights) ∧
      (m = 0 → t.hearth.flights = s.hearth.flights ∧
        t.getF (grStrayF g) = satAdd (grStrayF g).width (s.getF (grStrayF g)) 1))

/-- A steering unit that fires selects one of its data tokens. A steering unit with operation SELECT whose heads on SD0, SD1 and
SC carry one SEQ value, in a hot grate whose fire table has the bit of this cycle or in a warm grate that is ready: the
chosen data token, with the control token's suspect and poison marks added, is on its way to SO0, and the three queues have
lost their heads. A hot grate whose fire table has no bit fires nothing, and nor does a warm unit whose SO0 word is
uncorrectable, which counts TBL_UE. -/
def Obligations.SteeringFires : Prop :=
  (∀ (s : State) (g : Nat) (a b c : Token) (as bs cs : List Token), g < 300 → (s.grate g).steerOp = 1 →
    ((s.grate g).queue 8).toks = a :: as → ((s.grate g).queue 9).toks = b :: bs → ((s.grate g).queue 10).toks = c :: cs →
    a.seq = c.seq → b.seq = c.seq → s.flag fltInj_Armed = false →
    let pick := if c.data.toNat.testBit 0 then b else a
    let out : Token := { pick with suspect := pick.suspect || c.suspect, poison := pick.poison || c.poison, port := none }
    let fired (t : State) : Prop := t.hearth.flights = s.hearth.flights ++ [⟨s.hcyc + 2, .enqueue g 11 8 false out false⟩] ∧
      ((t.grate g).queue 8).toks.length = as.length ∧ ((t.grate g).queue 9).toks.length = bs.length ∧
      ((t.grate g).queue 10).toks.length = cs.length
    (s.running = true → s.relay g = false → s.grMode g = 1 → (s.grate g).fires (s.grEntry g 0) = true →
      ∃ t, exec (.steerFireHot g .clean []) s = .next t ∧ fired t) ∧
    (s.steerReady g = true → ∃ t, exec (.steerFireWarm g []) s = .next t ∧ fired t) ∧
    (s.steerReady g = true → ∃ t, exec (.steerFireWarm g [(0, .uncorrectable)]) s = .next t ∧
      t.getF (grTblUeF g) = satAdd (grTblUeF g).width (s.getF (grTblUeF g)) 1 ∧ t.hearth.flights = s.hearth.flights)) ∧
  (∀ (s : State) (g : Nat) (so : List (Nat × Ecc)), s.flag fltInj_Armed = false → (s.grate g).fires (s.grEntry g 0) = false →
    exec (.steerFireHot g .clean so) s = .next s)

/-- A credit that arrives raises its sender's counter, up to INIT_CREDIT. While the Hearth runs and a credit of sender k is due:
the credit is on its way no longer; below its limit the sender's counter is one higher, and at its limit the counter holds
and CREDIT_OVER counts. A sender with no credit due keeps its counter. -/
def Obligations.CreditsReturn : Prop :=
  (∀ (s : State) (k : Nat), s.running = true → s.hearth.credits.any (creditDue k s.hcyc) = true → (s.senderQ k).1.hold = none →
    ∃ t, exec (.creditReturn k) s = .next t ∧ t.hearth.credits = dropFirst (creditDue k s.hcyc) s.hearth.credits ∧
      ((s.senderQ k).1.credits < qwInit (s.senderQ k).2 → (t.senderQ k).1.credits = (s.senderQ k).1.credits + 1 ∧ Frame [.hearth] s t) ∧
      (¬ (s.senderQ k).1.credits < qwInit (s.senderQ k).2 → (t.senderQ k).1.credits = (s.senderQ k).1.credits ∧
        t.getF (grCreditOverF (senderSite k)) =
          satAdd (grCreditOverF (senderSite k)).width (s.getF (grCreditOverF (senderSite k))) 1)) ∧
  (∀ (s : State) (k : Nat), s.hearth.credits.any (creditDue k s.hcyc) = false → exec (.creditReturn k) s = .next s)

/-- Queue depths are sampled, recorded and cleared. With sampling enabled, at the sample cycle one more tick is sampled, and of
each selected queue the bin min(15, floor(16n/D)) of its histogram is one higher, saturating at 16 bits, while its other bins
are as they were, where n is the queue's occupancy, D its depth, and a first sample starts from zeros. After INTERVAL ticks
the histograms are cleared; a full ring counts QSAMP_DROP and writes no memory, and otherwise the 8 KiB record is written to
slot QSAMP_WR of the ring and QSAMP_WR moves on. The record holds the tick of its first sample, INTERVAL, the number of
queues and, 32 bytes to a queue, the bins. That an unfinished record goes on after EN was 0 is the model's choice (log entry
107). CLR_CNT sets every grate counter and QSAMP_DROP to their reset value and changes no other word. -/
def Obligations.QueueSamplingAndCounters : Prop :=
  (∀ s : State, s.flag fabQsampCtrl_En = true → s.cycle = s.getF fabQsampCtrl_Cycle → ∃ t, exec .qsampSample s = .next t ∧
    t.hearth.histTicks = s.hearth.histTicks + 1 ∧ t.hearth.hist.length = s.qsampSel.length ∧ t.hearth.grates = s.hearth.grates ∧
    (∀ k g q, s.qsampSel[k]? = some (g, q) →
      let old := if s.hearth.histTicks = 0 then List.replicate 16 0 else listGet (List.replicate 16 0) s.hearth.hist k
      let b := min 15 (16 * ((s.grate g).queue q).toks.length / s.qDepth g q)
      listGet [] t.hearth.hist k = listSet old b (min 65535 (listGet 0 old b + 1))) ∧
    Frame [.hearth] s t) ∧
  (∀ s : State, s.flag fabQsampCtrl_En = true → s.getF fabQsampCtrl_Interval ≤ s.hearth.histTicks → s.hearth.histTicks ≠ 0 →
    s.getF fabQsampRing_Records ≠ 0 →
    let next := (s.getF fabQsampWr_Index + 1) % s.getF fabQsampRing_Records
    ∃ t, exec .qsampRecord s = .next t ∧ t.hearth.histTicks = 0 ∧ t.hearth.hist = [] ∧
      (next = s.getF fabQsampRd_Index → t.getF fabQsampDropF = satAdd fabQsampDropF.width (s.getF fabQsampDropF) 1 ∧ t.mem = s.mem) ∧
      (next ≠ s.getF fabQsampRd_Index → t.getF fabQsampWr_Index = next % 2 ^ fabQsampWr_Index.width ∧
        t.mem = (s.hbmWrite 8 0x1FF (8192 * s.getF fabQsampBase_Addr + 8192 * s.getF fabQsampWr_Index) s.qsampBytes false).mem)) ∧
  (∀ s : State, s.hearth.hist.length < 256 → s.qsampBytes.length = 8192 ∧
    s.qsampBytes.take 32 = leBytes 8 s.hearth.histFrom ++ leBytes 4 (s.getF fabQsampCtrl_Interval) ++ leBytes 1 s.hearth.hist.length
      ++ List.replicate 19 0 ∧
    ∀ k h, s.hearth.hist[k]? = some h → h.length = 16 → (∀ x ∈ s.hearth.hist, x.length = 16) → k < 255 → ∀ j, j < 16 →
      (s.qsampBytes.drop (32 + 32 * k + 2 * j)).take 2 = leBytes 2 (listGet 0 h j)) ∧
  (∀ s : State, ∃ t, exec .clrCntFab s = .next t ∧
    (∀ off, t.word off = if isGrCounter off || off == fabQsampDrop then resetWord s.part off else s.word off) ∧
    Frame [.regs, .incNow] s t)

/-- Configuration tokens write shadow copies, live entries and scan data. For a token of the command's own OP and of an epoch
that the network takes, in slot 63 or with the Hearth halted, addressed to a site of an enabled course with a credit left:
SHADOW_WRITE puts its data into the unit's shadow entry and into no active one, and is refused where the entry does not
exist; LIVE_WRITE of an entry of a memory unit's table 1 joins its buffer, and of a compute unit's table 2 writes the entry;
SCAN_REQ while the Hearth is halted makes its entry scan data of its site, and while it runs changes nothing; an EMPTY token
takes the first scan data of its course to the collector, and without any changes nothing; SCAN_DATA writes the active entry
while the Hearth is halted; SHADOW_CLEAR empties the shadow copies of unit and grate; MARK marks a warm unit of a swap whose
MARKs are sent. A token with an OP above 6 counts ILLEGAL at the unit and does nothing else. That a SHADOW_WRITE of an entry
that does not exist is refused as the register's WRITE is, that OPs above 6 count ILLEGAL, and which scan data an EMPTY token
takes to the collector are the model's choices (log entry 52). -/
def Obligations.ConfigurationTokensAct : Prop :=
  ∀ (s : State) (c : Nat) (k : BitVec 512), c < 25 → s.courseOff c = false →
    let x := CfgTok.ofBits k
    let u := 12 * c + x.column
    x.column < 12 → s.cfgSlot = true → (s.grate u).cfgOut < 16 →
    (s.cfgEpoch x.epoch = true →
      (x.op = 1 → x.target = 0 → x.index < tableSize (isMu u) x.table → ∃ t, exec (.shadowWrite c k) s = .next t ∧
        mget (fun _ => none) (t.unit u).shadow (x.table * 2 ^ 17 + x.index) = some x.data ∧ (t.unit u).tab = (s.unit u).tab ∧
        t.hearth.grates = s.hearth.grates ∧ Frame [.hearth] s t) ∧
      (x.op = 1 → x.target = 0 → ¬ x.index < tableSize (isMu u) x.table → ∃ t, exec (.shadowWrite c k) s = .next t ∧
        t.getF (hrtUnitStatus_WrRefused u) = 1 ∧ t.hearth = s.hearth) ∧
      (x.op = 2 → x.target = 0 → x.table = 2 → isMu u = false → x.index < 32 → ∃ t, exec (.liveWrite c k) s = .next t ∧
        (t.unit u).entry 2 x.index = x.data ∧ t.hearth.grates = s.hearth.grates ∧ Frame [.hearth] s t) ∧
      (x.op = 2 → x.target = 0 → x.table = 1 → isMu u = true → x.index < 65536 →
        ∃ t, exec (.liveWrite c k) s = .next t ∧ (t.unit u).cfgBuf = (s.unit u).cfgBuf ++ [(x.index, x.data)] ∧
          (t.unit u).tab = (s.unit u).tab ∧ (t.grate u).cfgOut = (s.grate u).cfgOut + 1 ∧ Frame [.hearth] s t) ∧
      (x.op = 3 → s.running = true → exec (.scanReq c k) s = .next s) ∧
      (x.op = 3 → s.running = false → cfgEntryOk x u = true → ∃ t, exec (.scanReq c k) s = .next t ∧
        t.hearth = { s.hearth with scanReady := s.hearth.scanReady ++ [(u, x.target, x.table, x.index)] } ∧ Frame [.hearth] s t) ∧
      (x.op = 0 → s.scanFirst c = none → exec (.cfgEmpty c k) s = .next s) ∧
      (x.op = 0 → ∀ v a b i, s.scanFirst c = some (v, a, b, i) → ∃ t, exec (.cfgEmpty c k) s = .next t ∧
        mget (fun _ => 0) t.hearth.collected c = s.scanToken v a b i ∧
        t.hearth.scanReady = dropFirst (fun r => r.1 == v) s.hearth.scanReady ∧ Frame [.hearth] s t) ∧
      (x.op = 4 → s.running = false → x.target = 0 → x.index < tableSize (isMu u) x.table → ∃ t, exec (.scanData c k) s = .next t ∧
        (t.unit u).entry x.table x.index = x.data ∧ t.hearth.grates = s.hearth.grates ∧ Frame [.hearth] s t) ∧
      (x.op = 5 → ∀ w, s.hearth.swap = some w → w.marksSent = true → s.grMode u = 2 → ∃ t, exec (.cfgMark c k) s = .next t ∧
        (t.unit u).netMark = true ∧ Frame [.hearth] s t) ∧
      (x.op = 6 → ∃ t, exec (.shadowClear c k) s = .next t ∧ (t.unit u).shadow = [] ∧ (t.grate u).shadow = [] ∧
        (t.unit u).tab = (s.unit u).tab ∧ (t.grate u).tab = (s.grate u).tab ∧ Frame [.hearth] s t)) ∧
    (6 < x.op → ∀ i ∈ [Instr.cfgEmpty c k, .shadowWrite c k, .liveWrite c k, .scanReq c k, .scanData c k, .cfgMark c k, .shadowClear c k],
      exec i s = .next (s.bump (hrtIllegalF u) 1))

/-! ### Loads, swaps, halt and scans (R207 to R229) -/

/-- A load begins its first pass, and a passed check begins what follows. A LOAD_IMAGE descriptor that waits, of the command's
mode, with no load in progress, becomes the load in progress at its first pass, and changes nothing of the Hearth but that.
When the first pass ends without poison and every check passes, a FULL load waits for a halt at the next tick boundary or an
earlier one, and a STAGE load goes to its second pass with every shadow copy of the units zero. When no load is in progress
and a scan's data has landed, its descriptor ends. -/
def Obligations.LoadsBeginAndPass : Prop :=
  (∀ (s : State) (tag : Nat) (f : Fly), Waits s tag 0x01 f → s.hearth.load = none →
    (dfield f.bytes 32 1 = 0 → ∃ t, exec (.loadImageFull tag) s = .next t ∧
      t.hearth = { s.hearth with load := some ⟨tag, true, 1, f.bytes, [], none⟩ } ∧ Frame [.stk, .hearth] s t) ∧
    (dfield f.bytes 32 1 = 1 → ∃ t, exec (.loadImageStage tag) s = .next t ∧
      t.hearth = { s.hearth with load := some ⟨tag, false, 1, f.bytes, [], none⟩ } ∧ Frame [.stk, .hearth] s t)) ∧
  (∀ (s : State) (l : Load) (i : Image), s.hearth.load = some l → l.pass = 1 →
    let r := s.loadBytes l.desc
    r.2.2.2.2 = false → r.2.2.2.1 = false → r.1.checkImage r.2.1 r.2.2.1 l.full = .ok i →
    ∃ t, exec .loaderPassEnd s = .next t ∧
      (l.full = true → t.hearth.load = some { l with place := r.2.2.1, info := some i.info, pass := 2 } ∧
        ∃ k, t.hearth.haltAt = some k ∧ k ≤ r.1.tick + 1) ∧
      (l.full = false → t.hearth.load = some { l with place := r.2.2.1, info := some i.info, pass := 3 } ∧
        ∀ u, (t.unit u).shadow = [])) ∧
  (∀ (s : State) (tag code res : Nat) (f : Fly), s.hearth.load = none → s.scanLanding = some (tag, code, res) → Runs s tag f →
    ∃ t, exec .loaderPassEnd s = .next t ∧ Ended f (0x100 + code) res s t ∧ t.getF glbLoadStatus_Code = code % 256)

/-- SWAP_EPOCH starts a swap, and the hot region switches at tick K. A SWAP_EPOCH descriptor that waits, with K at least 16 ticks
ahead, a staged image and a running Hearth, starts a swap with SWAP_PENDING set; with K nearer or no staged image it ends
with LOAD_ERR_SWAP_LATE, with the Hearth halted with LOAD_ERR_SWAP_MISSED, and starts none. In cycle 0 of tick K the hot
digest windows of tick K − 1 have closed, and the staged image is in force, its warm digest points with the history of
before, none is staged, IMG_STATE.EPOCH is the next epoch modulo 16 and T0 of that epoch is K. STOKER_MARK_ENQUEUE, once
every RUN has sent its last token, leaves a MARK of the epoch of the swap as the last token of every warm edge port in use
that sends. That a swap which starts while the Hearth is halted ends at once, and the RESULT K of a late one, are the model's
choices (log entry 56), and so is that MARKs go to the ports whose transmit word is credited and that warm histories are kept
over the switch (log entry 57). -/
def Obligations.SwapStartsAndSwitchesHot : Prop :=
  (∀ (s : State) (tag : Nat) (f : Fly), Waits s tag 0x02 f →
    let k := dfield f.bytes 8 8
    (s.tick + 16 ≤ k → s.hearth.staged ≠ none → s.running = true → ∃ t w, exec (.swapEpoch tag) s = .next t ∧
      t.hearth.swap = some w ∧ w.tag = tag ∧ w.k = k ∧ w.startTick = s.tick ∧ w.hotDone = false ∧
      t.getF glbImgState_SwapPending = 1 ∧ t.hearth.units = s.hearth.units) ∧
    (k < s.tick + 16 ∨ s.hearth.staged = none → ∃ t, exec (.swapEpoch tag) s = .next t ∧ Ended f 0x11B k s t ∧
      t.hearth = s.hearth) ∧
    (s.tick + 16 ≤ k → s.hearth.staged ≠ none → s.running = false → ∃ t, exec (.swapEpoch tag) s = .next t ∧ Ended f 0x11D k s t ∧
      t.hearth = s.hearth)) ∧
  (∀ (s : State) (w : Swap) (x o : ImgInfo), s.switchDue = some (w, x, o) → ∃ t, exec .hotEpochSwitch s = .next t ∧
    t.hearth.img = some { x with points := keepWarmHist ((hotDigestWindowClose s).hearth.img.getD o).points x.points } ∧ t.hearth.staged = none ∧ t.hearth.swap = some { w with hotDone := true } ∧
    t.getF glbImgState_Epoch = (s.getF glbImgState_Epoch + 1) % 16 ∧
    mget (fun _ => 0) t.hearth.t0s ((s.getF glbImgState_Epoch + 1) % 16) = w.k) ∧
  (∀ (s : State) (w : Swap) (x : ImgInfo), s.hearth.swap = some w → w.marksSent = false → s.swapImage w = some x →
    s.stk.runs.all (fun r => r.sentAll (r.graph.chunk / 32)) = true → ∃ t, exec .stokerMarkEnqueue s = .next t ∧
      t.hearth.swap = some { w with marksSent := true } ∧ Frame [.hearth] s t ∧
      ∀ k ∈ x.markKeys (s.vmap x.base x.v), qwCredited (s.edge k).txWord = true →
        ∃ m, (t.edge k).tx.toks.getLast? = some m ∧ m.mark = true ∧ m.epoch = s.swapTo w)

/-- Warm units, grates and senders take the new epoch, and the swap ends. WARM_UNIT_SWITCH completes in every state. A warm unit
that is ready takes the new epoch, is idle with its accumulators zero, and has a MARK of the epoch as the last token of each
output queue in use; a unit outside a swap keeps its state. A warm grate whose every route has passed a MARK takes its shadow
tables and the epoch. A sender that waits after its MARK and has all its credits back, be it an output queue of a grate, a
transmit queue of an edge port or the receive queue of a crossing port, takes the INIT_CREDIT of the new epoch and waits no
longer; one that does not wait is left as it is. Past its timeout a swap with an unfinished warm region ends with
LOAD_ERR_SWAP_TIMEOUT and asserts its source; one whose regions have both switched ends with LOAD_OK and K. That a crossing
port takes both of its words at CREDIT_EPOCH_START is the model's choice (log entry 57). -/
def Obligations.WarmRegionSwitches : Prop :=
  (∀ (s : State) (u : Nat), ∃ t, exec (.warmUnitSwitch u) s = .next t) ∧
  (∀ (s : State) (u : Nat), s.hearth.swap = none → exec (.warmUnitSwitch u) s = .next s) ∧
  (∀ (s : State) (u : Nat) (w : Swap) (x : ImgInfo), s.hearth.swap = some w → s.swapImage w = some x → w.marksSent = true →
    s.warmReady u (s.swapTo w) (x.mode (s.vcourse (courseOf u)) (columnOf u)) = true →
    ∃ t, exec (.warmUnitSwitch u) s = .next t ∧ t.getF (hrtUnitCfg_Epoch u) = s.swapTo w ∧ (t.unit u).graphOn = false ∧
      (t.unit u).netMark = false ∧ (t.unit u).accs = [] ∧ (t.unit u).bundle = 0 ∧
      ∀ q ∈ s.usedOq u, ∃ m, ((t.grate u).queue q).toks.getLast? = some m ∧ m.mark = true ∧ m.epoch = s.swapTo w) ∧
  (∀ (s : State) (g : Nat) (w : Swap) (x : ImgInfo), s.hearth.swap = some w → s.swapImage w = some x → w.marksSent = true →
    s.running = true → g < 300 → s.relay g = false → s.grMode g = 2 → s.getF (grCfg_Epoch g) ≠ s.swapTo w →
    (s.grRoutes g).all (s.grate g).marked.contains = true → ∃ t, exec (.warmGrateSwitch g) s = .next t ∧
      (t.grate g).tab = (s.grate g).shadow ∧ (t.grate g).marked = [] ∧ (t.grate g).queues = (s.grate g).queues ∧
      t.getF (grCfg_Epoch g) = s.swapTo w ∧ Frame [.regs, .hearth] s t) ∧
  (∀ (s : State) (k n : Nat), k < 4800 → ((s.grate (k / 16)).queue (inputQueue (k % 16))).hold = some n →
    n ≤ ((s.grate (k / 16)).queue (inputQueue (k % 16))).credits →
    let epoch := match s.hearth.swap with | some w => s.swapTo w | none => s.getF glbImgState_Epoch
    ∃ t, exec (.creditEpochStart k) s = .next t ∧ (t.grate (k / 16)).queue (inputQueue (k % 16)) =
        { (s.grate (k / 16)).queue (inputQueue (k % 16)) with
          credits := qwInit (s.newWord (k / 16) (inputQueue (k % 16)) epoch), hold := none } ∧ Frame [.hearth] s t) ∧
  (∀ (s : State) (k : Nat), k < 4800 → ((s.grate (k / 16)).queue (inputQueue (k % 16))).hold = none →
    exec (.creditEpochStart k) s = .next s) ∧
  (∀ (s : State) (k j n : Nat), (4800 ≤ k ∧ k < 4928 ∧ j = k - 4800) ∨ (4960 ≤ k ∧ k < 4984 ∧ j = edgeCross (k - 4960)) →
    (s.edge j).tx.hold = some n → n ≤ (s.edge j).tx.credits → ∃ t, exec (.creditEpochStart k) s = .next t ∧
      (t.edge j).tx.hold = none ∧ (t.edge j).tx.credits = qwInit (s.edge j).txShadow ∧
      (t.edge j).txWord = (s.edge j).txShadow ∧ (t.edge j).rx = (s.edge j).rx ∧ Frame [.hearth] s t) ∧
  (∀ (s : State) (p n : Nat), p < 24 → (s.edge (edgeCross p)).rx.hold = some n → n ≤ (s.edge (edgeCross p)).rx.credits →
    ∃ t, exec (.creditEpochStart (senderEdge (edgeCross p))) s = .next t ∧ (t.edge (edgeCross p)).rx.hold = none ∧
      (t.edge (edgeCross p)).rx.credits = qwInit (s.edge (edgeCross p)).rxShadow ∧
      (t.edge (edgeCross p)).rxWord = (s.edge (edgeCross p)).rxShadow ∧ (t.edge (edgeCross p)).tx = (s.edge (edgeCross p)).tx ∧
      Frame [.hearth] s t) ∧
  (∀ (s : State) (w : Swap) (x : ImgInfo) (f : Fly), s.hearth.swap = some w → s.swapImage w = some x → Runs s w.tag f →
    s.warmDone x (s.swapTo w) = false → w.startTick + s.getF glbSwapCtrl_Timeout ≤ s.tick →
    ∃ t, exec .swapTimeout s = .next t ∧ t.hearth.swap = none ∧ t.getF glbImgState_SwapPending = 0 ∧ Ended f 0x11C w.k s t ∧
      (s.flt.released = true → (t.flt.pend.map Assertion.src).getLast? = some 19) ∧ t.hearth.units = s.hearth.units) ∧
  (∀ (s : State) (w : Swap) (x : ImgInfo) (f : Fly), s.hearth.swap = some w → s.hearth.img = some x → w.hotDone = true →
    s.warmDone x (s.getF glbImgState_Epoch) = true → Runs s w.tag f → ∃ t, exec .swapEpochComplete s = .next t ∧
      t.hearth.swap = none ∧ t.getF glbImgState_SwapPending = 0 ∧ Ended f 0x100 w.k s t ∧ t.hearth.units = s.hearth.units)

/-- Halts and releases are armed, take effect at their tick and keep the Hearth frozen between. HALT of a running Hearth arms a
halt for the next tick boundary or an earlier armed one; HALT of a halted one cancels the pending release, whose FULL load
ends with LOAD_OK and RESULT 0. RUN arms a release for a RUN_TICK at least two ticks ahead when an image is loaded, the
Hearth is halted and nothing forbids it, and changes nothing otherwise, not even a status bit (the model's choice, log entry
55); where the release of a FULL load is pending it takes the place of that load's tick (log entry 110). At its tick the halt
leaves units, grates, edge ports and effects in flight as they are and records HALT_TICK. At its tick the release makes the
Hearth run, with units, grates and effects in flight as they were, but that no window of a hot unit stands closed for a tick
to come. Every T0 has then grown by the length of the halt, but for the release of a FULL load, whose T0 stays (log entry 55)
and whose descriptor ends with LOAD_OK and the tick. -/
def Obligations.HaltAndRelease : Prop :=
  (∀ s : State, s.running = true → ∃ t k, exec .haltWrite s = .next t ∧ t.hearth = { s.hearth with haltAt := some k } ∧
    k ≤ s.tick + 1 ∧ (s.hearth.haltAt = none → k = s.tick + 1) ∧ Frame [.hearth] s t) ∧
  (∀ s : State, s.running = false → ∃ t, exec .haltWrite s = .next t ∧ t.hearth = { s.hearth with runAt := none, runTag := none } ∧
    t.getF glbImgState_ReleasePending = 0 ∧ (∀ tag f, s.hearth.runTag = some tag → Runs s tag f → Ended f 0x100 0 s t)) ∧
  (∀ s : State, ∃ t, exec .runWrite s = .next t ∧
    (s.hearth.img ≠ none → s.running = false → s.tick + 2 ≤ s.getF glbRunTick_Tick → s.noRelease = false →
      t.hearth = { s.hearth with runAt := some (s.getF glbRunTick_Tick) } ∧ t.getF glbImgState_ReleasePending = 1 ∧
      Frame [.regs, .hearth] s t) ∧
    (s.hearth.img = none ∨ s.running = true ∨ s.getF glbRunTick_Tick < s.tick + 2 ∨ s.noRelease = true → t = s)) ∧
  (∀ (s : State) (k : Nat), s.hearth.haltAt = some k → s.cycle = 0 → k ≤ s.tick → s.running = true → s.hearth.swap = none →
    s.safe = false → s.hearth.load = none → ∃ t, exec .hearthHalt s = .next t ∧ t.getF glbImgState_Running = 0 ∧
      t.getF glbImgState_Halted = 1 ∧ t.getF glbHaltTick_Tick = s.tick ∧ t.hearth = { s.hearth with haltAt := none, haltFrc := s.frc.toNat } ∧
      t.frc = s.frc ∧ t.mem = s.mem) ∧
  (∀ (s : State) (r : Nat), s.hearth.runAt = some r → s.cycle = 0 → r ≤ s.tick → s.running = false → s.noRelease = false →
    ∃ t, exec .hearthRelease s = .next t ∧ t.getF glbImgState_Running = 1 ∧
      t.getF glbImgState_Halted = 0 ∧ t.getF glbImgState_ReleasePending = 0 ∧ t.hearth.runAt = none ∧
      (mwf (fun _ => HUnit.init) s.hearth.units = true → ∀ u,
        t.unit u = if s.unitMode u = 1 then { s.unit u with wins := 0 } else s.unit u) ∧
      t.hearth.grates = s.hearth.grates ∧ t.hearth.flights = s.hearth.flights ∧
      (s.hearth.runTag = none → mwf (fun _ => 0) s.hearth.t0s = true → ∀ e t0, (e, t0) ∈ s.hearth.t0s →
        mget (fun _ => 0) t.hearth.t0s e = movedTick t0 (s.getF glbHaltTick_Tick) s.tick) ∧
      (∀ tag f, s.hearth.runTag = some tag → Runs s tag f → t.hearth.t0s = s.hearth.t0s ∧ Ended f 0x100 s.tick s t))

/-- SCAN_OUT writes the frozen state out, and SCAN_IN puts a scan of this part back. A scan descriptor that waits while the
Hearth runs ends with LOAD_ERR_NOT_HALTED (code 0x1E). With the Hearth halted and an image loaded, SCAN_OUT leaves the Hearth
as it is and keeps the frozen state for the contents it wrote; its outcome is LOAD_OK. SCAN_IN of blocks that are not
poisoned, fit this part, image and placement, and open, puts the tokens on links of the scan back, and T0 lies as far before
the halt as it did in the scan. What the contents of a block look like is open (R229). Free bytes for them, the frozen state
that the model keeps with each SCAN_OUT, and where T0 lies after SCAN_IN are the model's choices (log entry 58). -/
def Obligations.ScansOfTheHaltedHearth : Prop :=
  (∀ (s : State) (tag op : Nat) (f : Fly), Waits s tag op f → s.running = true →
    (op = 0x0A → ∃ t, exec (.scanOut tag) s = .next t ∧ Ended f 0x11E 0 s t ∧ t.hearth = s.hearth) ∧
    (op = 0x0B → ∃ t, exec (.scanIn tag) s = .next t ∧ Ended f 0x11E 0 s t ∧ t.hearth = s.hearth)) ∧
  (∀ (s : State) (tag : Nat) (f : Fly) (x : ImgInfo), Waits s tag 0x0A f → s.running = false → s.hearth.img = some x →
    ∃ t r n, exec (.scanOut tag) s = .next t ∧ t.hearth = { s.hearth with scans := r :: s.hearth.scans } ∧
      r.flights = s.hearth.flights ∧ r.present = s.hearth.present ∧ r.hcyc = s.hcyc ∧
      t.fly tag = some { f with begun := true, outcome := some (0, n) }) ∧
  (∀ (s : State) (tag : Nat) (f : Fly) (x : ImgInfo) (c : ScanRec), Waits s tag 0x0B f → s.running = false →
    s.hearth.img = some x →
    let r := (s.begin tag).readBlocks (dfield f.bytes 8 8 % 2 ^ 40) (dfield f.bytes 16 8) (siteList (s.vmap x.base x.v))
    let heads := r.2.1.map fun b => b.1
    r.2.2.1 = false → heads.any (s.blockForeign x) = false →
    dfield (listGet [] heads 0) 24 4 = s.getF glbPlaceMap_Map → r.1.scanFor x (r.2.1.map fun b => b.2) = some c →
    ∃ t, exec (.scanIn tag) s = .next t ∧ t.hearth.present = c.present ∧
      (c.ran % 2 ^ x.plog = dfield (listGet [] heads 0) 10 1 % 2 ^ x.plog → mget (fun _ => 0) t.hearth.t0s
        (dfield (listGet [] heads 0) 9 1 % 16) = movedTick 0 c.ran (s.getF glbHaltTick_Tick)) ∧
      t.hearth.flights.map Flight.act = c.flights.map Flight.act ∧ t.hearth.img = some x)

/-! ### Triggers and record capture (R245 to R276) -/

/-- Takes of the hot edge ports reach their detectors and pools, and a pool stores what differs from the held value. A score take
of a queue whose head is a clean token, with its release tick not lost to a swap and its device tick still open, takes the
head, and each of the 8 entries that belongs to an enabled detector and satisfies its comparison leaves a hit of that
detector, with the entry's offset and fraction, for the device tick. A take lost to a swap is counted in DISCARDED and leaves
no hit. A capture take takes the head and gives it to the pool of its capture channel, if that pool runs, and to no other. In
a pool that is not stopped, has no gap run and has stored an element of this run, an element of a clean take within the dead
band of the held value, and of the suspect mark in force, adds no byte to the stream; one outside the dead band adds one
sample entry, where the stream has room, and becomes the held value. Either way one more element has passed. -/
def Obligations.TakesReachDetectorsAndPools : Prop :=
  (∀ (s : State) (c x : Nat) (k : Token) (ks : List Token), c < 25 → s.takeEntry c 0 = some x →
    (s.edge (edgeTrg c)).rx.toks = k :: ks →
    let dev := s.takeRel x - s.effDelay
    ∃ t, exec (.scoreTake c) s = .next t ∧ (t.edge (edgeTrg c)).rx.toks = ks ∧
      (s.takeLost (s.takeRel x) = true →
        t.getF glbSwapGap_Discarded = satAdd 16 (s.getF glbSwapGap_Discarded) 1 ∧ t.trg = s.trg) ∧
      (s.takeLost (s.takeRel x) = false → k.void = false → k.poison = false → s.trgDone dev = false →
        s.frc.toNat + 2 ≤ s.readyLimit dev → ∀ j, j < 8 →
          let n := 8 * bitsAt x 7 2 + j
          let e := bitsAt k.data.toNat (64 * j) 64
          s.flag (trgSdCfg_En n) = true →
          scoreHits (s.flag (trgSdCfg_Pol n)) (bitsAt e 32 32) (s.trgReg dev (trgSdThresh n)) = true →
          ∃ h ∈ t.trg.hits, h.tick = dev ∧ h.bit = n ∧ h.tag.offset = bitsAt e 16 16 ∧ h.tag.frac = bitsAt e 8 8)) ∧
  (∀ (s : State) (c x : Nat) (k : Token) (ks : List Token), c < 25 → s.takeEntry c 1 = some x →
    (s.edge (edgeTrg c)).rx.toks = k :: ks → s.takeLost (s.takeRel x) = false →
    let p := s.pool (bitsAt x 5 4)
    ∃ t, exec (.captureTake c) s = .next t ∧ (t.edge (edgeTrg c)).rx.toks = ks ∧
      (∀ d, d ≠ bitsAt x 5 4 → t.pool d = s.pool d) ∧ (p.on = false → t.pools = s.pools) ∧
      (p.on = true → ∃ b o, t.pool (bitsAt x 5 4) =
        ({ p with later := p.later ++ [(⟨s.takeRel x, b, k.data, k.poison, k.void, k.suspect, o⟩ : CapTake)] }).drain
          (s.ringSize (bitsAt x 5 4)) (s.getF (trgPoolCtrl_Deadband (bitsAt x 5 4))) (s.getF (trgPoolCap_E (bitsAt x 5 4)))
          (fun n => n - s.effDelay) (p.later.length + 1))) ∧
  (∀ (p : Pool) (ring dead : Nat) (k : CapTake) (x : BitVec 16), p.stopped = none → p.gapRun = 0 → p.first = false →
    p.capt = none → k.void = false → k.poison = false → k.suspect = p.susRun →
    let q := p.element ring dead k x
    q.elem = p.elem + 1 ∧ q.total = p.total + 1 ∧
    (beyond dead x p.held = false → q.pos = p.pos ∧ q.wbuf = p.wbuf ∧ q.held = p.held) ∧
    (beyond dead x p.held = true → p.room ring 4 = true → q.pos = p.pos + 4 ∧ q.held = x ∧ q.last = p.elem + 1 ∧
      q.wbuf = p.wbuf ++ leBytes 4 (sampleWord k.suspect (p.elem - p.last) x)))

/-- OR mode takes the earliest hit of its mask, AND mode needs every source, SEQ mode an A event before its B hit, and a decision
closes its tick once. For a trigger unit's view of a device tick with its sources: in mode 1 the unit fires exactly when a
source of MASK_A hits, with a hit of the mask of which none is earlier; in mode 2 it fires only when MASK_A is not empty and
each of its 64 bits has a hit, with a hit of the mask of which none is later, and that an empty MASK_A never fires is the
model's choice (log entry 59). In mode 3 it fires on the earliest hit of MASK_B that an A event of its window precedes or
equals, an A event being one that the unit has kept or a hit of MASK_A of this tick; the latest such event is used and
consumed, and the others are kept. In mode 0 it never fires. A unit held off after a firing does not fire. With no swap under
way in TRG: in the decision cycle of device tick k, not decided yet, TRG_DECISION leaves k decided, with the hits of k gone
and those of other ticks kept, and touches neither the Hearth nor memory; in a cycle that is no decision cycle it changes
nothing. -/
def Obligations.TriggerUnitsQualifyAndDecide : Prop :=
  (∀ (v : TuView) (k : Nat) (src : List Hit),
    (v.cfg % 4 = 0 → (v.qualify k src).1 = none) ∧
    (v.cfg % 4 = 1 → ((v.qualify k src).1 = none ↔ ∀ h ∈ src, v.maskA.testBit h.bit = false)) ∧
    (v.cfg % 4 = 1 → ∀ h, (v.qualify k src).1 = some h → h ∈ src ∧ v.maskA.testBit h.bit = true ∧
      ∀ h' ∈ src, v.maskA.testBit h'.bit = true → h.tag.time ≤ h'.tag.time) ∧
    (v.cfg % 4 = 2 → ∀ h, (v.qualify k src).1 = some h → v.maskA ≠ 0 ∧
      (∀ b, b < 64 → v.maskA.testBit b = true → ∃ h' ∈ src, h'.bit = b) ∧
      ∀ h' ∈ src, v.maskA.testBit h'.bit = true → h'.tag.time ≤ h.tag.time) ∧
    (v.cfg % 4 = 3 →
      let win := v.timing / 2 ^ 16
      let es := keepEvents k win v.tu.events ++ (src.filter fun h => v.maskA.testBit h.bit).map fun h => (h.tag.tick, h.tag.tau)
      let fits (e : Nat × Nat) (h : Hit) : Prop := 16384 * e.1 + e.2 ≤ h.tag.time ∧ h.tag.tick ≤ e.1 + win
      ((v.qualify k src).1 = none ↔ ∀ h ∈ src, v.maskB.testBit h.bit = true → ∀ e ∈ es, ¬ fits e h) ∧
      ((v.qualify k src).1 = none → (v.qualify k src).2 = es) ∧
      (∀ b, (v.qualify k src).1 = some b → b ∈ src ∧ v.maskB.testBit b.bit = true ∧
        (∀ h ∈ src, v.maskB.testBit h.bit = true → h.tag.time < b.tag.time → ∀ e ∈ es, ¬ fits e h) ∧
        ∃ e ∈ es, fits e b ∧ (∀ e' ∈ es, fits e' b → 16384 * e'.1 + e'.2 ≤ 16384 * e.1 + e.2) ∧ (v.qualify k src).2 = es.erase e))) ∧
  (∀ (s : State) (k u k0 e : Nat) (src : List Hit), (s.tuView k u).tu.hold = some (k0, e) → k0 < k → k ≤ e →
    (s.runTu k src u).2 = none) ∧
  (∀ (s : State) (k : Nat), s.trg.old = none → s.frc.toNat = 64 * k + s.trgLat → s.trg.next ≤ k →
    ∃ t, exec .trgDecision s = .next t ∧ t.trg.next = k + 1 ∧ t.trg.hits = s.trg.hits.filter (fun h => h.tick != k) ∧
      t.hearth = s.hearth ∧ t.mem = s.mem ∧ t.ing = s.ing) ∧
  (∀ s : State, s.trg.old = none → s.trgLat ≤ s.frc.toNat → (s.frc.toNat - s.trgLat) % 64 ≠ 0 →
    exec .trgDecision s = .next s)

/-- External edges and host-force make hits, pulses end, and records are posted. An active edge of an enabled input counts in
EDGES, and leaves a hit of source 32 + i with its own tag unless it comes less than 2.0 ns from the active edge before it, in
times modulo 2^72 of 1/256 cycle, or an earlier edge already is the hit of its tick, when the hits stay as they are; an edge
that is not active changes nothing. FORCE_HIT leaves a hit of source 52 at τ = 0 of this device tick or the next, on a
channel that R251 does not name, a free value. A pulse whose time has passed is over. The oldest firing's record of 32 bytes
goes to the queue of TRG.CTRL.CQ with the tick in which its unit fired, while event posting is enabled and the queue has
room. -/
def Obligations.TriggerInputsAndOutputs : Prop :=
  (∀ (s : State) (i : Nat) (r : Bool) (f : Byte), i < 4 → s.flag (trgTinCfg_En i) = true → r ≠ s.flag (trgTinCfg_Fall i) →
    let prev := mget (fun _ => 0) s.trg.edgeAt i
    let last := mget (fun _ => 0) s.trg.edges i
    let at' := ((s.stamp f : Int) + sint 32 (s.getF (trgTinSkew_Skew i))).toNat
    let no := (0 < prev ∧ edgesClose (s.stamp f) (prev - 1) = true) ∨ (0 < last ∧ (last - 1) / 16384 = at' / 16384 ∧ last ≤ at' + 1)
    ∃ t, exec (.trigInEdge i r f) s = .next t ∧ t.getF (trgTinEdgesF i) = satAdd (trgTinEdgesF i).width (s.getF (trgTinEdgesF i)) 1 ∧
      mget (fun _ => 0) t.trg.edgeAt i = s.stamp f + 1 ∧ (no → t.trg.hits = s.trg.hits) ∧
      (¬ no → ∃ h, t.trg.hits = s.trg.hits ++ [h] ∧ h.bit = 32 + i ∧ h.tag.tick = at' / 16384)) ∧
  (∀ (s : State) (i : Nat) (f : Byte), i < 4 → exec (.trigInEdge i (s.flag (trgTinCfg_Fall i)) f) s = .next s) ∧
  (∀ s : State, ∃ t h, exec .forceHit s = .next t ∧ t.trg = { s.trg with hits := s.trg.hits ++ [h] } ∧ h.bit = 52 ∧
    h.tag.tau = 0 ∧ (h.tick = s.tick ∨ h.tick = s.tick + 1) ∧ t.freeIx = s.freeIx + 1 ∧ Frame [.trg, .freeIx] s t) ∧
  (∀ (s : State) (m : Nat), m < 4 → ∃ t, exec (.trigOutPulseEnd m) s = .next t ∧
    (∀ p ∈ mget (fun _ => []) t.trg.pulses m, s.cyc < p.2) ∧
    (∀ p ∈ mget (fun _ => []) s.trg.pulses m, s.cyc < p.2 → p ∈ mget (fun _ => []) t.trg.pulses m) ∧ Frame [.trg] s t) ∧
  (∀ (s : State) (f : Firing) (fs : List Firing), s.trg.firings = f :: fs → s.flag stkCtrl_En = true →
    (s.cq (s.getF trgCtrl_Cq)).held.length < 256 → ∃ t, exec .triggerRecordPost s = .next t ∧ t.trg.firings = fs ∧
      (t.cq (s.getF trgCtrl_Cq)).held =
        (s.cq (s.getF trgCtrl_Cq)).held ++ [⟨0x10, 0x200, 0, 1, f.fired, 0, f.bytes, false, none, 0⟩] ∧ Frame [.trg, .stk] s t)

/-- A commit is named once, and at its tick the active copies take the pending ones. A COMMIT write of a device tick at least 2
ahead, of the next 2^23, with none pending, is taken and sets COMMIT_PENDING; with one pending, or a nearer or later tick, it
is refused and changes nothing but WR_REFUSED. When the decisions before its tick are over, every register with two copies
has its pending value as its active one, and no commit is pending. -/
def Obligations.CommitTakesThePendingCopies : Prop :=
  (∀ (s : State) (v : W32),
    let d := (v.toNat % 2 ^ 24 + 2 ^ 24 - s.tick % 2 ^ 24) % 2 ^ 24
    ∃ t, exec (.trgCommit v) s = .next t ∧
      (s.trg.commitAt = none → 2 ≤ d → d < 2 ^ 23 → t.trg = { s.trg with commitAt := some (s.tick + d) } ∧
        t.getF trgStatus_CommitPending = 1 ∧ WordsKept [trgStatus] s t ∧ Frame [.regs, .trg] s t) ∧
      (s.trg.commitAt ≠ none ∨ d < 2 ∨ 2 ^ 23 ≤ d → t.getF trgStatus_WrRefused = 1 ∧ WordsKept [trgStatus] s t ∧
        Frame [.regs, .setNow] s t)) ∧
  (∀ (s : State) (k : Nat), s.trg.commitAt = some k →
    k ≤ s.trg.next ∨ 64 * (k - 1) + s.trgLd (k - 1) < s.frc.toNat → ∃ t, exec .commitApply s = .next t ∧
    t.trg.commitAt = none ∧ t.getF trgStatus_CommitPending = 0 ∧
    (∀ off ∈ twoCopies, mget (resetWord s.part) t.trg.active off = s.word off) ∧ WordsKept [trgStatus] s t ∧
    Frame [.regs, .trg] s t)

/-- Pool registers, boundaries, releases and finished records. A RELEASE of a number from the current value to NEXT, above no
capturing record, is stored and frees the records below it; any other is refused. EN set in a pool with a ring starts it, and
EN cleared stops it, from the next tick on. At its boundary a pool starts with nothing but a BREAK of cause 3 in its stream
and RECORD and RELEASE 0; at its boundary a stopping pool is off with nothing left in its write buffer, which the model
writes out together with the finished records then (its choice, log entry 61). Writing resumes when OVERFLOW, TICK and HOLD
have room. A finished record whose bytes are in HBM leaves the list, and its event of type 0x11 goes to the pool's queue. -/
def Obligations.PoolsStartStopAndRelease : Prop :=
  (∀ (s : State) (c : Nat) (v : W64), c < 16 → ∃ t, exec (.poolReleaseWrite c v) s = .next t ∧
    (s.getF (trgPoolRelease_Record c) ≤ v.toNat → v.toNat ≤ s.getF (trgPoolNext_Record c) →
      (∀ x, (s.pool c).capt = some x → v.toNat ≤ x.record) → t.getF (trgPoolRelease_Record c) = v.toNat ∧
        (∀ k ∈ (t.pool c).kept, v.toNat ≤ k.1) ∧ (t.pool c).wbuf = (s.pool c).wbuf ∧ Frame [.regs, .pools] s t) ∧
    (v.toNat < s.getF (trgPoolRelease_Record c) ∨ s.getF (trgPoolNext_Record c) < v.toNat ∨
        (∃ x, (s.pool c).capt = some x ∧ x.record < v.toNat) →
      t.getF trgStatus_WrRefused = 1 ∧ WordsKept [trgStatus] s t ∧ Frame [.regs, .setNow] s t)) ∧
  (∀ (s : State) (c : Nat) (v : W32), c < 16 →
    (v.toNat.testBit 31 = true → s.flag (trgPoolCtrl_En c) = false → s.getF (trgPoolRingSize_Size c) ≠ 0 →
      ∃ t, exec (.poolCtrlWrite c v) s = .next t ∧ t.getF (trgPoolCtrl_En c) = 1 ∧
        t.getF (trgPoolCtrl_TuMask c) = bitsAt v.toNat 16 8 ∧ t.getF (trgPoolCtrl_Deadband c) = bitsAt v.toNat 0 16 ∧
        (t.pool c).startAt = some (s.tick + 1) ∧ Frame [.regs, .pools] s t) ∧
    (v.toNat.testBit 31 = false → s.flag (trgPoolCtrl_En c) = true → (s.pool c).on = true →
      ∃ t, exec (.poolCtrlWrite c v) s = .next t ∧ t.getF (trgPoolCtrl_En c) = 0 ∧ (t.pool c).stopAt = some (s.tick + 1) ∧
        t.getF (trgPoolCtrl_TuMask c) = s.getF (trgPoolCtrl_TuMask c) ∧ Frame [.regs, .setNow, .pools] s t)) ∧
  (∀ (s : State) (c b : Nat), c < 16 → (s.pool c).startAt = some b → b ≤ s.tick → (s.pool c).stopAt = none →
    ∃ t, exec (.poolStart c) s = .next t ∧ t.pool c = Pool.started (s.ringSize c) ∧ (t.pool c).wbuf = leBytes 4 (markWord 5 3) ∧ (t.pool c).pos = 4 ∧
      t.getF (trgPoolNext_Record c) = 0 ∧ t.getF (trgPoolRelease_Record c) = 0 ∧ Frame [.regs, .pools] s t) ∧
  (∀ (s : State) (c b : Nat), c < 16 → (s.pool c).stopAt = some b → b ≤ s.tick → ∃ t, exec (.poolStop c) s = .next t ∧
    (t.pool c).on = false ∧ (t.pool c).stopAt = none ∧ (t.pool c).wbuf = [] ∧ (t.pool c).finished = [] ∧
    (t.pool c).capt = none ∧ t.hearth = s.hearth) ∧
  (∀ (s : State) (c : Nat), c < 16 → (s.pool c).stopped ≠ none → (s.pool c).room (s.ringSize c) 12 = true →
    ∃ t, exec (.acqWriteResume c) s = .next t ∧ t.pool c = { s.pool c with resume := true } ∧ Frame [.pools] s t) ∧
  (∀ (s : State) (c : Nat) (d : DoneRec) (ds : List DoneRec), c < 16 → (s.pool c).finished = d :: ds →
    d.stop ≤ (s.pool c).pos - (s.pool c).wbuf.length → s.flag stkCtrl_En = true →
    (s.cq (s.getF (trgPoolCtrl_Cq c))).held.length < 256 → ∃ t e, exec (.recordComplete c) s = .next t ∧
      (t.pool c).finished = ds ∧ (t.cq (s.getF (trgPoolCtrl_Cq c))).held = (s.cq (s.getF (trgPoolCtrl_Cq c))).held ++ [e] ∧
      e.ty = 0x11 ∧ e.tick = d.capt.tag.tick)

/-! ### Chimney ports (R260 to R266, R284) -/

/-- A USER message enters the receive queue, or is discarded and counted. On a listening port that holds block lock, a USER
message with a good CRC8 enters the receive queue behind its entries with FRC, as it stood before an FRC load of its cycle,
as its timestamp while the queue holds fewer than 16 entries; otherwise the queue stays and RX_DROP counts one. The other
ports keep everything. RXQ_POP removes the head entry and changes nothing else. -/
def Obligations.UserMessageEntersItsQueue : Prop :=
  ∀ (s : State) (p : Nat), p < 4 →
    (∀ m : W64, s.chmListens p = true → s.flag (chmPortStatus_BlockLock p) = true → chmType m.toNat = 4 →
      chmGood m.toNat = true → ∃ t, exec (.chmUser p m) s = .next t ∧ (∀ q, q ≠ p → t.chmPort q = s.chmPort q) ∧
      ((s.chmPort p).rxq.length < 16 → (t.chmPort p).rxq = (s.chmPort p).rxq ++ [(m, BitVec.ofNat 64 s.stampFrc)] ∧ Frame [.regs, .chm] s t) ∧
      (16 ≤ (s.chmPort p).rxq.length → (t.chmPort p).rxq = (s.chmPort p).rxq ∧
        t.getF (chmPortRxDropF p) = satAdd 32 (s.getF (chmPortRxDropF p)) 1 ∧ Frame [.regs, .incNow, .chm] s t)) ∧
    (∃ t, exec (.rxqPop p) s = .next t ∧ t.chmPort p = { s.chmPort p with rxq := (s.chmPort p).rxq.tail } ∧
      (∀ q, q ≠ p → t.chmPort q = s.chmPort q) ∧ Frame [.chm] s t)

/-- The message of a slot: its trigger, then an echo reply, an echo request, a queue entry. A port is silent from the tick
boundary of the safe state on, and that it keeps its state then is the model's choice (log entry 102). In an enabled port, at
the start of block slot b: a TRIGGER message that waits for this slot leaves with its LEAD; in an unreserved slot without
one, the oldest echo reply leaves with HOLD from the receipt of its request, else a pending echo request leaves and is
outstanding, else the head of the transmit queue leaves, if its launch time has come, with TX_LATE counting the ones that an
unreserved slot had passed since their time (which slots those are is the model's reading, log entry 63), and with nothing to
send an IDLE message leaves, which takes no SEQ. The device supplies SRC, SHADOW, SEQ and CRC8. TXQ_PUSH takes TYPE TRIGGER
and USER into a queue of fewer than 16 entries and is refused otherwise; an ECHO write leaves a request pending; 1,024 ticks
without an answer set ECHO_TIMEOUT and keep RTT. -/
def Obligations.ChimneySlotsSend : Prop :=
  ∀ (s : State) (p : Nat), p < 4 →
    let x := s.chmPort p
    (s.txSafeNow = true → exec (.chimneySlotLaunch p) s = .next s) ∧
    (∀ b, s.slotNow = some b → (s.getF chmCtrl_En).testBit p = true → s.txSafeNow = false → s.flueDead (txFlue (24 + p)) = false →
      ∃ t, exec (.chimneySlotLaunch p) s = .next t ∧ Frame [.regs, .incNow, .freeIx, .chm] s t ∧
      (∀ l ∈ x.trigs, x.trigs.find? (fun y => y.1 == s.tick && y.2.1 == b) = some l →
        (t.chmPort p).sent = s.chmBuild 1 (16 * b2n l.2.2.2.2 + l.2.2.2.1) x.seq (256 * s.stampFrc - l.2.2.1) ∧
        (t.chmPort p).trigs = x.trigs.erase l ∧ (t.chmPort p).seq = (x.seq + 1) % 16) ∧
      (x.trigs.find? (fun y => y.1 == s.tick && y.2.1 == b) = none → s.slotReserved p b = false →
        (∀ r rs, x.replies = r :: rs → (t.chmPort p).replies = rs ∧
          ∃ mid, (t.chmPort p).sent = s.chmBuild 3 mid r.1 (256 * s.stampFrc - r.2)) ∧
        (x.replies = [] → x.reqPending = false → x.txq = [] → (t.chmPort p).seq = x.seq ∧
          ∃ mid time, (t.chmPort p).sent = s.chmBuild 0 mid x.seq time) ∧
        (x.replies = [] → x.reqPending = true → (t.chmPort p).reqPending = false ∧
          (t.chmPort p).echo = some (x.seq, 256 * s.stampFrc, s.tick) ∧
          ∃ mid, (t.chmPort p).sent = s.chmBuild 2 mid x.seq 0) ∧
        (x.replies = [] → x.reqPending = false → ∀ e es, x.txq = e :: es → e.2.toNat ≤ s.frc.toNat →
          (t.chmPort p).txq = es ∧ (t.chmPort p).seq = (x.seq + 1) % 16 ∧
          (t.chmPort p).sent = s.chmBuild (chmType e.1.toNat) (bitsAt e.1.toNat 50 5) x.seq (chmTime e.1.toNat) ∧
          t.getF (chmPortTxLateF p) = satAdd 32 (s.getF (chmPortTxLateF p)) (b2n (s.slotMissed p e.2.toNat))))) ∧
    (let m := s.getF (chmPortTxqMsg_Msg p);
      ((chmType m = 1 ∨ chmType m = 4) ∧ x.txq.length < 16 → exec (.txqPush p) s = .next (s.setChm p { x with
        txq := x.txq ++ [(BitVec.ofNat 64 m, BitVec.ofNat 64 (s.getF (chmPortTxqLaunch_Frc p)))] })) ∧
      (¬ ((chmType m = 1 ∨ chmType m = 4) ∧ x.txq.length < 16) → ∃ t, exec (.txqPush p) s = .next t ∧
        t.getF chmStatus_WrRefused = 1 ∧ t.chm = s.chm ∧ WordsKept [chmStatus] s t ∧ Frame [.regs, .setNow] s t)) ∧
    (∃ t, exec (.chmEchoGo p) s = .next t ∧ t.chmPort p = { x with reqPending := true } ∧ Frame [.chm] s t) ∧
    (∀ e, x.echo = some e → e.2.2 + 1024 ≤ s.tick → ∃ t, exec (.chmEchoTimeout p) s = .next t ∧
      t.getF (chmPortStatus_EchoTimeout p) = 1 ∧ (t.chmPort p).echo = none ∧ t.getF (chmPortRttF p) = s.getF (chmPortRttF p) ∧
      Frame [.regs, .setNow, .chm] s t)

/-- Trigger and echo messages act, and a bad message is counted. On a listening port that holds block lock, a good message acts:
a TRIGGER message gives a line hit on the device tick of its action time when it is in time, is counted in LATE when it is
not or before ECHO_VALID, and in SHADOW_DROP when SHADOW is set and not accepted; an ECHO_REQ joins the requests to answer
with its receive timestamp; an ECHO_RSP with the SEQ of the outstanding request sets RTT, ONEWAY and ECHO_VALID. A message
with a bad CRC8 or an unlisted TYPE, in a message command or a block with a valid sync header, counts in CRC_ERR and does
nothing else but to the line. -/
def Obligations.ChimneyReceives : Prop :=
  ∀ (s : State) (p : Nat) (m : W64) (f : Byte), p < 4 → s.chmListens p = true → s.flag (chmPortStatus_BlockLock p) = true →
    let x := s.chmPort p
    let rx := s.stamp f
    let act : Int := (rx : Int) - sint 32 (s.getF (chmPortOnewayF p)) - chmTime m.toNat + 256 * s.getF chmSyslat_Cycles
    let k := act.toNat / 16384
    (chmGood m.toNat = true →
      (chmType m.toNat = 1 → ∃ t, exec (.chimneyTriggerReceive p m f) s = .next t ∧ t.hearth = s.hearth ∧
        (chmShadow m.toNat = true → s.flag chmCtrl_AcceptShadow = false →
          t.getF (chmPortShadowDropF p) = satAdd 32 (s.getF (chmPortShadowDropF p)) 1 ∧ t.trg = s.trg) ∧
        ((chmShadow m.toNat = true → s.flag chmCtrl_AcceptShadow = true) →
          (s.flag (chmPortStatus_EchoValid p) = false ∨ s.trgDone k = true ∨ 256 * s.readyLimit k < rx + 4096 →
            t.getF (chmPortLateF p) = satAdd 32 (s.getF (chmPortLateF p)) 1 ∧ t.trg = s.trg) ∧
          (s.flag (chmPortStatus_EchoValid p) = true → s.trgDone k = false → rx + 4096 ≤ 256 * s.readyLimit k →
            ∃ h, t.trg.hits = s.trg.hits ++ [h] ∧ h.tick = k ∧ h.bit = 36 + chmLine m.toNat ∧ h.tag.tau = act.toNat % 16384 ∧
              Frame [.regs, .chm, .trg] s t))) ∧
      (chmType m.toNat = 2 → ∃ t, exec (.echoReq p m f) s = .next t ∧
        (t.chmPort p).replies = x.replies ++ [(chmSeq m.toNat, rx)] ∧ Frame [.regs, .chm] s t) ∧
      (chmType m.toNat = 3 → ∀ e, x.echo = some e → e.1 = chmSeq m.toNat → ∃ t, exec (.echoRsp p m f) s = .next t ∧
        let rtt := rx - e.2.1 - chmTime m.toNat
        t.getF (chmPortRttF p) = rtt % 2 ^ 32 ∧ t.getF (chmPortStatus_EchoValid p) = 1 ∧ (t.chmPort p).echo = none ∧
        (∃ r ≤ rtt % 2, t.getF (chmPortOnewayF p) =
          unsint 32 (((rtt / 2 + r : Nat) : Int) + sint 32 (s.getF (timChmAsym_Asym p)))) ∧
        Frame [.regs, .freeIx, .chm] s t)) ∧
    (chmType m.toNat ≠ 0 → chmGood m.toNat = false →
      ∀ i ∈ [Instr.chimneyTriggerReceive p m f, .echoReq p m f, .echoRsp p m f, .chmUser p m], ∃ t, exec i s = .next t ∧
        t.getF (chmPortCrcErrF p) = satAdd 32 (s.getF (chmPortCrcErrF p)) 1 ∧ (t.chmPort p).rxq = x.rxq ∧
        (t.chmPort p).replies = x.replies ∧ (t.chmPort p).echo = x.echo ∧ Frame [.regs, .incNow, .chm] s t) ∧
    (∀ (sync : BitVec 2) (w : W64),
      let y := ofBitsLsb (descramble x.hist ((bitsLsb 64 w.toNat).reverse)).1.reverse
      ∃ t, exec (.chimneyBlockReceive p sync w) s = .next t ∧
        (sync = 1 → chmType y ≠ 0 → chmGood y = false →
          t.getF (chmPortCrcErrF p) = satAdd 32 (s.getF (chmPortCrcErrF p)) 1) ∧
        (sync ≠ 1 ∨ chmType y = 0 ∨ chmGood y = true → t.getF (chmPortCrcErrF p) = s.getF (chmPortCrcErrF p)) ∧
        (t.chmPort p).rxq = x.rxq ∧ (t.chmPort p).txq = x.txq ∧ Frame [.regs, .incNow, .chm] s t)

/-! ### Device time and timing ports (R277 to R294) -/

/-- SET, ADJ_GO and RATE change BASE, REF and RATE, and NOW_TIME samples them. SET of a valid time puts it into BASE and FRC into
REF; of an invalid one it is refused and leaves both. ADJ_GO adds ADJ to BASE where the sum is in range, judged before a RATE
write of its cycle, and is refused elsewhere. A RATE write moves BASE to device time now, REF to FRC, and stores RATE. A read
of NOW_TIME[0] puts device time at FRC into NOW_TIME and FRC into NOW_FRC, under the values in force before any change of its
cycle, and answers the low word. None of them moves FRC. -/
def Obligations.DeviceTimeChanges : Prop :=
  ∀ (s : State),
    (let v := s.word96 (timSetTime 0);
      (bitsAt v 16 32 < 10 ^ 9 → ∃ t, exec .timSet s = .next t ∧ t.word96 (timBaseTime 0) = v ∧
        t.getF timRefFrc_Ref = s.frc.toNat ∧ t.getF timRate_Rate = s.getF timRate_Rate ∧ Frame [.regs, .tim] s t) ∧
      (10 ^ 9 ≤ bitsAt v 16 32 → ∃ t, exec .timSet s = .next t ∧ t.getF timStatus_WrRefused = 1 ∧
        WordsKept [timStatus] s t ∧ Frame [.regs, .setNow] s t)) ∧
    (let adj := sint 64 (s.getF timAdj_Adj)
     let pre := s.tim.was.bind TimeWas.preRate
     let u : Int := (unitsOfTime (pre.getD (s.word96 (timBaseTime 0))) : Nat) + adj
     (0 ≤ u → u < (timeSpan : Int) → ∃ t, exec .timAdjGo s = .next t ∧
        (unitsOfTime (t.word96 (timBaseTime 0)) : Int) = ((unitsOfTime (s.word96 (timBaseTime 0)) : Nat) + adj) % (timeSpan : Int) ∧
        (pre = none → (unitsOfTime (t.word96 (timBaseTime 0)) : Int) = u) ∧
        t.getF timRefFrc_Ref = s.getF timRefFrc_Ref ∧ Frame [.regs, .tim] s t) ∧
      (u < 0 ∨ (timeSpan : Int) ≤ u → ∃ t, exec .timAdjGo s = .next t ∧ t.getF timStatus_WrRefused = 1 ∧
        WordsKept [timStatus] s t ∧ Frame [.regs, .setNow] s t)) ∧
    (∀ v : W32, ∃ t, exec (.rateWrite v) s = .next t ∧ t.getF timRate_Rate = v.toNat ∧ t.getF timRefFrc_Ref = s.frc.toNat ∧
      t.word96 (timBaseTime 0) = s.timeAtFrc s.frc.toNat ∧ bitsAt (t.word96 (timBaseTime 0)) 16 32 < 10 ^ 9 ∧
      Frame [.regs, .tim] s t) ∧
    (∃ t, exec .nowTimeRead s = .next t ∧ t.word96 (timNowTime 0) = s.timeNow ∧ t.getF timNowFrc_Frc = s.stampFrc ∧
      t.readData.toNat = s.timeNow % 2 ^ 32 ∧ (s.tim.was = none → s.timeNow = s.timeAtFrc s.frc.toNat ∧ s.stampFrc = s.frc.toNat) ∧
      t.word96 (timBaseTime 0) = s.word96 (timBaseTime 0) ∧ Frame [.regs, .readData, .readUr, .readRetry] s t)

/-- Frames leave and arrive through the descriptor rings. A port is silent from the tick boundary of the safe state on, and that
it keeps its state then is the model's choice (log entry 102). The descriptor is taken as read, poisoned or not, which is the
model's choice too (log entry 65). A descriptor at the head of an enabled port's ring with a LEN outside 60 to 2,044 is
passed over, sets TX_DESC_ERR and counts in no frame counter; one with LAUNCH in the future waits. A frame with TS set adds
one entry with its ID, and with a full queue counts TSQ_LOST, sets TSQ_OVF and leaves the queue. Any other descriptor moves
TX_HEAD on and counts the frame. A pop removes the head entry. A received frame with a bad FCS counts in RX_FCS_ERR alone;
one too long, or with no descriptor left, in RX_DROP alone; any other moves RX_HEAD on and counts in RX_FRAMES. Block lock
and optical signal are shown as they change. -/
def Obligations.TimingPortFrames : Prop :=
  ∀ (s : State) (p : Nat), p < 2 →
    let head := s.getF (timTpTxHead_Index p)
    let q := (s.tp p).tsq
    (∀ b, s.txSafeNow = true → exec (.tpFrameTransmit p b) s = .next s) ∧
    (∀ b, s.flag (timTpCtrl_TxEn p) = true → s.txSafeNow = false → s.flueDead (txFlue (28 + p)) = false →
      s.getF (timTpTxTail_Index p) ≠ head → b < 1024 →
      let d := (s.hbmRead 9 0x1FF (32 * s.getF (timTpTxBase_Addr p) + 32 * head) 32).2.1
      let len := dfield d 8 2
      let fl := dfield d 10 1
      let next := tpNext head (s.getF (timTpTxSize_Entries p)) % 4096
      ∃ t, exec (.tpFrameTransmit p b) s = .next t ∧ t.hearth = s.hearth ∧
        (len < 60 ∨ 2044 < len → t.getF (timTpTxHead_Index p) = next ∧ t.getF (timTpStatus_TxDescErr p) = 1 ∧
          t.getF (timTpTxFramesF p) = s.getF (timTpTxFramesF p) ∧ t.tim = s.tim) ∧
        (60 ≤ len → len ≤ 2044 → fl.testBit 2 = true → s.frc.toNat < dfield d 16 8 → t = s) ∧
        (60 ≤ len → len ≤ 2044 → (fl.testBit 2 = false ∨ dfield d 16 8 ≤ s.frc.toNat) →
          t.getF (timTpTxHead_Index p) = next ∧ t.getF (timTpTxFramesF p) = satAdd 32 (s.getF (timTpTxFramesF p)) 1 ∧
          t.getF (timTpTxLateF p) = satAdd 32 (s.getF (timTpTxLateF p))
            (b2n (fl.testBit 2 && decide (dfield d 16 8 < s.frc.toNat))) ∧
          (fl.testBit 0 = false → (t.tp p).tsq = q) ∧
          (fl.testBit 0 = true → q.length < 16 → ∃ x, (t.tp p).tsq = q ++ [(dfield d 12 2 % 4096, x)]) ∧
          (fl.testBit 0 = true → 16 ≤ q.length → (t.tp p).tsq = q ∧ t.getF (timTpStatus_TsqOvf p) = 1 ∧
            t.getF (timTpTsqLostF p) = satAdd 32 (s.getF (timTpTsqLostF p)) 1))) ∧
    (∃ t, exec (.tsqPop p) s = .next t ∧ (t.tp p).tsq = q.tail ∧ (t.tp p).sent = (s.tp p).sent ∧ Frame [.tim] s t) ∧
    (∀ (fr : List Byte) (f : Byte), s.flag (timTpCtrl_RxEn p) = true → s.flag (timTpStatus_BlockLock p) = true →
      s.blockHeld (24 + p) = false → s.flueDead (txFlue (28 + p)) = false →
      let h := s.getF (timTpRxHead_Index p)
      (fcsOk fr = false → ∃ t, exec (.tpFrameReceive p fr f) s = .next t ∧
        t.getF (timTpRxFcsErrF p) = satAdd 32 (s.getF (timTpRxFcsErrF p)) 1 ∧ WordsKept [timTpRxFcsErr p] s t ∧
        Frame [.regs, .incNow] s t) ∧
      (fcsOk fr = true → 2048 < fr.length ∨ h = s.getF (timTpRxTail_Index p) → ∃ t, exec (.tpFrameReceive p fr f) s = .next t ∧
        t.getF (timTpRxDropF p) = satAdd 32 (s.getF (timTpRxDropF p)) 1 ∧ WordsKept [timTpRxDrop p] s t ∧
        Frame [.regs, .incNow] s t) ∧
      (fcsOk fr = true → fr.length ≤ 2048 → h ≠ s.getF (timTpRxTail_Index p) → ∃ t, exec (.tpFrameReceive p fr f) s = .next t ∧
        t.getF (timTpRxHead_Index p) = tpNext h (s.getF (timTpRxSize_Entries p)) % 4096 ∧
        t.getF (timTpRxFramesF p) = satAdd 32 (s.getF (timTpRxFramesF p)) 1 ∧ t.hearth = s.hearth)) ∧
    (s.blockHeld (24 + p) = false → ∀ l sg, ∃ t, exec (.tpBlockLock p l sg) s = .next t ∧
      t.getF (timTpStatus_BlockLock p) = b2n l ∧ t.getF (timTpStatus_Signal p) = b2n (l || sg) ∧ WordsKept [timTpStatus p] s t ∧ Frame [.regs] s t)

/-- A SYNC_CTRL write sends SYNCs, and an FRC load moves FRC and REF together. SYNC_CTRL stores FORWARD, SELF and START. With GO,
every link of SYNC_TX that is frozen carries a SYNC with START_VALID and START, one that is not sets SKIPPED, and no other
link changes; FRC stays. An FRC load moves FRC by k and REF by the same k, with k the nearest whole number of cycles to the
target, records k, the residue and the link, shows LOADED and clears SYNC_ACCEPT, device ticks whose decision cycle is still
to come are undecided, and the halts of the Hearth and the edges of TRIG_IN keep their place in time; with START_VALID and an
image loaded it arms the release for START when that is at least 2 ticks ahead, and sets START_LATE when it is not or when
nothing may release the Hearth. While the Hearth runs the load is dropped and REFUSED is set (log entry 96). -/
def Obligations.SyncsAndFrcLoads : Prop :=
  (∀ (s : State) (v : W32), ∃ t, exec (.syncSend v) s = .next t ∧ t.frc = s.frc ∧
    t.getF timSyncCtrl_Forward = bitsAt v.toNat 3 1 ∧ t.getF timSyncCtrl_Self = bitsAt v.toNat 2 1 ∧
    t.getF timSyncCtrl_Start = bitsAt v.toNat 1 1 ∧
    (v.toNat.testBit 0 = false → t.zl = s.zl ∧ WordsKept [timSyncCtrl] s t) ∧
    (v.toNat.testBit 0 = true → ∀ n, n < 24 →
      ((s.getF timSyncTx_Links).testBit n = true → s.flag (zlLinkStatus_Frozen n) = true →
        (t.zlink n).syncOut = some (v.toNat.testBit 1, s.getF timSyncStart_Tick)) ∧
      ((s.getF timSyncTx_Links).testBit n = true → s.flag (zlLinkStatus_Frozen n) = false →
        t.zlink n = s.zlink n ∧ t.getF timSyncStat_Skipped = 1) ∧
      ((s.getF timSyncTx_Links).testBit n = false → t.zlink n = s.zlink n))) ∧
  (∀ (s : State) (l : SyncLoad), s.tim.load = some l → s.running = true → ∃ t, exec .frcLoad s = .next t ∧ t.frc = s.frc ∧
    t.tim = { s.tim with load := none } ∧ t.getF timSyncStat_Refused = 1 ∧ t.hearth = s.hearth ∧ WordsKept [timSyncStat] s t) ∧
  (∀ (s : State) (l : SyncLoad), s.tim.load = some l → s.running = false →
    let k := (l.target - l.rx + 128) / 256
    ∃ t, exec .frcLoad s = .next t ∧ t.frc = BitVec.ofNat 64 (unsint 64 (s.frc.toNat + k)) ∧
      t.getF timRefFrc_Ref = unsint 64 (s.getF timRefFrc_Ref + k) ∧ t.getF timSyncJump_K = unsint 64 k ∧
      t.getF timSyncStat_Resid = unsint 8 (l.target - (l.rx + 256 * k)) ∧ t.getF timSyncStat_Link = l.link % 128 ∧
      t.getF timSyncStat_Loaded = 1 ∧ t.getF timSyncAccept_Links = 0 ∧ t.tim.load = none ∧
      let hearth := { s.hearth with
        haltFrc := movedBy k s.hearth.haltFrc
        halts := s.hearth.halts.map fun h => (movedBy k h.1, movedBy k h.2) }
      t.trg = { s.trg with
        next := (t.frc.toNat + 63 - s.trgLat) / 64
        edgeAt := s.trg.edgeAt.map fun e => (e.1, movedEdge k e.2)
        edges := s.trg.edges.map fun e => (e.1, movedEdge k e.2) } ∧
      t.word96 (timBaseTime 0) = s.word96 (timBaseTime 0) ∧
      (l.startValid = true → s.hearth.img ≠ none → s.noRelease = false → t.tick + 2 ≤ l.start →
        t.hearth = { hearth with runAt := some l.start } ∧ t.getF glbImgState_ReleasePending = 1) ∧
      (l.startValid = true → s.noRelease = true ∨ l.start < t.tick + 2 → t.hearth = hearth ∧ t.getF timSyncStat_StartLate = 1))

/-! ### The Stoker (R297 to R323, R341, R430) -/

/-- Doorbells, fetches, starts, and the disabling of queues. While BAR4 answers, a doorbell below the ring size sets TAIL of a
submission queue or HEAD of a completion queue; any other sets DB_ERR and leaves them; while it does not, a doorbell changes
nothing. A fetch of a queue that reads adds the published descriptor at its place. When a chosen head can start, HEAD moves
on and the descriptor is in flight; one of a disabled class completes with CANCELLED and counts, and an unreadable one
completes with POISON and tag 0x3FF, neither in flight. Disabling a queue cancels all that is published and leaves HEAD at
TAIL; STK.CTRL.EN = 0 does so for all. A FUNC_EN write passes exactly the heads that it cancels. BM shows bus mastering. The
wait bits of a head are every reason that holds it. -/
def Obligations.QueuesPublishAndStart : Prop :=
  ∀ (s : State) (q : Nat), q < 16 →
    let hd := s.getF (stkSqHead_Index q)
    (∀ v : W32, s.barOn = false → exec (.sqDoorbell q v) s = .next s ∧ exec (.cqDoorbell q v) s = .next s) ∧
    (∀ v : W32, s.barOn = true →
      (v.toNat < s.sqSize q → ∃ t, exec (.sqDoorbell q v) s = .next t ∧ t.getF (stkSqTail_Index q) = v.toNat % 2 ^ 16 ∧
        WordsKept [stkSqTail q] s t ∧ Frame [.regs, .stk] s t) ∧
      (s.sqSize q ≤ v.toNat → ∃ t, exec (.sqDoorbell q v) s = .next t ∧ t.getF stkStatus_DbErr = 1 ∧
        WordsKept [stkStatus] s t ∧ Frame [.regs, .setNow, .stk] s t) ∧
      (v.toNat < s.cqSize q → ∃ t, exec (.cqDoorbell q v) s = .next t ∧ t.getF (stkCqHead_Index q) = v.toNat % 2 ^ 16 ∧
        WordsKept [stkCqHead q] s t ∧ Frame [.regs, .stk] s t) ∧
      (s.cqSize q ≤ v.toNat → ∃ t, exec (.cqDoorbell q v) s = .next t ∧ t.getF stkStatus_DbErr = 1 ∧
        WordsKept [stkStatus] s t ∧ Frame [.regs, .setNow, .stk] s t)) ∧
    (s.sqOn q = true → (s.sq q).fetched.length < 8 → (s.sq q).fetched.length < s.published q →
      (isHostAddr (s.getF (stkSqBase_Addr q)) = true → s.busOff = false) → ∃ t, exec (.descriptorFetch q) s = .next t ∧
      let r := (s.awRead 5 (s.sqSlot q (s.sq q).fetched.length) 64).2
      (t.sq q).fetched = (s.sq q).fetched ++ [(r.1, r.2.1)] ∧ t.stk.flights = s.stk.flights ∧ t.hearth = s.hearth) ∧
    (∀ d poi ds, s.startOrder.find? (fun q => (s.headState q).ready) = some q → (s.sq q).fetched = (d, poi) :: ds →
      ∃ t, exec .descriptorStart s = .next t ∧ t.getF (stkSqHead_Index q) = (hd + 1) % s.sqSize q % 2 ^ 16 ∧
        (t.sq q).fetched = ds ∧ (∀ p, p ≠ q → t.sq p = s.sq p) ∧
        (s.headState q = .start → descStatus d = stOk → ∃ f, t.stk.flights = s.stk.flights ++ [f] ∧ f.tag = dTag d ∧
          f.sq = q ∧ f.bytes = d ∧ f.begun = false ∧ f.ended = false ∧ t.stk.rr = q) ∧
        (s.headState q = .cancel → t.stk.flights = s.stk.flights ∧
          t.getF (stkSqCancelledF q) = satAdd 32 (s.getF (stkSqCancelledF q)) 1 ∧ ∃ e, e.status = stCancelled ∧ e.tag = dTag d ∧
          (t.cq (dCq d)).held = (s.cq (dCq d)).held ++ [e]) ∧
        (s.headState q = .poison → poi = true → t.stk.flights = s.stk.flights ∧ ∃ e, e.status = stPoison ∧ e.tag = 0x3FF ∧
          (t.cq q).held = (s.cq q).held ++ [e])) ∧
    (hd < s.sqSize q → s.getF (stkSqTail_Index q) < s.sqSize q → s.sqSize q ≤ 2 ^ 16 →
      (∃ t, exec (.sqDisable q) s = .next t ∧ t.getF (stkSqCtrl_En q) = 0 ∧ t.getF (stkSqHead_Index q) = s.getF (stkSqTail_Index q) ∧
        t.getF (stkSqCancelledF q) = satAdd 32 (s.getF (stkSqCancelledF q)) (s.published q) ∧
        t.stk.flights = s.stk.flights ∧ t.hearth = s.hearth) ∧
      ∀ v : W32, ∃ t, exec (.stkDisable v) s = .next t ∧ t.getF stkCtrl_En = bitsAt v.toNat 0 1 ∧
        t.getF stkCtrl_Balance = bitsAt v.toNat 1 1 ∧ t.stk.flights = s.stk.flights ∧
        (v.toNat.testBit 0 = true → WordsKept [stkCtrl] s t ∧ Frame [.regs] s t) ∧
        (v.toNat.testBit 0 = false → t.getF (stkSqHead_Index q) = s.getF (stkSqTail_Index q))) ∧
    (∀ v : W32,
      let s1 := s.setF ⟨stkFuncEn, 0, 4⟩ v.toNat
      ∃ t, exec (.funcEnWrite v) s = .next t ∧ t.getF ⟨stkFuncEn, 0, 4⟩ = bitsAt v.toNat 0 4 ∧ t.stk.flights = s.stk.flights ∧
        (s1.headState q = .cancel → (t.sq q).passed = (s.sq q).passed + 1) ∧ (s1.headState q ≠ .cancel → t.sq q = s.sq q)) ∧
    (∀ d ds, s.sqOn q = true → (s.sq q).fetched = (d, false) :: ds →
      s.waitBits q = ((s.fly (dTag d)).isSome || decide (512 ≤ s.stk.flights.length), s.waitFence q, s.waitRes d)) ∧
    (∀ b, ∃ t, exec (.busMasterChange b) s = .next t ∧ t.getF glbPcieStatus_Bm = b2n b ∧ WordsKept [glbPcieStatus] s t ∧
      Frame [.regs] s t)

/-- Entries are posted in order with the phase, and signalled. In an enabled completion queue with room: the oldest entry that
waits is written to the ring slot at the tail, type and phase in its first two bytes, without Relaxed Ordering; it no longer
waits, its descriptor's tag is free, POSTED counts it, the tail moves on, and the phase inverts exactly when the tail wraps;
with IRQ_EN the vector becomes pending when the entry asks for it or COUNT is reached. An entry left unsignalled for 64 ticks
makes the vector pending. A CQ.CFG write with IRQ_EN and COUNT 0 is refused; one with EN starts the queue at tail 0 and phase
1. -/
def Obligations.EntriesArePostedAndSignalled : Prop :=
  ∀ (s : State) (q : Nat), q < 16 →
    let base := s.getF (stkCqBase_Addr q)
    let tail := s.getF (stkCqTail_Index q)
    (∀ e es, (s.cq q).held = e :: es → s.flag (stkCqCfg_En q) = true → s.cqFull q = false →
      (isHostAddr base = true → s.busOff = false) → ∃ t, exec (.completionPost q) s = .next t ∧ (t.cq q).held = es ∧
      t.getF (stkCqTail_Index q) = (tail + 1) % s.cqSize q % 2 ^ 16 ∧
      t.getF (stkCqPostedF q) = satAdd 32 (s.getF (stkCqPostedF q)) 1 ∧
      ((tail + 1) % s.cqSize q = 0 → t.getF (stkCqStat_Phase q) = 1 - s.getF (stkCqStat_Phase q)) ∧
      ((tail + 1) % s.cqSize q ≠ 0 → t.getF (stkCqStat_Phase q) = s.getF (stkCqStat_Phase q)) ∧
      (∀ g, e.rel = some g → t.fly g = none) ∧ (∀ p, p ≠ q → t.cq p = s.cq p) ∧
      (s.flag (stkCqCfg_IrqEn q) = true → e.irq = true ∨ s.getF (stkCqCfg_Count q) ≤ (s.cq q).unsig + 1 →
        (t.cq q).unsig = 0 ∧ t.pcie.pending.toNat.testBit (s.getF (stkCqCfg_Vector q)) = true) ∧
      (s.flag (stkCqCfg_IrqEn q) = false → t.pcie.pending = s.pcie.pending) ∧
      (base % 64 = 0 → isHostAddr base = true → base + 64 * tail + 64 ≤ 2 ^ 64 →
        t.pcie.posted = some ((base + 64 * tail) % 2 ^ 63, 2, false) ∧
        t.hostBytes ((base + 64 * tail) % 2 ^ 63) 64 =
          [BitVec.ofNat 8 e.ty, BitVec.ofNat 8 (s.getF (stkCqStat_Phase q))] ++ s.entryTail e)) ∧
    (s.flag (stkCqCfg_IrqEn q) = true → 0 < (s.cq q).unsig → (s.cq q).unsigTick + 64 ≤ s.tick →
      ∃ t, exec (.cqIrqTimeout q) s = .next t ∧ (t.cq q).unsig = 0 ∧
        t.pcie.pending.toNat.testBit (s.getF (stkCqCfg_Vector q)) = true ∧ Frame [.stk, .pcie] s t) ∧
    (∀ v : W32,
      (v.toNat.testBit 30 = true → bitsAt v.toNat 8 8 = 0 → ∃ t, exec (.cqEnable q v) s = .next t ∧
        t.getF stkStatus_WrRefused = 1 ∧ WordsKept [stkStatus] s t ∧ Frame [.regs, .setNow] s t) ∧
      (¬ (v.toNat.testBit 30 = true ∧ bitsAt v.toNat 8 8 = 0) → ∃ t, exec (.cqEnable q v) s = .next t ∧
        t.getF (stkCqCfg_En q) = bitsAt v.toNat 31 1 ∧ t.getF (stkCqCfg_IrqEn q) = bitsAt v.toNat 30 1 ∧
        t.getF (stkCqCfg_Vector q) = bitsAt v.toNat 16 8 ∧ t.getF (stkCqCfg_Count q) = bitsAt v.toNat 8 8 ∧
        (v.toNat.testBit 31 = true → t.getF (stkCqTail_Index q) = 0 ∧ t.getF (stkCqStat_Phase q) = 1) ∧
        (v.toNat.testBit 31 = false → t.getF (stkCqTail_Index q) = tail) ∧ Frame [.regs, .setNow] s t))

/-- FENCE and BARRIER begin, hold their queue, complete and time out. A FENCE or BARRIER in flight that has not completed holds
the head of its queue. A FENCE completes with FRC, as it stood before an FRC load of its cycle, as its RESULT exactly when
every descriptor ahead of it in its queue has posted its completion: none has still to leave the queue, none is in flight
that a function-level reset has not abandoned, and none that never started has its completion held. A BARRIER fixes at its
start, for its own queue, the places ahead of it, for each other queue of QUEUES those from HEAD to TAIL, and the limit tick;
it completes with OK when nothing is left to wait for; TIMEOUT ticks after its start it completes with TIMEOUT and the queues
and sources that are left. None of them touches what it waits for. -/
def Obligations.FencesAndBarriersWait : Prop :=
  (∀ (s : State) (q : Nat) (f : Fly), f ∈ s.stk.flights → f.sq = q → f.ended = false → (dOp f.bytes = 6 ∨ dOp f.bytes = 7) →
    s.headState q ≠ .start) ∧
  (∀ (s : State) (tag : Nat) (f : Fly), Waits s tag 0x06 f → ∃ t, exec (.fenceDesc tag) s = .next t ∧
    t.fly tag = some { f with begun := true } ∧ Frame [.stk] s t) ∧
  (∀ (s : State) (tag : Nat) (f : Fly), Runs s tag f → dOp f.bytes = 0x06 → f.begun = true →
    let ahead : Prop := (s.sq f.sq).passed < f.seq ∨ (∃ g ∈ s.stk.flights, g.sq = f.sq ∧ g.orphan = false ∧ g.seq < f.seq) ∨
      ∃ c ∈ s.stk.cqs, ∃ e ∈ c.2.held, e.ty = 0 ∧ e.rel = none ∧ e.sq = f.sq ∧ e.place < f.seq
    (¬ (0 < f.seq ∧ ahead) → ∃ t, exec (.fenceComplete tag) s = .next t ∧
      Ended f stOk s.stampFrc s t ∧ t.stk.sqs = s.stk.sqs ∧ Frame [.stk] s t) ∧
    (0 < f.seq ∧ ahead → exec (.fenceComplete tag) s = .next s)) ∧
  (∀ (s : State) (tag : Nat) (f : Fly), Waits s tag 0x07 f → ∃ t g, exec (.barrierDesc tag) s = .next t ∧ t.fly tag = some g ∧
    g.begun = true ∧
    (∀ q lo hi, (q, lo, hi) ∈ g.waits ↔ (q = f.sq ∧ lo = 0 ∧ hi = f.seq) ∨ (q < 16 ∧ q ≠ f.sq ∧
      (dfield f.bytes 8 2).testBit q = true ∧ lo = (s.sq q).passed ∧ hi = (s.sq q).passed + s.published q)) ∧
    g.limit = (if dfield f.bytes 16 8 = 0 then s.tick else dfield f.bytes 16 8) ∧ Frame [.stk] s t) ∧
  (∀ (s : State) (tag : Nat) (f : Fly), Runs s tag f → dOp f.bytes = 0x07 → f.begun = true →
    (s.barrierLeft f = (0, 0) → ∃ t, exec (.barrierComplete tag) s = .next t ∧ Ended f stOk 0 s t ∧
      t.stk.sqs = s.stk.sqs ∧ Frame [.stk] s t) ∧
    (s.barrierLeft f ≠ (0, 0) → exec (.barrierComplete tag) s = .next s ∧
      (f.startTick + dfield f.bytes 12 4 ≤ s.tick → ∃ t, exec (.barrierTimeout tag) s = .next t ∧
        Ended f stTimeout ((s.barrierLeft f).1 + 2 ^ 16 * (s.barrierLeft f).2) s t ∧ t.stk.sqs = s.stk.sqs ∧
        (∀ g ∈ s.stk.flights, g.tag ≠ tag → g ∈ t.stk.flights) ∧ Frame [.stk] s t)))

/-- RUN begins, chunks are assigned, ports feed and drain, summaries enter, and RUN completes. RUN of a graph that is not there
ends with NO_GRAPH, one with a bad operand with BAD_OPERAND; a TENSOR one begins with its chunks all to assign and its warm
units at bundle 0 with no window closed, but waits while the DMA line holds and it has carried state to read, which is the
model's choice (log entry 70); the beginning of a RUN in EXPAND mode is left out. The next chunk goes to the replica that the
rules pick, and another than its own is a choice. A west port with room takes the next token of the chunk of its replica, and
a queue's head crosses when the slot table takes it. An output token of a replica is written at its place; a MARK only sets
the epoch. The next summary enters, and one ahead of a lower chunk's is a choice. Its writes to host memory carry Relaxed
Ordering where Device Control enables it. A RUN whose writes have landed ends with its status and RESULT, and its units stop. -/
def Obligations.RunsFeedDrainAndEnd : Prop :=
  (∀ (s : State) (tag : Nat) (f : Fly), Waits s tag 0x03 f → ∃ t, exec (.runDesc tag) s = .next t ∧
    ((∀ i, s.hearth.img = some i → i.graphs.find? (fun g => g.graph == dfield f.bytes 8 2) = none) →
      Ended f stNoGraph 0 s t ∧ Frame [.stk] s t) ∧
    (∀ i g, s.hearth.img = some i → i.graphs.find? (fun g => g.graph == dfield f.bytes 8 2) = some g →
      (runOperands f.bytes = false → Ended f stBadOperand 0 s t ∧ Frame [.stk] s t) ∧
      (runOperands f.bytes = true → s.dmaHeld = true → g.comb.isSome = true → 0 < g.stateBytes → t = s) ∧
      (runOperands f.bytes = true → dfield f.bytes 10 1 = 0 → s.dmaHeld = false ∨ g.comb = none ∨ g.stateBytes = 0 → ∃ r, t.stk.runs = s.stk.runs ++ [r] ∧ r.tag = tag ∧ r.graph = g ∧
        r.nextChunk = 0 ∧ r.chunks = (dfield f.bytes 12 4 + g.chunk - 1) / g.chunk ∧ r.choices = 0 ∧
        ∀ u ∈ s.graphUnits g, s.unitMode u = 2 → (t.unit u).graphOn = true ∧ (t.unit u).bundle = 0 ∧ (t.unit u).step = 0 ∧
          (t.unit u).wins = 0))) ∧
  (∀ (s : State) (tag j : Nat) (r : Run) (p : Replica), s.runOf tag = some r → r.pick = some j → r.replicas[j]? = some p →
    let is := j != r.nextChunk % r.graph.replicas
    ∃ t r', exec (.chunkAssign tag) s = .next t ∧ t.runOf tag = some r' ∧ r'.nextChunk = r.nextChunk + 1 ∧
      r'.replicas[j]? = some { p with chunk := some r.nextChunk, sent := 0, outChunks := p.outChunks ++ [r.nextChunk] } ∧
      r'.choices = r.choices + b2n is ∧ t.getF stkChoicesF = satAdd stkChoicesF.width (s.getF stkChoicesF) (b2n is) ∧
      Frame [.regs, .incNow, .stk] s t) ∧
  (∀ (s : State) (port : Nat), port < 50 →
    let key := portKey port
    let e := s.edge key
    s.running = true → s.relay (edgeSite key) = false → s.grMode (edgeSite key) = 2 → ∃ t, exec (.streamPortSend port) s = .next t ∧
      (∀ r j p c, port % 2 = 0 → s.dmaHeld = false → e.tx.toks.length < 64 → s.portRole key = some (r, some j) →
        r.replicas[j]? = some p → p.chunk = some c → p.sent < r.graph.chunkTokens →
        ∃ r', t.runOf r.tag = some r' ∧ r'.replicas[j]? = some { p with sent := p.sent + 1 }) ∧
      (∀ k ks, (port % 2 = 1 ∨ s.dmaHeld = true ∨ 64 ≤ e.tx.toks.length) → e.tx.toks = k :: ks →
        slotMask (s.grate (edgeSite key)) (edgeSite key) (port % 2) (s.grEntry (edgeSite key) 0) ≠ 0 →
        mayWait e.txWord e.tx = false → (t.edge key).tx = sentFrom e.txWord e.tx ∧
        t.hearth.present = s.hearth.present ++ [(edgeSite key, port % 2, { k with port := some key })])) ∧
  (∀ (s : State) (port : Nat) (k : Token) (ks : List Token), port < 50 → s.running = true → s.dmaHeld = false →
    let key := portKey port
    ((s.edge key).inQ key).toks = k :: ks →
    (k.mark = true → ∃ t, exec (.streamPortDrain port) s = .next t ∧ (t.edge key).rx.epoch = k.epoch ∧ t.stk = s.stk) ∧
    (∀ r j p c cs, k.mark = false → k.void = false → s.portRole key = some (r, some j) → r.replicas[j]? = some p →
      p.outChunks = c :: cs → p.drained < r.graph.outChunk → ∃ t r', exec (.streamPortDrain port) s = .next t ∧
      t.runOf r.tag = some r' ∧ r'.written = r.written + 1 ∧ r'.sawPoison = (r.sawPoison || k.poison) ∧
      let aw := r.outAddr + 64 * (r.graph.outChunk * c + p.drained)
      (isHostAddr aw = true → s.busOff = false → t.hostBytes (aw % 2 ^ 63) 64 = leBytes 64 k.data.toNat ∧
        t.pcie.posted = some (aw % 2 ^ 63, 64, s.pcie.relaxOn)))) ∧
  (∀ (s : State) (tag c : Nat) (r : Run) (ts : List (BitVec 512 × Tags)), s.runOf tag = some r → r.nextSummary = some (c, ts) →
    ∃ t r', exec (.summaryEnter tag) s = .next t ∧ t.runOf tag = some r' ∧ r'.entered = r.entered ++ [c] ∧
      r'.combQueue = r.combQueue ++ ts ∧ r'.choices = r.choices + b2n ((List.range c).any fun i => !r.entered.contains i)) ∧
  (∀ (s : State) (tag : Nat) (r : Run) (f : Fly), s.runOf tag = some r → r.ended = true → Runs s tag f →
    ∃ t, exec (.runComplete tag) s = .next t ∧ Ended f r.status r.result s t ∧ t.runOf tag = none ∧
      (∀ u ∈ s.graphUnits r.graph, (t.unit u).graphOn = false) ∧ Frame [.stk, .hearth] s t)

/-- COPY, FILL and the services do their work, land and complete. COPY and FILL, while the hold line does not hold, put their
bytes at the destination and wait to land; between ranges of host memory that do not overlap, exactly the source bytes, and
the repeated pattern, with OK and the byte count. TIMESTAMP without DST completes with FRC; with one it writes device time
when it lands, and FRC and device time are sampled then; FRC is the one that stood before an FRC load of the cycle. SNAPSHOT
is BUSY while one runs, whatever its operands are (the order of the two tests is the model's choice, log entry 37),
BAD_OPERAND with a START closer than two ticks, and starts one otherwise. READ_DIGESTS writes the digest table cut at MAX.
ATTEST waits for a busy Firebox and is served by an idle one. When TIMESTAMP samples and that ATTEST waits are the model's
choices (log entry 69). RESYNC of either kind counts in RESYNC_SEQ and writes its summary; a second register RESYNC is
refused while one writes. What lands completes with the outcome that waits. Where a request for host memory is not completed,
a COPY lands with POISON, or with BUS_OFF where it was refused; a RUN keeps the same for its end, and the tokens of those
bytes that have not yet entered are lost or poisoned; a load ends with LOAD_ERR_POISON, or BUS_OFF where it was refused, and
leaves no image when it was the second pass of a FULL load. RESULT 0 of a COPY to a destination that the bus refuses, and the
end of a load by a timeout, are the model's choices (log entry 68). -/
def Obligations.DmaAndServicesComplete : Prop :=
  ∀ (s : State) (tag : Nat) (f : Fly),
    let d := f.bytes
    let lands (t : State) (st res : Nat) : Prop := t.fly tag = some { f with begun := true, outcome := some (st, res) }
    (Waits s tag 0x04 f → s.dmaHeld = false → ∃ t, exec (.copyDesc tag) s = .next t ∧
      (∃ st, lands t st (if isHostAddr (dfield d 16 8) && s.busOff then 0 else dfield d 24 8)) ∧
      (isHostAddr (dfield d 8 8) = true → isHostAddr (dfield d 16 8) = true → s.busOff = false →
        dfield d 8 8 + dfield d 24 8 ≤ dfield d 16 8 ∨ dfield d 16 8 + dfield d 24 8 ≤ dfield d 8 8 →
        dfield d 8 8 + dfield d 24 8 ≤ 2 ^ 64 → dfield d 16 8 + dfield d 24 8 ≤ 2 ^ 64 → lands t stOk (dfield d 24 8) ∧
        t.hostBytes (dfield d 16 8 % 2 ^ 63) (dfield d 24 8) = s.hostBytes (dfield d 8 8 % 2 ^ 63) (dfield d 24 8) ∧
        (0 < dfield d 24 8 → ∃ a m, t.pcie.posted = some (a, m, s.pcie.relaxOn)))) ∧
    (Waits s tag 0x05 f → s.dmaHeld = false → ∃ t, exec (.fillDesc tag) s = .next t ∧
      (isHostAddr (dfield d 8 8) = false → lands t stOk (dfield d 16 8)) ∧
      (isHostAddr (dfield d 8 8) = true → s.busOff = false → dfield d 8 8 + dfield d 16 8 ≤ 2 ^ 64 →
        lands t stOk (dfield d 16 8) ∧ ∀ i, i < dfield d 16 8 →
          t.hostBytes (dfield d 8 8 % 2 ^ 63 + i) 1 = [listGet 0 (leBytes 8 (dfield d 24 8)) (i % 8)])) ∧
    (Waits s tag 0x08 f →
      (dfield d 8 8 = 0 → ∃ t, exec (.timestampDesc tag) s = .next t ∧ Ended f stOk s.stampFrc s t ∧ Frame [.stk] s t) ∧
      (dfield d 8 8 ≠ 0 → ∃ t, exec (.timestampDesc tag) s = .next t ∧ lands t stOk 0 ∧ Frame [.stk] s t)) ∧
    (Waits s tag 0x09 f →
      (s.flag ingStatus_SnapBusy = true → ∃ t, exec (.snapshotDesc tag) s = .next t ∧ Ended f stBusy 0 s t ∧ t.ing = s.ing) ∧
      (s.flag ingStatus_SnapBusy = false → dfield d 24 8 ≠ 0 → dfield d 24 8 < s.tick + 2 →
        ∃ t, exec (.snapshotDesc tag) s = .next t ∧ Ended f stBadOperand 0 s t ∧ t.ing = s.ing) ∧
      (s.flag ingStatus_SnapBusy = false → dfield d 24 8 = 0 ∨ s.tick + 2 ≤ dfield d 24 8 → 0 < dfield d 16 4 → dfield d 16 4 < 2 ^ 24 →
        ∃ t, exec (.snapshotDesc tag) s = .next t ∧ t.getF ingStatus_SnapBusy = 1 ∧ t.getF ingSnapCtrl_Ticks = dfield d 16 4 ∧
          t.ing = { s.ing with snapLeft := dfield d 16 4, snapIdx := 0, snapFrom := dfield d 24 8, snapCyc := s.cyc + 1,
                               snapTag := some tag })) ∧
    (Waits s tag 0x0C f → (isHostAddr (dfield d 8 8) = true → s.busOff = false) → ∃ t, exec (.readDigests tag) s = .next t ∧
      lands t (if dfield d 16 4 < s.digestTable.length then stShort else stOk) (min (dfield d 16 4) s.digestTable.length) ∧
      t.hearth = s.hearth) ∧
    (Waits s tag 0x0D f → s.sec.stopped = false →
      (∀ b, s.sec.busy = some b → ∃ t, exec (.attestDesc tag) s = .next t ∧
        t.sec = { s.sec with waiting := s.sec.waiting ++ [tag] } ∧ t.fly tag = some { f with begun := true }) ∧
      (s.sec.busy = none → s.sec.waiting = [] → ∃ t r n o, exec (.attestDesc tag) s = .next t ∧
        t.sec.busy = some (some tag, r, n, o) ∧ t.sec.waiting = [] ∧ t.getF secStatus_Busy = 1)) ∧
    (Waits s tag 0x0E f → (isHostAddr (dfield d 8 8) = true → s.busOff = false) → ∃ t, exec (.resyncDesc tag) s = .next t ∧
      t.getF stkResyncSeq_Seq = (s.getF stkResyncSeq_Seq + 1) % 2 ^ 32 ∧
      lands t stOk ((s.getF stkResyncSeq_Seq + 1) % 2 ^ 32)) ∧
    (s.stk.resyncBusy = false → (isHostAddr (s.getF stkResyncAddr_Addr) = true → s.busOff = false) →
      ∃ t, exec .resyncGo s = .next t ∧ t.getF stkResyncSeq_Seq = (s.getF stkResyncSeq_Seq + 1) % 2 ^ 32 ∧
        t.stk.resyncBusy = true) ∧
    (s.stk.resyncBusy = true → (∃ t, exec .resyncGo s = .next t ∧ t.getF stkStatus_WrRefused = 1 ∧ WordsKept [stkStatus] s t ∧
        Frame [.regs, .setNow] s t) ∧
      ∃ t, exec (.dmaComplete none) s = .next t ∧ t.getF stkStatus_ResyncDone = 1 ∧ t.stk.resyncBusy = false ∧
        WordsKept [stkStatus] s t ∧ Frame [.regs, .setNow, .stk] s t) ∧
    (Runs s tag f → ∀ st res, f.outcome = some (st, res) →
      (opClass (dOp d) ≠ some 2 → dOp d ≠ 0x08 → ∃ t, exec (.dmaComplete (some tag)) s = .next t ∧ Ended f st res s t ∧
        Frame [.stk] s t) ∧
      (dOp d = 0x08 → isHostAddr (dfield d 8 8) = true → s.busOff = false →
        ∃ t, exec (.dmaComplete (some tag)) s = .next t ∧ Ended f stOk s.stampFrc s t ∧
          t.hostBytes (dfield d 8 8 % 2 ^ 63) 12 = leBytes 12 s.timeNow ∧ Frame [.stk, .hostMem, .pcie] s t) ∧
      (dOp d = 0x04 → tag < 512 → isHostAddr (dfield d 8 8) = true → st ≠ stBusOff → ∀ off len b, 0 < len → off < dfield d 24 8 →
        ∃ t, exec (.completionTimeout tag off len b) s = .next t ∧
          t.fly tag = some { f with outcome := some (if b then stBusOff else stPoison, res) })) ∧
    (s.fly tag = some f → tag < 512 → dOp d = 0x03 → ∀ r, s.runOf tag = some r → ∀ off len b, 0 < len →
      (off < 2 * r.elems → r.inMode = 0 → isHostAddr r.inAddr = true →
        ∃ t r', exec (.completionTimeout tag off len b) s = .next t ∧ t.runOf tag = some r' ∧ r'.lost = r.lost ++ [(off, len)] ∧
          r'.sawPoison = (r.sawPoison || !b) ∧ r'.busOff = (r.busOff || b) ∧ Frame [.stk, .pcie] s t) ∧
      (2 * r.elems ≤ off → off - 2 * r.elems < r.graph.stateBytes → r.graph.comb.isSome = true → isHostAddr r.stateAddr = true →
        ∃ t r', exec (.completionTimeout tag off len b) s = .next t ∧ t.runOf tag = some r' ∧
          r'.sawPoison = (r.sawPoison || !b) ∧ r'.busOff = (r.busOff || b) ∧ r'.combQueue.length = r.combQueue.length ∧
          (∀ k, k < r.combQueue.length → 64 * (r.combSent + k) < min r.graph.stateBytes (off - 2 * r.elems + len) →
            off - 2 * r.elems < 64 * (r.combSent + k + 1) → ∃ v, r'.combQueue[k]? = some (v, ⟨false, true⟩)) ∧
          Frame [.stk, .pcie, .freeIx] s t)) ∧
    (Runs s tag f → tag < 512 → dOp d = 0x01 → ∀ l, s.hearth.load = some l → l.tag = tag → l.desc = d → l.pass = 1 ∨ l.pass = 3 →
      isHostAddr (dfield d 8 8) = true → ∀ off len b, ∃ t, exec (.completionTimeout tag off len b) s = .next t ∧ t.hearth.load = none ∧
        (b = false → t.getF glbLoadStatus_Code = 4 ∧ Ended f (stLoader 4) 0 s t) ∧ (b = true → Ended f stBusOff 0 s t) ∧
        (l.pass = 3 → l.full = true → t.hearth.img = none))

/-! ### HBM and the BAR2 window (R371 to R388) -/

/-- An access above HBM is a decode error. With the Ashpit released, for every address at or above 0x48_0000_0000, every master
and whatever the read meets and whoever waits: a sector read delivers 32 zero bytes with poison, a sector write leaves all
that HBM and its buffers hold as it is, and each adds one to DECODE_ERR and leaves an assertion of source 29 as the last. -/
def Obligations.AccessAboveHbmIsADecodeError : Prop :=
  ∀ (s : State) (m a : Nat), 0x4800000000 ≤ a → s.flt.released = true →
    let raised (t : State) : Prop := t.getF memDecodeErrF = satAdd 32 (s.getF memDecodeErrF) 1 ∧
      (t.flt.pend.map Assertion.src).getLast? = some 29 ∧ t.flt.pend.dropLast = s.flt.pend
    let kept (t : State) : Prop := t.mem.hbm = s.mem.hbm ∧ t.mem.check = s.mem.check ∧ t.mem.merge = s.mem.merge ∧
      Frame [.regs, .setNow, .incNow, .flt, .mem] s t
    (∀ err hard, ∃ t, exec (.hbmSectorRead m a err hard) s = .next t ∧ raised t ∧ t.mem.out = List.replicate 32 0 ∧
      t.mem.outPoison = true ∧ kept t) ∧
    (∀ mask data poi, ∃ t, exec (.hbmSectorWrite m a mask data poi) s = .next t ∧ raised t ∧ t.mem.out = s.mem.out ∧ kept t)

/-- Sectors are written, merged, corrected and read. In a working sector, with no injection armed and the pseudo-channel free: a
whole-sector write stores the bytes with fresh check bits or with poison, and drops the sector's held entry; a read of a
sector with fresh check bits delivers its bytes, corrects any one symbol in error, a hard fault too, and counts it in CE; a
poisoned sector is delivered as poisoned and counted in UE. A partial write waits in its pseudo-channel's buffer and changes
no stored byte. Where the cycle's slot is taken a request waits, and so does one while the crossing to its stack
resynchronises, and one of class 1 while ACQ has bytes for the pseudo-channel, of which some are written. That a
pseudo-channel has one slot in each core cycle, and what a refresh waits for, are the model's choices (log entry 11), as are
the part of ACQ's buffer that a turn writes (log entry 62) and a stack behind a failed crossing as a decode error (log entry
101). A held entry is merged into its sector at its timeout and by READ_MODIFY_WRITE for a waiting read of the sector or, the
oldest of a full buffer, for a waiting write that needs an entry, and stays otherwise; in a failed stack it is a decode
error. A refresh takes a slot, at once where nothing waits, and no data; the bucket leaks by one for every interval that has
passed, INJ arms once, clearing keeps all but the counters, and BAR2 reads and writes at its base, within the sizes of Device
Control, and answers Unsupported Request in D3hot. -/
def Obligations.HbmStoresAndDelivers : Prop :=
  (∀ (s : State) (m a : Nat), s.secBad (a / 32) = false → s.flag memInj_Armed = false → s.hbmIdle (a / 32) = true → m ≤ 10 →
    let sec := a / 32
    let fresh : List Byte := [0, 0, 0, 0]
    (∀ (data : BitVec 256) (poi : Bool), ∃ t, exec (.hbmSectorWrite m a 0xFFFFFFFF data poi) s = .next t ∧
      t.secBytes sec = leBytes 32 data.toNat ∧ t.secDiff sec = (if poi then poisonDiff else fresh) ∧ t.held sec = none ∧
      (∀ x, x ≠ sec → t.secBytes x = s.secBytes x ∧ t.secDiff x = s.secDiff x) ∧ t.getF memDecodeErrF = s.getF memDecodeErrF) ∧
    (∀ (data : BitVec 256) (mask : W32), mask ≠ 0 → mask ≠ 0xFFFFFFFF → s.held sec = none →
      (s.mem.merge.filter fun e => pcOf e.sector == pcOf sec).length < 64 →
      ∃ t e, exec (.hbmSectorWrite m a mask data false) s = .next t ∧ t.held sec = some e ∧ e.mask = mask ∧
        (∀ i, i < 32 → mask.toNat.testBit i = true → listGet 0 (leBytes 32 e.data.toNat) i = listGet 0 (leBytes 32 data.toNat) i) ∧
        t.mem.hbm = s.mem.hbm ∧ t.mem.check = s.mem.check ∧ Frame [.mem] s t) ∧
    (s.held sec = none → s.secDiff sec = fresh → mget (fun _ => 0) s.mem.faults sec = 0 →
      (∃ t, exec (.hbmSectorRead m a 0 none) s = .next t ∧ t.mem.out = s.secBytes sec ∧ t.mem.outPoison = false ∧
        t.mem.hbm = s.mem.hbm ∧ Frame [.mem] s t) ∧
      (∀ (i : Nat) (e : Byte), i < 36 → e ≠ 0 →
        let err : BitVec 288 := BitVec.ofNat 288 (e.toNat * 2 ^ (8 * i))
        let fixed (t : State) : Prop := t.mem.out = s.secBytes sec ∧ t.mem.outPoison = false ∧
          t.getF (memStackCeF (stackOf sec)) = satAdd 32 (s.getF (memStackCeF (stackOf sec))) 1
        (∃ t, exec (.hbmSectorRead m a err none) s = .next t ∧ fixed t ∧ mget (fun _ => 0) t.mem.faults sec = 0) ∧
        (∃ t, exec (.hbmSectorRead m a 0 (some err)) s = .next t ∧ fixed t ∧ mget (fun _ => 0) t.mem.faults sec = err))) ∧
    (s.held sec = none → s.secDiff sec = poisonDiff → mget (fun _ => 0) s.mem.faults sec = 0 → ∃ t, exec (.hbmSectorRead m a 0 none) s = .next t ∧
      t.mem.out = s.secBytes sec ∧ t.mem.outPoison = true ∧
      t.getF (memStackUeF (stackOf sec)) = satAdd 32 (s.getF (memStackUeF (stackOf sec))) 1)) ∧
  (∀ (s : State) (m a : Nat) (err : BitVec 288), s.secBad (a / 32) = false →
    let pc := pcOf (a / 32)
    let r : HbmReq := ⟨m, a, none, err⟩
    (mget (fun _ => 0) s.mem.slots pc = s.cyc + 1 →
      exec (.hbmSectorRead m a err none) s = .next { s with mem := { s.mem with waits := s.mem.waits ++ [r] } }) ∧
    (s.syncing (14 + pc % 6) = true →
      exec (.hbmSectorRead m a err none) s = .next { s with mem := { s.mem with waits := s.mem.waits ++ [r] } }) ∧
    (∀ c n, s.syncing (14 + pc % 6) = false → s.waitsAt pc = [] → mget (fun _ => 0) s.mem.slots pc ≠ s.cyc + 1 → 3 ≤ m → m ≤ 10 → s.acqWaits pc = some (c, n) →
      (s.pool c).wbuf ≠ [] → ∃ t, exec (.hbmSectorRead m a err none) s = .next t ∧ t.mem.waits = s.mem.waits ++ [r] ∧
        t.mem.out = s.mem.out ∧ (t.pool c).wbuf.length < (s.pool c).wbuf.length)) ∧
  (∀ (s : State) (sec : Nat) (e : MergeEnt), s.held sec = some e →
    let rmwF := memStackMergeRmwF (stackOf sec)
    let evictF := memStackMergeEvictF (stackOf sec)
    let due : Prop := s.getF memMergeCfg_Timeout ≤ s.cyc - e.born
    (s.secBad sec = false → s.flag memInj_Armed = false → s.secDiff sec = [0, 0, 0, 0] → mget (fun _ => 0) s.mem.faults sec = 0 →
      let merged (t : State) : Prop := t.held sec = none ∧ t.secDiff sec = [0, 0, 0, 0] ∧
        t.secBytes sec = mergeBytes (s.secBytes sec) (leBytes 32 e.data.toNat) e.mask
      (s.readWaits sec = true → ∃ t, exec (.readModifyWrite sec 2 0) s = .next t ∧ merged t ∧ t.getF rmwF = satAdd 32 (s.getF rmwF) 1) ∧
      (s.entryNeeded (pcOf sec) = true → s.evictee (pcOf sec) = some e → ∃ t, exec (.readModifyWrite sec 1 0) s = .next t ∧ merged t ∧
        t.getF evictF = satAdd 32 (s.getF evictF) 1) ∧
      (due → (∃ t, exec (.readModifyWrite sec 0 0) s = .next t ∧ merged t ∧ t.getF rmwF = satAdd 32 (s.getF rmwF) 1) ∧
        ∃ t, exec (.mergeTimeout sec) s = .next t ∧ merged t ∧ t.getF rmwF = satAdd 32 (s.getF rmwF) 1)) ∧
    (s.secBad sec = true → due → ∃ t, exec (.mergeTimeout sec) s = .next t ∧ t.held sec = none ∧ t.mem.hbm = s.mem.hbm ∧
      t.mem.check = s.mem.check ∧ t.getF memDecodeErrF = satAdd 32 (s.getF memDecodeErrF) 1) ∧
    (s.readWaits sec = false → ∀ err, exec (.readModifyWrite sec 2 err) s = .next s) ∧
    (s.entryNeeded (pcOf sec) = false ∨ s.evictee (pcOf sec) ≠ some e → ∀ err, exec (.readModifyWrite sec 1 err) s = .next s) ∧
    (¬ due → exec (.mergeTimeout sec) s = .next s ∧ ∀ err, exec (.readModifyWrite sec 0 err) s = .next s)) ∧
  (∀ (s : State) (pc b : Nat), (pc < 384 → ∃ t, exec (.hbmRefresh pc b) s = .next t ∧
      (s.channelIdle pc = true → mget (fun _ => 0) t.mem.slots pc = s.cyc + 1 ∧ t.mem.due = s.mem.due ∧ Frame [.mem] s t) ∧
      (s.channelIdle pc = false → mget (fun _ => 0) t.mem.slots pc = s.cyc + 1 ∧ t.mem.due = s.mem.due ∨
        t.mem.slots = s.mem.slots ∧ ∃ limit, t.mem.due = s.mem.due ++ [(pc, limit)]) ∧
      t.mem.hbm = s.mem.hbm ∧ t.mem.check = s.mem.check ∧ t.mem.waits = s.mem.waits ∧ t.mem.merge = s.mem.merge ∧
      Frame [.mem, .freeIx] s t) ∧
    (384 ≤ pc → exec (.hbmRefresh pc b) s = .next s)) ∧
  (∀ (s : State) (st c : Nat), st < 6 → (∃ t, exec (.hotRefresh st c) s = .next t ∧
      t.getF (memStackStatus_HotRefresh st) = b2n (decide (85 < c)) ∧ WordsKept [memStackStatus st] s t ∧ Frame [.regs] s t) ∧
    (let step := s.getF (memStackCfg_Leak st) * 1024;
      let n := (s.tick - mget (fun _ => 0) s.mem.leakFrom st) / step
      (step ≠ 0 → 0 < n → ∃ t, exec (.hbmBucketLeak st) s = .next t ∧
        t.getF (memStackBucket_Level st) = s.getF (memStackBucket_Level st) - n ∧
        mget (fun _ => 0) t.mem.leakFrom st = mget (fun _ => 0) s.mem.leakFrom st + step * n ∧ t.mem.hbm = s.mem.hbm ∧
        WordsKept [memStackBucket st] s t ∧ Frame [.regs, .mem] s t) ∧
      (step = 0 ∨ n = 0 → exec (.hbmBucketLeak st) s = .next s))) ∧
  (∀ (s : State) (v : W32),
    (s.flag memInj_Armed = true → ∃ t, exec (.memInjWrite v) s = .next t ∧ t.getF memStatus_WrRefused = 1 ∧
      WordsKept [memStatus] s t ∧ Frame [.regs, .setNow] s t) ∧
    (s.flag memInj_Armed = false → bitsAt v.toNat 3 3 < 6 → bitsAt v.toNat 0 2 < 3 → ∃ t, exec (.memInjWrite v) s = .next t ∧
      t.getF memInj_Stack = bitsAt v.toNat 3 3 ∧ t.getF memInj_Mode = bitsAt v.toNat 0 2 ∧
      t.getF memInj_Armed = b2n (bitsAt v.toNat 0 2 != 0) ∧ WordsKept [memInj] s t ∧ Frame [.regs] s t)) ∧
  (∀ s : State, ∃ t, exec .clrCntMem s = .next t ∧ (∀ off ∈ memCounters, t.word off = resetWord s.part off) ∧
    WordsKept memCounters s t ∧ Frame [.regs, .incNow] s t) ∧
  (∀ (s : State) (off n : Nat), s.pwr.ioLow = false → s.pcie.asleep = true →
    exec (.bar2Read off n) s = .next (State.aer { s with bar2Data := [], bar2Ep := false } 20) ∧
    ∀ bs poi, exec (.bar2Write off bs poi) s = .next (s.aer 20)) ∧
  (∀ (s : State) (off n : Nat), off + n ≤ s.bar2Size → s.barOn = true →
    let r := s.hbmRead 7 0x1FF (s.getF memBar2Base_Addr * 2 ^ 30 + off) n
    (n ≤ s.pcie.maxRead → ∃ t, exec (.bar2Read off n) s = .next t ∧ t.bar2Data = r.2.1 ∧ t.bar2Ep = r.2.2 ∧ t.mem = r.1.mem ∧ t.hearth = s.hearth) ∧
    (∀ (bs : List Byte) (poi : Bool), bs.length = n → n ≤ s.pcie.maxPayload → ∃ t, exec (.bar2Write off bs poi) s = .next t ∧
      t.mem = ((if poi then s.aer 12 else s).hbmWrite 7 0x1FF (s.getF memBar2Base_Addr * 2 ^ 30 + off) bs poi).mem ∧ t.hearth = s.hearth ∧
      t.hostMem = s.hostMem))

/-! ### The Ashpit (R389 to R406) -/

/-- A source sets its bit, counts and reacts once. A source with assertions waiting has its status bit set and CNT grown by their
number, and a level source whose condition holds by one; where the bit was set before, nothing else happens; where it was
not, the reactions apply: a trap is logged, the vector becomes pending, a pulse starts 4 cycles later and has the length of
PIN_CTRL, a halt is armed for the tick of R404, the safe state is entered and cancels a pending release, a chip reset is
armed. A source without assertion or condition changes nothing. A pulse ends, and an armed chip reset then starts with its
cause; a held block restarts after its cycles; the bucket leaks; the safe state is entered, left, or its exit refused; an
exit using the REACT word of every source that is set, and both storing fresh parity with their word; an injection is armed
or refused; the counters clear, with fresh parity for CTRL; a parity failure sets SELF_FAULT and asserts FLT_SELF at each use
of the word, and an injection for FLT_SELF fails the next check of CTRL; the Ashpit is released once the core PLL locks,
VDD_IO being in tolerance. -/
def Obligations.AshpitCollectsAndReacts : Prop :=
  (∀ (s : State) (n : Nat) (i : SrcInfo), srcInfo n = some i →
    let mine := s.flt.pend.filter fun a => a.src == n
    let bit : Fld := ⟨fltSrcStatus (n / 32), n % 32, 1⟩
    let r := s.reactions n
    let holds := s.flt.released && i.level && s.levelHolds n
    (∀ up, mine ≠ [] ∨ holds = true → ∃ t, exec (.faultStatusSet n up) s = .next t ∧ t.getF bit = 1 ∧
      t.getF (fltCntF n) = satAdd 32 (s.getF (fltCntF n)) (max 1 mine.length) ∧
      (s.flag bit = true → WordsKept [fltCnt n, fltSrcStatus (n / 32)] s t ∧ Frame [.regs, .setNow, .incNow, .flt] s t) ∧
      (s.flag bit = false →
        (r.testBit 1 = true → t.pcie.pending.toNat.testBit (s.getF fltCtrl_Vector) = true) ∧
        (r.testBit 2 = true → s.sec.stopped = false → ∃ x, (n, x) ∈ t.flt.log) ∧
        (r.testBit 3 = true → ∃ a, t.flt.pulse = some (a, s.cyc + 4 + 1500 * max 2 (s.getF fltPinCtrl_Pulse)) ∧
          (s.flt.pulse = none → a = s.cyc + 4)) ∧
        (r.testBit 4 = true ∨ r.testBit 6 = true → ∃ k, t.hearth.haltAt = some k ∧ k ≤ s.reactTick) ∧
        (r.testBit 6 = true → t.getF fltStatus_Safe = 1 ∧ t.hearth.runAt = none) ∧
        (r.testBit 7 = true → s.flt.chip = none → t.flt.chip = some (n, r.testBit 3)))) ∧
    (mine = [] → holds = false → exec (.faultStatusSet n none) s = .next s)) ∧
  (∀ (s : State) (a b : Nat), s.flt.pulse = some (a, b) →
    (b ≤ s.cyc → ∃ t, exec .errPulseEnd s = .next t ∧
      (s.flt.chip = none → t.flt = { s.flt with pulse := none } ∧ Frame [.flt] s t) ∧
      (∀ n w, s.flt.chip = some (n, w) → t.getF fltResetCause_Ashpit = 1 ∧ t.getF fltResetCause_Source = n % 256 ∧
        t.flt.released = false ∧ t.frc = 0)) ∧
    (s.cyc < b → exec .errPulseEnd s = .next s)) ∧
  (∀ (s : State) (n : Nat), n < 176 → n ≠ 16 → ∃ t, exec (.blockRestart n) s = .next t ∧
    (∀ b, b ∈ t.flt.blocked ↔ b ∈ s.flt.blocked ∧ ¬ (b.1 = n ∧ b.2 ≤ s.cyc)) ∧ Frame [.flt] s t) ∧
  (∀ s : State, let step := s.getF fltHceCfg_Leak * 1024;
    (step ≠ 0 → s.flt.hceFrom + step ≤ s.tick → 4 ∉ s.flt.upset → ∃ t, exec .hceBucketLeak s = .next t ∧
      t.getF fltHceBucket_Level = s.getF fltHceBucket_Level - 1 ∧ t.flt = { s.flt with hceFrom := s.flt.hceFrom + step } ∧
      WordsKept [fltHceBucket] s t ∧ Frame [.regs, .flt] s t) ∧
    (step = 0 → exec .hceBucketLeak s = .next s)) ∧
  (∀ s : State, ∃ t k, exec .safeEnter s = .next t ∧ t.getF fltStatus_Safe = 1 ∧ t.hearth.haltAt = some k ∧ k ≤ s.tick + 1 ∧
    t.hearth.runAt = none ∧ t.flt.safeFrom ≤ s.boundary (s.tick + 1) ∧
    t.flt.upset = s.flt.upset.filter (· != 2) ∧
    (s.hearth.runAt = none → t.hearth = { s.hearth with haltAt := some k } ∧ WordsKept [fltStatus] s t ∧
      Frame [.regs, .hearth, .flt] s t)) ∧
  (∀ s : State, s.safe = false → ∃ t, exec .safeExit s = .next t ∧
    t.flt = { s.flt with upset := s.flt.upset.filter (· != 2) } ∧ Frame [.flt] s t) ∧
  (∀ (s : State) (n : Nat), s.safe = true → n < 256 → s.flag ⟨fltSrcStatus (n / 32), n % 32, 1⟩ = true → 5 + n ∈ s.flt.upset →
    ∃ t, exec .safeExit s = .next t ∧ t.safe = true ∧ t.getF fltStatus_SelfFault = 1 ∧ t.getF fltStatus_WrRefused = 1) ∧
  (∀ s : State, s.safe = true → (∀ n, n < 256 → s.flag ⟨fltSrcStatus (n / 32), n % 32, 1⟩ = true → 5 + n ∉ s.flt.upset) →
    (s.flag fltStatus_SelfFault = false → s.safeHeld = false → ∃ t, exec .safeExit s = .next t ∧ t.safe = false ∧
      t.hearth = s.hearth ∧ t.mem = s.mem ∧ t.flt = { s.flt with upset := s.flt.upset.filter (· != 2) }) ∧
    (s.flag fltStatus_SelfFault = true ∨ s.safeHeld = true → ∃ t, exec .safeExit s = .next t ∧ t.safe = true ∧
      t.getF fltStatus_WrRefused = 1 ∧ WordsKept [fltStatus] s t ∧ Frame [.regs, .setNow] s t)) ∧
  (∀ (s : State) (v : W32),
    let n := bitsAt v.toNat 0 8
    let site := bitsAt v.toNat 8 9
    let mode := bitsAt v.toNat 29 2
    (∀ i, srcInfo n = some i → i.inj = true → n ≠ 0 → s.siteOn site = true → s.flag fltInj_Armed = false → mode = 1 ∨ mode = 2 →
      ∃ t, exec (.fltInjWrite v) s = .next t ∧ t.getF fltInj_Source = n ∧ t.getF fltInj_Site = site ∧ t.getF fltInj_Mode = mode ∧
        t.getF fltInj_Armed = 1 ∧ 3 ∉ t.flt.upset ∧ WordsKept [fltInj] s t ∧ Frame [.regs, .flt] s t) ∧
    (s.flag fltInj_Armed = true ∨ (n ≠ 0 ∧ s.siteOn site = false) ∨ (∀ i, srcInfo n = some i → i.inj = false) →
      ∃ t, exec (.fltInjWrite v) s = .next t ∧ t.getF fltStatus_WrRefused = 1 ∧ WordsKept [fltStatus] s t ∧
        Frame [.regs, .setNow] s t)) ∧
  (∀ s : State, ∃ t, exec .clrCntFlt s = .next t ∧ (∀ n, n < 256 → t.word (fltCnt n) = resetWord s.part (fltCnt n)) ∧
    t.flt = { s.flt with upset := s.flt.upset.filter (· != 0) } ∧
    WordsKept ((List.range 256).map fltCnt) s t ∧ Frame [.regs, .incNow, .flt] s t) ∧
  (∀ (s : State) (w : Nat), w < 261 → s.flag fltInj_Armed = false → s.flt.released = true →
    (w ∉ s.flt.upset → exec (.fltParityScan w true) s = .next s) ∧
    ∃ t, exec (.fltParityScan w false) s = .next t ∧ t.getF fltStatus_SelfFault = 1 ∧ w ∈ t.flt.upset ∧
      (t.flt.pend.map Assertion.src).getLast? = some 0 ∧ WordsKept [fltStatus] s t ∧ Frame [.regs, .flt] s t) ∧
  (∀ s : State, s.flag fltInj_Armed = true → s.getF fltInj_Source = 0 → s.flt.released = true →
    ∃ t, exec (.fltParityScan 0 true) s = .next t ∧ t.getF fltStatus_SelfFault = 1 ∧ t.getF fltInj_Armed = 0 ∧
      (t.flt.pend.map Assertion.src).getLast? = some 0 ∧ Frame [.regs, .flt] s t) ∧
  (∀ s : State, s.flt.released = false →
    (s.flag pwrPllStatus_Core = true → s.pwr.ioLow = false → ∃ t, exec .ashpitRelease s = .next t ∧
      t.flt = { s.flt with released := true, pinHeld := false } ∧ Frame [.flt] s t) ∧
    (s.flag pwrPllStatus_Core = false ∨ s.pwr.ioLow = true → exec .ashpitRelease s = .next s))

/-! ### The Firebox (R409 to R426) -/

/-- Mailbox commands are served, refused or ignored, and a served request ends. While a request is served every mailbox command
is refused; that a stopped Firebox ignores every command is the model's choice (log entry 77), and a chip that VDD_IO holds
in reset takes none. Otherwise a command leaves its result and output to be delivered: GET_INFO 48 bytes, GET_KEM_CERT the
certificate, READ_LOG 1,024 bytes, ATTEST a report of 5,588 bytes with a leaf of a block whose bit is programmed, or BUSY,
EXHAUSTED, or OTP_FAIL with SEC_FIREBOX for a block whose bit does not verify; DEBUG_CHALLENGE a nonce that was never given
before and replaces the earlier one; DEBUG_LOCK no scope; SET_SVN the version's thermometer code in both cells; DEBUG_UNLOCK
with a good token its scopes and no nonce, with another nonce BAD_ARG; ENROLL_OWNER and FUSE_OFF_VENDOR DENIED outside their
state, ENROLL_OWNER OTP_FAIL whatever its input where a hash stands already, and with good signatures the hash, and
VENDOR_OFF. When a request is done RESULT, DONE and the vector follow, and an enrolment's OWNER_SET. Which programming fails
its verification and that OWNER_SET is programmed at the end of the request are the model's choices (log entry 78). Left out
are inputs that LEN cuts short; and as device keys and nonces are opaque (log entry 6), no closed witness meets the clauses
of ENROLL_OWNER, DEBUG_UNLOCK and FUSE_OFF_VENDOR with good signatures. A glitch zeroes and stops the Firebox and raises
SEC_GLITCH. -/
def Obligations.FireboxServesRequests : Prop :=
  (∀ (s : State) (i : Instr), i ∈ [Instr.getInfo, .mailboxAttest, .getKemCert, .enrollOwner, .fuseOffVendor, .debugChallenge,
      .debugUnlock, .debugLock, .readLog, .setSvn] →
    (s.flag secStatus_Busy = true → ∃ t, exec i s = .next t ∧ t.getF secStatus_WrRefused = 1 ∧ WordsKept [secStatus] s t ∧
      Frame [.regs, .setNow] s t) ∧
    (s.flag secStatus_Busy = false → s.sec.stopped = true ∨ s.pwr.ioLow = true → exec i s = .next s)) ∧
  (∀ s : State, s.flag secStatus_Busy = false → s.sec.stopped = false → s.sec.bootFailed = false → s.pwr.ioLow = false →
    let c := s.sec
    let gives (i : Instr) (c' : Sec) (r : Nat) (out : List Byte) : Prop := ∃ t, exec i s = .next t ∧
      t.sec = { c' with busy := some (none, r, 0, out) } ∧ t.getF secStatus_Busy = 1 ∧ WordsKept [secStatus] s t ∧
      Frame [.regs, .sec] s t
    let hostIn := isHostAddr (s.getF secAddr_Addr) = true ∧ s.busOff = false
    let inp (n : Nat) := s.hostBytes (s.getF secAddr_Addr % 2 ^ 63) (min n (s.getF secLen_Bytes))
    (∃ o, o.length = 48 ∧ o.take 32 = c.deviceIdBytes ∧ gives .getInfo c rcOk o) ∧
    gives .getKemCert c rcOk c.kemCertificate ∧ (∃ o, o.length = 1024 ∧ gives .readLog c rcOk o) ∧
    (let n := c.freshNonce;
      gives .debugChallenge { c with nonce := some n, drawn := c.drawn + 1, past := n :: c.past } rcOk (leBytes 32 n.toNat) ∧
      (c.past.length < 2 ^ 256 → n ∉ c.past)) ∧
    gives .debugLock { c with scopes := 0 } rcOk [] ∧ gives .setSvn (c.programSvn c.svn) rcOk [] ∧
    (hostIn → 32 ≤ s.getF secLen_Bytes →
      let leaf := c.takeLeaf s.part.weakBlocks
      (∀ q c', leaf = .use q c' → ∃ o, o.length = 5588 ∧ gives .mailboxAttest c' rcOk o) ∧
      (leaf = .busy → gives .mailboxAttest c rcBusy []) ∧ (leaf = .exhausted → gives .mailboxAttest c rcExhausted []) ∧
      (∀ c', leaf = .failed c' → s.flt.released = true → ∃ t, exec .mailboxAttest s = .next t ∧
        t.sec = { c' with busy := some (none, rcOtpFail, 0, []) } ∧ (t.flt.pend.map Assertion.src).getLast? = some 14)) ∧
    (hostIn → 72 ≤ s.getF secLen_Bytes →
      let b := inp 65535
      let tok := b.take 72
      dfield tok 0 4 = 0x47424444 → c.sbOk (b.drop 72) (sha256 tok) = true → (tok.drop 8).take 32 = c.deviceIdBytes →
      (c.nonce = some (BitVec.ofNat 256 (dfield tok 40 32)) →
        gives .debugUnlock { c with scopes := c.scopes ||| BitVec.ofNat 3 (dfield tok 4 4), nonce := none } rcOk []) ∧
      (c.nonce ≠ some (BitVec.ofNat 256 (dfield tok 40 32)) → gives .debugUnlock c rcBadArg [])) ∧
    (c.lifecycle ≠ 0 → gives .enrollOwner c rcDenied []) ∧
    (c.lifecycle = 0 → c.ownerHash ≠ 0 → s.flt.released = true → ∃ t, exec .enrollOwner s = .next t ∧
      t.sec = { c with busy := some (none, rcOtpFail, 0, []) } ∧ (t.flt.pend.map Assertion.src).getLast? = some 14) ∧
    (c.lifecycle = 0 → hostIn → 188 ≤ s.getF secLen_Bytes → c.ownerHash = 0 → s.part.weakHash = 0 →
      let key := (inp 65535).take 60
      let blk := (inp 65535).drop 60
      dfield blk 4 1 = 1 → sbKey blk = key → sbVerifies blk (sha256 (c.deviceIdBytes ++ key)) = true →
      gives .enrollOwner { c with ownerHash := sha256N key, enrolling := true } rcOk []) ∧
    (c.lifecycle ≠ 1 → gives .fuseOffVendor c rcDenied []) ∧
    (∀ n, c.lifecycle = 1 → hostIn → c.nonce = some n → dfield (inp 65535) 4 1 = 1 →
      c.sbOk (inp 65535) (sha256 (c.deviceIdBytes ++ vendorOffText ++ leBytes 32 n.toNat)) = true →
      gives .fuseOffVendor { c with vendorOff := true } rcOk []) ∧
    (c.running = true → c.topBuild = false → c.ready = false → c.block < 1024 → ∃ t, exec .treeRegenerated s = .next t ∧
      t.sec = { c with ready := true } ∧ Frame [.sec] s t)) ∧
  (∀ (c c' : Sec) (weak : BitVec 1024), c.takeLeaf weak = .failed c' →
    weak.getLsbD c'.block = true ∧ c'.leafBlocks.getLsbD c'.block = true ∧ c'.leaf = 1024) ∧
  (∀ (c c' : Sec) (q : Nat) (weak : BitVec 1024), c.takeLeaf weak = .use q c' → c'.leafBlocks.getLsbD c'.block = true ∧ 0 < c'.leaf ∧
    q = 1024 * c'.block + (c'.leaf - 1) ∧ c'.leaf ≤ 1024 ∧ (c'.block = c.block → c'.leaf = c.leaf + 1)) ∧
  (∀ s : State, s.flt.released = true → ∃ t, exec .glitchDetect s = .next t ∧ t.sec.stopped = true ∧ t.sec.ready = false ∧
    t.sec.nonce = none ∧ t.sec.busy = none ∧ t.sec.scopes = 0 ∧ t.flt.log = [] ∧ t.getF secStatus_Busy = 0 ∧
    t.sec.ownerHash = s.sec.ownerHash ∧ t.sec.leafBlocks = s.sec.leafBlocks ∧ t.sec.fwSvn = s.sec.fwSvn ∧
    (t.flt.pend.map Assertion.src).getLast? = some 15 ∧ WordsKept [secStatus] s t ∧ Frame [.regs, .sec, .flt] s t) ∧
  (∀ (s : State) (r len : Nat) (out : List Byte), s.sec.busy = some (none, r, len, out) → s.sec.waiting = [] →
    ∃ t, exec .fireboxRequestDone s = .next t ∧ t.sec = { s.sec with busy := none, enrolling := false, ownerSet := s.sec.ownerSet || s.sec.enrolling } ∧
      t.getF secStatus_Busy = 0 ∧
      t.getF secStatus_Done = 1 ∧ t.getF secResult_Code = r % 256 ∧
      (s.flag secCtrl_IrqEn = true → t.pcie.pending.toNat.testBit (s.getF secCtrl_Vector) = true) ∧
      (s.flag secCtrl_IrqEn = false → t.pcie.pending = s.pcie.pending) ∧
      (isHostAddr (s.getF secAddr_Addr) = true → s.busOff = false → let o := out.take (s.getF secLen_Bytes);
        t.hostBytes (s.getF secAddr_Addr % 2 ^ 63) o.length = o))

/-! ### Resets, release and the PCI Express attachment (R427 to R448) -/

/-- Resets clear the device but not its fuses, and the link serves the host. PERST_N of a microsecond or more, CHIP_RESET unless
the reaction that it belongs to waits for its pulse (one with no reaction armed, as from outside the Ashpit, is the model's
choice, log entry 81), a RESET_CTRL write and power-on leave FRC at 0, the Hearth halted, empty and with no image, no
descriptor in flight, no release, and the fuses, boot flash, host memory and queue of commands as they were; a shorter
PERST_N changes nothing. After the fill INIT_DONE is set, while VDD_IO is in tolerance, and hard faults stay; the core is
released when the fill is done, the firmware has signalled, and PERST_N and VDD_IO allow it. FLR empties the Stoker, but for
the loader descriptors that run on without owing an entry, and keeps Hearth, memory and time. The link comes up with an
option that the device supports, of which it shows width, rate and Flit mode, and the device asks for the highest rate of
both ports where it is below it; it goes down with LINK_LOST. A pending unmasked vector sends its message once, while the
host can be reached. BAR2 takes a new size of at most 512 GiB while Memory Space is off. Configuration space answers a read
with the Device ID and class code once the function is ready, retries reads and writes before, and Device Control holds
Enable Relaxed Ordering; where its registers lie is the model's presumption (offsets 0x02, 0x08 and 0x78, log entry 100). -/
def Obligations.ResetsAndTheHostLink : Prop :=
  (∀ s : State,
    let cleared (i : Instr) : Prop := ∃ t, exec i s = .next t ∧ t.frc = 0 ∧ t.running = false ∧
      t.getF glbImgState_Halted = 1 ∧ t.hearth.img = none ∧
      t.hearth.units = [] ∧ t.hearth.flights = [] ∧ t.stk.flights = [] ∧ t.pwr.released = false ∧ t.flt.released = false ∧
      t.sec.ownerHash = s.sec.ownerHash ∧ t.sec.ownerSet = s.sec.ownerSet ∧ t.sec.vendorOff = s.sec.vendorOff ∧
      t.sec.leafBlocks = s.sec.leafBlocks ∧ t.sec.fwSvn = s.sec.fwSvn ∧ t.sec.flash = s.sec.flash ∧ t.sec.scopes = 0 ∧
      t.hostMem = s.hostMem ∧ t.pending = s.pending ∧ t.part = s.part
    (∀ ns, 1000 ≤ ns → cleared (.perstAssert ns)) ∧ (∀ ns, ns < 1000 → exec (.perstAssert ns) s = .next s) ∧
    let waits : Prop := (∃ n, s.flt.chip = some (n, true)) ∧ (s.pulseDue = true ∨ s.pulseOn = true)
    (¬ waits → cleared .chipReset) ∧ (waits → exec .chipReset s = .next s) ∧
    cleared .chipResetWrite ∧ cleared .powerOnReset ∧
    (s.mem.merge = [] → ∃ t, exec .chipResetWrite s = .next t ∧ t.mem.hbm = s.mem.hbm ∧ t.mem.check = s.mem.check) ∧
    (∃ t, exec .perstDeassert s = .next t ∧ t.pcie = { s.pcie with perst := false } ∧ Frame [.pcie] s t) ∧
    (∀ f, s.pwr.ioLow = true → exec (.hbmFillDone f) s = .next s) ∧
    (∀ f, s.flag memStatus_InitDone = false → s.pwr.ioLow = false → ∃ t, exec (.hbmFillDone f) s = .next t ∧ t.getF memStatus_InitDone = 1 ∧
      (s.pwr.hbmLost = true → t.mem.hbm = [] ∧ t.mem.check = [] ∧ t.mem.faults = s.mem.faults ∧ t.pwr.hbmLost = false ∧
        ∀ k, k < 6 → t.flag (memStackStatus_Failed k) = f.toNat.testBit k) ∧
      (s.pwr.hbmLost = false → t.mem = s.mem)) ∧
    (s.pwr.released = false →
      (s.flag memStatus_InitDone = true → s.sec.signalled = true → s.pcie.perst = false → s.pwr.ioLow = false →
        ∃ t, exec .coreRelease s = .next t ∧ t.pwr = { s.pwr with released := true } ∧ t.frc = 0 ∧
          Frame [.frc, .pwr, .pcie, .mem, .flt] s t) ∧
      (s.flag memStatus_InitDone = false ∨ s.sec.signalled = false ∨ s.pcie.perst = true ∨ s.pwr.ioLow = true →
        exec .coreRelease s = .next s))) ∧
  (∀ s : State, ∃ t, exec .flr s = .next t ∧
    t.stk = { Stk.reset with flights := (s.stk.flights.filter Fly.loader).map fun f => { f with orphan := true } } ∧ t.pcie.pending = 0 ∧ t.pcie.up = s.pcie.up ∧
    t.sec.waiting = [] ∧ t.ing = { s.ing with snapTag := none } ∧ Frame [.regs, .incNow, .stk, .pcie, .ing, .sec, .flt] s t) ∧
  (∀ s : State,
    (∃ t, exec .pcieLinkDown s = .next t ∧ t.getF glbPcieStatus_LinkUp = 0 ∧ t.busOff = true ∧
      (s.pcie.perst = false → t.getF glbPcieStatus_LinkLost = 1) ∧
      (s.pcie.perst = true → t.getF glbPcieStatus_LinkLost = s.getF glbPcieStatus_LinkLost) ∧
      WordsKept [glbPcieStatus] s t ∧ Frame [.regs, .setNow, .pcie] s t) ∧
    (∀ w r fl both, linkOption w r fl = true → s.pwr.ioLow = false → ∃ t, exec (.pcieLinkUp w r fl both) s = .next t ∧
      t.getF glbPcieStatus_LinkUp = 1 ∧ t.getF glbPcieStatus_Width = w ∧ t.getF glbPcieStatus_Speed = r ∧ t.getF glbPcieStatus_Flit = b2n fl ∧
      t.pcie = { s.pcie with up := true, rateReq := if r < both then some both else none } ∧ WordsKept [glbPcieStatus] s t ∧
      Frame [.regs, .pcie] s t) ∧
    (∀ w r fl both, linkOption w r fl = false ∨ s.pwr.ioLow = true → exec (.pcieLinkUp w r fl both) s = .next s) ∧
    (∀ v, v < 256 →
      let w i := mget (fun k => if k % 4 = 3 then (1 : W32) else 0) s.pcie.table (4 * v + i)
      let free := (w 3).toNat.testBit 0 = false ∧ s.pcie.funcMask = false ∧ s.pcie.msixEnable = true ∧
        s.busOff = false
      (s.pcie.pending.toNat.testBit v = true → free → ∃ t, exec (.msixSend v) s = .next t ∧
        t.pcie.sent = s.pcie.sent ++ [(w 1 ++ w 0, w 2)] ∧ t.pcie.pending.toNat.testBit v = false ∧
        (∀ u, u ≠ v → t.pcie.pending.toNat.testBit u = s.pcie.pending.toNat.testBit u) ∧ Frame [.pcie] s t) ∧
      (s.pcie.pending.toNat.testBit v = false ∨ ¬ free → exec (.msixSend v) s = .next s)) ∧
    (∀ n, (s.flag glbPcieStatus_Mse = false → n ≤ 9 → ∃ t, exec (.bar2Resize n) s = .next t ∧
        t.pcie = { s.pcie with bar2Log := n } ∧ Frame [.pcie] s t) ∧
      (s.flag glbPcieStatus_Mse = true ∨ 9 < n → exec (.bar2Resize n) s = .next s))) ∧
  (∀ s : State, s.pwr.ioLow = false →
    let answers (off size : Nat) (p : State → Prop) : Prop := ∃ t, exec (.rcCounterRead .config off size) s = .next t ∧ p t ∧
      Frame [.readData, .readUr, .readRetry] s t
    (s.pcie.ready = true → answers 0x02 2 (fun t => t.readData = 0x4832 ∧ t.readRetry = false) ∧
      answers 0x08 4 (fun t => bitsAt t.readData.toNat 8 24 = 0x120000 ∧ t.readRetry = false) ∧
      ∀ v : W64, v.toNat.testBit 15 = false → ∃ t, exec (.registerWrite .config 0x78 2 v) s = .next t ∧
        t.pcie.relaxOn = v.toNat.testBit 4 ∧ t.pcie.pending = s.pcie.pending ∧
        Frame [.pcie, .readRetry] s t) ∧
    (s.pcie.ready = false → answers 0x00 4 (fun t => t.readData = 0 ∧ t.readRetry = true) ∧
      ∀ v, exec (.registerWrite .config 0x04 2 v) s = .next { s with readRetry := true }))

/-! ### Supplies, clocks, the Damper and optical safety (R444 to R466, R479) -/

/-- Rails, PLLs, references, temperature and crossings act as they leave and return. After release: a rail out of tolerance shows
in RAILS and turns its level source on (VDD_CORE 3 or 4 by direction, with the undervoltage timed; SRAM, OPT, LASER and HBM
their own, and an HBM rail marks training as needed), the PCIe rails take the link down, and VDD_IO holds the chip in reset;
its return ends that and the Firebox boots. A PLL that unlocks or a lost reference does the same with its source, and
HOLDOVER stays after the return. AVS moves by one step of 5 mV within 650 to 800, or sets AVS_ERR. Source 8 follows TEMP.HIGH
with 5 degrees, 9 follows 115 and 110. A crossing that times out is dead and raises source 2 until it resynchronises. EXTEST
needs PERST_N, the Firebox test port its scope, SAMPLE fills the boundary register, and IDCODE shifts out the device's
number. The first AVS target of 650 mV (log entry 17), PLL 21, the source that the Flue PLLs share (log entry 79) and the
boundary register's cells (log entry 118) are the model's choices. -/
def Obligations.MonitorsRaiseTheirSources : Prop :=
  (∀ (s : State) (r : Nat) (high : Bool), r < 13 → s.pwr.released = true → s.flt.released = true →
    ∃ t, exec (.railOutOfTolerance r high) s = .next t ∧
      (0 < r → t.getF ⟨pwrRails, r, 1⟩ = 0 ∧ t.hearth = s.hearth ∧ t.mem = s.mem) ∧ (r = 0 → t.pwr.ioLow = true ∧ t.frc = 0) ∧
      (r = 1 → high = true → 4 ∈ t.flt.level) ∧ (r = 1 → high = false → 3 ∈ t.flt.level ∧ t.pwr.coreLowFrom = some s.cyc) ∧
      (r = 3 ∨ r = 4 → t.getF glbPcieStatus_LinkUp = 0 ∧ t.pcie.up = false) ∧ (∀ n, railSource r = some n → n ∈ t.flt.level) ∧
      (7 ≤ r → t.pwr.hbmLost = true)) ∧
  (∀ (s : State) (r : Nat), r < 13 → ∃ t, exec (.railReturn r) s = .next t ∧ t.getF ⟨pwrRails, r, 1⟩ = 1 ∧
    (r = 0 → t.pwr.ioLow = false ∧ (s.pwr.ioLow = true → t.sec.running = true ∨ t.sec.bootFailed = true)) ∧ (r = 1 → 3 ∉ t.flt.level ∧ 4 ∉ t.flt.level ∧ t.pwr.coreLowFrom = none) ∧
    (∀ n, railSource r = some n → n ∉ t.flt.level) ∧ t.hearth = s.hearth ∧ t.mem = s.mem) ∧
  (∀ (s : State) (p : Nat), p < 21 → s.flt.released = true →
    (∃ t, exec (.pllUnlock p) s = .next t ∧ t.getF ⟨pwrPllStatus, p, 1⟩ = 0 ∧ (p = 0 → 10 ∈ t.flt.level) ∧
      (0 < p → p < 15 → 11 ∈ t.flt.level) ∧ (15 ≤ p → s.stackBad (p - 15) = false → t.stackBad (p - 15) = true ∧
        (t.flt.pend.map Assertion.src).getLast? = some (170 + (p - 15))) ∧ WordsKept [pwrPllStatus] s t ∧ Frame [.regs, .flt] s t) ∧
    ∃ t, exec (.pllRelock p) s = .next t ∧ t.getF ⟨pwrPllStatus, p, 1⟩ = 1 ∧ (p = 0 → 10 ∉ t.flt.level) ∧
      (0 < p → p < 15 → t.getF pwrPllStatus_Flue = 2 ^ 14 - 1 → 11 ∉ t.flt.level) ∧
      (0 < p → p < 15 → t.getF pwrPllStatus_Flue ≠ 2 ^ 14 - 1 → t.flt = s.flt) ∧ WordsKept [pwrPllStatus] s t ∧
      Frame [.regs, .flt, .pwr] s t) ∧
  (∀ s : State, (∃ t, exec (.pllUnlock 21) s = .next t ∧ t.pcie.up = false ∧ t.flt = s.flt) ∧
    (∃ t, exec .refclkLoss s = .next t ∧ 12 ∈ t.flt.level ∧ t.flag pwrStatus_Holdover = true ∧ t.noRelease = true ∧
      WordsKept [pwrStatus] s t ∧ Frame [.regs, .flt] s t) ∧
    (∃ t, exec .refclkReturn s = .next t ∧ 12 ∉ t.flt.level ∧ Frame [.flt] s t)) ∧
  (∀ (s : State) (up : Bool), let cur := s.getF pwrAvs_Target;
    (cur = 0 ∨ s.pwr.avsFrom + 15000 ≤ s.cyc → (∃ t, exec (.avsStep up true) s = .next t ∧
        t.getF pwrAvs_Target = (if cur = 0 then 650 else if up then min 800 (cur + 5) else max 650 (cur - 5)) % 2 ^ 16 ∧
        WordsKept [pwrAvs] s t ∧ Frame [.regs, .pwr] s t) ∧
      ∃ t, exec (.avsStep up false) s = .next t ∧ t.getF pwrStatus_AvsErr = 1 ∧ t.getF pwrAvs_Target = cur ∧
        Frame [.regs, .setNow] s t) ∧
    (cur ≠ 0 → s.cyc < s.pwr.avsFrom + 15000 → ∀ a, exec (.avsStep up a) s = .next s)) ∧
  (∀ (s : State) (c : Int), let hi : Int := s.getF pwrTemp_High;
    ∃ t, exec (.tempThreshold c) s = .next t ∧ (hi ≤ c → 8 ∈ t.flt.level) ∧ (c ≤ hi - 5 → 8 ∉ t.flt.level) ∧
      (hi - 5 < c → c < hi → (8 ∈ t.flt.level ↔ 8 ∈ s.flt.level)) ∧ (115 ≤ c → 9 ∈ t.flt.level) ∧ (c ≤ 110 → 9 ∉ t.flt.level) ∧
      (-128 ≤ c → c ≤ 127 → t.getF pwrTemp_Max = unsint 8 c) ∧ WordsKept [pwrTemp] s t ∧ Frame [.regs, .flt] s t) ∧
  (∀ (s : State) (x w : Nat), x < 21 →
    (s.flt.released = true → ∃ t, exec (.cdcTimeout x) s = .next t ∧ t.getF ⟨pwrCdcStatus, x, 1⟩ = 1 ∧
      t.pwr.cdcDead.testBit x = true ∧ (t.flt.pend.map Assertion.src).getLast? = some 2 ∧ WordsKept [pwrCdcStatus] s t ∧
      Frame [.regs, .setNow, .flt, .pwr] s t) ∧
    ∃ t, exec (.cdcResync x w) s = .next t ∧ t.getF pwrCdcDropF = satAdd 32 (s.getF pwrCdcDropF) w ∧
      t.pwr.cdcDead.testBit x = false ∧ t.syncing x = false ∧ (∀ y, y ≠ x → t.pwr.cdcDead.testBit y = s.pwr.cdcDead.testBit y) ∧
      WordsKept [pwrCdcDrop] s t ∧ Frame [.regs, .incNow, .pwr] s t) ∧
  (∀ (s : State) (n : Nat), ∃ t, exec (.extest n) s = .next t ∧ Frame [.pwr, .freeIx] s t ∧ t.pwr.jtag = min n 4 ∧
    (n = 2 → ∃ x, t.pwr.boundary = s.sampled x) ∧ (n ≠ 2 → t.pwr.boundary = s.pwr.boundary ∧ Frame [.pwr] s t) ∧ (n < 3 → t.jtagNow = n) ∧
    (n = 1 → ∃ w : W32, t.pwr.shift = some w ∧ bitsAt w.toNat 12 16 = 0x4832) ∧ (n ≠ 1 → t.pwr.shift = none) ∧
    (n = 3 → t.jtagNow = if s.pcie.perst then 3 else 0) ∧ (3 < n → t.jtagNow = if s.sec.scopes.toNat.testBit 2 then 4 else 0))

/-- An update of the allowances keeps within caps and slew. At cycle 0 the Damper sets every allowance: 0 for a group without
demand, at most 64 where the allowances were; where the allowances of the groups with demand were within the caps the new
ones are; and the rises of the groups with demand together, and their falls together, come to no more than SLEW in current.
EST shows the model's current and power. In another cycle nothing changes. -/
def Obligations.DamperKeepsCapsAndSlew : Prop :=
  ∀ s : State, (s.cycle ≠ 0 → exec .damperUpdate s = .next s) ∧
    (s.cycle = 0 → ∃ t, exec .damperUpdate s = .next t ∧
      let old (g : Nat) := if s.demand g then s.getF (pwrAllow_Cycles g) else 0
      let new (g : Nat) := t.getF (pwrAllow_Cycles g)
      (∀ g, g < 26 → s.demand g = false → new g = 0) ∧
      ((∀ g, g < 26 → old g ≤ 64) → (∀ g, g < 26 → new g ≤ 64) ∧
        (s.capsOk ((List.range 26).map old) = true → s.capsOk ((List.range 26).map new) = true) ∧
        ((List.range 26).map fun g => (new g - old g) * s.unitA g).sum ≤ 64 * s.getF pwrSlew_Step ∧
        ((List.range 26).map fun g => (old g - new g) * s.unitA g).sum ≤ 64 * s.getF pwrSlew_Step ∧
        t.getF pwrEst_Amps = s.modelI ((List.range 26).map new) / 64 % 2 ^ 16 ∧
        t.getF pwrEst_Watts = s.modelP ((List.range 26).map new) / 64 % 2 ^ 16) ∧
      WordsKept (pwrEst :: (List.range 26).map pwrAllow) s t ∧ Frame [.regs, .flt] s t)

/-- Companion loss, clamp and Flue fault darken fibres, and probing brings them back. A fibre in ON whose companion is lost
enters PROBE, counts in APR_CNT and raises FLUE_APR. A companion that is present shows; a fibre in PROBE turns ON once it has
been present for 750,000 cycles, and not before, and pulses every 150,000,000 cycles; a monitor fibre never does. A clamp
trip counts, raises FLUE_CLAMP and puts the fibre in PROBE, and a monitor fibre in OFF, which is the model's choice (log
entry 119); with two trips of its Flue in the second before, and on light in a dark state, the Flue is faulty, its supply
open, all of its fibres in FAULT and FLUE_FAULT raised. A fibre in FAULT is not clamped again. -/
def Obligations.FibresFollowTheirCompanions : Prop :=
  (∀ (s : State) (x : Nat), x < 30 → s.flt.released = true →
    (∃ t, exec (.companionLoss x) s = .next t ∧ t.getF (optTxState_Companion x) = 0 ∧
      t.getF (optTxAprCntF x) = satAdd 32 (s.getF (optTxAprCntF x)) 1 ∧
      (s.getF (optTxState_State x) = txOn → t.getF (optTxState_State x) = txProbe ∧
        (t.flt.pend.map Assertion.src).getLast? = some (176 + 3 * txFlue x)) ∧
      (s.getF (optTxState_State x) ≠ txOn → t.getF (optTxState_State x) = s.getF (optTxState_State x) ∧ t.flt = s.flt) ∧
      Frame [.regs, .incNow, .flt, .pwr] s t) ∧
    ∃ t, exec (.companionPresent x) s = .next t ∧ t.getF (optTxState_Companion x) = 1 ∧ (t.tx x).presentFrom = s.cyc ∧
      t.getF (optTxState_State x) = s.getF (optTxState_State x) ∧ Frame [.regs, .pwr] s t) ∧
  (∀ (s : State) (x : Nat), x < 34 → s.getF (optTxState_State x) = txProbe →
    (s.flag (optTxState_Companion x) = true → (s.tx x).presentFrom + 750000 ≤ s.cyc → ∃ t, exec (.transmitterOn x) s = .next t ∧
      t.getF (optTxState_State x) = txOn ∧ Frame [.regs, .pwr] s t) ∧
    (s.flag (optTxState_Companion x) = false ∨ s.cyc < (s.tx x).presentFrom + 750000 → exec (.transmitterOn x) s = .next s) ∧
    (30 ≤ x → exec (.probePulse x) s = .next s) ∧
    (x < 30 → (s.tx x).probeFrom + 150000000 ≤ s.cyc → ∃ t, exec (.probePulse x) s = .next t ∧ t.txPulsing x = true ∧
      (t.tx x).probeFrom = (s.tx x).probeFrom + 150000000 ∧ Frame [.pwr] s t)) ∧
  (∀ (s : State) (x : Nat), x < 34 → s.flt.released = true →
    let k := txFlue x
    let recent := (mget (fun _ => []) s.pwr.trips k).filter fun c => decide (s.cyc < c + 1500000000)
    (s.getF (optTxState_State x) = txFault → exec (.clampTrip x) s = .next s) ∧
    (s.getF (optTxState_State x) ≠ txFault → ∃ t, exec (.clampTrip x) s = .next t ∧
      (recent.length < 2 → t.getF (optTxState_State x) = if x < 30 then txProbe else txOff) ∧
      t.getF (optTxClampCntF x) = satAdd 32 (s.getF (optTxClampCntF x)) 1 ∧ (∃ a ∈ t.flt.pend, a.src = 177 + 3 * k) ∧
      mget (fun _ => []) t.pwr.trips k = s.cyc :: recent ∧
      (2 ≤ recent.length → t.getF (optFlue_Fault k) = 1 ∧ ∀ y, y < 34 → txFlue y = k → t.getF (optTxState_State y) = txFault))) ∧
  (∀ (s : State) (k : Nat), 4 ≤ k → k < 14 → s.flt.released = true → ∃ t, exec (.flueFault k) s = .next t ∧
    t.getF (optFlue_Fault k) = 1 ∧ t.getF (optFlue_SupplyOpen k) = 1 ∧
    (∀ y, y < 34 → txFlue y = k → t.getF (optTxState_State y) = txFault) ∧
    (∀ y, y < 34 → txFlue y ≠ k → t.getF (optTxState_State y) = s.getF (optTxState_State y)) ∧
    (t.flt.pend.map Assertion.src).getLast? = some (178 + 3 * k))

/-! ### Zhevvel Links, twins and digests (R336 to R368) -/

/-- Frames are built, received, held for their release and sent again. An enabled link whose Flue is not silent takes one
container in each of the cycles 0 to 38 of a tick and launches the frame in cycle 39; the token in a container is the token
that was put there. A frame whose codeword can be corrected counts its symbol errors, whatever its lane headers; it is held
for its release when it is in time and not held when it is not, and then a frozen link counts it in LATE; that a link that is
not frozen holds by the LZ in force and counts no LATE is the model's choice (log entry 116); one whose codeword cannot be
corrected counts in FEC_UE and gives suspect containers. At its release in a running Hearth a good container gives its token,
and an absent frame of an unreliable slot a suspect zero token with the SEQ due, to the crossing port. Frames not
acknowledged in time are all sent again, unless the oldest is just about to be. Echo requests, FREEZE within its bounds, and
disabling follow their rules. That a silent link keeps its state (log entry 102), that disabling starts the whole link anew
(log entry 33), and that containers released to a halted Hearth are discarded (log entry 74) are the model's choices. -/
def Obligations.LinksSendReceiveAndRelease : Prop :=
  (∀ k : Token, k.epoch < 16 → k.seq < 256 → k.port = none → tokenOf k.container = k) ∧
  (∀ (s : State) (n : Nat), n < 24 → ∃ t, exec (.zlFrameSend n) s = .next t ∧ 
    (s.flag (zlLinkCfg_En n) = false ∨ s.txSafeNow = true ∨ s.flueDead (txFlue n) = true → t = s) ∧
    (s.flag (zlLinkCfg_En n) = true → s.txSafeNow = false → s.flueDead (txFlue n) = false →
      (s.cycle = 0 → (t.zlink n).build.length = 1) ∧
      (0 < s.cycle → s.cycle < 39 → (s.zlink n).build.length = s.cycle →
        ∃ c, (t.zlink n).build = (s.zlink n).build ++ [c]) ∧
      (s.cycle = 39 → (s.zlink n).build.length = 39 → (t.zlink n).build = [] ∧ (t.zlink n).sentTick = s.tick ∧
        (t.zlink n).nak = false ∧ ∀ k ∈ (s.zlink n).kept, ∃ k' ∈ (t.zlink n).kept, k'.fseq = k.fseq ∧ k'.conts = k.conts))) ∧
  (∀ (s : State) (n : Nat) (lanes : List (BitVec 2640)) (age : Nat), n < 24 → s.zlListens n = true →
    s.flag (zlLinkStatus_FrameLock n) = true →
    let l := s.zlink n
    let x := s.zlDecode n lanes
    let good := x.1 = true ∧ 1 ≤ l.lastTick ∧ bitsAt x.2.2 86 24 = l.lastTick % 2 ^ 24
    let at' := 64 * nearTick s.tick (l.lastTick % 2 ^ 24) + s.getF (zlLinkLz_Lz n)
    let inTime := s.frc.toNat ≤ at' ∧ at' ≤ s.frc.toNat + 256
    (∀ e, x.2.1 = some e → good ∨ l.failRun + 1 < 4 → ∃ t, exec (.zlFrameReceive n lanes age) s = .next t ∧
      t.getF (zlLinkFecCeF n) = satAdd 32 (s.getF (zlLinkFecCeF n)) e ∧ t.getF (zlLinkFecUeF n) = s.getF (zlLinkFecUeF n) ∧
      t.flag (zlLinkStatus_FrameLock n) = true ∧
      (inTime → ∃ f, (t.zlink n).frames = l.frames ++ [f] ∧
        f.tick = nearTick s.tick (l.lastTick % 2 ^ 24) ∧ f.conts.map (fun c => (c.1, c.2.1)) = (List.range 39).map fun j => (dataContainer x.2.2 j, false)) ∧
      (¬ inTime → (t.zlink n).frames = l.frames ∧
        t.getF (zlLinkLateF n) = satAdd 32 (s.getF (zlLinkLateF n)) (s.getF (zlLinkStatus_Frozen n)))) ∧
    (x.2.1 = none → l.failRun + 1 < 4 → ∃ t, exec (.zlFrameReceive n lanes age) s = .next t ∧
      t.getF (zlLinkFecUeF n) = satAdd 32 (s.getF (zlLinkFecUeF n)) 1 ∧ t.getF (zlLinkFecCeF n) = s.getF (zlLinkFecCeF n) ∧
      (inTime → ∃ f, (t.zlink n).frames = l.frames ++ [f] ∧
        ∀ c ∈ f.conts, c.2.1 = true))) ∧
  (∀ (s : State) (n j k : Nat) (b : Binding), n < 24 → 0 < j → j < 39 → s.flag (zlLinkCfg_En n) = true →
    s.frc.toNat = 64 * k + j + s.getF (zlLinkLz_Lz n) → s.bindingAt n j true = some b →
    let q := edgeCross b.port
    ∃ t, exec (.zlContainerRelease n j) s = .next t ∧
      (s.running = false → t.hearth = s.hearth) ∧
      (s.running = true → (s.edge q).rx.toks.length < edgeDepth q →
        (∀ f x sus, (s.zlink n).frames.find? (fun f => f.tick == k) = some f → f.conts[j]? = some (x, sus, true) →
          (tokenOf x).void = false →
          (t.edge q).rx.toks = (s.edge q).rx.toks ++ [{ tokenOf x with suspect := (tokenOf x).suspect || sus }]) ∧
        ((s.zlink n).frames.find? (fun f => f.tick == k) = none → j ∉ s.reliableSlots n →
          ∃ y, (t.edge q).rx.toks = (s.edge q).rx.toks ++ [y] ∧ y.data = 0 ∧ y.suspect = true ∧
            y.seq = mget (fun _ => 0) (s.zlink n).rxSeq b.port))) ∧
  (∀ (s : State) (n : Nat), n < 24 →
    let l := s.zlink n
    (∀ k ks, l.kept = k :: ks → l.resend.head? ≠ some k.fseq → l.turn ≠ some k.fseq → s.flag (zlLinkStatus_LinkDown n) = false → l.goBacks + 1 < 32 →
      k.sentTick + 2 * ((s.getF (zlLinkLz_Lz n) + 63) / 64) + 4 ≤ s.tick → ∃ t, exec (.zlRetryTimeout n) s = .next t ∧
      (t.zlink n).resend = l.kept.map (fun k => k.fseq) ∧ (t.zlink n).kept = l.kept ∧
      t.getF (zlLinkRetryF n) = satAdd 32 (s.getF (zlLinkRetryF n)) 1 ∧ Frame [.regs, .incNow, .zl] s t) ∧
    (∃ t, exec (.zlEchoGo n) s = .next t ∧ t.zlink n = { l with reqOut := true } ∧ Frame [.zl] s t) ∧
    (∀ x, l.echo = some x → x.2.2 + 1024 ≤ s.tick → ∃ t, exec (.zlEchoTimeout n) s = .next t ∧
      t.getF (zlLinkStatus_EchoTimeout n) = 1 ∧ (t.zlink n).echo = none ∧ WordsKept [zlLinkStatus n] s t ∧
      Frame [.regs, .setNow, .zl] s t) ∧
    (let dz := (sint 32 (s.getF (zlLinkDz_Dz n)) + 255) / 256;
      let lz : Int := s.getF (zlLinkLz_Lz n);
      (s.flag (zlLinkStatus_EchoValid n) = true → dz + 320 ≤ lz → lz ≤ dz + 575 → ∃ t, exec (.zlFreeze n) s = .next t ∧
        t.getF (zlLinkStatus_Frozen n) = 1 ∧ t.getF (zlLinkCfg_Freeze n) = 1 ∧ WordsKept [zlLinkCfg n, zlLinkStatus n] s t ∧
        Frame [.regs] s t) ∧
      (s.flag (zlLinkStatus_EchoValid n) = false ∨ lz < dz + 320 ∨ dz + 575 < lz → ∃ t, exec (.zlFreeze n) s = .next t ∧
        t.getF zlStatus_WrRefused = 1 ∧ WordsKept [zlStatus] s t ∧ Frame [.regs, .setNow] s t)) ∧
    (∃ t, exec (.zlLinkDisable n) s = .next t ∧ t.getF (zlLinkCfg_En n) = 0 ∧ t.getF (zlLinkStatus_Frozen n) = 0 ∧
      t.getF (zlLinkStatus_EchoValid n) = 0 ∧ t.getF (zlLinkStatus_LinkDown n) = 0 ∧ t.zlink n = ZlLink.init ∧
      (∀ m, m ≠ n → t.zlink m = s.zlink m) ∧ t.getF (optTxState_State n) ≠ txOn ∧ Frame [.regs, .zl, .pwr] s t))

/-- The twin moves between its states, and digest windows close. ATTACH where it is allowed leads to ATTACHING and is refused
elsewhere; SETTLE ticks after JOIN an attaching chip is in step. RESTART arms the check: at JOIN the chip is in step when its
T0 is JOIN and diverged otherwise, with CoverageGap, and one that has diverged stays so. DETACH leads to DETACHING and 16
ticks later to DETACHED. A promotion that is due makes an in-step shadow the lead, detached, with source 161, at a tick
boundary; a demotion that is due makes it a shadow. At cycle 0 the windows of a hot tick that ran close with the digest of
their shares at the front of the history. A warm window closes in a running Hearth once a unit that feeds it has completed
the step and so has every unit that fed it; another one that feeds the point has passed it by, or its graph runs no more. The
cycle and the condition under which a window closes are the model's choice (log entry 71), as is a RESTART that is never
refused (log entry 75). -/
def Obligations.TwinStatesAndDigestWindows : Prop :=
  (∀ s : State,
    (s.canAttach = true → ∃ t, exec .twinAttach s = .next t ∧ t.getF zlTwinStatus_State = twAttaching ∧
      t.getF zlTwinStatus_Miss = 0 ∧ t.zl.promoteDue = false ∧ WordsKept [zlTwinStatus] s t ∧ Frame [.regs, .zl] s t) ∧
    (s.canAttach = false → ∃ t, exec .twinAttach s = .next t ∧ t.getF zlStatus_WrRefused = 1 ∧ WordsKept [zlStatus] s t ∧
      Frame [.regs, .setNow] s t) ∧
    (s.getF zlTwinStatus_State = twAttaching →
      (s.getF zlJoin_Tick + s.getF glbSettle_Settle ≤ s.tick → ∃ t, exec .twinInSync s = .next t ∧
        t.getF zlTwinStatus_State = twInSync ∧ t.getF zlTwinStatus_Miss = 0 ∧ t.zl = s.zl ∧ t.hearth = s.hearth) ∧
      (s.tick < s.getF zlJoin_Tick + s.getF glbSettle_Settle → exec .twinInSync s = .next s)) ∧
    (∃ t, exec .twinRestart s = .next t ∧ t.zl = { s.zl with restartArmed := true } ∧ Frame [.zl] s t) ∧
    (s.zl.restartArmed = true → s.getF zlJoin_Tick ≤ s.tick → ∃ t, exec .twinRestartCheck s = .next t ∧
      t.zl.restartArmed = false ∧ t.getF zlTwinStatus_CoverageGap = 1 ∧ t.hearth = s.hearth ∧
      (s.getF zlTwinStatus_State = twDiverged → t.getF zlTwinStatus_State = twDiverged) ∧
      (s.getF zlTwinStatus_State ≠ twDiverged → s.getF glbHotT0_T0 = s.getF zlJoin_Tick → t.getF zlTwinStatus_State = twInSync) ∧
      (s.getF zlTwinStatus_State ≠ twDiverged → s.getF glbHotT0_T0 ≠ s.getF zlJoin_Tick → t.getF zlTwinStatus_State = twDiverged ∧ t.getF zlTwinStatus_DivCause = 4 ∧
        t.getF zlDivTick_Tick = s.getF zlJoin_Tick)) ∧
    (s.zl.restartArmed = false → exec .twinRestartCheck s = .next s) ∧
    (s.getF zlTwinStatus_State ≠ twDetaching → ∃ t, exec .twinDetach s = .next t ∧ t.getF zlTwinStatus_State = twDetaching ∧
      t.zl = { s.zl with detachFrom := s.tick, promoteDue := false } ∧ WordsKept [zlTwinStatus] s t ∧ Frame [.regs, .zl] s t) ∧
    (s.getF zlTwinStatus_State = twDetaching → s.zl.detachFrom + 16 ≤ s.tick → ∃ t, exec .twinDetached s = .next t ∧
      t.getF zlTwinStatus_State = twDetached ∧ t.zl = { s.zl with voidAll := true } ∧ t.hearth = s.hearth) ∧
    (s.zl.promoteDue = true → s.cycle = 0 → s.getF zlTwinStatus_State = twInSync → s.getF zlTwinCtrl_Role = 2 →
      s.flt.released = true → ∃ t, exec .twinPromote s = .next t ∧ t.getF zlTwinCtrl_Role = 1 ∧
      t.getF zlTwinStatus_State = twDetached ∧ t.getF zlTwinStatus_Promoted = 1 ∧ t.getF chmCtrl_Shadow = 0 ∧
      t.zl = { s.zl with promoteDue := false } ∧ (∃ a ∈ t.flt.pend, a.src = 161) ∧ t.hearth = s.hearth) ∧
    (s.zl.demoteDue = true → s.cycle = 0 → ∃ t, exec .twinDemote s = .next t ∧ t.getF zlTwinCtrl_Role = 2 ∧
      t.getF zlTwinStatus_State = twDetached ∧ t.getF chmCtrl_Shadow = 1 ∧ t.zl = { s.zl with demoteDue := false } ∧
      Frame [.regs, .zl] s t) ∧
    (s.zl.promoteDue = false ∨ s.cycle ≠ 0 → exec .twinPromote s = .next s) ∧
    (s.zl.demoteDue = false ∨ s.cycle ≠ 0 → exec .twinDemote s = .next s)) ∧
  (∀ (s : State) (i : ImgInfo), s.hotImage = some i → s.cycle = 0 → 0 < s.tick → s.ranLast = true →
    (∀ d ds, s.zl.digests = d :: ds → d.1 ≠ s.tick - 1) →
    let w := s.sinceT0 (s.getF glbImgState_Epoch) (s.tick - 1)
    let us := ((siteList (s.vmap i.base i.v)).filter fun p => decide (p.1 < i.h)).map fun p => p.2.2
    let own : BitVec 64 := if s.hearth.twinTick = s.tick then s.hearth.twinCrc else 0
    ∃ t, exec .hotDigestWindowClose s = .next t ∧ t.getF glbTwinDig_Digest = own.toNat ∧
      t.zl.digests.head? = some (s.tick - 1, some own) ∧
      (w < 2 ^ 57 → ∃ j, t.hearth.img = some j ∧ ∀ p ∈ i.points, p.region = 0 → ∃ p' ∈ j.points, p'.point = p.point ∧
        p'.hist = ((w, s.pointDigest us p.point w) :: p.hist).take 256)) ∧
  (∀ (s : State) (i : ImgInfo) (p : DigPoint) (g : GraphEnt) (n : Nat), s.hearth.img = some i →
    i.points.find? (fun p => p.point == n && p.region == 1) = some p → i.graphs.find? (fun g => g.graph == p.graph) = some g →
    let us := (List.range 300).filter fun u => (s.graphUnits g).contains u
    let w := p.nextWindow
    let fed (u : Nat) : Prop := ∃ d ∈ (s.unit u).digs, d.point = n ∧ d.window = w
    let counts (u : Nat) : Prop := u ∈ us ∧ (s.feeds n u = true ∨ fed u)
    let past (u : Nat) : Prop := w < (s.unit u).step ∨ w < (s.unit u).pastStep
    let ended : Prop := ∀ r ∈ s.stk.runs, r.graph.graph ≠ g.graph
    let done : Prop := (∃ u, counts u ∧ past u) ∧ ∀ u, counts u → past u ∨ (ended ∧ ¬ fed u)
    (s.running = true → done → ∃ t j, exec (.warmDigestWindowClose n) s = .next t ∧
      t.hearth.img = some j ∧ ∃ p' ∈ j.points, p'.point = n ∧ p'.hist = ((w, s.pointDigest us n w) :: p.hist).take 256) ∧
    (s.running = false ∨ ¬ done → exec (.warmDigestWindowClose n) s = .next s))
end

