-- ==== Sys2Proof/Laws/Store.lean ====
section
/-!
SUPPORT. Laws of the sparse stores and of bit fields: a read after a write to the same key gives the value written, a write
leaves every other key alone, and the canonical form is kept by every store operation.
-/
namespace Sys2Proof.Machine

variable {α : Type}

/-! ### Sparse stores -/

@[simp] theorem mget_nil (d : Nat → α) (k : Nat) : mget d [] k = d k := rfl

theorem mwf_tail [DecidableEq α] {d : Nat → α} {e : Nat × α} {m : SMap α} (h : mwf d (e :: m)) : mwf d m := by
  obtain ⟨k, v⟩ := e
  simp only [mwf, Bool.and_eq_true] at h
  exact h.2

theorem mwf_head_ne [DecidableEq α] {d : Nat → α} {k : Nat} {v : α} {m : SMap α} (h : mwf d ((k, v) :: m)) : v ≠ d k := by
  simp only [mwf, Bool.and_eq_true, decide_eq_true_eq] at h
  exact h.1.1

/-- Every key after the first of a canonical store is larger. -/
theorem mwf_key_lt [DecidableEq α] {d : Nat → α} {k : Nat} {v : α} {m : SMap α} (h : mwf d ((k, v) :: m)) :
    ∀ e ∈ m, k < e.1 := by
  induction m generalizing k v with
  | nil => simp
  | cons e m ih =>
    obtain ⟨k', v'⟩ := e
    have h1 : k < k' := by
      simp only [mwf, Bool.and_eq_true, decide_eq_true_eq] at h
      exact h.1.2
    intro e he
    rcases List.mem_cons.mp he with rfl | he
    · exact h1
    · exact lt_trans h1 (ih (mwf_tail h) e he)

/-- The canonical form from its parts. -/
theorem mwf_cons [DecidableEq α] {d : Nat → α} {k : Nat} {v : α} {m : SMap α} (hv : v ≠ d k) (hk : ∀ e ∈ m, k < e.1)
    (h : mwf d m) : mwf d ((k, v) :: m) := by
  cases m with
  | nil => simp [mwf, hv]
  | cons e m =>
    have := hk e (by simp)
    simp [mwf, hv, this] at h ⊢
    exact h

/-- A key that is listed nowhere reads as unlisted. -/
theorem mget_unlisted (d : Nat → α) (m : SMap α) (k : Nat) (h : ∀ e ∈ m, e.1 ≠ k) : mget d m k = d k := by
  induction m with
  | nil => rfl
  | cons e m ih =>
    obtain ⟨k', v'⟩ := e
    have h1 : k' ≠ k := h (k', v') (by simp)
    simp only [mget, h1, if_false]
    exact ih fun e he => h e (by simp [he])

/-- A write leaves every other key alone. -/
theorem mget_mput_ne [DecidableEq α] (d : Nat → α) (m : SMap α) {k k' : Nat} (v : α) (h : k' ≠ k) :
    mget d (mput d m k v) k' = mget d m k' := by
  induction m with
  | nil => simp only [mput]; split <;> simp [mget, h.symm]
  | cons e m ih =>
    obtain ⟨k0, v0⟩ := e
    simp only [mput]
    split
    · split
      · rename_i h2; subst h2; simp [mget, h.symm, ih]
      · simp [mget, ih]
    · split
      · simp [mget, h.symm]
      · split
        · rename_i h2; subst h2; simp [mget, h.symm]
        · simp [mget, ih]

/-- A read after a write to the same key gives the value written. -/
theorem mget_mput_same [DecidableEq α] (d : Nat → α) (m : SMap α) (k : Nat) (v : α) : mget d (mput d m k v) k = v := by
  induction m with
  | nil => simp only [mput]; split <;> simp_all [mget]
  | cons e m ih =>
    obtain ⟨k0, v0⟩ := e
    simp only [mput]
    split
    · split
      · exact ih
      · rename_i h; simp [mget, h, ih]
    · split
      · simp [mget]
      · split
        · simp [mget]
        · rename_i h; simp [mget, Ne.symm h, ih]

/-- A read after a write, at any key. -/
theorem mget_mput [DecidableEq α] (d : Nat → α) (m : SMap α) (k k' : Nat) (v : α) :
    mget d (mput d m k v) k' = if k' = k then v else mget d m k' := by
  split
  · rename_i h; subst h; exact mget_mput_same d m _ v
  · rename_i h; exact mget_mput_ne d m v h

theorem mput_mem [DecidableEq α] {d : Nat → α} {m : SMap α} {k : Nat} {v : α} {e : Nat × α} (h : e ∈ mput d m k v) :
    e = (k, v) ∨ e ∈ m := by
  induction m with
  | nil => simp only [mput] at h; split at h <;> simp_all
  | cons e0 m ih =>
    obtain ⟨k0, v0⟩ := e0
    have tail (h : e ∈ (k0, v0) :: mput d m k v) : e = (k, v) ∨ e ∈ (k0, v0) :: m := by
      rcases List.mem_cons.mp h with h | h
      · simp [h]
      · rcases ih h with h | h <;> simp [h]
    simp only [mput] at h
    split at h
    · split at h
      · rcases ih h with h | h <;> simp [h]
      · exact tail h
    · split at h
      · simpa using h
      · split at h
        · rcases List.mem_cons.mp h with h | h <;> simp [h]
        · exact tail h

/-- Writing the unlisted value lists nothing at the key. -/
theorem mput_unlisted_mem [DecidableEq α] {d : Nat → α} (m : SMap α) {k : Nat} {v : α} (hv : v = d k) :
    (k, v) ∉ mput d m k v := by
  subst hv
  induction m with
  | nil => simp [mput]
  | cons e m ih =>
    obtain ⟨k1, v1⟩ := e
    simp only [mput, if_true]
    split
    · exact ih
    · rename_i h1
      intro h
      rcases List.mem_cons.mp h with h | h
      · exact h1 (by cases h; rfl)
      · exact ih h

/-- A write keeps the canonical form. -/
theorem mput_wf [DecidableEq α] (d : Nat → α) (m : SMap α) (k : Nat) (v : α) (hm : mwf d m) : mwf d (mput d m k v) := by
  induction m with
  | nil => simp only [mput]; split <;> simp_all [mwf]
  | cons e m ih =>
    obtain ⟨k0, v0⟩ := e
    have hlt := mwf_key_lt hm
    have ih := ih (mwf_tail hm)
    simp only [mput]
    split
    · rename_i hv
      split
      · exact ih
      · rename_i hk
        refine mwf_cons (mwf_head_ne hm) (fun e he => ?_) ih
        rcases mput_mem he with rfl | he
        · exact absurd he (mput_unlisted_mem m hv)
        · exact hlt e he
    · rename_i hv
      split
      · rename_i h1
        refine mwf_cons hv (fun e he => ?_) hm
        rcases List.mem_cons.mp he with rfl | he
        · exact h1
        · exact lt_trans h1 (hlt e he)
      · split
        · rename_i h1; subst h1; exact mwf_cons hv hlt (mwf_tail hm)
        · rename_i h1 h2
          refine mwf_cons (mwf_head_ne hm) (fun e he => ?_) ih
          rcases mput_mem he with rfl | he
          · simp only; omega
          · exact hlt e he

/-- Dropping entries keeps the canonical form. -/
theorem filter_wf [DecidableEq α] (d : Nat → α) (p : Nat × α → Bool) (m : SMap α) (hm : mwf d m) : mwf d (m.filter p) := by
  induction m with
  | nil => simpa using hm
  | cons e m ih =>
    obtain ⟨k, v⟩ := e
    simp only [List.filter_cons]
    split
    · refine mwf_cons (mwf_head_ne hm) ?_ (ih (mwf_tail hm))
      intro e he
      exact mwf_key_lt hm e (List.mem_filter.mp he).1
    · exact ih (mwf_tail hm)

/-- Writing consecutive keys keeps the canonical form. -/
theorem mputRange_wf [DecidableEq α] (d : Nat → α) (m : SMap α) (k : Nat) (vs : List α) (hm : mwf d m) :
    mwf d (mputRange d m k vs) := by
  induction vs generalizing m k with
  | nil => exact hm
  | cons v vs ih => exact ih _ _ (mput_wf d m k v hm)

/-- Writing consecutive keys leaves every key outside them alone. -/
theorem mget_mputRange_out [DecidableEq α] (d : Nat → α) (m : SMap α) (k : Nat) (vs : List α) (a : Nat)
    (h : a < k ∨ k + vs.length ≤ a) : mget d (mputRange d m k vs) a = mget d m a := by
  induction vs generalizing m k with
  | nil => rfl
  | cons v vs ih =>
    simp only [List.length_cons] at h
    simp only [mputRange]
    rw [ih _ _ (by omega), mget_mput_ne _ _ _ (by omega)]

/-! ### Bit fields -/

theorem testBit_bitsAt (v lsb w i : Nat) : (bitsAt v lsb w).testBit i = (decide (i < w) && v.testBit (lsb + i)) := by
  simp [bitsAt, Nat.testBit_mod_two_pow, Nat.testBit_shiftRight]

theorem putBits_eq (v lsb w x : Nat) :
    putBits v lsb w x = 2 ^ lsb * (2 ^ w * (v / 2 ^ (lsb + w)) + x % 2 ^ w) + v % 2 ^ lsb := by
  simp only [putBits, bitsAt, Nat.shiftRight_eq_div_pow]
  have h1 : v = v / 2 ^ lsb * 2 ^ lsb + v % 2 ^ lsb := (Nat.div_add_mod' v (2 ^ lsb)).symm
  have h2 : v / 2 ^ lsb = v / 2 ^ lsb / 2 ^ w * 2 ^ w + v / 2 ^ lsb % 2 ^ w := (Nat.div_add_mod' _ _).symm
  rw [Nat.div_div_eq_div_mul, ← pow_add] at h2
  have h4 : v / 2 ^ lsb * 2 ^ lsb = v / 2 ^ (lsb + w) * 2 ^ w * 2 ^ lsb + v / 2 ^ lsb % 2 ^ w * 2 ^ lsb := by
    conv_lhs => rw [h2]
    rw [Nat.add_mul]
  have h5 : 2 ^ lsb * (2 ^ w * (v / 2 ^ (lsb + w)) + x % 2 ^ w)
      = v / 2 ^ (lsb + w) * 2 ^ w * 2 ^ lsb + x % 2 ^ w * 2 ^ lsb := by ring
  omega

/-- A write of a field replaces its bits and no other. -/
theorem testBit_putBits (v lsb w x i : Nat) :
    (putBits v lsb w x).testBit i = if lsb ≤ i ∧ i < lsb + w then x.testBit (i - lsb) else v.testBit i := by
  rw [putBits_eq, Nat.testBit_two_pow_mul_add _ (Nat.mod_lt _ (by positivity))]
  by_cases h : i < lsb
  · have : ¬ lsb ≤ i := by omega
    simp [h, this, Nat.testBit_mod_two_pow]
  · have h' : lsb ≤ i := by omega
    simp only [h, if_false, h', true_and]
    rw [Nat.testBit_two_pow_mul_add _ (Nat.mod_lt _ (by positivity))]
    by_cases h2 : i - lsb < w
    · have : i < lsb + w := by omega
      simp [h2, this, Nat.testBit_mod_two_pow]
    · have : ¬ i < lsb + w := by omega
      simp only [h2, if_false, this]
      rw [Nat.testBit_div_two_pow]
      congr 1; omega

/-- A field that a write replaces reads as the value written, cut to its width. -/
theorem bitsAt_putBits_same (v lsb w x : Nat) : bitsAt (putBits v lsb w x) lsb w = x % 2 ^ w := by
  apply Nat.eq_of_testBit_eq; intro i
  rw [testBit_bitsAt, testBit_putBits, Nat.testBit_mod_two_pow]
  by_cases h : i < w <;> simp [h]

/-- A field that shares no bit with the one written is left alone. -/
theorem bitsAt_putBits_ne (v lsb w x lsb' w' : Nat) (h : lsb' + w' ≤ lsb ∨ lsb + w ≤ lsb') :
    bitsAt (putBits v lsb w x) lsb' w' = bitsAt v lsb' w' := by
  apply Nat.eq_of_testBit_eq; intro i
  rw [testBit_bitsAt, testBit_putBits, testBit_bitsAt]
  by_cases h1 : i < w'
  · have : ¬ (lsb ≤ lsb' + i ∧ lsb' + i < lsb + w) := by omega
    simp [h1, this]
  · simp [h1]

theorem bitsAt_lt (v lsb w : Nat) : bitsAt v lsb w < 2 ^ w := Nat.mod_lt _ (by positivity)

/-- Cutting a number to b bits leaves the fields below bit b. -/
theorem bitsAt_mod (v b lsb w : Nat) (h : lsb + w ≤ b) : bitsAt (v % 2 ^ b) lsb w = bitsAt v lsb w := by
  apply Nat.eq_of_testBit_eq; intro i
  rw [testBit_bitsAt, testBit_bitsAt, Nat.testBit_mod_two_pow]
  by_cases h1 : i < w
  · have : lsb + i < b := by omega
    simp [h1, this]
  · simp [h1]

theorem satAdd_lt (w v k : Nat) : satAdd w v k < 2 ^ w := by
  have : 0 < 2 ^ w := by positivity
  simp only [satAdd]; omega

/-! ### Register words and fields -/

theorem State.RegsWf.setWord {s : State} (h : s.RegsWf) (off : Nat) (v : W32) : (s.setWord off v).RegsWf :=
  mput_wf _ _ _ _ h

@[simp] theorem word_setWord_same (s : State) (off : Nat) (v : W32) : (s.setWord off v).word off = v :=
  mget_mput_same _ _ _ _

theorem word_setWord_ne (s : State) {off off' : Nat} (v : W32) (h : off' ≠ off) :
    (s.setWord off v).word off' = s.word off' :=
  mget_mput_ne _ _ _ h

theorem State.RegsWf.setF {s : State} (h : s.RegsWf) (f : Fld) (v : Nat) : (s.setF f v).RegsWf := by
  simp only [State.setF]; split
  · exact h.setWord _ _
  · exact (h.setWord _ _).setWord _ _

/-- A field write leaves every word outside its register alone. -/
theorem word_setF_ne (s : State) (f : Fld) (v : Nat) {off : Nat} (h1 : off ≠ f.off) (h2 : off ≠ f.off + 4) :
    (s.setF f v).word off = s.word off := by
  simp only [State.setF]; split
  · exact word_setWord_ne _ _ h1
  · rw [word_setWord_ne _ _ h2, word_setWord_ne _ _ h1]

/-- A write of a field within one word leaves every other word alone. -/
theorem word_setF_ne32 (s : State) (f : Fld) (v : Nat) {off : Nat} (hw : f.lsb + f.width ≤ 32) (h : off ≠ f.off) :
    (s.setF f v).word off = s.word off := by
  simp only [State.setF, hw, if_true]; exact word_setWord_ne _ _ h

theorem word_setF_same (s : State) (f : Fld) (v : Nat) (hw : f.lsb + f.width ≤ 32) :
    ((s.setF f v).word f.off).toNat = putBits (s.word f.off).toNat f.lsb f.width v % 2 ^ 32 := by
  simp only [State.setF, State.regNat, hw, if_true, word_setWord_same, BitVec.toNat_ofNat]

/-- A read of a field after a write of it gives the value written, cut to its width. -/
theorem getF_setF_same (s : State) (f : Fld) (v : Nat) (hw : f.lsb + f.width ≤ 64) :
    (s.setF f v).getF f = v % 2 ^ f.width := by
  by_cases h32 : f.lsb + f.width ≤ 32
  · simp only [State.getF, State.regNat, h32, if_true, word_setF_same s f v h32]
    rw [bitsAt_mod _ _ _ _ h32, bitsAt_putBits_same]
  · simp only [State.getF, State.regNat, State.setF, h32, if_false]
    have hne : f.off ≠ f.off + 4 := by omega
    rw [word_setWord_ne _ _ hne, word_setWord_same, word_setWord_same]
    simp only [BitVec.toNat_ofNat]
    generalize hn : putBits _ f.lsb f.width v = n
    have hn' : n % 2 ^ 32 + 2 ^ 32 * (n / 2 ^ 32 % 2 ^ 32) = n % 2 ^ 64 := by omega
    rw [hn', bitsAt_mod _ _ _ _ hw, ← hn, bitsAt_putBits_same]

/-- A field of another word is left alone. -/
theorem getF_setF_ne_off (s : State) (f g : Fld) (v : Nat) (hf : f.lsb + f.width ≤ 32) (hg : g.lsb + g.width ≤ 32)
    (h : g.off ≠ f.off) : (s.setF f v).getF g = s.getF g := by
  simp only [State.getF, State.regNat, hg, if_true, word_setF_ne32 s f v hf h]

/-- A field of the same word that shares no bit with the one written is left alone. -/
theorem getF_setF_ne_bits (s : State) (f g : Fld) (v : Nat) (hf : f.lsb + f.width ≤ 32)
    (hg : g.lsb + g.width ≤ 32) (ho : g.off = f.off) (hb : g.lsb + g.width ≤ f.lsb ∨ f.lsb + f.width ≤ g.lsb) :
    (s.setF f v).getF g = s.getF g := by
  simp only [State.getF, State.regNat, hg, if_true, ho, word_setF_same s f v hf]
  rw [bitsAt_mod _ _ _ _ hg, bitsAt_putBits_ne _ _ _ _ _ _ hb]

end Sys2Proof.Machine
end

