-- ==== Sys2Proof/Laws/State.lean ====
section
/-!
SUPPORT. What each shared update of State leaves alone: one lemma per component and update, so that no proof unfolds a record
update.
-/
namespace Sys2Proof.Machine

/-- Fields and words depend on the register store and the part alone. -/
theorem word_congr {s t : State} (hr : t.regs = s.regs) (hp : t.part = s.part) (off : Nat) : t.word off = s.word off := by
  simp only [State.word, hr, hp]

theorem getF_congr {s t : State} (hr : t.regs = s.regs) (hp : t.part = s.part) (f : Fld) : t.getF f = s.getF f := by
  simp only [State.getF, State.regNat, word_congr hr hp]

/-! ### setWord -/

@[simp] theorem part_setWord (s : State) (off : Nat) (v : W32) : (s.setWord off v).part = s.part := rfl
@[simp] theorem pending_setWord (s : State) (off : Nat) (v : W32) : (s.setWord off v).pending = s.pending := rfl
@[simp] theorem frc_setWord (s : State) (off : Nat) (v : W32) : (s.setWord off v).frc = s.frc := rfl
@[simp] theorem cyc_setWord (s : State) (off : Nat) (v : W32) : (s.setWord off v).cyc = s.cyc := rfl
@[simp] theorem hcyc_setWord (s : State) (off : Nat) (v : W32) : (s.setWord off v).hcyc = s.hcyc := rfl
@[simp] theorem hiCap_setWord (s : State) (off : Nat) (v : W32) : (s.setWord off v).hiCap = s.hiCap := rfl
@[simp] theorem readData_setWord (s : State) (off : Nat) (v : W32) : (s.setWord off v).readData = s.readData := rfl
@[simp] theorem readUr_setWord (s : State) (off : Nat) (v : W32) : (s.setWord off v).readUr = s.readUr := rfl
@[simp] theorem readRetry_setWord (s : State) (off : Nat) (v : W32) : (s.setWord off v).readRetry = s.readRetry := rfl
@[simp] theorem bar2Data_setWord (s : State) (off : Nat) (v : W32) : (s.setWord off v).bar2Data = s.bar2Data := rfl
@[simp] theorem bar2Ep_setWord (s : State) (off : Nat) (v : W32) : (s.setWord off v).bar2Ep = s.bar2Ep := rfl
@[simp] theorem setNow_setWord (s : State) (off : Nat) (v : W32) : (s.setWord off v).setNow = s.setNow := rfl
@[simp] theorem incNow_setWord (s : State) (off : Nat) (v : W32) : (s.setWord off v).incNow = s.incNow := rfl
@[simp] theorem freeIx_setWord (s : State) (off : Nat) (v : W32) : (s.setWord off v).freeIx = s.freeIx := rfl
@[simp] theorem hostMem_setWord (s : State) (off : Nat) (v : W32) : (s.setWord off v).hostMem = s.hostMem := rfl
@[simp] theorem mem_setWord (s : State) (off : Nat) (v : W32) : (s.setWord off v).mem = s.mem := rfl
@[simp] theorem ing_setWord (s : State) (off : Nat) (v : W32) : (s.setWord off v).ing = s.ing := rfl
@[simp] theorem stk_setWord (s : State) (off : Nat) (v : W32) : (s.setWord off v).stk = s.stk := rfl
@[simp] theorem flt_setWord (s : State) (off : Nat) (v : W32) : (s.setWord off v).flt = s.flt := rfl
@[simp] theorem sec_setWord (s : State) (off : Nat) (v : W32) : (s.setWord off v).sec = s.sec := rfl
@[simp] theorem pcie_setWord (s : State) (off : Nat) (v : W32) : (s.setWord off v).pcie = s.pcie := rfl
@[simp] theorem pwr_setWord (s : State) (off : Nat) (v : W32) : (s.setWord off v).pwr = s.pwr := rfl
@[simp] theorem trg_setWord (s : State) (off : Nat) (v : W32) : (s.setWord off v).trg = s.trg := rfl
@[simp] theorem pools_setWord (s : State) (off : Nat) (v : W32) : (s.setWord off v).pools = s.pools := rfl
@[simp] theorem chm_setWord (s : State) (off : Nat) (v : W32) : (s.setWord off v).chm = s.chm := rfl
@[simp] theorem tim_setWord (s : State) (off : Nat) (v : W32) : (s.setWord off v).tim = s.tim := rfl
@[simp] theorem zl_setWord (s : State) (off : Nat) (v : W32) : (s.setWord off v).zl = s.zl := rfl
@[simp] theorem hearth_setWord (s : State) (off : Nat) (v : W32) : (s.setWord off v).hearth = s.hearth := rfl

/-! ### setF -/

@[simp] theorem part_setF (s : State) (f : Fld) (v : Nat) : (s.setF f v).part = s.part := by simp only [State.setF]; split <;> rfl
@[simp] theorem pending_setF (s : State) (f : Fld) (v : Nat) : (s.setF f v).pending = s.pending := by simp only [State.setF]; split <;> rfl
@[simp] theorem frc_setF (s : State) (f : Fld) (v : Nat) : (s.setF f v).frc = s.frc := by simp only [State.setF]; split <;> rfl
@[simp] theorem cyc_setF (s : State) (f : Fld) (v : Nat) : (s.setF f v).cyc = s.cyc := by simp only [State.setF]; split <;> rfl
@[simp] theorem hcyc_setF (s : State) (f : Fld) (v : Nat) : (s.setF f v).hcyc = s.hcyc := by simp only [State.setF]; split <;> rfl
@[simp] theorem hiCap_setF (s : State) (f : Fld) (v : Nat) : (s.setF f v).hiCap = s.hiCap := by simp only [State.setF]; split <;> rfl
@[simp] theorem readData_setF (s : State) (f : Fld) (v : Nat) : (s.setF f v).readData = s.readData := by simp only [State.setF]; split <;> rfl
@[simp] theorem readUr_setF (s : State) (f : Fld) (v : Nat) : (s.setF f v).readUr = s.readUr := by simp only [State.setF]; split <;> rfl
@[simp] theorem readRetry_setF (s : State) (f : Fld) (v : Nat) : (s.setF f v).readRetry = s.readRetry := by simp only [State.setF]; split <;> rfl
@[simp] theorem bar2Data_setF (s : State) (f : Fld) (v : Nat) : (s.setF f v).bar2Data = s.bar2Data := by simp only [State.setF]; split <;> rfl
@[simp] theorem bar2Ep_setF (s : State) (f : Fld) (v : Nat) : (s.setF f v).bar2Ep = s.bar2Ep := by simp only [State.setF]; split <;> rfl
@[simp] theorem setNow_setF (s : State) (f : Fld) (v : Nat) : (s.setF f v).setNow = s.setNow := by simp only [State.setF]; split <;> rfl
@[simp] theorem incNow_setF (s : State) (f : Fld) (v : Nat) : (s.setF f v).incNow = s.incNow := by simp only [State.setF]; split <;> rfl
@[simp] theorem freeIx_setF (s : State) (f : Fld) (v : Nat) : (s.setF f v).freeIx = s.freeIx := by simp only [State.setF]; split <;> rfl
@[simp] theorem hostMem_setF (s : State) (f : Fld) (v : Nat) : (s.setF f v).hostMem = s.hostMem := by simp only [State.setF]; split <;> rfl
@[simp] theorem mem_setF (s : State) (f : Fld) (v : Nat) : (s.setF f v).mem = s.mem := by simp only [State.setF]; split <;> rfl
@[simp] theorem ing_setF (s : State) (f : Fld) (v : Nat) : (s.setF f v).ing = s.ing := by simp only [State.setF]; split <;> rfl
@[simp] theorem stk_setF (s : State) (f : Fld) (v : Nat) : (s.setF f v).stk = s.stk := by simp only [State.setF]; split <;> rfl
@[simp] theorem flt_setF (s : State) (f : Fld) (v : Nat) : (s.setF f v).flt = s.flt := by simp only [State.setF]; split <;> rfl
@[simp] theorem sec_setF (s : State) (f : Fld) (v : Nat) : (s.setF f v).sec = s.sec := by simp only [State.setF]; split <;> rfl
@[simp] theorem pcie_setF (s : State) (f : Fld) (v : Nat) : (s.setF f v).pcie = s.pcie := by simp only [State.setF]; split <;> rfl
@[simp] theorem pwr_setF (s : State) (f : Fld) (v : Nat) : (s.setF f v).pwr = s.pwr := by simp only [State.setF]; split <;> rfl
@[simp] theorem trg_setF (s : State) (f : Fld) (v : Nat) : (s.setF f v).trg = s.trg := by simp only [State.setF]; split <;> rfl
@[simp] theorem pools_setF (s : State) (f : Fld) (v : Nat) : (s.setF f v).pools = s.pools := by simp only [State.setF]; split <;> rfl
@[simp] theorem chm_setF (s : State) (f : Fld) (v : Nat) : (s.setF f v).chm = s.chm := by simp only [State.setF]; split <;> rfl
@[simp] theorem tim_setF (s : State) (f : Fld) (v : Nat) : (s.setF f v).tim = s.tim := by simp only [State.setF]; split <;> rfl
@[simp] theorem zl_setF (s : State) (f : Fld) (v : Nat) : (s.setF f v).zl = s.zl := by simp only [State.setF]; split <;> rfl
@[simp] theorem hearth_setF (s : State) (f : Fld) (v : Nat) : (s.setF f v).hearth = s.hearth := by simp only [State.setF]; split <;> rfl

/-! ### bump -/

@[simp] theorem part_bump (s : State) (f : Fld) (k : Nat) : (s.bump f k).part = s.part := by simp only [State.bump]; simp
@[simp] theorem pending_bump (s : State) (f : Fld) (k : Nat) : (s.bump f k).pending = s.pending := by simp only [State.bump]; simp
@[simp] theorem frc_bump (s : State) (f : Fld) (k : Nat) : (s.bump f k).frc = s.frc := by simp only [State.bump]; simp
@[simp] theorem cyc_bump (s : State) (f : Fld) (k : Nat) : (s.bump f k).cyc = s.cyc := by simp only [State.bump]; simp
@[simp] theorem hcyc_bump (s : State) (f : Fld) (k : Nat) : (s.bump f k).hcyc = s.hcyc := by simp only [State.bump]; simp
@[simp] theorem hiCap_bump (s : State) (f : Fld) (k : Nat) : (s.bump f k).hiCap = s.hiCap := by simp only [State.bump]; simp
@[simp] theorem readData_bump (s : State) (f : Fld) (k : Nat) : (s.bump f k).readData = s.readData := by simp only [State.bump]; simp
@[simp] theorem readUr_bump (s : State) (f : Fld) (k : Nat) : (s.bump f k).readUr = s.readUr := by simp only [State.bump]; simp
@[simp] theorem readRetry_bump (s : State) (f : Fld) (k : Nat) : (s.bump f k).readRetry = s.readRetry := by simp only [State.bump]; simp
@[simp] theorem bar2Data_bump (s : State) (f : Fld) (k : Nat) : (s.bump f k).bar2Data = s.bar2Data := by simp only [State.bump]; simp
@[simp] theorem bar2Ep_bump (s : State) (f : Fld) (k : Nat) : (s.bump f k).bar2Ep = s.bar2Ep := by simp only [State.bump]; simp
@[simp] theorem setNow_bump (s : State) (f : Fld) (k : Nat) : (s.bump f k).setNow = s.setNow := by simp only [State.bump]; simp
@[simp] theorem freeIx_bump (s : State) (f : Fld) (k : Nat) : (s.bump f k).freeIx = s.freeIx := by simp only [State.bump]; simp
@[simp] theorem hostMem_bump (s : State) (f : Fld) (k : Nat) : (s.bump f k).hostMem = s.hostMem := by simp only [State.bump]; simp
@[simp] theorem mem_bump (s : State) (f : Fld) (k : Nat) : (s.bump f k).mem = s.mem := by simp only [State.bump]; simp
@[simp] theorem ing_bump (s : State) (f : Fld) (k : Nat) : (s.bump f k).ing = s.ing := by simp only [State.bump]; simp
@[simp] theorem stk_bump (s : State) (f : Fld) (k : Nat) : (s.bump f k).stk = s.stk := by simp only [State.bump]; simp
@[simp] theorem flt_bump (s : State) (f : Fld) (k : Nat) : (s.bump f k).flt = s.flt := by simp only [State.bump]; simp
@[simp] theorem sec_bump (s : State) (f : Fld) (k : Nat) : (s.bump f k).sec = s.sec := by simp only [State.bump]; simp
@[simp] theorem pcie_bump (s : State) (f : Fld) (k : Nat) : (s.bump f k).pcie = s.pcie := by simp only [State.bump]; simp
@[simp] theorem pwr_bump (s : State) (f : Fld) (k : Nat) : (s.bump f k).pwr = s.pwr := by simp only [State.bump]; simp
@[simp] theorem trg_bump (s : State) (f : Fld) (k : Nat) : (s.bump f k).trg = s.trg := by simp only [State.bump]; simp
@[simp] theorem pools_bump (s : State) (f : Fld) (k : Nat) : (s.bump f k).pools = s.pools := by simp only [State.bump]; simp
@[simp] theorem chm_bump (s : State) (f : Fld) (k : Nat) : (s.bump f k).chm = s.chm := by simp only [State.bump]; simp
@[simp] theorem tim_bump (s : State) (f : Fld) (k : Nat) : (s.bump f k).tim = s.tim := by simp only [State.bump]; simp
@[simp] theorem zl_bump (s : State) (f : Fld) (k : Nat) : (s.bump f k).zl = s.zl := by simp only [State.bump]; simp
@[simp] theorem hearth_bump (s : State) (f : Fld) (k : Nat) : (s.bump f k).hearth = s.hearth := by simp only [State.bump]; simp

/-! ### raise -/

@[simp] theorem part_raise (s : State) (f : Fld) : (s.raise f).part = s.part := by simp only [State.raise]; simp
@[simp] theorem pending_raise (s : State) (f : Fld) : (s.raise f).pending = s.pending := by simp only [State.raise]; simp
@[simp] theorem frc_raise (s : State) (f : Fld) : (s.raise f).frc = s.frc := by simp only [State.raise]; simp
@[simp] theorem cyc_raise (s : State) (f : Fld) : (s.raise f).cyc = s.cyc := by simp only [State.raise]; simp
@[simp] theorem hcyc_raise (s : State) (f : Fld) : (s.raise f).hcyc = s.hcyc := by simp only [State.raise]; simp
@[simp] theorem hiCap_raise (s : State) (f : Fld) : (s.raise f).hiCap = s.hiCap := by simp only [State.raise]; simp
@[simp] theorem readData_raise (s : State) (f : Fld) : (s.raise f).readData = s.readData := by simp only [State.raise]; simp
@[simp] theorem readUr_raise (s : State) (f : Fld) : (s.raise f).readUr = s.readUr := by simp only [State.raise]; simp
@[simp] theorem readRetry_raise (s : State) (f : Fld) : (s.raise f).readRetry = s.readRetry := by simp only [State.raise]; simp
@[simp] theorem bar2Data_raise (s : State) (f : Fld) : (s.raise f).bar2Data = s.bar2Data := by simp only [State.raise]; simp
@[simp] theorem bar2Ep_raise (s : State) (f : Fld) : (s.raise f).bar2Ep = s.bar2Ep := by simp only [State.raise]; simp
@[simp] theorem incNow_raise (s : State) (f : Fld) : (s.raise f).incNow = s.incNow := by simp only [State.raise]; simp
@[simp] theorem freeIx_raise (s : State) (f : Fld) : (s.raise f).freeIx = s.freeIx := by simp only [State.raise]; simp
@[simp] theorem hostMem_raise (s : State) (f : Fld) : (s.raise f).hostMem = s.hostMem := by simp only [State.raise]; simp
@[simp] theorem mem_raise (s : State) (f : Fld) : (s.raise f).mem = s.mem := by simp only [State.raise]; simp
@[simp] theorem ing_raise (s : State) (f : Fld) : (s.raise f).ing = s.ing := by simp only [State.raise]; simp
@[simp] theorem stk_raise (s : State) (f : Fld) : (s.raise f).stk = s.stk := by simp only [State.raise]; simp
@[simp] theorem flt_raise (s : State) (f : Fld) : (s.raise f).flt = s.flt := by simp only [State.raise]; simp
@[simp] theorem sec_raise (s : State) (f : Fld) : (s.raise f).sec = s.sec := by simp only [State.raise]; simp
@[simp] theorem pcie_raise (s : State) (f : Fld) : (s.raise f).pcie = s.pcie := by simp only [State.raise]; simp
@[simp] theorem pwr_raise (s : State) (f : Fld) : (s.raise f).pwr = s.pwr := by simp only [State.raise]; simp
@[simp] theorem trg_raise (s : State) (f : Fld) : (s.raise f).trg = s.trg := by simp only [State.raise]; simp
@[simp] theorem pools_raise (s : State) (f : Fld) : (s.raise f).pools = s.pools := by simp only [State.raise]; simp
@[simp] theorem chm_raise (s : State) (f : Fld) : (s.raise f).chm = s.chm := by simp only [State.raise]; simp
@[simp] theorem tim_raise (s : State) (f : Fld) : (s.raise f).tim = s.tim := by simp only [State.raise]; simp
@[simp] theorem zl_raise (s : State) (f : Fld) : (s.raise f).zl = s.zl := by simp only [State.raise]; simp
@[simp] theorem hearth_raise (s : State) (f : Fld) : (s.raise f).hearth = s.hearth := by simp only [State.raise]; simp

/-! ### resetWords -/

@[simp] theorem part_resetWords (s : State) (p : Nat → Bool) : (s.resetWords p).part = s.part := rfl
@[simp] theorem pending_resetWords (s : State) (p : Nat → Bool) : (s.resetWords p).pending = s.pending := rfl
@[simp] theorem frc_resetWords (s : State) (p : Nat → Bool) : (s.resetWords p).frc = s.frc := rfl
@[simp] theorem cyc_resetWords (s : State) (p : Nat → Bool) : (s.resetWords p).cyc = s.cyc := rfl
@[simp] theorem hcyc_resetWords (s : State) (p : Nat → Bool) : (s.resetWords p).hcyc = s.hcyc := rfl
@[simp] theorem hiCap_resetWords (s : State) (p : Nat → Bool) : (s.resetWords p).hiCap = s.hiCap := rfl
@[simp] theorem readData_resetWords (s : State) (p : Nat → Bool) : (s.resetWords p).readData = s.readData := rfl
@[simp] theorem readUr_resetWords (s : State) (p : Nat → Bool) : (s.resetWords p).readUr = s.readUr := rfl
@[simp] theorem readRetry_resetWords (s : State) (p : Nat → Bool) : (s.resetWords p).readRetry = s.readRetry := rfl
@[simp] theorem bar2Data_resetWords (s : State) (p : Nat → Bool) : (s.resetWords p).bar2Data = s.bar2Data := rfl
@[simp] theorem bar2Ep_resetWords (s : State) (p : Nat → Bool) : (s.resetWords p).bar2Ep = s.bar2Ep := rfl
@[simp] theorem setNow_resetWords (s : State) (p : Nat → Bool) : (s.resetWords p).setNow = s.setNow := rfl
@[simp] theorem incNow_resetWords (s : State) (p : Nat → Bool) : (s.resetWords p).incNow = s.incNow := rfl
@[simp] theorem freeIx_resetWords (s : State) (p : Nat → Bool) : (s.resetWords p).freeIx = s.freeIx := rfl
@[simp] theorem hostMem_resetWords (s : State) (p : Nat → Bool) : (s.resetWords p).hostMem = s.hostMem := rfl
@[simp] theorem mem_resetWords (s : State) (p : Nat → Bool) : (s.resetWords p).mem = s.mem := rfl
@[simp] theorem ing_resetWords (s : State) (p : Nat → Bool) : (s.resetWords p).ing = s.ing := rfl
@[simp] theorem stk_resetWords (s : State) (p : Nat → Bool) : (s.resetWords p).stk = s.stk := rfl
@[simp] theorem flt_resetWords (s : State) (p : Nat → Bool) : (s.resetWords p).flt = s.flt := rfl
@[simp] theorem sec_resetWords (s : State) (p : Nat → Bool) : (s.resetWords p).sec = s.sec := rfl
@[simp] theorem pcie_resetWords (s : State) (p : Nat → Bool) : (s.resetWords p).pcie = s.pcie := rfl
@[simp] theorem pwr_resetWords (s : State) (p : Nat → Bool) : (s.resetWords p).pwr = s.pwr := rfl
@[simp] theorem trg_resetWords (s : State) (p : Nat → Bool) : (s.resetWords p).trg = s.trg := rfl
@[simp] theorem pools_resetWords (s : State) (p : Nat → Bool) : (s.resetWords p).pools = s.pools := rfl
@[simp] theorem chm_resetWords (s : State) (p : Nat → Bool) : (s.resetWords p).chm = s.chm := rfl
@[simp] theorem tim_resetWords (s : State) (p : Nat → Bool) : (s.resetWords p).tim = s.tim := rfl
@[simp] theorem zl_resetWords (s : State) (p : Nat → Bool) : (s.resetWords p).zl = s.zl := rfl
@[simp] theorem hearth_resetWords (s : State) (p : Nat → Bool) : (s.resetWords p).hearth = s.hearth := rfl

/-! ### clearCounters -/

@[simp] theorem part_clearCounters (s : State) (p : Nat → Bool) : (s.clearCounters p).part = s.part := rfl
@[simp] theorem pending_clearCounters (s : State) (p : Nat → Bool) : (s.clearCounters p).pending = s.pending := rfl
@[simp] theorem frc_clearCounters (s : State) (p : Nat → Bool) : (s.clearCounters p).frc = s.frc := rfl
@[simp] theorem cyc_clearCounters (s : State) (p : Nat → Bool) : (s.clearCounters p).cyc = s.cyc := rfl
@[simp] theorem hcyc_clearCounters (s : State) (p : Nat → Bool) : (s.clearCounters p).hcyc = s.hcyc := rfl
@[simp] theorem hiCap_clearCounters (s : State) (p : Nat → Bool) : (s.clearCounters p).hiCap = s.hiCap := rfl
@[simp] theorem readData_clearCounters (s : State) (p : Nat → Bool) : (s.clearCounters p).readData = s.readData := rfl
@[simp] theorem readUr_clearCounters (s : State) (p : Nat → Bool) : (s.clearCounters p).readUr = s.readUr := rfl
@[simp] theorem readRetry_clearCounters (s : State) (p : Nat → Bool) : (s.clearCounters p).readRetry = s.readRetry := rfl
@[simp] theorem bar2Data_clearCounters (s : State) (p : Nat → Bool) : (s.clearCounters p).bar2Data = s.bar2Data := rfl
@[simp] theorem bar2Ep_clearCounters (s : State) (p : Nat → Bool) : (s.clearCounters p).bar2Ep = s.bar2Ep := rfl
@[simp] theorem setNow_clearCounters (s : State) (p : Nat → Bool) : (s.clearCounters p).setNow = s.setNow := rfl
@[simp] theorem freeIx_clearCounters (s : State) (p : Nat → Bool) : (s.clearCounters p).freeIx = s.freeIx := rfl
@[simp] theorem hostMem_clearCounters (s : State) (p : Nat → Bool) : (s.clearCounters p).hostMem = s.hostMem := rfl
@[simp] theorem mem_clearCounters (s : State) (p : Nat → Bool) : (s.clearCounters p).mem = s.mem := rfl
@[simp] theorem ing_clearCounters (s : State) (p : Nat → Bool) : (s.clearCounters p).ing = s.ing := rfl
@[simp] theorem stk_clearCounters (s : State) (p : Nat → Bool) : (s.clearCounters p).stk = s.stk := rfl
@[simp] theorem flt_clearCounters (s : State) (p : Nat → Bool) : (s.clearCounters p).flt = s.flt := rfl
@[simp] theorem sec_clearCounters (s : State) (p : Nat → Bool) : (s.clearCounters p).sec = s.sec := rfl
@[simp] theorem pcie_clearCounters (s : State) (p : Nat → Bool) : (s.clearCounters p).pcie = s.pcie := rfl
@[simp] theorem pwr_clearCounters (s : State) (p : Nat → Bool) : (s.clearCounters p).pwr = s.pwr := rfl
@[simp] theorem trg_clearCounters (s : State) (p : Nat → Bool) : (s.clearCounters p).trg = s.trg := rfl
@[simp] theorem pools_clearCounters (s : State) (p : Nat → Bool) : (s.clearCounters p).pools = s.pools := rfl
@[simp] theorem chm_clearCounters (s : State) (p : Nat → Bool) : (s.clearCounters p).chm = s.chm := rfl
@[simp] theorem tim_clearCounters (s : State) (p : Nat → Bool) : (s.clearCounters p).tim = s.tim := rfl
@[simp] theorem zl_clearCounters (s : State) (p : Nat → Bool) : (s.clearCounters p).zl = s.zl := rfl
@[simp] theorem hearth_clearCounters (s : State) (p : Nat → Bool) : (s.clearCounters p).hearth = s.hearth := rfl

/-! ### refuse -/

@[simp] theorem part_refuse (s : State) (off : Nat) : (s.refuse off).part = s.part := by simp only [State.refuse]; split <;> simp
@[simp] theorem pending_refuse (s : State) (off : Nat) : (s.refuse off).pending = s.pending := by simp only [State.refuse]; split <;> simp
@[simp] theorem frc_refuse (s : State) (off : Nat) : (s.refuse off).frc = s.frc := by simp only [State.refuse]; split <;> simp
@[simp] theorem cyc_refuse (s : State) (off : Nat) : (s.refuse off).cyc = s.cyc := by simp only [State.refuse]; split <;> simp
@[simp] theorem hcyc_refuse (s : State) (off : Nat) : (s.refuse off).hcyc = s.hcyc := by simp only [State.refuse]; split <;> simp
@[simp] theorem hiCap_refuse (s : State) (off : Nat) : (s.refuse off).hiCap = s.hiCap := by simp only [State.refuse]; split <;> simp
@[simp] theorem readData_refuse (s : State) (off : Nat) : (s.refuse off).readData = s.readData := by simp only [State.refuse]; split <;> simp
@[simp] theorem readUr_refuse (s : State) (off : Nat) : (s.refuse off).readUr = s.readUr := by simp only [State.refuse]; split <;> simp
@[simp] theorem readRetry_refuse (s : State) (off : Nat) : (s.refuse off).readRetry = s.readRetry := by simp only [State.refuse]; split <;> simp
@[simp] theorem bar2Data_refuse (s : State) (off : Nat) : (s.refuse off).bar2Data = s.bar2Data := by simp only [State.refuse]; split <;> simp
@[simp] theorem bar2Ep_refuse (s : State) (off : Nat) : (s.refuse off).bar2Ep = s.bar2Ep := by simp only [State.refuse]; split <;> simp
@[simp] theorem incNow_refuse (s : State) (off : Nat) : (s.refuse off).incNow = s.incNow := by simp only [State.refuse]; split <;> simp
@[simp] theorem freeIx_refuse (s : State) (off : Nat) : (s.refuse off).freeIx = s.freeIx := by simp only [State.refuse]; split <;> simp
@[simp] theorem hostMem_refuse (s : State) (off : Nat) : (s.refuse off).hostMem = s.hostMem := by simp only [State.refuse]; split <;> simp
@[simp] theorem mem_refuse (s : State) (off : Nat) : (s.refuse off).mem = s.mem := by simp only [State.refuse]; split <;> simp
@[simp] theorem ing_refuse (s : State) (off : Nat) : (s.refuse off).ing = s.ing := by simp only [State.refuse]; split <;> simp
@[simp] theorem stk_refuse (s : State) (off : Nat) : (s.refuse off).stk = s.stk := by simp only [State.refuse]; split <;> simp
@[simp] theorem flt_refuse (s : State) (off : Nat) : (s.refuse off).flt = s.flt := by simp only [State.refuse]; split <;> simp
@[simp] theorem sec_refuse (s : State) (off : Nat) : (s.refuse off).sec = s.sec := by simp only [State.refuse]; split <;> simp
@[simp] theorem pcie_refuse (s : State) (off : Nat) : (s.refuse off).pcie = s.pcie := by simp only [State.refuse]; split <;> simp
@[simp] theorem pwr_refuse (s : State) (off : Nat) : (s.refuse off).pwr = s.pwr := by simp only [State.refuse]; split <;> simp
@[simp] theorem trg_refuse (s : State) (off : Nat) : (s.refuse off).trg = s.trg := by simp only [State.refuse]; split <;> simp
@[simp] theorem pools_refuse (s : State) (off : Nat) : (s.refuse off).pools = s.pools := by simp only [State.refuse]; split <;> simp
@[simp] theorem chm_refuse (s : State) (off : Nat) : (s.refuse off).chm = s.chm := by simp only [State.refuse]; split <;> simp
@[simp] theorem tim_refuse (s : State) (off : Nat) : (s.refuse off).tim = s.tim := by simp only [State.refuse]; split <;> simp
@[simp] theorem zl_refuse (s : State) (off : Nat) : (s.refuse off).zl = s.zl := by simp only [State.refuse]; split <;> simp
@[simp] theorem hearth_refuse (s : State) (off : Nat) : (s.refuse off).hearth = s.hearth := by simp only [State.refuse]; split <;> simp

/-! ### setIf -/

@[simp] theorem part_setIf (s : State) (ok : Bool) (f : Fld) (v : Nat) : (s.setIf ok f v).part = s.part := by simp only [State.setIf]; split <;> (try split) <;> simp
@[simp] theorem pending_setIf (s : State) (ok : Bool) (f : Fld) (v : Nat) : (s.setIf ok f v).pending = s.pending := by simp only [State.setIf]; split <;> (try split) <;> simp
@[simp] theorem frc_setIf (s : State) (ok : Bool) (f : Fld) (v : Nat) : (s.setIf ok f v).frc = s.frc := by simp only [State.setIf]; split <;> (try split) <;> simp
@[simp] theorem cyc_setIf (s : State) (ok : Bool) (f : Fld) (v : Nat) : (s.setIf ok f v).cyc = s.cyc := by simp only [State.setIf]; split <;> (try split) <;> simp
@[simp] theorem hcyc_setIf (s : State) (ok : Bool) (f : Fld) (v : Nat) : (s.setIf ok f v).hcyc = s.hcyc := by simp only [State.setIf]; split <;> (try split) <;> simp
@[simp] theorem hiCap_setIf (s : State) (ok : Bool) (f : Fld) (v : Nat) : (s.setIf ok f v).hiCap = s.hiCap := by simp only [State.setIf]; split <;> (try split) <;> simp
@[simp] theorem readData_setIf (s : State) (ok : Bool) (f : Fld) (v : Nat) : (s.setIf ok f v).readData = s.readData := by simp only [State.setIf]; split <;> (try split) <;> simp
@[simp] theorem readUr_setIf (s : State) (ok : Bool) (f : Fld) (v : Nat) : (s.setIf ok f v).readUr = s.readUr := by simp only [State.setIf]; split <;> (try split) <;> simp
@[simp] theorem readRetry_setIf (s : State) (ok : Bool) (f : Fld) (v : Nat) : (s.setIf ok f v).readRetry = s.readRetry := by simp only [State.setIf]; split <;> (try split) <;> simp
@[simp] theorem bar2Data_setIf (s : State) (ok : Bool) (f : Fld) (v : Nat) : (s.setIf ok f v).bar2Data = s.bar2Data := by simp only [State.setIf]; split <;> (try split) <;> simp
@[simp] theorem bar2Ep_setIf (s : State) (ok : Bool) (f : Fld) (v : Nat) : (s.setIf ok f v).bar2Ep = s.bar2Ep := by simp only [State.setIf]; split <;> (try split) <;> simp
@[simp] theorem incNow_setIf (s : State) (ok : Bool) (f : Fld) (v : Nat) : (s.setIf ok f v).incNow = s.incNow := by simp only [State.setIf]; split <;> (try split) <;> simp
@[simp] theorem freeIx_setIf (s : State) (ok : Bool) (f : Fld) (v : Nat) : (s.setIf ok f v).freeIx = s.freeIx := by simp only [State.setIf]; split <;> (try split) <;> simp
@[simp] theorem hostMem_setIf (s : State) (ok : Bool) (f : Fld) (v : Nat) : (s.setIf ok f v).hostMem = s.hostMem := by simp only [State.setIf]; split <;> (try split) <;> simp
@[simp] theorem mem_setIf (s : State) (ok : Bool) (f : Fld) (v : Nat) : (s.setIf ok f v).mem = s.mem := by simp only [State.setIf]; split <;> (try split) <;> simp
@[simp] theorem ing_setIf (s : State) (ok : Bool) (f : Fld) (v : Nat) : (s.setIf ok f v).ing = s.ing := by simp only [State.setIf]; split <;> (try split) <;> simp
@[simp] theorem stk_setIf (s : State) (ok : Bool) (f : Fld) (v : Nat) : (s.setIf ok f v).stk = s.stk := by simp only [State.setIf]; split <;> (try split) <;> simp
@[simp] theorem flt_setIf (s : State) (ok : Bool) (f : Fld) (v : Nat) : (s.setIf ok f v).flt = s.flt := by simp only [State.setIf]; split <;> (try split) <;> simp
@[simp] theorem sec_setIf (s : State) (ok : Bool) (f : Fld) (v : Nat) : (s.setIf ok f v).sec = s.sec := by simp only [State.setIf]; split <;> (try split) <;> simp
@[simp] theorem pcie_setIf (s : State) (ok : Bool) (f : Fld) (v : Nat) : (s.setIf ok f v).pcie = s.pcie := by simp only [State.setIf]; split <;> (try split) <;> simp
@[simp] theorem pwr_setIf (s : State) (ok : Bool) (f : Fld) (v : Nat) : (s.setIf ok f v).pwr = s.pwr := by simp only [State.setIf]; split <;> (try split) <;> simp
@[simp] theorem trg_setIf (s : State) (ok : Bool) (f : Fld) (v : Nat) : (s.setIf ok f v).trg = s.trg := by simp only [State.setIf]; split <;> (try split) <;> simp
@[simp] theorem pools_setIf (s : State) (ok : Bool) (f : Fld) (v : Nat) : (s.setIf ok f v).pools = s.pools := by simp only [State.setIf]; split <;> (try split) <;> simp
@[simp] theorem chm_setIf (s : State) (ok : Bool) (f : Fld) (v : Nat) : (s.setIf ok f v).chm = s.chm := by simp only [State.setIf]; split <;> (try split) <;> simp
@[simp] theorem tim_setIf (s : State) (ok : Bool) (f : Fld) (v : Nat) : (s.setIf ok f v).tim = s.tim := by simp only [State.setIf]; split <;> (try split) <;> simp
@[simp] theorem zl_setIf (s : State) (ok : Bool) (f : Fld) (v : Nat) : (s.setIf ok f v).zl = s.zl := by simp only [State.setIf]; split <;> (try split) <;> simp
@[simp] theorem hearth_setIf (s : State) (ok : Bool) (f : Fld) (v : Nat) : (s.setIf ok f v).hearth = s.hearth := by simp only [State.setIf]; split <;> (try split) <;> simp

/-! ### assertSrc -/

@[simp] theorem part_assertSrc (s : State) (n : Nat) (i : BitVec 128) (r : Nat) : (s.assertSrc n i r).part = s.part := by simp only [State.assertSrc]; split <;> rfl
@[simp] theorem pending_assertSrc (s : State) (n : Nat) (i : BitVec 128) (r : Nat) : (s.assertSrc n i r).pending = s.pending := by simp only [State.assertSrc]; split <;> rfl
@[simp] theorem frc_assertSrc (s : State) (n : Nat) (i : BitVec 128) (r : Nat) : (s.assertSrc n i r).frc = s.frc := by simp only [State.assertSrc]; split <;> rfl
@[simp] theorem cyc_assertSrc (s : State) (n : Nat) (i : BitVec 128) (r : Nat) : (s.assertSrc n i r).cyc = s.cyc := by simp only [State.assertSrc]; split <;> rfl
@[simp] theorem hcyc_assertSrc (s : State) (n : Nat) (i : BitVec 128) (r : Nat) : (s.assertSrc n i r).hcyc = s.hcyc := by simp only [State.assertSrc]; split <;> rfl
@[simp] theorem regs_assertSrc (s : State) (n : Nat) (i : BitVec 128) (r : Nat) : (s.assertSrc n i r).regs = s.regs := by simp only [State.assertSrc]; split <;> rfl
@[simp] theorem hiCap_assertSrc (s : State) (n : Nat) (i : BitVec 128) (r : Nat) : (s.assertSrc n i r).hiCap = s.hiCap := by simp only [State.assertSrc]; split <;> rfl
@[simp] theorem readData_assertSrc (s : State) (n : Nat) (i : BitVec 128) (r : Nat) : (s.assertSrc n i r).readData = s.readData := by simp only [State.assertSrc]; split <;> rfl
@[simp] theorem readUr_assertSrc (s : State) (n : Nat) (i : BitVec 128) (r : Nat) : (s.assertSrc n i r).readUr = s.readUr := by simp only [State.assertSrc]; split <;> rfl
@[simp] theorem readRetry_assertSrc (s : State) (n : Nat) (i : BitVec 128) (r : Nat) : (s.assertSrc n i r).readRetry = s.readRetry := by simp only [State.assertSrc]; split <;> rfl
@[simp] theorem bar2Data_assertSrc (s : State) (n : Nat) (i : BitVec 128) (r : Nat) : (s.assertSrc n i r).bar2Data = s.bar2Data := by simp only [State.assertSrc]; split <;> rfl
@[simp] theorem bar2Ep_assertSrc (s : State) (n : Nat) (i : BitVec 128) (r : Nat) : (s.assertSrc n i r).bar2Ep = s.bar2Ep := by simp only [State.assertSrc]; split <;> rfl
@[simp] theorem setNow_assertSrc (s : State) (n : Nat) (i : BitVec 128) (r : Nat) : (s.assertSrc n i r).setNow = s.setNow := by simp only [State.assertSrc]; split <;> rfl
@[simp] theorem incNow_assertSrc (s : State) (n : Nat) (i : BitVec 128) (r : Nat) : (s.assertSrc n i r).incNow = s.incNow := by simp only [State.assertSrc]; split <;> rfl
@[simp] theorem freeIx_assertSrc (s : State) (n : Nat) (i : BitVec 128) (r : Nat) : (s.assertSrc n i r).freeIx = s.freeIx := by simp only [State.assertSrc]; split <;> rfl
@[simp] theorem hostMem_assertSrc (s : State) (n : Nat) (i : BitVec 128) (r : Nat) : (s.assertSrc n i r).hostMem = s.hostMem := by simp only [State.assertSrc]; split <;> rfl
@[simp] theorem mem_assertSrc (s : State) (n : Nat) (i : BitVec 128) (r : Nat) : (s.assertSrc n i r).mem = s.mem := by simp only [State.assertSrc]; split <;> rfl
@[simp] theorem ing_assertSrc (s : State) (n : Nat) (i : BitVec 128) (r : Nat) : (s.assertSrc n i r).ing = s.ing := by simp only [State.assertSrc]; split <;> rfl
@[simp] theorem stk_assertSrc (s : State) (n : Nat) (i : BitVec 128) (r : Nat) : (s.assertSrc n i r).stk = s.stk := by simp only [State.assertSrc]; split <;> rfl
@[simp] theorem sec_assertSrc (s : State) (n : Nat) (i : BitVec 128) (r : Nat) : (s.assertSrc n i r).sec = s.sec := by simp only [State.assertSrc]; split <;> rfl
@[simp] theorem pcie_assertSrc (s : State) (n : Nat) (i : BitVec 128) (r : Nat) : (s.assertSrc n i r).pcie = s.pcie := by simp only [State.assertSrc]; split <;> rfl
@[simp] theorem pwr_assertSrc (s : State) (n : Nat) (i : BitVec 128) (r : Nat) : (s.assertSrc n i r).pwr = s.pwr := by simp only [State.assertSrc]; split <;> rfl
@[simp] theorem trg_assertSrc (s : State) (n : Nat) (i : BitVec 128) (r : Nat) : (s.assertSrc n i r).trg = s.trg := by simp only [State.assertSrc]; split <;> rfl
@[simp] theorem pools_assertSrc (s : State) (n : Nat) (i : BitVec 128) (r : Nat) : (s.assertSrc n i r).pools = s.pools := by simp only [State.assertSrc]; split <;> rfl
@[simp] theorem chm_assertSrc (s : State) (n : Nat) (i : BitVec 128) (r : Nat) : (s.assertSrc n i r).chm = s.chm := by simp only [State.assertSrc]; split <;> rfl
@[simp] theorem tim_assertSrc (s : State) (n : Nat) (i : BitVec 128) (r : Nat) : (s.assertSrc n i r).tim = s.tim := by simp only [State.assertSrc]; split <;> rfl
@[simp] theorem zl_assertSrc (s : State) (n : Nat) (i : BitVec 128) (r : Nat) : (s.assertSrc n i r).zl = s.zl := by simp only [State.assertSrc]; split <;> rfl
@[simp] theorem hearth_assertSrc (s : State) (n : Nat) (i : BitVec 128) (r : Nat) : (s.assertSrc n i r).hearth = s.hearth := by simp only [State.assertSrc]; split <;> rfl
@[simp] theorem getF_assertSrc (s : State) (n : Nat) (i : BitVec 128) (r : Nat) (g : Fld) : (s.assertSrc n i r).getF g = s.getF g := getF_congr (by simp) (by simp) g
@[simp] theorem word_assertSrc (s : State) (n : Nat) (i : BitVec 128) (r : Nat) (off : Nat) : (s.assertSrc n i r).word off = s.word off :=
  word_congr (by simp) (by simp) off

/-! ### levelOn -/

@[simp] theorem part_levelOn (s : State) (n : Nat) (i : BitVec 128) : (s.levelOn n i).part = s.part := by simp only [State.levelOn]; split <;> simp
@[simp] theorem pending_levelOn (s : State) (n : Nat) (i : BitVec 128) : (s.levelOn n i).pending = s.pending := by simp only [State.levelOn]; split <;> simp
@[simp] theorem frc_levelOn (s : State) (n : Nat) (i : BitVec 128) : (s.levelOn n i).frc = s.frc := by simp only [State.levelOn]; split <;> simp
@[simp] theorem cyc_levelOn (s : State) (n : Nat) (i : BitVec 128) : (s.levelOn n i).cyc = s.cyc := by simp only [State.levelOn]; split <;> simp
@[simp] theorem hcyc_levelOn (s : State) (n : Nat) (i : BitVec 128) : (s.levelOn n i).hcyc = s.hcyc := by simp only [State.levelOn]; split <;> simp
@[simp] theorem regs_levelOn (s : State) (n : Nat) (i : BitVec 128) : (s.levelOn n i).regs = s.regs := by simp only [State.levelOn]; split <;> simp
@[simp] theorem hiCap_levelOn (s : State) (n : Nat) (i : BitVec 128) : (s.levelOn n i).hiCap = s.hiCap := by simp only [State.levelOn]; split <;> simp
@[simp] theorem readData_levelOn (s : State) (n : Nat) (i : BitVec 128) : (s.levelOn n i).readData = s.readData := by simp only [State.levelOn]; split <;> simp
@[simp] theorem readUr_levelOn (s : State) (n : Nat) (i : BitVec 128) : (s.levelOn n i).readUr = s.readUr := by simp only [State.levelOn]; split <;> simp
@[simp] theorem readRetry_levelOn (s : State) (n : Nat) (i : BitVec 128) : (s.levelOn n i).readRetry = s.readRetry := by simp only [State.levelOn]; split <;> simp
@[simp] theorem bar2Data_levelOn (s : State) (n : Nat) (i : BitVec 128) : (s.levelOn n i).bar2Data = s.bar2Data := by simp only [State.levelOn]; split <;> simp
@[simp] theorem bar2Ep_levelOn (s : State) (n : Nat) (i : BitVec 128) : (s.levelOn n i).bar2Ep = s.bar2Ep := by simp only [State.levelOn]; split <;> simp
@[simp] theorem setNow_levelOn (s : State) (n : Nat) (i : BitVec 128) : (s.levelOn n i).setNow = s.setNow := by simp only [State.levelOn]; split <;> simp
@[simp] theorem incNow_levelOn (s : State) (n : Nat) (i : BitVec 128) : (s.levelOn n i).incNow = s.incNow := by simp only [State.levelOn]; split <;> simp
@[simp] theorem freeIx_levelOn (s : State) (n : Nat) (i : BitVec 128) : (s.levelOn n i).freeIx = s.freeIx := by simp only [State.levelOn]; split <;> simp
@[simp] theorem hostMem_levelOn (s : State) (n : Nat) (i : BitVec 128) : (s.levelOn n i).hostMem = s.hostMem := by simp only [State.levelOn]; split <;> simp
@[simp] theorem mem_levelOn (s : State) (n : Nat) (i : BitVec 128) : (s.levelOn n i).mem = s.mem := by simp only [State.levelOn]; split <;> simp
@[simp] theorem ing_levelOn (s : State) (n : Nat) (i : BitVec 128) : (s.levelOn n i).ing = s.ing := by simp only [State.levelOn]; split <;> simp
@[simp] theorem stk_levelOn (s : State) (n : Nat) (i : BitVec 128) : (s.levelOn n i).stk = s.stk := by simp only [State.levelOn]; split <;> simp
@[simp] theorem sec_levelOn (s : State) (n : Nat) (i : BitVec 128) : (s.levelOn n i).sec = s.sec := by simp only [State.levelOn]; split <;> simp
@[simp] theorem pcie_levelOn (s : State) (n : Nat) (i : BitVec 128) : (s.levelOn n i).pcie = s.pcie := by simp only [State.levelOn]; split <;> simp
@[simp] theorem pwr_levelOn (s : State) (n : Nat) (i : BitVec 128) : (s.levelOn n i).pwr = s.pwr := by simp only [State.levelOn]; split <;> simp
@[simp] theorem trg_levelOn (s : State) (n : Nat) (i : BitVec 128) : (s.levelOn n i).trg = s.trg := by simp only [State.levelOn]; split <;> simp
@[simp] theorem pools_levelOn (s : State) (n : Nat) (i : BitVec 128) : (s.levelOn n i).pools = s.pools := by simp only [State.levelOn]; split <;> simp
@[simp] theorem chm_levelOn (s : State) (n : Nat) (i : BitVec 128) : (s.levelOn n i).chm = s.chm := by simp only [State.levelOn]; split <;> simp
@[simp] theorem tim_levelOn (s : State) (n : Nat) (i : BitVec 128) : (s.levelOn n i).tim = s.tim := by simp only [State.levelOn]; split <;> simp
@[simp] theorem zl_levelOn (s : State) (n : Nat) (i : BitVec 128) : (s.levelOn n i).zl = s.zl := by simp only [State.levelOn]; split <;> simp
@[simp] theorem hearth_levelOn (s : State) (n : Nat) (i : BitVec 128) : (s.levelOn n i).hearth = s.hearth := by simp only [State.levelOn]; split <;> simp
@[simp] theorem getF_levelOn (s : State) (n : Nat) (i : BitVec 128) (g : Fld) : (s.levelOn n i).getF g = s.getF g := getF_congr (by simp) (by simp) g
@[simp] theorem word_levelOn (s : State) (n : Nat) (i : BitVec 128) (off : Nat) : (s.levelOn n i).word off = s.word off :=
  word_congr (by simp) (by simp) off

/-! ### levelOff -/

@[simp] theorem part_levelOff (s : State) (n : Nat) : (s.levelOff n).part = s.part := rfl
@[simp] theorem pending_levelOff (s : State) (n : Nat) : (s.levelOff n).pending = s.pending := rfl
@[simp] theorem frc_levelOff (s : State) (n : Nat) : (s.levelOff n).frc = s.frc := rfl
@[simp] theorem cyc_levelOff (s : State) (n : Nat) : (s.levelOff n).cyc = s.cyc := rfl
@[simp] theorem hcyc_levelOff (s : State) (n : Nat) : (s.levelOff n).hcyc = s.hcyc := rfl
@[simp] theorem regs_levelOff (s : State) (n : Nat) : (s.levelOff n).regs = s.regs := rfl
@[simp] theorem hiCap_levelOff (s : State) (n : Nat) : (s.levelOff n).hiCap = s.hiCap := rfl
@[simp] theorem readData_levelOff (s : State) (n : Nat) : (s.levelOff n).readData = s.readData := rfl
@[simp] theorem readUr_levelOff (s : State) (n : Nat) : (s.levelOff n).readUr = s.readUr := rfl
@[simp] theorem readRetry_levelOff (s : State) (n : Nat) : (s.levelOff n).readRetry = s.readRetry := rfl
@[simp] theorem bar2Data_levelOff (s : State) (n : Nat) : (s.levelOff n).bar2Data = s.bar2Data := rfl
@[simp] theorem bar2Ep_levelOff (s : State) (n : Nat) : (s.levelOff n).bar2Ep = s.bar2Ep := rfl
@[simp] theorem setNow_levelOff (s : State) (n : Nat) : (s.levelOff n).setNow = s.setNow := rfl
@[simp] theorem incNow_levelOff (s : State) (n : Nat) : (s.levelOff n).incNow = s.incNow := rfl
@[simp] theorem freeIx_levelOff (s : State) (n : Nat) : (s.levelOff n).freeIx = s.freeIx := rfl
@[simp] theorem hostMem_levelOff (s : State) (n : Nat) : (s.levelOff n).hostMem = s.hostMem := rfl
@[simp] theorem mem_levelOff (s : State) (n : Nat) : (s.levelOff n).mem = s.mem := rfl
@[simp] theorem ing_levelOff (s : State) (n : Nat) : (s.levelOff n).ing = s.ing := rfl
@[simp] theorem stk_levelOff (s : State) (n : Nat) : (s.levelOff n).stk = s.stk := rfl
@[simp] theorem sec_levelOff (s : State) (n : Nat) : (s.levelOff n).sec = s.sec := rfl
@[simp] theorem pcie_levelOff (s : State) (n : Nat) : (s.levelOff n).pcie = s.pcie := rfl
@[simp] theorem pwr_levelOff (s : State) (n : Nat) : (s.levelOff n).pwr = s.pwr := rfl
@[simp] theorem trg_levelOff (s : State) (n : Nat) : (s.levelOff n).trg = s.trg := rfl
@[simp] theorem pools_levelOff (s : State) (n : Nat) : (s.levelOff n).pools = s.pools := rfl
@[simp] theorem chm_levelOff (s : State) (n : Nat) : (s.levelOff n).chm = s.chm := rfl
@[simp] theorem tim_levelOff (s : State) (n : Nat) : (s.levelOff n).tim = s.tim := rfl
@[simp] theorem zl_levelOff (s : State) (n : Nat) : (s.levelOff n).zl = s.zl := rfl
@[simp] theorem hearth_levelOff (s : State) (n : Nat) : (s.levelOff n).hearth = s.hearth := rfl
@[simp] theorem getF_levelOff (s : State) (n : Nat) (g : Fld) : (s.levelOff n).getF g = s.getF g := getF_congr (by simp) (by simp) g
@[simp] theorem word_levelOff (s : State) (n : Nat) (off : Nat) : (s.levelOff n).word off = s.word off :=
  word_congr (by simp) (by simp) off

/-! ### hostPut -/

@[simp] theorem part_hostPut (s : State) (a : Nat) (bs : List Byte) (data : Bool) : (s.hostPut a bs data).part = s.part := rfl
@[simp] theorem pending_hostPut (s : State) (a : Nat) (bs : List Byte) (data : Bool) : (s.hostPut a bs data).pending = s.pending := rfl
@[simp] theorem frc_hostPut (s : State) (a : Nat) (bs : List Byte) (data : Bool) : (s.hostPut a bs data).frc = s.frc := rfl
@[simp] theorem cyc_hostPut (s : State) (a : Nat) (bs : List Byte) (data : Bool) : (s.hostPut a bs data).cyc = s.cyc := rfl
@[simp] theorem hcyc_hostPut (s : State) (a : Nat) (bs : List Byte) (data : Bool) : (s.hostPut a bs data).hcyc = s.hcyc := rfl
@[simp] theorem regs_hostPut (s : State) (a : Nat) (bs : List Byte) (data : Bool) : (s.hostPut a bs data).regs = s.regs := rfl
@[simp] theorem hiCap_hostPut (s : State) (a : Nat) (bs : List Byte) (data : Bool) : (s.hostPut a bs data).hiCap = s.hiCap := rfl
@[simp] theorem readData_hostPut (s : State) (a : Nat) (bs : List Byte) (data : Bool) : (s.hostPut a bs data).readData = s.readData := rfl
@[simp] theorem readUr_hostPut (s : State) (a : Nat) (bs : List Byte) (data : Bool) : (s.hostPut a bs data).readUr = s.readUr := rfl
@[simp] theorem readRetry_hostPut (s : State) (a : Nat) (bs : List Byte) (data : Bool) : (s.hostPut a bs data).readRetry = s.readRetry := rfl
@[simp] theorem bar2Data_hostPut (s : State) (a : Nat) (bs : List Byte) (data : Bool) : (s.hostPut a bs data).bar2Data = s.bar2Data := rfl
@[simp] theorem bar2Ep_hostPut (s : State) (a : Nat) (bs : List Byte) (data : Bool) : (s.hostPut a bs data).bar2Ep = s.bar2Ep := rfl
@[simp] theorem setNow_hostPut (s : State) (a : Nat) (bs : List Byte) (data : Bool) : (s.hostPut a bs data).setNow = s.setNow := rfl
@[simp] theorem incNow_hostPut (s : State) (a : Nat) (bs : List Byte) (data : Bool) : (s.hostPut a bs data).incNow = s.incNow := rfl
@[simp] theorem freeIx_hostPut (s : State) (a : Nat) (bs : List Byte) (data : Bool) : (s.hostPut a bs data).freeIx = s.freeIx := rfl
@[simp] theorem mem_hostPut (s : State) (a : Nat) (bs : List Byte) (data : Bool) : (s.hostPut a bs data).mem = s.mem := rfl
@[simp] theorem ing_hostPut (s : State) (a : Nat) (bs : List Byte) (data : Bool) : (s.hostPut a bs data).ing = s.ing := rfl
@[simp] theorem stk_hostPut (s : State) (a : Nat) (bs : List Byte) (data : Bool) : (s.hostPut a bs data).stk = s.stk := rfl
@[simp] theorem flt_hostPut (s : State) (a : Nat) (bs : List Byte) (data : Bool) : (s.hostPut a bs data).flt = s.flt := rfl
@[simp] theorem sec_hostPut (s : State) (a : Nat) (bs : List Byte) (data : Bool) : (s.hostPut a bs data).sec = s.sec := rfl
@[simp] theorem pwr_hostPut (s : State) (a : Nat) (bs : List Byte) (data : Bool) : (s.hostPut a bs data).pwr = s.pwr := rfl
@[simp] theorem trg_hostPut (s : State) (a : Nat) (bs : List Byte) (data : Bool) : (s.hostPut a bs data).trg = s.trg := rfl
@[simp] theorem pools_hostPut (s : State) (a : Nat) (bs : List Byte) (data : Bool) : (s.hostPut a bs data).pools = s.pools := rfl
@[simp] theorem chm_hostPut (s : State) (a : Nat) (bs : List Byte) (data : Bool) : (s.hostPut a bs data).chm = s.chm := rfl
@[simp] theorem tim_hostPut (s : State) (a : Nat) (bs : List Byte) (data : Bool) : (s.hostPut a bs data).tim = s.tim := rfl
@[simp] theorem zl_hostPut (s : State) (a : Nat) (bs : List Byte) (data : Bool) : (s.hostPut a bs data).zl = s.zl := rfl
@[simp] theorem hearth_hostPut (s : State) (a : Nat) (bs : List Byte) (data : Bool) : (s.hostPut a bs data).hearth = s.hearth := rfl
@[simp] theorem getF_hostPut (s : State) (a : Nat) (bs : List Byte) (data : Bool) (g : Fld) : (s.hostPut a bs data).getF g = s.getF g := getF_congr (by simp) (by simp) g
@[simp] theorem word_hostPut (s : State) (a : Nat) (bs : List Byte) (data : Bool) (off : Nat) : (s.hostPut a bs data).word off = s.word off :=
  word_congr (by simp) (by simp) off

/-! ### signal -/

@[simp] theorem part_signal (s : State) (v : Nat) : (s.signal v).part = s.part := rfl
@[simp] theorem pending_signal (s : State) (v : Nat) : (s.signal v).pending = s.pending := rfl
@[simp] theorem frc_signal (s : State) (v : Nat) : (s.signal v).frc = s.frc := rfl
@[simp] theorem cyc_signal (s : State) (v : Nat) : (s.signal v).cyc = s.cyc := rfl
@[simp] theorem hcyc_signal (s : State) (v : Nat) : (s.signal v).hcyc = s.hcyc := rfl
@[simp] theorem regs_signal (s : State) (v : Nat) : (s.signal v).regs = s.regs := rfl
@[simp] theorem hiCap_signal (s : State) (v : Nat) : (s.signal v).hiCap = s.hiCap := rfl
@[simp] theorem readData_signal (s : State) (v : Nat) : (s.signal v).readData = s.readData := rfl
@[simp] theorem readUr_signal (s : State) (v : Nat) : (s.signal v).readUr = s.readUr := rfl
@[simp] theorem readRetry_signal (s : State) (v : Nat) : (s.signal v).readRetry = s.readRetry := rfl
@[simp] theorem bar2Data_signal (s : State) (v : Nat) : (s.signal v).bar2Data = s.bar2Data := rfl
@[simp] theorem bar2Ep_signal (s : State) (v : Nat) : (s.signal v).bar2Ep = s.bar2Ep := rfl
@[simp] theorem setNow_signal (s : State) (v : Nat) : (s.signal v).setNow = s.setNow := rfl
@[simp] theorem incNow_signal (s : State) (v : Nat) : (s.signal v).incNow = s.incNow := rfl
@[simp] theorem freeIx_signal (s : State) (v : Nat) : (s.signal v).freeIx = s.freeIx := rfl
@[simp] theorem hostMem_signal (s : State) (v : Nat) : (s.signal v).hostMem = s.hostMem := rfl
@[simp] theorem mem_signal (s : State) (v : Nat) : (s.signal v).mem = s.mem := rfl
@[simp] theorem ing_signal (s : State) (v : Nat) : (s.signal v).ing = s.ing := rfl
@[simp] theorem stk_signal (s : State) (v : Nat) : (s.signal v).stk = s.stk := rfl
@[simp] theorem flt_signal (s : State) (v : Nat) : (s.signal v).flt = s.flt := rfl
@[simp] theorem sec_signal (s : State) (v : Nat) : (s.signal v).sec = s.sec := rfl
@[simp] theorem pwr_signal (s : State) (v : Nat) : (s.signal v).pwr = s.pwr := rfl
@[simp] theorem trg_signal (s : State) (v : Nat) : (s.signal v).trg = s.trg := rfl
@[simp] theorem pools_signal (s : State) (v : Nat) : (s.signal v).pools = s.pools := rfl
@[simp] theorem chm_signal (s : State) (v : Nat) : (s.signal v).chm = s.chm := rfl
@[simp] theorem tim_signal (s : State) (v : Nat) : (s.signal v).tim = s.tim := rfl
@[simp] theorem zl_signal (s : State) (v : Nat) : (s.signal v).zl = s.zl := rfl
@[simp] theorem hearth_signal (s : State) (v : Nat) : (s.signal v).hearth = s.hearth := rfl
@[simp] theorem getF_signal (s : State) (v : Nat) (g : Fld) : (s.signal v).getF g = s.getF g := getF_congr (by simp) (by simp) g
@[simp] theorem word_signal (s : State) (v : Nat) (off : Nat) : (s.signal v).word off = s.word off :=
  word_congr (by simp) (by simp) off

/-! ### trySend -/

@[simp] theorem part_trySend (s : State) (v : Nat) : (s.trySend v).part = s.part := by simp only [State.trySend]; split <;> rfl
@[simp] theorem pending_trySend (s : State) (v : Nat) : (s.trySend v).pending = s.pending := by simp only [State.trySend]; split <;> rfl
@[simp] theorem frc_trySend (s : State) (v : Nat) : (s.trySend v).frc = s.frc := by simp only [State.trySend]; split <;> rfl
@[simp] theorem cyc_trySend (s : State) (v : Nat) : (s.trySend v).cyc = s.cyc := by simp only [State.trySend]; split <;> rfl
@[simp] theorem hcyc_trySend (s : State) (v : Nat) : (s.trySend v).hcyc = s.hcyc := by simp only [State.trySend]; split <;> rfl
@[simp] theorem regs_trySend (s : State) (v : Nat) : (s.trySend v).regs = s.regs := by simp only [State.trySend]; split <;> rfl
@[simp] theorem hiCap_trySend (s : State) (v : Nat) : (s.trySend v).hiCap = s.hiCap := by simp only [State.trySend]; split <;> rfl
@[simp] theorem readData_trySend (s : State) (v : Nat) : (s.trySend v).readData = s.readData := by simp only [State.trySend]; split <;> rfl
@[simp] theorem readUr_trySend (s : State) (v : Nat) : (s.trySend v).readUr = s.readUr := by simp only [State.trySend]; split <;> rfl
@[simp] theorem readRetry_trySend (s : State) (v : Nat) : (s.trySend v).readRetry = s.readRetry := by simp only [State.trySend]; split <;> rfl
@[simp] theorem bar2Data_trySend (s : State) (v : Nat) : (s.trySend v).bar2Data = s.bar2Data := by simp only [State.trySend]; split <;> rfl
@[simp] theorem bar2Ep_trySend (s : State) (v : Nat) : (s.trySend v).bar2Ep = s.bar2Ep := by simp only [State.trySend]; split <;> rfl
@[simp] theorem setNow_trySend (s : State) (v : Nat) : (s.trySend v).setNow = s.setNow := by simp only [State.trySend]; split <;> rfl
@[simp] theorem incNow_trySend (s : State) (v : Nat) : (s.trySend v).incNow = s.incNow := by simp only [State.trySend]; split <;> rfl
@[simp] theorem freeIx_trySend (s : State) (v : Nat) : (s.trySend v).freeIx = s.freeIx := by simp only [State.trySend]; split <;> rfl
@[simp] theorem hostMem_trySend (s : State) (v : Nat) : (s.trySend v).hostMem = s.hostMem := by simp only [State.trySend]; split <;> rfl
@[simp] theorem mem_trySend (s : State) (v : Nat) : (s.trySend v).mem = s.mem := by simp only [State.trySend]; split <;> rfl
@[simp] theorem ing_trySend (s : State) (v : Nat) : (s.trySend v).ing = s.ing := by simp only [State.trySend]; split <;> rfl
@[simp] theorem stk_trySend (s : State) (v : Nat) : (s.trySend v).stk = s.stk := by simp only [State.trySend]; split <;> rfl
@[simp] theorem flt_trySend (s : State) (v : Nat) : (s.trySend v).flt = s.flt := by simp only [State.trySend]; split <;> rfl
@[simp] theorem sec_trySend (s : State) (v : Nat) : (s.trySend v).sec = s.sec := by simp only [State.trySend]; split <;> rfl
@[simp] theorem pwr_trySend (s : State) (v : Nat) : (s.trySend v).pwr = s.pwr := by simp only [State.trySend]; split <;> rfl
@[simp] theorem trg_trySend (s : State) (v : Nat) : (s.trySend v).trg = s.trg := by simp only [State.trySend]; split <;> rfl
@[simp] theorem pools_trySend (s : State) (v : Nat) : (s.trySend v).pools = s.pools := by simp only [State.trySend]; split <;> rfl
@[simp] theorem chm_trySend (s : State) (v : Nat) : (s.trySend v).chm = s.chm := by simp only [State.trySend]; split <;> rfl
@[simp] theorem tim_trySend (s : State) (v : Nat) : (s.trySend v).tim = s.tim := by simp only [State.trySend]; split <;> rfl
@[simp] theorem zl_trySend (s : State) (v : Nat) : (s.trySend v).zl = s.zl := by simp only [State.trySend]; split <;> rfl
@[simp] theorem hearth_trySend (s : State) (v : Nat) : (s.trySend v).hearth = s.hearth := by simp only [State.trySend]; split <;> rfl
@[simp] theorem getF_trySend (s : State) (v : Nat) (g : Fld) : (s.trySend v).getF g = s.getF g := getF_congr (by simp) (by simp) g
@[simp] theorem word_trySend (s : State) (v : Nat) (off : Nat) : (s.trySend v).word off = s.word off :=
  word_congr (by simp) (by simp) off

/-! ### setCq -/

@[simp] theorem part_setCq (s : State) (q : Nat) (c : Cq) : (s.setCq q c).part = s.part := rfl
@[simp] theorem pending_setCq (s : State) (q : Nat) (c : Cq) : (s.setCq q c).pending = s.pending := rfl
@[simp] theorem frc_setCq (s : State) (q : Nat) (c : Cq) : (s.setCq q c).frc = s.frc := rfl
@[simp] theorem cyc_setCq (s : State) (q : Nat) (c : Cq) : (s.setCq q c).cyc = s.cyc := rfl
@[simp] theorem hcyc_setCq (s : State) (q : Nat) (c : Cq) : (s.setCq q c).hcyc = s.hcyc := rfl
@[simp] theorem regs_setCq (s : State) (q : Nat) (c : Cq) : (s.setCq q c).regs = s.regs := rfl
@[simp] theorem hiCap_setCq (s : State) (q : Nat) (c : Cq) : (s.setCq q c).hiCap = s.hiCap := rfl
@[simp] theorem readData_setCq (s : State) (q : Nat) (c : Cq) : (s.setCq q c).readData = s.readData := rfl
@[simp] theorem readUr_setCq (s : State) (q : Nat) (c : Cq) : (s.setCq q c).readUr = s.readUr := rfl
@[simp] theorem readRetry_setCq (s : State) (q : Nat) (c : Cq) : (s.setCq q c).readRetry = s.readRetry := rfl
@[simp] theorem bar2Data_setCq (s : State) (q : Nat) (c : Cq) : (s.setCq q c).bar2Data = s.bar2Data := rfl
@[simp] theorem bar2Ep_setCq (s : State) (q : Nat) (c : Cq) : (s.setCq q c).bar2Ep = s.bar2Ep := rfl
@[simp] theorem setNow_setCq (s : State) (q : Nat) (c : Cq) : (s.setCq q c).setNow = s.setNow := rfl
@[simp] theorem incNow_setCq (s : State) (q : Nat) (c : Cq) : (s.setCq q c).incNow = s.incNow := rfl
@[simp] theorem freeIx_setCq (s : State) (q : Nat) (c : Cq) : (s.setCq q c).freeIx = s.freeIx := rfl
@[simp] theorem hostMem_setCq (s : State) (q : Nat) (c : Cq) : (s.setCq q c).hostMem = s.hostMem := rfl
@[simp] theorem mem_setCq (s : State) (q : Nat) (c : Cq) : (s.setCq q c).mem = s.mem := rfl
@[simp] theorem ing_setCq (s : State) (q : Nat) (c : Cq) : (s.setCq q c).ing = s.ing := rfl
@[simp] theorem flt_setCq (s : State) (q : Nat) (c : Cq) : (s.setCq q c).flt = s.flt := rfl
@[simp] theorem sec_setCq (s : State) (q : Nat) (c : Cq) : (s.setCq q c).sec = s.sec := rfl
@[simp] theorem pcie_setCq (s : State) (q : Nat) (c : Cq) : (s.setCq q c).pcie = s.pcie := rfl
@[simp] theorem pwr_setCq (s : State) (q : Nat) (c : Cq) : (s.setCq q c).pwr = s.pwr := rfl
@[simp] theorem trg_setCq (s : State) (q : Nat) (c : Cq) : (s.setCq q c).trg = s.trg := rfl
@[simp] theorem pools_setCq (s : State) (q : Nat) (c : Cq) : (s.setCq q c).pools = s.pools := rfl
@[simp] theorem chm_setCq (s : State) (q : Nat) (c : Cq) : (s.setCq q c).chm = s.chm := rfl
@[simp] theorem tim_setCq (s : State) (q : Nat) (c : Cq) : (s.setCq q c).tim = s.tim := rfl
@[simp] theorem zl_setCq (s : State) (q : Nat) (c : Cq) : (s.setCq q c).zl = s.zl := rfl
@[simp] theorem hearth_setCq (s : State) (q : Nat) (c : Cq) : (s.setCq q c).hearth = s.hearth := rfl
@[simp] theorem getF_setCq (s : State) (q : Nat) (c : Cq) (g : Fld) : (s.setCq q c).getF g = s.getF g := getF_congr (by simp) (by simp) g
@[simp] theorem word_setCq (s : State) (q : Nat) (c : Cq) (off : Nat) : (s.setCq q c).word off = s.word off :=
  word_congr (by simp) (by simp) off

/-! ### hand -/

@[simp] theorem part_hand (s : State) (q : Nat) (e : Entry) : (s.hand q e).part = s.part := by simp only [State.hand]; split <;> simp
@[simp] theorem pending_hand (s : State) (q : Nat) (e : Entry) : (s.hand q e).pending = s.pending := by simp only [State.hand]; split <;> simp
@[simp] theorem frc_hand (s : State) (q : Nat) (e : Entry) : (s.hand q e).frc = s.frc := by simp only [State.hand]; split <;> simp
@[simp] theorem cyc_hand (s : State) (q : Nat) (e : Entry) : (s.hand q e).cyc = s.cyc := by simp only [State.hand]; split <;> simp
@[simp] theorem hcyc_hand (s : State) (q : Nat) (e : Entry) : (s.hand q e).hcyc = s.hcyc := by simp only [State.hand]; split <;> simp
@[simp] theorem hiCap_hand (s : State) (q : Nat) (e : Entry) : (s.hand q e).hiCap = s.hiCap := by simp only [State.hand]; split <;> simp
@[simp] theorem readData_hand (s : State) (q : Nat) (e : Entry) : (s.hand q e).readData = s.readData := by simp only [State.hand]; split <;> simp
@[simp] theorem readUr_hand (s : State) (q : Nat) (e : Entry) : (s.hand q e).readUr = s.readUr := by simp only [State.hand]; split <;> simp
@[simp] theorem readRetry_hand (s : State) (q : Nat) (e : Entry) : (s.hand q e).readRetry = s.readRetry := by simp only [State.hand]; split <;> simp
@[simp] theorem bar2Data_hand (s : State) (q : Nat) (e : Entry) : (s.hand q e).bar2Data = s.bar2Data := by simp only [State.hand]; split <;> simp
@[simp] theorem bar2Ep_hand (s : State) (q : Nat) (e : Entry) : (s.hand q e).bar2Ep = s.bar2Ep := by simp only [State.hand]; split <;> simp
@[simp] theorem freeIx_hand (s : State) (q : Nat) (e : Entry) : (s.hand q e).freeIx = s.freeIx := by simp only [State.hand]; split <;> simp
@[simp] theorem hostMem_hand (s : State) (q : Nat) (e : Entry) : (s.hand q e).hostMem = s.hostMem := by simp only [State.hand]; split <;> simp
@[simp] theorem mem_hand (s : State) (q : Nat) (e : Entry) : (s.hand q e).mem = s.mem := by simp only [State.hand]; split <;> simp
@[simp] theorem ing_hand (s : State) (q : Nat) (e : Entry) : (s.hand q e).ing = s.ing := by simp only [State.hand]; split <;> simp
@[simp] theorem sec_hand (s : State) (q : Nat) (e : Entry) : (s.hand q e).sec = s.sec := by simp only [State.hand]; split <;> simp
@[simp] theorem pcie_hand (s : State) (q : Nat) (e : Entry) : (s.hand q e).pcie = s.pcie := by simp only [State.hand]; split <;> simp
@[simp] theorem pwr_hand (s : State) (q : Nat) (e : Entry) : (s.hand q e).pwr = s.pwr := by simp only [State.hand]; split <;> simp
@[simp] theorem trg_hand (s : State) (q : Nat) (e : Entry) : (s.hand q e).trg = s.trg := by simp only [State.hand]; split <;> simp
@[simp] theorem pools_hand (s : State) (q : Nat) (e : Entry) : (s.hand q e).pools = s.pools := by simp only [State.hand]; split <;> simp
@[simp] theorem chm_hand (s : State) (q : Nat) (e : Entry) : (s.hand q e).chm = s.chm := by simp only [State.hand]; split <;> simp
@[simp] theorem tim_hand (s : State) (q : Nat) (e : Entry) : (s.hand q e).tim = s.tim := by simp only [State.hand]; split <;> simp
@[simp] theorem zl_hand (s : State) (q : Nat) (e : Entry) : (s.hand q e).zl = s.zl := by simp only [State.hand]; split <;> simp
@[simp] theorem hearth_hand (s : State) (q : Nat) (e : Entry) : (s.hand q e).hearth = s.hearth := by simp only [State.hand]; split <;> simp

/-! ### evtLost -/

@[simp] theorem part_evtLost (s : State) : s.evtLost.part = s.part := by simp only [State.evtLost]; simp
@[simp] theorem pending_evtLost (s : State) : s.evtLost.pending = s.pending := by simp only [State.evtLost]; simp
@[simp] theorem frc_evtLost (s : State) : s.evtLost.frc = s.frc := by simp only [State.evtLost]; simp
@[simp] theorem cyc_evtLost (s : State) : s.evtLost.cyc = s.cyc := by simp only [State.evtLost]; simp
@[simp] theorem hcyc_evtLost (s : State) : s.evtLost.hcyc = s.hcyc := by simp only [State.evtLost]; simp
@[simp] theorem hiCap_evtLost (s : State) : s.evtLost.hiCap = s.hiCap := by simp only [State.evtLost]; simp
@[simp] theorem readData_evtLost (s : State) : s.evtLost.readData = s.readData := by simp only [State.evtLost]; simp
@[simp] theorem readUr_evtLost (s : State) : s.evtLost.readUr = s.readUr := by simp only [State.evtLost]; simp
@[simp] theorem readRetry_evtLost (s : State) : s.evtLost.readRetry = s.readRetry := by simp only [State.evtLost]; simp
@[simp] theorem bar2Data_evtLost (s : State) : s.evtLost.bar2Data = s.bar2Data := by simp only [State.evtLost]; simp
@[simp] theorem bar2Ep_evtLost (s : State) : s.evtLost.bar2Ep = s.bar2Ep := by simp only [State.evtLost]; simp
@[simp] theorem setNow_evtLost (s : State) : s.evtLost.setNow = s.setNow := by simp only [State.evtLost]; simp
@[simp] theorem freeIx_evtLost (s : State) : s.evtLost.freeIx = s.freeIx := by simp only [State.evtLost]; simp
@[simp] theorem hostMem_evtLost (s : State) : s.evtLost.hostMem = s.hostMem := by simp only [State.evtLost]; simp
@[simp] theorem mem_evtLost (s : State) : s.evtLost.mem = s.mem := by simp only [State.evtLost]; simp
@[simp] theorem ing_evtLost (s : State) : s.evtLost.ing = s.ing := by simp only [State.evtLost]; simp
@[simp] theorem stk_evtLost (s : State) : s.evtLost.stk = s.stk := by simp only [State.evtLost]; simp
@[simp] theorem sec_evtLost (s : State) : s.evtLost.sec = s.sec := by simp only [State.evtLost]; simp
@[simp] theorem pcie_evtLost (s : State) : s.evtLost.pcie = s.pcie := by simp only [State.evtLost]; simp
@[simp] theorem pwr_evtLost (s : State) : s.evtLost.pwr = s.pwr := by simp only [State.evtLost]; simp
@[simp] theorem trg_evtLost (s : State) : s.evtLost.trg = s.trg := by simp only [State.evtLost]; simp
@[simp] theorem pools_evtLost (s : State) : s.evtLost.pools = s.pools := by simp only [State.evtLost]; simp
@[simp] theorem chm_evtLost (s : State) : s.evtLost.chm = s.chm := by simp only [State.evtLost]; simp
@[simp] theorem tim_evtLost (s : State) : s.evtLost.tim = s.tim := by simp only [State.evtLost]; simp
@[simp] theorem zl_evtLost (s : State) : s.evtLost.zl = s.zl := by simp only [State.evtLost]; simp
@[simp] theorem hearth_evtLost (s : State) : s.evtLost.hearth = s.hearth := by simp only [State.evtLost]; simp

/-! ### event -/

@[simp] theorem part_event (s : State) (q ty src k : Nat) (b : List Byte) : (s.event q ty src k b).part = s.part := by simp only [State.event]; split <;> simp
@[simp] theorem pending_event (s : State) (q ty src k : Nat) (b : List Byte) : (s.event q ty src k b).pending = s.pending := by simp only [State.event]; split <;> simp
@[simp] theorem frc_event (s : State) (q ty src k : Nat) (b : List Byte) : (s.event q ty src k b).frc = s.frc := by simp only [State.event]; split <;> simp
@[simp] theorem cyc_event (s : State) (q ty src k : Nat) (b : List Byte) : (s.event q ty src k b).cyc = s.cyc := by simp only [State.event]; split <;> simp
@[simp] theorem hcyc_event (s : State) (q ty src k : Nat) (b : List Byte) : (s.event q ty src k b).hcyc = s.hcyc := by simp only [State.event]; split <;> simp
@[simp] theorem hiCap_event (s : State) (q ty src k : Nat) (b : List Byte) : (s.event q ty src k b).hiCap = s.hiCap := by simp only [State.event]; split <;> simp
@[simp] theorem readData_event (s : State) (q ty src k : Nat) (b : List Byte) : (s.event q ty src k b).readData = s.readData := by simp only [State.event]; split <;> simp
@[simp] theorem readUr_event (s : State) (q ty src k : Nat) (b : List Byte) : (s.event q ty src k b).readUr = s.readUr := by simp only [State.event]; split <;> simp
@[simp] theorem readRetry_event (s : State) (q ty src k : Nat) (b : List Byte) : (s.event q ty src k b).readRetry = s.readRetry := by simp only [State.event]; split <;> simp
@[simp] theorem bar2Data_event (s : State) (q ty src k : Nat) (b : List Byte) : (s.event q ty src k b).bar2Data = s.bar2Data := by simp only [State.event]; split <;> simp
@[simp] theorem bar2Ep_event (s : State) (q ty src k : Nat) (b : List Byte) : (s.event q ty src k b).bar2Ep = s.bar2Ep := by simp only [State.event]; split <;> simp
@[simp] theorem freeIx_event (s : State) (q ty src k : Nat) (b : List Byte) : (s.event q ty src k b).freeIx = s.freeIx := by simp only [State.event]; split <;> simp
@[simp] theorem hostMem_event (s : State) (q ty src k : Nat) (b : List Byte) : (s.event q ty src k b).hostMem = s.hostMem := by simp only [State.event]; split <;> simp
@[simp] theorem mem_event (s : State) (q ty src k : Nat) (b : List Byte) : (s.event q ty src k b).mem = s.mem := by simp only [State.event]; split <;> simp
@[simp] theorem ing_event (s : State) (q ty src k : Nat) (b : List Byte) : (s.event q ty src k b).ing = s.ing := by simp only [State.event]; split <;> simp
@[simp] theorem sec_event (s : State) (q ty src k : Nat) (b : List Byte) : (s.event q ty src k b).sec = s.sec := by simp only [State.event]; split <;> simp
@[simp] theorem pcie_event (s : State) (q ty src k : Nat) (b : List Byte) : (s.event q ty src k b).pcie = s.pcie := by simp only [State.event]; split <;> simp
@[simp] theorem pwr_event (s : State) (q ty src k : Nat) (b : List Byte) : (s.event q ty src k b).pwr = s.pwr := by simp only [State.event]; split <;> simp
@[simp] theorem trg_event (s : State) (q ty src k : Nat) (b : List Byte) : (s.event q ty src k b).trg = s.trg := by simp only [State.event]; split <;> simp
@[simp] theorem pools_event (s : State) (q ty src k : Nat) (b : List Byte) : (s.event q ty src k b).pools = s.pools := by simp only [State.event]; split <;> simp
@[simp] theorem chm_event (s : State) (q ty src k : Nat) (b : List Byte) : (s.event q ty src k b).chm = s.chm := by simp only [State.event]; split <;> simp
@[simp] theorem tim_event (s : State) (q ty src k : Nat) (b : List Byte) : (s.event q ty src k b).tim = s.tim := by simp only [State.event]; split <;> simp
@[simp] theorem zl_event (s : State) (q ty src k : Nat) (b : List Byte) : (s.event q ty src k b).zl = s.zl := by simp only [State.event]; split <;> simp
@[simp] theorem hearth_event (s : State) (q ty src k : Nat) (b : List Byte) : (s.event q ty src k b).hearth = s.hearth := by simp only [State.event]; split <;> simp

/-! ### routed -/

@[simp] theorem part_routed (s : State) (r ty src k : Nat) (b : List Byte) : (s.routed r ty src k b).part = s.part := by simp only [State.routed]; split <;> simp
@[simp] theorem pending_routed (s : State) (r ty src k : Nat) (b : List Byte) : (s.routed r ty src k b).pending = s.pending := by simp only [State.routed]; split <;> simp
@[simp] theorem frc_routed (s : State) (r ty src k : Nat) (b : List Byte) : (s.routed r ty src k b).frc = s.frc := by simp only [State.routed]; split <;> simp
@[simp] theorem cyc_routed (s : State) (r ty src k : Nat) (b : List Byte) : (s.routed r ty src k b).cyc = s.cyc := by simp only [State.routed]; split <;> simp
@[simp] theorem hcyc_routed (s : State) (r ty src k : Nat) (b : List Byte) : (s.routed r ty src k b).hcyc = s.hcyc := by simp only [State.routed]; split <;> simp
@[simp] theorem hiCap_routed (s : State) (r ty src k : Nat) (b : List Byte) : (s.routed r ty src k b).hiCap = s.hiCap := by simp only [State.routed]; split <;> simp
@[simp] theorem readData_routed (s : State) (r ty src k : Nat) (b : List Byte) : (s.routed r ty src k b).readData = s.readData := by simp only [State.routed]; split <;> simp
@[simp] theorem readUr_routed (s : State) (r ty src k : Nat) (b : List Byte) : (s.routed r ty src k b).readUr = s.readUr := by simp only [State.routed]; split <;> simp
@[simp] theorem readRetry_routed (s : State) (r ty src k : Nat) (b : List Byte) : (s.routed r ty src k b).readRetry = s.readRetry := by simp only [State.routed]; split <;> simp
@[simp] theorem bar2Data_routed (s : State) (r ty src k : Nat) (b : List Byte) : (s.routed r ty src k b).bar2Data = s.bar2Data := by simp only [State.routed]; split <;> simp
@[simp] theorem bar2Ep_routed (s : State) (r ty src k : Nat) (b : List Byte) : (s.routed r ty src k b).bar2Ep = s.bar2Ep := by simp only [State.routed]; split <;> simp
@[simp] theorem freeIx_routed (s : State) (r ty src k : Nat) (b : List Byte) : (s.routed r ty src k b).freeIx = s.freeIx := by simp only [State.routed]; split <;> simp
@[simp] theorem hostMem_routed (s : State) (r ty src k : Nat) (b : List Byte) : (s.routed r ty src k b).hostMem = s.hostMem := by simp only [State.routed]; split <;> simp
@[simp] theorem mem_routed (s : State) (r ty src k : Nat) (b : List Byte) : (s.routed r ty src k b).mem = s.mem := by simp only [State.routed]; split <;> simp
@[simp] theorem ing_routed (s : State) (r ty src k : Nat) (b : List Byte) : (s.routed r ty src k b).ing = s.ing := by simp only [State.routed]; split <;> simp
@[simp] theorem sec_routed (s : State) (r ty src k : Nat) (b : List Byte) : (s.routed r ty src k b).sec = s.sec := by simp only [State.routed]; split <;> simp
@[simp] theorem pcie_routed (s : State) (r ty src k : Nat) (b : List Byte) : (s.routed r ty src k b).pcie = s.pcie := by simp only [State.routed]; split <;> simp
@[simp] theorem pwr_routed (s : State) (r ty src k : Nat) (b : List Byte) : (s.routed r ty src k b).pwr = s.pwr := by simp only [State.routed]; split <;> simp
@[simp] theorem trg_routed (s : State) (r ty src k : Nat) (b : List Byte) : (s.routed r ty src k b).trg = s.trg := by simp only [State.routed]; split <;> simp
@[simp] theorem pools_routed (s : State) (r ty src k : Nat) (b : List Byte) : (s.routed r ty src k b).pools = s.pools := by simp only [State.routed]; split <;> simp
@[simp] theorem chm_routed (s : State) (r ty src k : Nat) (b : List Byte) : (s.routed r ty src k b).chm = s.chm := by simp only [State.routed]; split <;> simp
@[simp] theorem tim_routed (s : State) (r ty src k : Nat) (b : List Byte) : (s.routed r ty src k b).tim = s.tim := by simp only [State.routed]; split <;> simp
@[simp] theorem zl_routed (s : State) (r ty src k : Nat) (b : List Byte) : (s.routed r ty src k b).zl = s.zl := by simp only [State.routed]; split <;> simp
@[simp] theorem hearth_routed (s : State) (r ty src k : Nat) (b : List Byte) : (s.routed r ty src k b).hearth = s.hearth := by simp only [State.routed]; split <;> simp

/-! ### setLane -/

@[simp] theorem part_setLane (s : State) (l : Nat) (x : Lane) : (s.setLane l x).part = s.part := rfl
@[simp] theorem pending_setLane (s : State) (l : Nat) (x : Lane) : (s.setLane l x).pending = s.pending := rfl
@[simp] theorem frc_setLane (s : State) (l : Nat) (x : Lane) : (s.setLane l x).frc = s.frc := rfl
@[simp] theorem cyc_setLane (s : State) (l : Nat) (x : Lane) : (s.setLane l x).cyc = s.cyc := rfl
@[simp] theorem hcyc_setLane (s : State) (l : Nat) (x : Lane) : (s.setLane l x).hcyc = s.hcyc := rfl
@[simp] theorem regs_setLane (s : State) (l : Nat) (x : Lane) : (s.setLane l x).regs = s.regs := rfl
@[simp] theorem hiCap_setLane (s : State) (l : Nat) (x : Lane) : (s.setLane l x).hiCap = s.hiCap := rfl
@[simp] theorem readData_setLane (s : State) (l : Nat) (x : Lane) : (s.setLane l x).readData = s.readData := rfl
@[simp] theorem readUr_setLane (s : State) (l : Nat) (x : Lane) : (s.setLane l x).readUr = s.readUr := rfl
@[simp] theorem readRetry_setLane (s : State) (l : Nat) (x : Lane) : (s.setLane l x).readRetry = s.readRetry := rfl
@[simp] theorem bar2Data_setLane (s : State) (l : Nat) (x : Lane) : (s.setLane l x).bar2Data = s.bar2Data := rfl
@[simp] theorem bar2Ep_setLane (s : State) (l : Nat) (x : Lane) : (s.setLane l x).bar2Ep = s.bar2Ep := rfl
@[simp] theorem setNow_setLane (s : State) (l : Nat) (x : Lane) : (s.setLane l x).setNow = s.setNow := rfl
@[simp] theorem incNow_setLane (s : State) (l : Nat) (x : Lane) : (s.setLane l x).incNow = s.incNow := rfl
@[simp] theorem freeIx_setLane (s : State) (l : Nat) (x : Lane) : (s.setLane l x).freeIx = s.freeIx := rfl
@[simp] theorem hostMem_setLane (s : State) (l : Nat) (x : Lane) : (s.setLane l x).hostMem = s.hostMem := rfl
@[simp] theorem mem_setLane (s : State) (l : Nat) (x : Lane) : (s.setLane l x).mem = s.mem := rfl
@[simp] theorem stk_setLane (s : State) (l : Nat) (x : Lane) : (s.setLane l x).stk = s.stk := rfl
@[simp] theorem flt_setLane (s : State) (l : Nat) (x : Lane) : (s.setLane l x).flt = s.flt := rfl
@[simp] theorem sec_setLane (s : State) (l : Nat) (x : Lane) : (s.setLane l x).sec = s.sec := rfl
@[simp] theorem pcie_setLane (s : State) (l : Nat) (x : Lane) : (s.setLane l x).pcie = s.pcie := rfl
@[simp] theorem pwr_setLane (s : State) (l : Nat) (x : Lane) : (s.setLane l x).pwr = s.pwr := rfl
@[simp] theorem trg_setLane (s : State) (l : Nat) (x : Lane) : (s.setLane l x).trg = s.trg := rfl
@[simp] theorem pools_setLane (s : State) (l : Nat) (x : Lane) : (s.setLane l x).pools = s.pools := rfl
@[simp] theorem chm_setLane (s : State) (l : Nat) (x : Lane) : (s.setLane l x).chm = s.chm := rfl
@[simp] theorem tim_setLane (s : State) (l : Nat) (x : Lane) : (s.setLane l x).tim = s.tim := rfl
@[simp] theorem zl_setLane (s : State) (l : Nat) (x : Lane) : (s.setLane l x).zl = s.zl := rfl
@[simp] theorem hearth_setLane (s : State) (l : Nat) (x : Lane) : (s.setLane l x).hearth = s.hearth := rfl
@[simp] theorem getF_setLane (s : State) (l : Nat) (x : Lane) (g : Fld) : (s.setLane l x).getF g = s.getF g := getF_congr (by simp) (by simp) g
@[simp] theorem word_setLane (s : State) (l : Nat) (x : Lane) (off : Nat) : (s.setLane l x).word off = s.word off :=
  word_congr (by simp) (by simp) off

/-! ### setGrate -/

@[simp] theorem part_setGrate (s : State) (k : Nat) (x : Grate) : (s.setGrate k x).part = s.part := rfl
@[simp] theorem pending_setGrate (s : State) (k : Nat) (x : Grate) : (s.setGrate k x).pending = s.pending := rfl
@[simp] theorem frc_setGrate (s : State) (k : Nat) (x : Grate) : (s.setGrate k x).frc = s.frc := rfl
@[simp] theorem cyc_setGrate (s : State) (k : Nat) (x : Grate) : (s.setGrate k x).cyc = s.cyc := rfl
@[simp] theorem hcyc_setGrate (s : State) (k : Nat) (x : Grate) : (s.setGrate k x).hcyc = s.hcyc := rfl
@[simp] theorem regs_setGrate (s : State) (k : Nat) (x : Grate) : (s.setGrate k x).regs = s.regs := rfl
@[simp] theorem hiCap_setGrate (s : State) (k : Nat) (x : Grate) : (s.setGrate k x).hiCap = s.hiCap := rfl
@[simp] theorem readData_setGrate (s : State) (k : Nat) (x : Grate) : (s.setGrate k x).readData = s.readData := rfl
@[simp] theorem readUr_setGrate (s : State) (k : Nat) (x : Grate) : (s.setGrate k x).readUr = s.readUr := rfl
@[simp] theorem readRetry_setGrate (s : State) (k : Nat) (x : Grate) : (s.setGrate k x).readRetry = s.readRetry := rfl
@[simp] theorem bar2Data_setGrate (s : State) (k : Nat) (x : Grate) : (s.setGrate k x).bar2Data = s.bar2Data := rfl
@[simp] theorem bar2Ep_setGrate (s : State) (k : Nat) (x : Grate) : (s.setGrate k x).bar2Ep = s.bar2Ep := rfl
@[simp] theorem setNow_setGrate (s : State) (k : Nat) (x : Grate) : (s.setGrate k x).setNow = s.setNow := rfl
@[simp] theorem incNow_setGrate (s : State) (k : Nat) (x : Grate) : (s.setGrate k x).incNow = s.incNow := rfl
@[simp] theorem freeIx_setGrate (s : State) (k : Nat) (x : Grate) : (s.setGrate k x).freeIx = s.freeIx := rfl
@[simp] theorem hostMem_setGrate (s : State) (k : Nat) (x : Grate) : (s.setGrate k x).hostMem = s.hostMem := rfl
@[simp] theorem mem_setGrate (s : State) (k : Nat) (x : Grate) : (s.setGrate k x).mem = s.mem := rfl
@[simp] theorem ing_setGrate (s : State) (k : Nat) (x : Grate) : (s.setGrate k x).ing = s.ing := rfl
@[simp] theorem stk_setGrate (s : State) (k : Nat) (x : Grate) : (s.setGrate k x).stk = s.stk := rfl
@[simp] theorem flt_setGrate (s : State) (k : Nat) (x : Grate) : (s.setGrate k x).flt = s.flt := rfl
@[simp] theorem sec_setGrate (s : State) (k : Nat) (x : Grate) : (s.setGrate k x).sec = s.sec := rfl
@[simp] theorem pcie_setGrate (s : State) (k : Nat) (x : Grate) : (s.setGrate k x).pcie = s.pcie := rfl
@[simp] theorem pwr_setGrate (s : State) (k : Nat) (x : Grate) : (s.setGrate k x).pwr = s.pwr := rfl
@[simp] theorem trg_setGrate (s : State) (k : Nat) (x : Grate) : (s.setGrate k x).trg = s.trg := rfl
@[simp] theorem pools_setGrate (s : State) (k : Nat) (x : Grate) : (s.setGrate k x).pools = s.pools := rfl
@[simp] theorem chm_setGrate (s : State) (k : Nat) (x : Grate) : (s.setGrate k x).chm = s.chm := rfl
@[simp] theorem tim_setGrate (s : State) (k : Nat) (x : Grate) : (s.setGrate k x).tim = s.tim := rfl
@[simp] theorem zl_setGrate (s : State) (k : Nat) (x : Grate) : (s.setGrate k x).zl = s.zl := rfl
@[simp] theorem getF_setGrate (s : State) (k : Nat) (x : Grate) (g : Fld) : (s.setGrate k x).getF g = s.getF g := getF_congr (by simp) (by simp) g
@[simp] theorem word_setGrate (s : State) (k : Nat) (x : Grate) (off : Nat) : (s.setGrate k x).word off = s.word off :=
  word_congr (by simp) (by simp) off

/-! ### setUnit -/

@[simp] theorem part_setUnit (s : State) (u : Nat) (x : HUnit) : (s.setUnit u x).part = s.part := rfl
@[simp] theorem pending_setUnit (s : State) (u : Nat) (x : HUnit) : (s.setUnit u x).pending = s.pending := rfl
@[simp] theorem frc_setUnit (s : State) (u : Nat) (x : HUnit) : (s.setUnit u x).frc = s.frc := rfl
@[simp] theorem cyc_setUnit (s : State) (u : Nat) (x : HUnit) : (s.setUnit u x).cyc = s.cyc := rfl
@[simp] theorem hcyc_setUnit (s : State) (u : Nat) (x : HUnit) : (s.setUnit u x).hcyc = s.hcyc := rfl
@[simp] theorem regs_setUnit (s : State) (u : Nat) (x : HUnit) : (s.setUnit u x).regs = s.regs := rfl
@[simp] theorem hiCap_setUnit (s : State) (u : Nat) (x : HUnit) : (s.setUnit u x).hiCap = s.hiCap := rfl
@[simp] theorem readData_setUnit (s : State) (u : Nat) (x : HUnit) : (s.setUnit u x).readData = s.readData := rfl
@[simp] theorem readUr_setUnit (s : State) (u : Nat) (x : HUnit) : (s.setUnit u x).readUr = s.readUr := rfl
@[simp] theorem readRetry_setUnit (s : State) (u : Nat) (x : HUnit) : (s.setUnit u x).readRetry = s.readRetry := rfl
@[simp] theorem bar2Data_setUnit (s : State) (u : Nat) (x : HUnit) : (s.setUnit u x).bar2Data = s.bar2Data := rfl
@[simp] theorem bar2Ep_setUnit (s : State) (u : Nat) (x : HUnit) : (s.setUnit u x).bar2Ep = s.bar2Ep := rfl
@[simp] theorem setNow_setUnit (s : State) (u : Nat) (x : HUnit) : (s.setUnit u x).setNow = s.setNow := rfl
@[simp] theorem incNow_setUnit (s : State) (u : Nat) (x : HUnit) : (s.setUnit u x).incNow = s.incNow := rfl
@[simp] theorem freeIx_setUnit (s : State) (u : Nat) (x : HUnit) : (s.setUnit u x).freeIx = s.freeIx := rfl
@[simp] theorem hostMem_setUnit (s : State) (u : Nat) (x : HUnit) : (s.setUnit u x).hostMem = s.hostMem := rfl
@[simp] theorem mem_setUnit (s : State) (u : Nat) (x : HUnit) : (s.setUnit u x).mem = s.mem := rfl
@[simp] theorem ing_setUnit (s : State) (u : Nat) (x : HUnit) : (s.setUnit u x).ing = s.ing := rfl
@[simp] theorem stk_setUnit (s : State) (u : Nat) (x : HUnit) : (s.setUnit u x).stk = s.stk := rfl
@[simp] theorem flt_setUnit (s : State) (u : Nat) (x : HUnit) : (s.setUnit u x).flt = s.flt := rfl
@[simp] theorem sec_setUnit (s : State) (u : Nat) (x : HUnit) : (s.setUnit u x).sec = s.sec := rfl
@[simp] theorem pcie_setUnit (s : State) (u : Nat) (x : HUnit) : (s.setUnit u x).pcie = s.pcie := rfl
@[simp] theorem pwr_setUnit (s : State) (u : Nat) (x : HUnit) : (s.setUnit u x).pwr = s.pwr := rfl
@[simp] theorem trg_setUnit (s : State) (u : Nat) (x : HUnit) : (s.setUnit u x).trg = s.trg := rfl
@[simp] theorem pools_setUnit (s : State) (u : Nat) (x : HUnit) : (s.setUnit u x).pools = s.pools := rfl
@[simp] theorem chm_setUnit (s : State) (u : Nat) (x : HUnit) : (s.setUnit u x).chm = s.chm := rfl
@[simp] theorem tim_setUnit (s : State) (u : Nat) (x : HUnit) : (s.setUnit u x).tim = s.tim := rfl
@[simp] theorem zl_setUnit (s : State) (u : Nat) (x : HUnit) : (s.setUnit u x).zl = s.zl := rfl
@[simp] theorem getF_setUnit (s : State) (u : Nat) (x : HUnit) (g : Fld) : (s.setUnit u x).getF g = s.getF g := getF_congr (by simp) (by simp) g
@[simp] theorem word_setUnit (s : State) (u : Nat) (x : HUnit) (off : Nat) : (s.setUnit u x).word off = s.word off :=
  word_congr (by simp) (by simp) off

/-! ### setEdge -/

@[simp] theorem part_setEdge (s : State) (k : Nat) (x : EdgePort) : (s.setEdge k x).part = s.part := rfl
@[simp] theorem pending_setEdge (s : State) (k : Nat) (x : EdgePort) : (s.setEdge k x).pending = s.pending := rfl
@[simp] theorem frc_setEdge (s : State) (k : Nat) (x : EdgePort) : (s.setEdge k x).frc = s.frc := rfl
@[simp] theorem cyc_setEdge (s : State) (k : Nat) (x : EdgePort) : (s.setEdge k x).cyc = s.cyc := rfl
@[simp] theorem hcyc_setEdge (s : State) (k : Nat) (x : EdgePort) : (s.setEdge k x).hcyc = s.hcyc := rfl
@[simp] theorem regs_setEdge (s : State) (k : Nat) (x : EdgePort) : (s.setEdge k x).regs = s.regs := rfl
@[simp] theorem hiCap_setEdge (s : State) (k : Nat) (x : EdgePort) : (s.setEdge k x).hiCap = s.hiCap := rfl
@[simp] theorem readData_setEdge (s : State) (k : Nat) (x : EdgePort) : (s.setEdge k x).readData = s.readData := rfl
@[simp] theorem readUr_setEdge (s : State) (k : Nat) (x : EdgePort) : (s.setEdge k x).readUr = s.readUr := rfl
@[simp] theorem readRetry_setEdge (s : State) (k : Nat) (x : EdgePort) : (s.setEdge k x).readRetry = s.readRetry := rfl
@[simp] theorem bar2Data_setEdge (s : State) (k : Nat) (x : EdgePort) : (s.setEdge k x).bar2Data = s.bar2Data := rfl
@[simp] theorem bar2Ep_setEdge (s : State) (k : Nat) (x : EdgePort) : (s.setEdge k x).bar2Ep = s.bar2Ep := rfl
@[simp] theorem setNow_setEdge (s : State) (k : Nat) (x : EdgePort) : (s.setEdge k x).setNow = s.setNow := rfl
@[simp] theorem incNow_setEdge (s : State) (k : Nat) (x : EdgePort) : (s.setEdge k x).incNow = s.incNow := rfl
@[simp] theorem freeIx_setEdge (s : State) (k : Nat) (x : EdgePort) : (s.setEdge k x).freeIx = s.freeIx := rfl
@[simp] theorem hostMem_setEdge (s : State) (k : Nat) (x : EdgePort) : (s.setEdge k x).hostMem = s.hostMem := rfl
@[simp] theorem mem_setEdge (s : State) (k : Nat) (x : EdgePort) : (s.setEdge k x).mem = s.mem := rfl
@[simp] theorem ing_setEdge (s : State) (k : Nat) (x : EdgePort) : (s.setEdge k x).ing = s.ing := rfl
@[simp] theorem stk_setEdge (s : State) (k : Nat) (x : EdgePort) : (s.setEdge k x).stk = s.stk := rfl
@[simp] theorem flt_setEdge (s : State) (k : Nat) (x : EdgePort) : (s.setEdge k x).flt = s.flt := rfl
@[simp] theorem sec_setEdge (s : State) (k : Nat) (x : EdgePort) : (s.setEdge k x).sec = s.sec := rfl
@[simp] theorem pcie_setEdge (s : State) (k : Nat) (x : EdgePort) : (s.setEdge k x).pcie = s.pcie := rfl
@[simp] theorem pwr_setEdge (s : State) (k : Nat) (x : EdgePort) : (s.setEdge k x).pwr = s.pwr := rfl
@[simp] theorem trg_setEdge (s : State) (k : Nat) (x : EdgePort) : (s.setEdge k x).trg = s.trg := rfl
@[simp] theorem pools_setEdge (s : State) (k : Nat) (x : EdgePort) : (s.setEdge k x).pools = s.pools := rfl
@[simp] theorem chm_setEdge (s : State) (k : Nat) (x : EdgePort) : (s.setEdge k x).chm = s.chm := rfl
@[simp] theorem tim_setEdge (s : State) (k : Nat) (x : EdgePort) : (s.setEdge k x).tim = s.tim := rfl
@[simp] theorem zl_setEdge (s : State) (k : Nat) (x : EdgePort) : (s.setEdge k x).zl = s.zl := rfl
@[simp] theorem getF_setEdge (s : State) (k : Nat) (x : EdgePort) (g : Fld) : (s.setEdge k x).getF g = s.getF g := getF_congr (by simp) (by simp) g
@[simp] theorem word_setEdge (s : State) (k : Nat) (x : EdgePort) (off : Nat) : (s.setEdge k x).word off = s.word off :=
  word_congr (by simp) (by simp) off

/-! ### setPool -/

@[simp] theorem part_setPool (s : State) (c : Nat) (x : Pool) : (s.setPool c x).part = s.part := rfl
@[simp] theorem pending_setPool (s : State) (c : Nat) (x : Pool) : (s.setPool c x).pending = s.pending := rfl
@[simp] theorem frc_setPool (s : State) (c : Nat) (x : Pool) : (s.setPool c x).frc = s.frc := rfl
@[simp] theorem cyc_setPool (s : State) (c : Nat) (x : Pool) : (s.setPool c x).cyc = s.cyc := rfl
@[simp] theorem hcyc_setPool (s : State) (c : Nat) (x : Pool) : (s.setPool c x).hcyc = s.hcyc := rfl
@[simp] theorem regs_setPool (s : State) (c : Nat) (x : Pool) : (s.setPool c x).regs = s.regs := rfl
@[simp] theorem hiCap_setPool (s : State) (c : Nat) (x : Pool) : (s.setPool c x).hiCap = s.hiCap := rfl
@[simp] theorem readData_setPool (s : State) (c : Nat) (x : Pool) : (s.setPool c x).readData = s.readData := rfl
@[simp] theorem readUr_setPool (s : State) (c : Nat) (x : Pool) : (s.setPool c x).readUr = s.readUr := rfl
@[simp] theorem readRetry_setPool (s : State) (c : Nat) (x : Pool) : (s.setPool c x).readRetry = s.readRetry := rfl
@[simp] theorem bar2Data_setPool (s : State) (c : Nat) (x : Pool) : (s.setPool c x).bar2Data = s.bar2Data := rfl
@[simp] theorem bar2Ep_setPool (s : State) (c : Nat) (x : Pool) : (s.setPool c x).bar2Ep = s.bar2Ep := rfl
@[simp] theorem setNow_setPool (s : State) (c : Nat) (x : Pool) : (s.setPool c x).setNow = s.setNow := rfl
@[simp] theorem incNow_setPool (s : State) (c : Nat) (x : Pool) : (s.setPool c x).incNow = s.incNow := rfl
@[simp] theorem freeIx_setPool (s : State) (c : Nat) (x : Pool) : (s.setPool c x).freeIx = s.freeIx := rfl
@[simp] theorem hostMem_setPool (s : State) (c : Nat) (x : Pool) : (s.setPool c x).hostMem = s.hostMem := rfl
@[simp] theorem mem_setPool (s : State) (c : Nat) (x : Pool) : (s.setPool c x).mem = s.mem := rfl
@[simp] theorem ing_setPool (s : State) (c : Nat) (x : Pool) : (s.setPool c x).ing = s.ing := rfl
@[simp] theorem stk_setPool (s : State) (c : Nat) (x : Pool) : (s.setPool c x).stk = s.stk := rfl
@[simp] theorem flt_setPool (s : State) (c : Nat) (x : Pool) : (s.setPool c x).flt = s.flt := rfl
@[simp] theorem sec_setPool (s : State) (c : Nat) (x : Pool) : (s.setPool c x).sec = s.sec := rfl
@[simp] theorem pcie_setPool (s : State) (c : Nat) (x : Pool) : (s.setPool c x).pcie = s.pcie := rfl
@[simp] theorem pwr_setPool (s : State) (c : Nat) (x : Pool) : (s.setPool c x).pwr = s.pwr := rfl
@[simp] theorem trg_setPool (s : State) (c : Nat) (x : Pool) : (s.setPool c x).trg = s.trg := rfl
@[simp] theorem chm_setPool (s : State) (c : Nat) (x : Pool) : (s.setPool c x).chm = s.chm := rfl
@[simp] theorem tim_setPool (s : State) (c : Nat) (x : Pool) : (s.setPool c x).tim = s.tim := rfl
@[simp] theorem zl_setPool (s : State) (c : Nat) (x : Pool) : (s.setPool c x).zl = s.zl := rfl
@[simp] theorem hearth_setPool (s : State) (c : Nat) (x : Pool) : (s.setPool c x).hearth = s.hearth := rfl
@[simp] theorem getF_setPool (s : State) (c : Nat) (x : Pool) (g : Fld) : (s.setPool c x).getF g = s.getF g := getF_congr (by simp) (by simp) g
@[simp] theorem word_setPool (s : State) (c : Nat) (x : Pool) (off : Nat) : (s.setPool c x).word off = s.word off :=
  word_congr (by simp) (by simp) off

/-! ### setChm -/

@[simp] theorem part_setChm (s : State) (p : Nat) (x : ChmPort) : (s.setChm p x).part = s.part := rfl
@[simp] theorem pending_setChm (s : State) (p : Nat) (x : ChmPort) : (s.setChm p x).pending = s.pending := rfl
@[simp] theorem frc_setChm (s : State) (p : Nat) (x : ChmPort) : (s.setChm p x).frc = s.frc := rfl
@[simp] theorem cyc_setChm (s : State) (p : Nat) (x : ChmPort) : (s.setChm p x).cyc = s.cyc := rfl
@[simp] theorem hcyc_setChm (s : State) (p : Nat) (x : ChmPort) : (s.setChm p x).hcyc = s.hcyc := rfl
@[simp] theorem regs_setChm (s : State) (p : Nat) (x : ChmPort) : (s.setChm p x).regs = s.regs := rfl
@[simp] theorem hiCap_setChm (s : State) (p : Nat) (x : ChmPort) : (s.setChm p x).hiCap = s.hiCap := rfl
@[simp] theorem readData_setChm (s : State) (p : Nat) (x : ChmPort) : (s.setChm p x).readData = s.readData := rfl
@[simp] theorem readUr_setChm (s : State) (p : Nat) (x : ChmPort) : (s.setChm p x).readUr = s.readUr := rfl
@[simp] theorem readRetry_setChm (s : State) (p : Nat) (x : ChmPort) : (s.setChm p x).readRetry = s.readRetry := rfl
@[simp] theorem bar2Data_setChm (s : State) (p : Nat) (x : ChmPort) : (s.setChm p x).bar2Data = s.bar2Data := rfl
@[simp] theorem bar2Ep_setChm (s : State) (p : Nat) (x : ChmPort) : (s.setChm p x).bar2Ep = s.bar2Ep := rfl
@[simp] theorem setNow_setChm (s : State) (p : Nat) (x : ChmPort) : (s.setChm p x).setNow = s.setNow := rfl
@[simp] theorem incNow_setChm (s : State) (p : Nat) (x : ChmPort) : (s.setChm p x).incNow = s.incNow := rfl
@[simp] theorem freeIx_setChm (s : State) (p : Nat) (x : ChmPort) : (s.setChm p x).freeIx = s.freeIx := rfl
@[simp] theorem hostMem_setChm (s : State) (p : Nat) (x : ChmPort) : (s.setChm p x).hostMem = s.hostMem := rfl
@[simp] theorem mem_setChm (s : State) (p : Nat) (x : ChmPort) : (s.setChm p x).mem = s.mem := rfl
@[simp] theorem ing_setChm (s : State) (p : Nat) (x : ChmPort) : (s.setChm p x).ing = s.ing := rfl
@[simp] theorem stk_setChm (s : State) (p : Nat) (x : ChmPort) : (s.setChm p x).stk = s.stk := rfl
@[simp] theorem flt_setChm (s : State) (p : Nat) (x : ChmPort) : (s.setChm p x).flt = s.flt := rfl
@[simp] theorem sec_setChm (s : State) (p : Nat) (x : ChmPort) : (s.setChm p x).sec = s.sec := rfl
@[simp] theorem pcie_setChm (s : State) (p : Nat) (x : ChmPort) : (s.setChm p x).pcie = s.pcie := rfl
@[simp] theorem pwr_setChm (s : State) (p : Nat) (x : ChmPort) : (s.setChm p x).pwr = s.pwr := rfl
@[simp] theorem trg_setChm (s : State) (p : Nat) (x : ChmPort) : (s.setChm p x).trg = s.trg := rfl
@[simp] theorem pools_setChm (s : State) (p : Nat) (x : ChmPort) : (s.setChm p x).pools = s.pools := rfl
@[simp] theorem tim_setChm (s : State) (p : Nat) (x : ChmPort) : (s.setChm p x).tim = s.tim := rfl
@[simp] theorem zl_setChm (s : State) (p : Nat) (x : ChmPort) : (s.setChm p x).zl = s.zl := rfl
@[simp] theorem hearth_setChm (s : State) (p : Nat) (x : ChmPort) : (s.setChm p x).hearth = s.hearth := rfl
@[simp] theorem getF_setChm (s : State) (p : Nat) (x : ChmPort) (g : Fld) : (s.setChm p x).getF g = s.getF g := getF_congr (by simp) (by simp) g
@[simp] theorem word_setChm (s : State) (p : Nat) (x : ChmPort) (off : Nat) : (s.setChm p x).word off = s.word off :=
  word_congr (by simp) (by simp) off

/-! ### setZlink -/

@[simp] theorem part_setZlink (s : State) (n : Nat) (x : ZlLink) : (s.setZlink n x).part = s.part := rfl
@[simp] theorem pending_setZlink (s : State) (n : Nat) (x : ZlLink) : (s.setZlink n x).pending = s.pending := rfl
@[simp] theorem frc_setZlink (s : State) (n : Nat) (x : ZlLink) : (s.setZlink n x).frc = s.frc := rfl
@[simp] theorem cyc_setZlink (s : State) (n : Nat) (x : ZlLink) : (s.setZlink n x).cyc = s.cyc := rfl
@[simp] theorem hcyc_setZlink (s : State) (n : Nat) (x : ZlLink) : (s.setZlink n x).hcyc = s.hcyc := rfl
@[simp] theorem regs_setZlink (s : State) (n : Nat) (x : ZlLink) : (s.setZlink n x).regs = s.regs := rfl
@[simp] theorem hiCap_setZlink (s : State) (n : Nat) (x : ZlLink) : (s.setZlink n x).hiCap = s.hiCap := rfl
@[simp] theorem readData_setZlink (s : State) (n : Nat) (x : ZlLink) : (s.setZlink n x).readData = s.readData := rfl
@[simp] theorem readUr_setZlink (s : State) (n : Nat) (x : ZlLink) : (s.setZlink n x).readUr = s.readUr := rfl
@[simp] theorem readRetry_setZlink (s : State) (n : Nat) (x : ZlLink) : (s.setZlink n x).readRetry = s.readRetry := rfl
@[simp] theorem bar2Data_setZlink (s : State) (n : Nat) (x : ZlLink) : (s.setZlink n x).bar2Data = s.bar2Data := rfl
@[simp] theorem bar2Ep_setZlink (s : State) (n : Nat) (x : ZlLink) : (s.setZlink n x).bar2Ep = s.bar2Ep := rfl
@[simp] theorem setNow_setZlink (s : State) (n : Nat) (x : ZlLink) : (s.setZlink n x).setNow = s.setNow := rfl
@[simp] theorem incNow_setZlink (s : State) (n : Nat) (x : ZlLink) : (s.setZlink n x).incNow = s.incNow := rfl
@[simp] theorem freeIx_setZlink (s : State) (n : Nat) (x : ZlLink) : (s.setZlink n x).freeIx = s.freeIx := rfl
@[simp] theorem hostMem_setZlink (s : State) (n : Nat) (x : ZlLink) : (s.setZlink n x).hostMem = s.hostMem := rfl
@[simp] theorem mem_setZlink (s : State) (n : Nat) (x : ZlLink) : (s.setZlink n x).mem = s.mem := rfl
@[simp] theorem ing_setZlink (s : State) (n : Nat) (x : ZlLink) : (s.setZlink n x).ing = s.ing := rfl
@[simp] theorem stk_setZlink (s : State) (n : Nat) (x : ZlLink) : (s.setZlink n x).stk = s.stk := rfl
@[simp] theorem flt_setZlink (s : State) (n : Nat) (x : ZlLink) : (s.setZlink n x).flt = s.flt := rfl
@[simp] theorem sec_setZlink (s : State) (n : Nat) (x : ZlLink) : (s.setZlink n x).sec = s.sec := rfl
@[simp] theorem pcie_setZlink (s : State) (n : Nat) (x : ZlLink) : (s.setZlink n x).pcie = s.pcie := rfl
@[simp] theorem pwr_setZlink (s : State) (n : Nat) (x : ZlLink) : (s.setZlink n x).pwr = s.pwr := rfl
@[simp] theorem trg_setZlink (s : State) (n : Nat) (x : ZlLink) : (s.setZlink n x).trg = s.trg := rfl
@[simp] theorem pools_setZlink (s : State) (n : Nat) (x : ZlLink) : (s.setZlink n x).pools = s.pools := rfl
@[simp] theorem chm_setZlink (s : State) (n : Nat) (x : ZlLink) : (s.setZlink n x).chm = s.chm := rfl
@[simp] theorem tim_setZlink (s : State) (n : Nat) (x : ZlLink) : (s.setZlink n x).tim = s.tim := rfl
@[simp] theorem hearth_setZlink (s : State) (n : Nat) (x : ZlLink) : (s.setZlink n x).hearth = s.hearth := rfl
@[simp] theorem getF_setZlink (s : State) (n : Nat) (x : ZlLink) (g : Fld) : (s.setZlink n x).getF g = s.getF g := getF_congr (by simp) (by simp) g
@[simp] theorem word_setZlink (s : State) (n : Nat) (x : ZlLink) (off : Nat) : (s.setZlink n x).word off = s.word off :=
  word_congr (by simp) (by simp) off

/-! ### setTp -/

@[simp] theorem part_setTp (s : State) (p : Nat) (x : TpPort) : (s.setTp p x).part = s.part := rfl
@[simp] theorem pending_setTp (s : State) (p : Nat) (x : TpPort) : (s.setTp p x).pending = s.pending := rfl
@[simp] theorem frc_setTp (s : State) (p : Nat) (x : TpPort) : (s.setTp p x).frc = s.frc := rfl
@[simp] theorem cyc_setTp (s : State) (p : Nat) (x : TpPort) : (s.setTp p x).cyc = s.cyc := rfl
@[simp] theorem hcyc_setTp (s : State) (p : Nat) (x : TpPort) : (s.setTp p x).hcyc = s.hcyc := rfl
@[simp] theorem regs_setTp (s : State) (p : Nat) (x : TpPort) : (s.setTp p x).regs = s.regs := rfl
@[simp] theorem hiCap_setTp (s : State) (p : Nat) (x : TpPort) : (s.setTp p x).hiCap = s.hiCap := rfl
@[simp] theorem readData_setTp (s : State) (p : Nat) (x : TpPort) : (s.setTp p x).readData = s.readData := rfl
@[simp] theorem readUr_setTp (s : State) (p : Nat) (x : TpPort) : (s.setTp p x).readUr = s.readUr := rfl
@[simp] theorem readRetry_setTp (s : State) (p : Nat) (x : TpPort) : (s.setTp p x).readRetry = s.readRetry := rfl
@[simp] theorem bar2Data_setTp (s : State) (p : Nat) (x : TpPort) : (s.setTp p x).bar2Data = s.bar2Data := rfl
@[simp] theorem bar2Ep_setTp (s : State) (p : Nat) (x : TpPort) : (s.setTp p x).bar2Ep = s.bar2Ep := rfl
@[simp] theorem setNow_setTp (s : State) (p : Nat) (x : TpPort) : (s.setTp p x).setNow = s.setNow := rfl
@[simp] theorem incNow_setTp (s : State) (p : Nat) (x : TpPort) : (s.setTp p x).incNow = s.incNow := rfl
@[simp] theorem freeIx_setTp (s : State) (p : Nat) (x : TpPort) : (s.setTp p x).freeIx = s.freeIx := rfl
@[simp] theorem hostMem_setTp (s : State) (p : Nat) (x : TpPort) : (s.setTp p x).hostMem = s.hostMem := rfl
@[simp] theorem mem_setTp (s : State) (p : Nat) (x : TpPort) : (s.setTp p x).mem = s.mem := rfl
@[simp] theorem ing_setTp (s : State) (p : Nat) (x : TpPort) : (s.setTp p x).ing = s.ing := rfl
@[simp] theorem stk_setTp (s : State) (p : Nat) (x : TpPort) : (s.setTp p x).stk = s.stk := rfl
@[simp] theorem flt_setTp (s : State) (p : Nat) (x : TpPort) : (s.setTp p x).flt = s.flt := rfl
@[simp] theorem sec_setTp (s : State) (p : Nat) (x : TpPort) : (s.setTp p x).sec = s.sec := rfl
@[simp] theorem pcie_setTp (s : State) (p : Nat) (x : TpPort) : (s.setTp p x).pcie = s.pcie := rfl
@[simp] theorem pwr_setTp (s : State) (p : Nat) (x : TpPort) : (s.setTp p x).pwr = s.pwr := rfl
@[simp] theorem trg_setTp (s : State) (p : Nat) (x : TpPort) : (s.setTp p x).trg = s.trg := rfl
@[simp] theorem pools_setTp (s : State) (p : Nat) (x : TpPort) : (s.setTp p x).pools = s.pools := rfl
@[simp] theorem chm_setTp (s : State) (p : Nat) (x : TpPort) : (s.setTp p x).chm = s.chm := rfl
@[simp] theorem zl_setTp (s : State) (p : Nat) (x : TpPort) : (s.setTp p x).zl = s.zl := rfl
@[simp] theorem hearth_setTp (s : State) (p : Nat) (x : TpPort) : (s.setTp p x).hearth = s.hearth := rfl
@[simp] theorem getF_setTp (s : State) (p : Nat) (x : TpPort) (g : Fld) : (s.setTp p x).getF g = s.getF g := getF_congr (by simp) (by simp) g
@[simp] theorem word_setTp (s : State) (p : Nat) (x : TpPort) (off : Nat) : (s.setTp p x).word off = s.word off :=
  word_congr (by simp) (by simp) off

/-! ### setTx -/

@[simp] theorem part_setTx (s : State) (k : Nat) (x : Tx) : (s.setTx k x).part = s.part := rfl
@[simp] theorem pending_setTx (s : State) (k : Nat) (x : Tx) : (s.setTx k x).pending = s.pending := rfl
@[simp] theorem frc_setTx (s : State) (k : Nat) (x : Tx) : (s.setTx k x).frc = s.frc := rfl
@[simp] theorem cyc_setTx (s : State) (k : Nat) (x : Tx) : (s.setTx k x).cyc = s.cyc := rfl
@[simp] theorem hcyc_setTx (s : State) (k : Nat) (x : Tx) : (s.setTx k x).hcyc = s.hcyc := rfl
@[simp] theorem regs_setTx (s : State) (k : Nat) (x : Tx) : (s.setTx k x).regs = s.regs := rfl
@[simp] theorem hiCap_setTx (s : State) (k : Nat) (x : Tx) : (s.setTx k x).hiCap = s.hiCap := rfl
@[simp] theorem readData_setTx (s : State) (k : Nat) (x : Tx) : (s.setTx k x).readData = s.readData := rfl
@[simp] theorem readUr_setTx (s : State) (k : Nat) (x : Tx) : (s.setTx k x).readUr = s.readUr := rfl
@[simp] theorem readRetry_setTx (s : State) (k : Nat) (x : Tx) : (s.setTx k x).readRetry = s.readRetry := rfl
@[simp] theorem bar2Data_setTx (s : State) (k : Nat) (x : Tx) : (s.setTx k x).bar2Data = s.bar2Data := rfl
@[simp] theorem bar2Ep_setTx (s : State) (k : Nat) (x : Tx) : (s.setTx k x).bar2Ep = s.bar2Ep := rfl
@[simp] theorem setNow_setTx (s : State) (k : Nat) (x : Tx) : (s.setTx k x).setNow = s.setNow := rfl
@[simp] theorem incNow_setTx (s : State) (k : Nat) (x : Tx) : (s.setTx k x).incNow = s.incNow := rfl
@[simp] theorem freeIx_setTx (s : State) (k : Nat) (x : Tx) : (s.setTx k x).freeIx = s.freeIx := rfl
@[simp] theorem hostMem_setTx (s : State) (k : Nat) (x : Tx) : (s.setTx k x).hostMem = s.hostMem := rfl
@[simp] theorem mem_setTx (s : State) (k : Nat) (x : Tx) : (s.setTx k x).mem = s.mem := rfl
@[simp] theorem ing_setTx (s : State) (k : Nat) (x : Tx) : (s.setTx k x).ing = s.ing := rfl
@[simp] theorem stk_setTx (s : State) (k : Nat) (x : Tx) : (s.setTx k x).stk = s.stk := rfl
@[simp] theorem flt_setTx (s : State) (k : Nat) (x : Tx) : (s.setTx k x).flt = s.flt := rfl
@[simp] theorem sec_setTx (s : State) (k : Nat) (x : Tx) : (s.setTx k x).sec = s.sec := rfl
@[simp] theorem pcie_setTx (s : State) (k : Nat) (x : Tx) : (s.setTx k x).pcie = s.pcie := rfl
@[simp] theorem trg_setTx (s : State) (k : Nat) (x : Tx) : (s.setTx k x).trg = s.trg := rfl
@[simp] theorem pools_setTx (s : State) (k : Nat) (x : Tx) : (s.setTx k x).pools = s.pools := rfl
@[simp] theorem chm_setTx (s : State) (k : Nat) (x : Tx) : (s.setTx k x).chm = s.chm := rfl
@[simp] theorem tim_setTx (s : State) (k : Nat) (x : Tx) : (s.setTx k x).tim = s.tim := rfl
@[simp] theorem zl_setTx (s : State) (k : Nat) (x : Tx) : (s.setTx k x).zl = s.zl := rfl
@[simp] theorem hearth_setTx (s : State) (k : Nat) (x : Tx) : (s.setTx k x).hearth = s.hearth := rfl
@[simp] theorem getF_setTx (s : State) (k : Nat) (x : Tx) (g : Fld) : (s.setTx k x).getF g = s.getF g := getF_congr (by simp) (by simp) g
@[simp] theorem word_setTx (s : State) (k : Nat) (x : Tx) (off : Nat) : (s.setTx k x).word off = s.word off :=
  word_congr (by simp) (by simp) off

/-! ### setSq -/

@[simp] theorem part_setSq (s : State) (q : Nat) (x : Sq) : (s.setSq q x).part = s.part := rfl
@[simp] theorem pending_setSq (s : State) (q : Nat) (x : Sq) : (s.setSq q x).pending = s.pending := rfl
@[simp] theorem frc_setSq (s : State) (q : Nat) (x : Sq) : (s.setSq q x).frc = s.frc := rfl
@[simp] theorem cyc_setSq (s : State) (q : Nat) (x : Sq) : (s.setSq q x).cyc = s.cyc := rfl
@[simp] theorem hcyc_setSq (s : State) (q : Nat) (x : Sq) : (s.setSq q x).hcyc = s.hcyc := rfl
@[simp] theorem regs_setSq (s : State) (q : Nat) (x : Sq) : (s.setSq q x).regs = s.regs := rfl
@[simp] theorem hiCap_setSq (s : State) (q : Nat) (x : Sq) : (s.setSq q x).hiCap = s.hiCap := rfl
@[simp] theorem readData_setSq (s : State) (q : Nat) (x : Sq) : (s.setSq q x).readData = s.readData := rfl
@[simp] theorem readUr_setSq (s : State) (q : Nat) (x : Sq) : (s.setSq q x).readUr = s.readUr := rfl
@[simp] theorem readRetry_setSq (s : State) (q : Nat) (x : Sq) : (s.setSq q x).readRetry = s.readRetry := rfl
@[simp] theorem bar2Data_setSq (s : State) (q : Nat) (x : Sq) : (s.setSq q x).bar2Data = s.bar2Data := rfl
@[simp] theorem bar2Ep_setSq (s : State) (q : Nat) (x : Sq) : (s.setSq q x).bar2Ep = s.bar2Ep := rfl
@[simp] theorem setNow_setSq (s : State) (q : Nat) (x : Sq) : (s.setSq q x).setNow = s.setNow := rfl
@[simp] theorem incNow_setSq (s : State) (q : Nat) (x : Sq) : (s.setSq q x).incNow = s.incNow := rfl
@[simp] theorem freeIx_setSq (s : State) (q : Nat) (x : Sq) : (s.setSq q x).freeIx = s.freeIx := rfl
@[simp] theorem hostMem_setSq (s : State) (q : Nat) (x : Sq) : (s.setSq q x).hostMem = s.hostMem := rfl
@[simp] theorem mem_setSq (s : State) (q : Nat) (x : Sq) : (s.setSq q x).mem = s.mem := rfl
@[simp] theorem ing_setSq (s : State) (q : Nat) (x : Sq) : (s.setSq q x).ing = s.ing := rfl
@[simp] theorem flt_setSq (s : State) (q : Nat) (x : Sq) : (s.setSq q x).flt = s.flt := rfl
@[simp] theorem sec_setSq (s : State) (q : Nat) (x : Sq) : (s.setSq q x).sec = s.sec := rfl
@[simp] theorem pcie_setSq (s : State) (q : Nat) (x : Sq) : (s.setSq q x).pcie = s.pcie := rfl
@[simp] theorem pwr_setSq (s : State) (q : Nat) (x : Sq) : (s.setSq q x).pwr = s.pwr := rfl
@[simp] theorem trg_setSq (s : State) (q : Nat) (x : Sq) : (s.setSq q x).trg = s.trg := rfl
@[simp] theorem pools_setSq (s : State) (q : Nat) (x : Sq) : (s.setSq q x).pools = s.pools := rfl
@[simp] theorem chm_setSq (s : State) (q : Nat) (x : Sq) : (s.setSq q x).chm = s.chm := rfl
@[simp] theorem tim_setSq (s : State) (q : Nat) (x : Sq) : (s.setSq q x).tim = s.tim := rfl
@[simp] theorem zl_setSq (s : State) (q : Nat) (x : Sq) : (s.setSq q x).zl = s.zl := rfl
@[simp] theorem hearth_setSq (s : State) (q : Nat) (x : Sq) : (s.setSq q x).hearth = s.hearth := rfl
@[simp] theorem getF_setSq (s : State) (q : Nat) (x : Sq) (g : Fld) : (s.setSq q x).getF g = s.getF g := getF_congr (by simp) (by simp) g
@[simp] theorem word_setSq (s : State) (q : Nat) (x : Sq) (off : Nat) : (s.setSq q x).word off = s.word off :=
  word_congr (by simp) (by simp) off

/-! ### setFly -/

@[simp] theorem part_setFly (s : State) (x : Fly) : (s.setFly x).part = s.part := rfl
@[simp] theorem pending_setFly (s : State) (x : Fly) : (s.setFly x).pending = s.pending := rfl
@[simp] theorem frc_setFly (s : State) (x : Fly) : (s.setFly x).frc = s.frc := rfl
@[simp] theorem cyc_setFly (s : State) (x : Fly) : (s.setFly x).cyc = s.cyc := rfl
@[simp] theorem hcyc_setFly (s : State) (x : Fly) : (s.setFly x).hcyc = s.hcyc := rfl
@[simp] theorem regs_setFly (s : State) (x : Fly) : (s.setFly x).regs = s.regs := rfl
@[simp] theorem hiCap_setFly (s : State) (x : Fly) : (s.setFly x).hiCap = s.hiCap := rfl
@[simp] theorem readData_setFly (s : State) (x : Fly) : (s.setFly x).readData = s.readData := rfl
@[simp] theorem readUr_setFly (s : State) (x : Fly) : (s.setFly x).readUr = s.readUr := rfl
@[simp] theorem readRetry_setFly (s : State) (x : Fly) : (s.setFly x).readRetry = s.readRetry := rfl
@[simp] theorem bar2Data_setFly (s : State) (x : Fly) : (s.setFly x).bar2Data = s.bar2Data := rfl
@[simp] theorem bar2Ep_setFly (s : State) (x : Fly) : (s.setFly x).bar2Ep = s.bar2Ep := rfl
@[simp] theorem setNow_setFly (s : State) (x : Fly) : (s.setFly x).setNow = s.setNow := rfl
@[simp] theorem incNow_setFly (s : State) (x : Fly) : (s.setFly x).incNow = s.incNow := rfl
@[simp] theorem freeIx_setFly (s : State) (x : Fly) : (s.setFly x).freeIx = s.freeIx := rfl
@[simp] theorem hostMem_setFly (s : State) (x : Fly) : (s.setFly x).hostMem = s.hostMem := rfl
@[simp] theorem mem_setFly (s : State) (x : Fly) : (s.setFly x).mem = s.mem := rfl
@[simp] theorem ing_setFly (s : State) (x : Fly) : (s.setFly x).ing = s.ing := rfl
@[simp] theorem flt_setFly (s : State) (x : Fly) : (s.setFly x).flt = s.flt := rfl
@[simp] theorem sec_setFly (s : State) (x : Fly) : (s.setFly x).sec = s.sec := rfl
@[simp] theorem pcie_setFly (s : State) (x : Fly) : (s.setFly x).pcie = s.pcie := rfl
@[simp] theorem pwr_setFly (s : State) (x : Fly) : (s.setFly x).pwr = s.pwr := rfl
@[simp] theorem trg_setFly (s : State) (x : Fly) : (s.setFly x).trg = s.trg := rfl
@[simp] theorem pools_setFly (s : State) (x : Fly) : (s.setFly x).pools = s.pools := rfl
@[simp] theorem chm_setFly (s : State) (x : Fly) : (s.setFly x).chm = s.chm := rfl
@[simp] theorem tim_setFly (s : State) (x : Fly) : (s.setFly x).tim = s.tim := rfl
@[simp] theorem zl_setFly (s : State) (x : Fly) : (s.setFly x).zl = s.zl := rfl
@[simp] theorem hearth_setFly (s : State) (x : Fly) : (s.setFly x).hearth = s.hearth := rfl
@[simp] theorem getF_setFly (s : State) (x : Fly) (g : Fld) : (s.setFly x).getF g = s.getF g := getF_congr (by simp) (by simp) g
@[simp] theorem word_setFly (s : State) (x : Fly) (off : Nat) : (s.setFly x).word off = s.word off :=
  word_congr (by simp) (by simp) off

/-! ### setRun -/

@[simp] theorem part_setRun (s : State) (x : Run) : (s.setRun x).part = s.part := rfl
@[simp] theorem pending_setRun (s : State) (x : Run) : (s.setRun x).pending = s.pending := rfl
@[simp] theorem frc_setRun (s : State) (x : Run) : (s.setRun x).frc = s.frc := rfl
@[simp] theorem cyc_setRun (s : State) (x : Run) : (s.setRun x).cyc = s.cyc := rfl
@[simp] theorem hcyc_setRun (s : State) (x : Run) : (s.setRun x).hcyc = s.hcyc := rfl
@[simp] theorem regs_setRun (s : State) (x : Run) : (s.setRun x).regs = s.regs := rfl
@[simp] theorem hiCap_setRun (s : State) (x : Run) : (s.setRun x).hiCap = s.hiCap := rfl
@[simp] theorem readData_setRun (s : State) (x : Run) : (s.setRun x).readData = s.readData := rfl
@[simp] theorem readUr_setRun (s : State) (x : Run) : (s.setRun x).readUr = s.readUr := rfl
@[simp] theorem readRetry_setRun (s : State) (x : Run) : (s.setRun x).readRetry = s.readRetry := rfl
@[simp] theorem bar2Data_setRun (s : State) (x : Run) : (s.setRun x).bar2Data = s.bar2Data := rfl
@[simp] theorem bar2Ep_setRun (s : State) (x : Run) : (s.setRun x).bar2Ep = s.bar2Ep := rfl
@[simp] theorem setNow_setRun (s : State) (x : Run) : (s.setRun x).setNow = s.setNow := rfl
@[simp] theorem incNow_setRun (s : State) (x : Run) : (s.setRun x).incNow = s.incNow := rfl
@[simp] theorem freeIx_setRun (s : State) (x : Run) : (s.setRun x).freeIx = s.freeIx := rfl
@[simp] theorem hostMem_setRun (s : State) (x : Run) : (s.setRun x).hostMem = s.hostMem := rfl
@[simp] theorem mem_setRun (s : State) (x : Run) : (s.setRun x).mem = s.mem := rfl
@[simp] theorem ing_setRun (s : State) (x : Run) : (s.setRun x).ing = s.ing := rfl
@[simp] theorem flt_setRun (s : State) (x : Run) : (s.setRun x).flt = s.flt := rfl
@[simp] theorem sec_setRun (s : State) (x : Run) : (s.setRun x).sec = s.sec := rfl
@[simp] theorem pcie_setRun (s : State) (x : Run) : (s.setRun x).pcie = s.pcie := rfl
@[simp] theorem pwr_setRun (s : State) (x : Run) : (s.setRun x).pwr = s.pwr := rfl
@[simp] theorem trg_setRun (s : State) (x : Run) : (s.setRun x).trg = s.trg := rfl
@[simp] theorem pools_setRun (s : State) (x : Run) : (s.setRun x).pools = s.pools := rfl
@[simp] theorem chm_setRun (s : State) (x : Run) : (s.setRun x).chm = s.chm := rfl
@[simp] theorem tim_setRun (s : State) (x : Run) : (s.setRun x).tim = s.tim := rfl
@[simp] theorem zl_setRun (s : State) (x : Run) : (s.setRun x).zl = s.zl := rfl
@[simp] theorem hearth_setRun (s : State) (x : Run) : (s.setRun x).hearth = s.hearth := rfl
@[simp] theorem getF_setRun (s : State) (x : Run) (g : Fld) : (s.setRun x).getF g = s.getF g := getF_congr (by simp) (by simp) g
@[simp] theorem word_setRun (s : State) (x : Run) (off : Nat) : (s.setRun x).word off = s.word off :=
  word_congr (by simp) (by simp) off

/-! ### setLoad -/

@[simp] theorem part_setLoad (s : State) (x : Option Load) : (s.setLoad x).part = s.part := rfl
@[simp] theorem pending_setLoad (s : State) (x : Option Load) : (s.setLoad x).pending = s.pending := rfl
@[simp] theorem frc_setLoad (s : State) (x : Option Load) : (s.setLoad x).frc = s.frc := rfl
@[simp] theorem cyc_setLoad (s : State) (x : Option Load) : (s.setLoad x).cyc = s.cyc := rfl
@[simp] theorem hcyc_setLoad (s : State) (x : Option Load) : (s.setLoad x).hcyc = s.hcyc := rfl
@[simp] theorem regs_setLoad (s : State) (x : Option Load) : (s.setLoad x).regs = s.regs := rfl
@[simp] theorem hiCap_setLoad (s : State) (x : Option Load) : (s.setLoad x).hiCap = s.hiCap := rfl
@[simp] theorem readData_setLoad (s : State) (x : Option Load) : (s.setLoad x).readData = s.readData := rfl
@[simp] theorem readUr_setLoad (s : State) (x : Option Load) : (s.setLoad x).readUr = s.readUr := rfl
@[simp] theorem readRetry_setLoad (s : State) (x : Option Load) : (s.setLoad x).readRetry = s.readRetry := rfl
@[simp] theorem bar2Data_setLoad (s : State) (x : Option Load) : (s.setLoad x).bar2Data = s.bar2Data := rfl
@[simp] theorem bar2Ep_setLoad (s : State) (x : Option Load) : (s.setLoad x).bar2Ep = s.bar2Ep := rfl
@[simp] theorem setNow_setLoad (s : State) (x : Option Load) : (s.setLoad x).setNow = s.setNow := rfl
@[simp] theorem incNow_setLoad (s : State) (x : Option Load) : (s.setLoad x).incNow = s.incNow := rfl
@[simp] theorem freeIx_setLoad (s : State) (x : Option Load) : (s.setLoad x).freeIx = s.freeIx := rfl
@[simp] theorem hostMem_setLoad (s : State) (x : Option Load) : (s.setLoad x).hostMem = s.hostMem := rfl
@[simp] theorem mem_setLoad (s : State) (x : Option Load) : (s.setLoad x).mem = s.mem := rfl
@[simp] theorem ing_setLoad (s : State) (x : Option Load) : (s.setLoad x).ing = s.ing := rfl
@[simp] theorem stk_setLoad (s : State) (x : Option Load) : (s.setLoad x).stk = s.stk := rfl
@[simp] theorem flt_setLoad (s : State) (x : Option Load) : (s.setLoad x).flt = s.flt := rfl
@[simp] theorem sec_setLoad (s : State) (x : Option Load) : (s.setLoad x).sec = s.sec := rfl
@[simp] theorem pcie_setLoad (s : State) (x : Option Load) : (s.setLoad x).pcie = s.pcie := rfl
@[simp] theorem pwr_setLoad (s : State) (x : Option Load) : (s.setLoad x).pwr = s.pwr := rfl
@[simp] theorem trg_setLoad (s : State) (x : Option Load) : (s.setLoad x).trg = s.trg := rfl
@[simp] theorem pools_setLoad (s : State) (x : Option Load) : (s.setLoad x).pools = s.pools := rfl
@[simp] theorem chm_setLoad (s : State) (x : Option Load) : (s.setLoad x).chm = s.chm := rfl
@[simp] theorem tim_setLoad (s : State) (x : Option Load) : (s.setLoad x).tim = s.tim := rfl
@[simp] theorem zl_setLoad (s : State) (x : Option Load) : (s.setLoad x).zl = s.zl := rfl
@[simp] theorem getF_setLoad (s : State) (x : Option Load) (g : Fld) : (s.setLoad x).getF g = s.getF g := getF_congr (by simp) (by simp) g
@[simp] theorem word_setLoad (s : State) (x : Option Load) (off : Nat) : (s.setLoad x).word off = s.word off :=
  word_congr (by simp) (by simp) off

/-! ### setSwap -/

@[simp] theorem part_setSwap (s : State) (x : Option Swap) : (s.setSwap x).part = s.part := rfl
@[simp] theorem pending_setSwap (s : State) (x : Option Swap) : (s.setSwap x).pending = s.pending := rfl
@[simp] theorem frc_setSwap (s : State) (x : Option Swap) : (s.setSwap x).frc = s.frc := rfl
@[simp] theorem cyc_setSwap (s : State) (x : Option Swap) : (s.setSwap x).cyc = s.cyc := rfl
@[simp] theorem hcyc_setSwap (s : State) (x : Option Swap) : (s.setSwap x).hcyc = s.hcyc := rfl
@[simp] theorem regs_setSwap (s : State) (x : Option Swap) : (s.setSwap x).regs = s.regs := rfl
@[simp] theorem hiCap_setSwap (s : State) (x : Option Swap) : (s.setSwap x).hiCap = s.hiCap := rfl
@[simp] theorem readData_setSwap (s : State) (x : Option Swap) : (s.setSwap x).readData = s.readData := rfl
@[simp] theorem readUr_setSwap (s : State) (x : Option Swap) : (s.setSwap x).readUr = s.readUr := rfl
@[simp] theorem readRetry_setSwap (s : State) (x : Option Swap) : (s.setSwap x).readRetry = s.readRetry := rfl
@[simp] theorem bar2Data_setSwap (s : State) (x : Option Swap) : (s.setSwap x).bar2Data = s.bar2Data := rfl
@[simp] theorem bar2Ep_setSwap (s : State) (x : Option Swap) : (s.setSwap x).bar2Ep = s.bar2Ep := rfl
@[simp] theorem setNow_setSwap (s : State) (x : Option Swap) : (s.setSwap x).setNow = s.setNow := rfl
@[simp] theorem incNow_setSwap (s : State) (x : Option Swap) : (s.setSwap x).incNow = s.incNow := rfl
@[simp] theorem freeIx_setSwap (s : State) (x : Option Swap) : (s.setSwap x).freeIx = s.freeIx := rfl
@[simp] theorem hostMem_setSwap (s : State) (x : Option Swap) : (s.setSwap x).hostMem = s.hostMem := rfl
@[simp] theorem mem_setSwap (s : State) (x : Option Swap) : (s.setSwap x).mem = s.mem := rfl
@[simp] theorem ing_setSwap (s : State) (x : Option Swap) : (s.setSwap x).ing = s.ing := rfl
@[simp] theorem stk_setSwap (s : State) (x : Option Swap) : (s.setSwap x).stk = s.stk := rfl
@[simp] theorem flt_setSwap (s : State) (x : Option Swap) : (s.setSwap x).flt = s.flt := rfl
@[simp] theorem sec_setSwap (s : State) (x : Option Swap) : (s.setSwap x).sec = s.sec := rfl
@[simp] theorem pcie_setSwap (s : State) (x : Option Swap) : (s.setSwap x).pcie = s.pcie := rfl
@[simp] theorem pwr_setSwap (s : State) (x : Option Swap) : (s.setSwap x).pwr = s.pwr := rfl
@[simp] theorem trg_setSwap (s : State) (x : Option Swap) : (s.setSwap x).trg = s.trg := rfl
@[simp] theorem pools_setSwap (s : State) (x : Option Swap) : (s.setSwap x).pools = s.pools := rfl
@[simp] theorem chm_setSwap (s : State) (x : Option Swap) : (s.setSwap x).chm = s.chm := rfl
@[simp] theorem tim_setSwap (s : State) (x : Option Swap) : (s.setSwap x).tim = s.tim := rfl
@[simp] theorem zl_setSwap (s : State) (x : Option Swap) : (s.setSwap x).zl = s.zl := rfl
@[simp] theorem getF_setSwap (s : State) (x : Option Swap) (g : Fld) : (s.setSwap x).getF g = s.getF g := getF_congr (by simp) (by simp) g
@[simp] theorem word_setSwap (s : State) (x : Option Swap) (off : Nat) : (s.setSwap x).word off = s.word off :=
  word_congr (by simp) (by simp) off

/-! ### Fields after the shared field updates -/

/-- A counter holds its saturated sum after an increment. -/
theorem getF_bump_same (s : State) (f : Fld) (k : Nat) (hw : f.lsb + f.width ≤ 64) :
    (s.bump f k).getF f = satAdd f.width (s.getF f) k := by
  have h : (s.bump f k).getF f = (s.setF f (satAdd f.width (s.getF f) k)).getF f := getF_congr rfl rfl f
  rw [h, getF_setF_same _ _ _ hw, Nat.mod_eq_of_lt (satAdd_lt _ _ _)]

/-- A status field that the device has set reads as all ones. -/
theorem getF_raise_same (s : State) (f : Fld) (hw : f.lsb + f.width ≤ 64) : (s.raise f).getF f = 2 ^ f.width - 1 := by
  have h : (s.raise f).getF f = (s.setF f (2 ^ f.width - 1)).getF f := getF_congr rfl rfl f
  have : 0 < 2 ^ f.width := by positivity
  rw [h, getF_setF_same _ _ _ hw, Nat.mod_eq_of_lt (by omega)]

/-- An increment leaves the fields of other words alone. -/
theorem getF_bump_ne (s : State) (f g : Fld) (k : Nat) (hf : f.lsb + f.width ≤ 32) (hg : g.lsb + g.width ≤ 32)
    (h : g.off ≠ f.off) : (s.bump f k).getF g = s.getF g := by
  have h1 : (s.bump f k).getF g = (s.setF f (satAdd f.width (s.getF f) k)).getF g := getF_congr rfl rfl g
  rw [h1, getF_setF_ne_off _ _ _ _ hf hg h]

/-- A status bit that is set leaves the fields of other words alone. -/
theorem getF_raise_ne (s : State) (f g : Fld) (hf : f.lsb + f.width ≤ 32) (hg : g.lsb + g.width ≤ 32)
    (h : g.off ≠ f.off) : (s.raise f).getF g = s.getF g := by
  have h1 : (s.raise f).getF g = (s.setF f (2 ^ f.width - 1)).getF g := getF_congr rfl rfl g
  rw [h1, getF_setF_ne_off _ _ _ _ hf hg h]

/-- The words that a field update changes. -/
theorem wordsKept_setF (s : State) (f : Fld) (v : Nat) (hw : f.lsb + f.width ≤ 32) : WordsKept [f.off] s (s.setF f v) :=
  fun off h => word_setF_ne32 s f v hw (by simpa using h)

theorem wordsKept_bump (s : State) (f : Fld) (k : Nat) (hw : f.lsb + f.width ≤ 32) : WordsKept [f.off] s (s.bump f k) :=
  fun off h => (word_congr rfl rfl off).trans (word_setF_ne32 s f _ hw (by simpa using h))

theorem wordsKept_raise (s : State) (f : Fld) (hw : f.lsb + f.width ≤ 32) : WordsKept [f.off] s (s.raise f) :=
  fun off h => (word_congr rfl rfl off).trans (word_setF_ne32 s f _ hw (by simpa using h))

theorem WordsKept.trans {a b : List Nat} {s t u : State} (h1 : WordsKept a s t) (h2 : WordsKept b t u) :
    WordsKept (a ++ b) s u := fun off h => by
  simp only [List.mem_append, not_or] at h
  rw [h2 off h.2, h1 off h.1]

theorem Frame.trans {a b : List Comp} {s t u : State} (h1 : Frame a s t) (h2 : Frame b t u) : Frame (a ++ b) s u := fun c h => by
  simp only [List.mem_append, not_or] at h
  have e1 := h1 c h.1
  have e2 := h2 c h.2
  cases c <;> exact Eq.trans e2 e1

end Sys2Proof.Machine
end

