-- ==== Sys2Proof/Laws/Memory.lean ====
section
/-!
SUPPORT. Every operation on a byte-addressed store, and every shared register operation that these use, keeps the canonical form
of the stores.
-/
namespace Sys2Proof.Machine

/-- After reset every byte store is in canonical form. -/
theorem reset_stores_wf : mwf (fun _ => 0) State.reset.mem.hbm ∧ mwf (fun _ => 0) State.reset.mem.check ∧
    mwf (fun _ => 0) State.reset.hostMem := by decide

/-- The canonical form speaks only of the part, the registers, the two stores of HBM and host memory. -/
theorem State.Canon.congr {s t : State} (h : s.Canon) (hp : t.part = s.part) (hr : t.regs = s.regs)
    (hb : t.mem.hbm = s.mem.hbm) (hc : t.mem.check = s.mem.check) (hh : t.hostMem = s.hostMem) : t.Canon := by
  simpa only [State.Canon, State.RegsWf, hp, hr, hb, hc, hh] using h

/-! ### Registers -/

theorem State.Canon.setWord {s : State} (h : s.Canon) (off : Nat) (v : W32) : (s.setWord off v).Canon :=
  ⟨h.1.setWord off v, h.2⟩

theorem State.Canon.setF {s : State} (h : s.Canon) (f : Fld) (v : Nat) : (s.setF f v).Canon :=
  ⟨h.1.setF f v, by simpa using h.2⟩

theorem State.Canon.bump {s : State} (h : s.Canon) (f : Fld) (k : Nat) : (s.bump f k).Canon :=
  (h.setF f (satAdd f.width (s.getF f) k)).congr rfl rfl rfl rfl rfl

theorem State.Canon.raise {s : State} (h : s.Canon) (f : Fld) : (s.raise f).Canon :=
  (h.setF f (2 ^ f.width - 1)).congr rfl rfl rfl rfl rfl

theorem State.Canon.setWords {s : State} (h : s.Canon) (off : Nat) (ws : List W32) : (s.setWords off ws).Canon := by
  induction ws generalizing s off with
  | nil => exact h
  | cons w ws ih => exact ih (h.setWord off w) _

theorem State.Canon.resetWords {s : State} (h : s.Canon) (p : Nat → Bool) : (s.resetWords p).Canon :=
  ⟨filter_wf _ _ _ h.1, h.2⟩

theorem State.Canon.assertSrc {s : State} (h : s.Canon) (n : Nat) (i : BitVec 128) (r : Nat) : (s.assertSrc n i r).Canon :=
  h.congr (by simp) (by simp) (by simp) (by simp) (by simp)

theorem State.Canon.drawBytes {s : State} (h : s.Canon) (n : Nat) : (s.drawBytes n).2.Canon := h

/-! ### Host memory and the sectors of HBM -/

theorem State.Canon.hostPut {s : State} (h : s.Canon) (a : Nat) (bs : List Byte) (data : Bool) : (s.hostPut a bs data).Canon :=
  ⟨h.1, h.2.1, h.2.2.1, mputRange_wf _ _ _ _ h.2.2.2⟩

/-- HBM with bytes and check differences stored over it. -/
theorem State.Canon.putHbm {s : State} (h : s.Canon) (a c : Nat) (bs cs : List Byte) :
    State.Canon { s with mem := { s.mem with
      hbm := mputRange (fun _ => 0) s.mem.hbm a bs, check := mputRange (fun _ => 0) s.mem.check c cs } } :=
  ⟨h.1, mputRange_wf _ _ _ _ h.2.1, mputRange_wf _ _ _ _ h.2.2.1, h.2.2.2⟩

theorem State.Canon.storeSector {s : State} (h : s.Canon) (sec : Nat) (bs : List Byte) (poison : Bool) :
    (s.storeSector sec bs poison).Canon := by
  have h1 := fun diff => h.putHbm (32 * sec) (4 * sec) bs diff
  unfold State.storeSector
  extract_lets st hit mode inj diff hbm check src s1 s2
  have h1 : s1.Canon := h1 diff
  clear_value s1
  have h2 : s2.Canon := by
    simp only [s2]; split
    · exact h1.setF _ _
    · exact h1
  clear_value s2
  split
  · exact h2.bump _ _
  · exact h2

theorem State.Canon.feCapture {s : State} (h : s.Canon) (k a m t sec : Nat) : (s.feCapture k a m t sec).Canon := by
  unfold State.feCapture; split
  · exact h
  · exact (((h.raise _).setF _ _).setWord _ _).setF _ _

theorem State.Canon.decodeError {s : State} (h : s.Canon) (a m t sec : Nat) : (s.decodeError a m t sec).Canon :=
  (((h.bump _ _).raise _).feCapture _ _ _ _ _).assertSrc _ _ _

theorem State.Canon.bucketLeak {s : State} (h : s.Canon) (st : Nat) : (s.bucketLeak st).Canon := by
  unfold State.bucketLeak
  dsimp only
  split
  · exact h
  · refine State.Canon.setF ?_ _ _
    exact h

theorem State.Canon.corrected {s : State} (h : s.Canon) (st : Nat) : (s.corrected st).Canon := by
  unfold State.corrected
  extract_lets s1 lvl
  have h1 : s1.Canon := (h.bucketLeak st).bump _ _
  clear_value s1
  split
  · exact ((h1.setF _ _).bump _ _).assertSrc _ _ _
  · exact h1.setF _ _

theorem State.Canon.countRead {s : State} (h : s.Canon) (r : SecRead) (a m t sec : Nat) :
    (s.countRead r a m t sec).Canon := by
  cases r with
  | clean => exact h
  | corrected => exact h.corrected _
  | uncorrectable => exact (h.bump _ _).feCapture _ _ _ _ _

theorem State.Canon.rmw {s : State} (h : s.Canon) (sec : Nat) (data : List Byte) (mask : BitVec 32) (poison : Bool)
    (m t : Nat) (err : BitVec 288) : (s.rmw sec data mask poison m t err).Canon := by
  unfold State.rmw; dsimp only; split
  · exact ((h.countRead _ _ _ _ _).bump _ _).storeSector _ _ _
  · exact (h.countRead _ _ _ _ _).storeSector _ _ _

theorem State.Canon.dropHeld {s : State} (h : s.Canon) (sec : Nat) : (s.dropHeld sec).Canon := h

theorem State.Canon.writeBack {s : State} (h : s.Canon) (e : MergeEnt) (m t : Nat) (err : BitVec 288) :
    (s.writeBack e m t err).Canon := by
  unfold State.writeBack; dsimp only; split
  · exact (h.dropHeld _).decodeError _ _ _ _
  · exact (h.dropHeld _).rmw _ _ _ _ _ _ _

theorem State.Canon.flushFor {s : State} (h : s.Canon) (sec m t : Nat) : (s.flushFor sec m t).Canon := by
  unfold State.flushFor; split
  · exact h
  · exact (h.bump _ _).writeBack _ _ _ _

theorem State.Canon.makeRoom {s : State} (h : s.Canon) (sec m t : Nat) : (s.makeRoom sec m t).Canon := by
  unfold State.makeRoom; split
  · exact (h.bump _ _).writeBack _ _ _ _
  · exact h

theorem State.Canon.addHeld {s : State} (h : s.Canon) (e : MergeEnt) : (s.addHeld e).Canon := h

/-! ### Accesses to one sector -/

theorem State.Canon.getSector {s : State} (h : s.Canon) (m t sec : Nat) (err : BitVec 288) :
    (s.getSector m t sec err).1.Canon := by
  unfold State.getSector; split
  · exact h.decodeError _ _ _ _
  · exact (h.flushFor _ _ _).countRead _ _ _ _ _

theorem State.Canon.putSector {s : State} (h : s.Canon) (m t sec : Nat) (data : List Byte) (mask : BitVec 32)
    (poison : Bool) : (s.putSector m t sec data mask poison).Canon := by
  unfold State.putSector
  split
  · exact h.decodeError _ _ _ _
  split
  · exact h
  split
  · exact (h.dropHeld _).storeSector _ _ _
  extract_lets old data' mask'
  split
  · exact (h.dropHeld _).rmw _ _ _ _ _ _ _
  split
  · exact (h.dropHeld _).storeSector _ _ _
  split
  · exact h
  · exact (h.makeRoom _ _ _).addHeld _

/-! ### What goes before an access -/

theorem State.Canon.arbMove {s : State} (h : s.Canon) (pc m : Nat) : (s.arbMove pc m).Canon := by
  unfold State.arbMove; split <;> exact h

theorem State.Canon.acqPut {put : Nat → List Byte → BitVec 32 → State → State}
    (hput : ∀ sec data mask (s : State), s.Canon → (put sec data mask s).Canon) {s : State} (h : s.Canon) (c n k : Nat) :
    (s.acqPut put c n k).Canon := by
  induction k generalizing s n with
  | zero => exact h
  | succ k ih =>
    rw [State.acqPut]
    split
    · exact h
    · exact ih (hput _ _ _ (s.setPool _ _) h) _

theorem State.Canon.acqTurn {s : State} (h : s.Canon) (pc : Nat) : (s.acqTurn pc).Canon := by
  unfold State.acqTurn; split
  · exact h
  · exact (State.Canon.acqPut (fun _ _ _ _ h => h.putSector _ _ _ _ _ _) h _ _ _).arbMove _ _

theorem State.Canon.acqAll {s : State} (h : s.Canon) (pc n : Nat) : (s.acqAll pc n).Canon := by
  induction n generalizing s with
  | zero => exact h
  | succ n ih =>
    unfold State.acqAll; split
    · exact ih (h.acqTurn _)
    · exact h

theorem State.Canon.hbmServe {s : State} (h : s.Canon) (r : HbmReq) : (s.hbmServe r).Canon := by
  have h1 : ({ s with mem := { s.mem with waits := s.mem.waits.erase r } } : State).Canon := h
  unfold State.hbmServe; dsimp only; split
  · exact (h1.arbMove _ _).putSector _ _ _ _ _ _
  · exact (h1.arbMove (pcOf (r.addr / 32)) r.master).getSector r.master 0x1FF (r.addr / 32) r.err

theorem State.Canon.hbmServeAll {s : State} (h : s.Canon) (pc : Nat) (zero : Bool) (n : Nat) : (s.hbmServeAll pc zero n).Canon := by
  induction n generalizing s with
  | zero => exact h
  | succ n ih =>
    unfold State.hbmServeAll; split
    · exact h
    · split
      · exact h
      · exact ih (h.hbmServe _)

theorem State.Canon.hbmServeAhead {s : State} (h : s.Canon) (pc m n : Nat) : (s.hbmServeAhead pc m n).Canon := by
  induction n generalizing s with
  | zero => exact h
  | succ n ih =>
    unfold State.hbmServeAhead; split
    · exact h
    · split
      · exact ih (h.hbmServe _)
      · exact h

theorem State.Canon.takeSlot {s : State} (h : s.Canon) (pc : Nat) : (s.takeSlot pc).Canon := h

theorem State.Canon.hbmGrant {s : State} (h : s.Canon) (pc m : Nat) : (s.hbmGrant pc m).Canon := by
  unfold State.hbmGrant
  extract_lets n s1 s2
  have h1 : s1.Canon := h.hbmServeAll _ _ _
  have h2 : s2.Canon := by
    clear_value s1
    simp only [s2]; split
    · exact (h1.acqAll _ _).hbmServeAhead _ _ _
    · split
      · exact h1.acqTurn _
      · exact h1
  exact (h2.arbMove _ _).takeSlot _

theorem State.Canon.slotGrant {s : State} (h : s.Canon) (pc : Nat) : (s.slotGrant pc).Canon := by
  unfold State.slotGrant; split
  · exact h
  split
  · exact h
  split
  · exact (h.takeSlot pc).acqTurn _
  · exact (h.takeSlot pc).hbmServe _

theorem State.Canon.hbmRequest {s : State} (h : s.Canon) (r : HbmReq) : (s.hbmRequest r).Canon := by
  have h1 : ({ s with mem := { s.mem with waits := s.mem.waits ++ [r] } } : State).Canon := h
  unfold State.hbmRequest; dsimp only; split
  · exact h1.hbmServe _
  · exact h1.slotGrant _

theorem State.Canon.slotGrants {s : State} (h : s.Canon) (pcs : List Nat) : (s.slotGrants pcs).Canon := by
  induction pcs generalizing s with
  | nil => exact h
  | cons pc pcs ih => exact ih (h.slotGrant _)

/-! ### Accesses of a master -/

theorem State.Canon.readSector {s : State} (h : s.Canon) (m t sec : Nat) (err : BitVec 288) :
    (s.readSector m t sec err).1.Canon := by
  unfold State.readSector; split
  · exact h.getSector _ _ _ _
  · exact (h.hbmGrant _ _).getSector _ _ _ _

theorem State.Canon.writeSector {s : State} (h : s.Canon) (m t sec : Nat) (data : List Byte) (mask : BitVec 32)
    (poison : Bool) : (s.writeSector m t sec data mask poison).Canon := by
  unfold State.writeSector; split
  · exact h.putSector _ _ _ _ _ _
  · exact (h.hbmGrant _ _).putSector _ _ _ _ _ _

theorem State.Canon.readSectors {s : State} (h : s.Canon) (m t sec k : Nat) : (s.readSectors m t sec k).1.Canon := by
  induction k generalizing s sec with
  | zero => exact h
  | succ k ih => exact ih (h.readSector _ _ _ _) _

theorem State.Canon.hbmRead {s : State} (h : s.Canon) (m t a n : Nat) : (s.hbmRead m t a n).1.Canon := h.readSectors _ _ _ _

theorem State.Canon.writeSectors {s : State} (h : s.Canon) (m t sec off : Nat) (bs : List Byte) (poison : Bool) (k : Nat) :
    (s.writeSectors m t sec off bs poison k).Canon := by
  induction k generalizing s sec off bs with
  | zero => exact h
  | succ k ih => exact ih (h.writeSector _ _ _ _ _ _) _ _ _

theorem State.Canon.hbmWrite {s : State} (h : s.Canon) (m t a : Nat) (bs : List Byte) (poison : Bool) :
    (s.hbmWrite m t a bs poison).Canon := h.writeSectors _ _ _ _ _ _ _

theorem State.Canon.acqDrain {s : State} (h : s.Canon) (c n : Nat) : (s.acqDrain c n).Canon :=
  State.Canon.acqPut (fun _ _ _ _ h => h.writeSector _ _ _ _ _ _) h _ _ _

theorem State.Canon.writeBackAll {s : State} (h : s.Canon) (es : List MergeEnt) : (s.writeBackAll es).Canon := by
  induction es generalizing s with
  | nil => exact h
  | cons e es ih =>
    unfold State.writeBackAll; split
    · exact ih h
    · exact ih (h.writeBack _ _ _ _)

theorem State.Canon.awRead {s : State} (h : s.Canon) (m aw n : Nat) : (s.awRead m aw n).1.Canon := by
  unfold State.awRead; split
  · split
    · exact h.drawBytes n
    · exact h
  · exact h.hbmRead _ _ _ _

theorem State.Canon.awWrite {s : State} (h : s.Canon) (m aw : Nat) (bs : List Byte) (poison data : Bool) :
    (s.awWrite m aw bs poison data).1.Canon := by
  unfold State.awWrite; split
  · split
    · exact h
    · exact h.hostPut _ _ _
  · exact h.hbmWrite _ _ _ _ _

end Sys2Proof.Machine
end

