-- ==== Sys2Proof/WellFormed.lean ====
section
/-!
DEFINITION. Well-formed commands: the ranges that the spec gives the things a command names.
-/
namespace Sys2Proof

/-- A physical site, 0 to 299 (R76). -/
def okSite (n : Nat) : Bool := decide (n < 300)

/-- The word errors of a read of n words. -/
def okErrs (n : Nat) (e : WordErrs) : Bool := decide (e.ce + e.ue ≤ n)

/-- The checks on a command. A constructor whose operands take every value, or that has none, is always well formed. -/
def Instr.wellFormed : Instr → Bool
  | .registerWrite space off size _ => decide (0 < size) && decide (off < space.bytes)
  | .rcCounterRead space off size => decide (0 < size) && decide (off < space.bytes)
  | .w1cStatusWrite off _ | .pairLowWordRead off => off % 4 == 0 && decide (off < 0x4000000)
  | .laneTickHeader l _ _ | .dataBlock l _ _ | .crc16Verdict l | .laneSignalLoss l | .prbs31Check l _ => decide (l < 256)
  | .replayRead r l => decide (r < 2 ^ 24 ∧ l < 256)
  | .hotBundleIssue s c | .warmBundleIssue s c =>
      okSite s && okErrs 256 c.mac && okErrs 384 c.vec && okErrs 16 c.send && c.ags.all fun a => okErrs 4 a.1
  | .ldw s _ _ e => okSite s && okErrs 256 e
  | .ldo s _ e => okSite s && okErrs 128 e
  | .vectorInstruction s _ _ e => okSite s && okErrs 384 e
  | .muAccessGrant s as _ => okSite s && as.all fun a => okErrs 4 a.1
  | .hrtTblRead s e => okSite s && okErrs 8 e
  | .scalarOperation s _
  | .configBufferDrain s | .hrtTblWrite s | .grateTblRead s _ | .grateTblWrite s
  | .amxSelWrite s _ | .tokenCrossing s _ _ | .steerFireHot s _ _ | .steerFireWarm s _ | .hotWindowClose s
  | .warmWindowClose s | .scalePublish s | .warmUnitSwitch s | .warmGrateSwitch s => okSite s
  | .mac8 s a g _ c e | .mac4 s a g _ c e | .omac8 s a g _ c e | .omac4 s a g _ c e =>
      okSite s && okErrs 128 e && decide (a < 512 ∧ g < 16 ∧ c < 4)
  | .gend s a g c z d e => okSite s && okErrs 256 e && decide (a < 512 ∧ g < 16 ∧ c < 4 ∧ z < 4 ∧ d < 512)
  | .recv s q r b => okSite s && decide (q < 2 ∧ r < 512 ∧ b < 8)
  | .send s q r b e _ => okSite s && okErrs 16 e && decide (q < 2 ∧ r < 512 ∧ b < 8)
  | .muRead s a p _ e _ _ => okSite s && okErrs 4 e && decide (a < 4 ∧ p < 8)
  | .muWrite s a p _ | .muXfer s a p _ _ => okSite s && decide (a < 4 ∧ p < 8)
  | .xferComplete s a => okSite s && decide (a < 4)
  | .cfgEmpty c _ | .shadowWrite c _ | .liveWrite c _ | .scanReq c _ | .scanData c _ | .cfgMark c _ | .shadowClear c _
  | .scoreTake c | .captureTake c => decide (c < 25)
  | .loadImageFull t | .loadImageStage t | .swapEpoch t | .scanOut t | .scanIn t | .runDesc t | .chunkAssign t
  | .summaryEnter t | .runComplete t | .copyDesc t | .fillDesc t | .fenceDesc t | .fenceComplete t | .barrierDesc t
  | .barrierComplete t | .barrierTimeout t | .timestampDesc t | .snapshotDesc t | .readDigests t | .attestDesc t
  | .resyncDesc t => decide (t < 512)
  | .completionTimeout t _ _ _ => decide (t < 528)
  | .dmaComplete t => t.all fun t => decide (t < 512)
  | .trigOutPulseEnd o => decide (o < 4)
  | .trigInEdge i _ _ => decide (i < 4)
  | .acqWriteResume p | .recordComplete p | .poolReleaseWrite p _ | .poolCtrlWrite p _ | .poolStop p | .poolStart p =>
      decide (p < 16)
  | .chimneySlotLaunch p | .chimneyTriggerReceive p _ _ | .echoReq p _ _ | .echoRsp p _ _ | .chmUser p _ | .chmEchoGo p
  | .chmEchoTimeout p | .txqPush p | .rxqPop p | .chimneyBlockReceive p _ _ => decide (p < 4)
  | .tpFrameTransmit p b => decide (p < 2 ∧ b < 1024)
  | .tsqPop p | .tpFrameReceive p _ _ | .tpBlockLock p _ _ => decide (p < 2)
  | .sqDoorbell q _ | .cqDoorbell q _ | .descriptorFetch q | .completionPost q | .cqIrqTimeout q | .cqEnable q _
  | .sqDisable q => decide (q < 16)
  | .warmDigestWindowClose p => decide (1 ≤ p ∧ p ≤ 31)
  | .zlFrameReceive l ls _ => decide (l < 24 ∧ ls.length = 8)
  | .zlFrameSend l | .zlRetryTimeout l | .zlEchoGo l | .zlEchoTimeout l | .zlFreeze l
  | .zlLinkDisable l => decide (l < 24)
  | .zlContainerRelease l j => decide (l < 24 ∧ j < 39)
  | .hbmSectorRead m a _ _ => decide (m < 11) && a % 32 == 0
  | .hbmSectorWrite m a _ _ _ => decide (m < 11) && a % 32 == 0
  | .readModifyWrite _ c _ => decide (c < 3)
  | .hbmRefresh c b => decide (c < 384 ∧ b < 64)
  | .hbmBucketLeak s | .hotRefresh s _ => decide (s < 6)
  | .faultStatusSet n u => decide (n < 256) && (match u with | some w => decide (w < 261) | none => true)
  | .blockRestart n => decide (n < 256)
  | .fltParityScan w _ => decide (w < 261)
  | .msixSend v => decide (v < 256)
  | .pcieLinkUp w s flit both => decide (w ∈ [1, 2, 4, 8, 16] ∧ 1 ≤ s ∧ s ≤ both ∧ both ≤ 7) && (decide (s ≤ 5) || flit)
  | .railOutOfTolerance r _ | .railReturn r => decide (r < 13)
  | .pllUnlock p | .pllRelock p => decide (p < 22)
  | .cdcTimeout c => decide (c < 21)
  | .cdcResync c _ => decide (c < 21)
  | .companionLoss t | .probePulse t | .transmitterOn t | .clampTrip t | .companionPresent t => decide (t < 34)
  | .flueFault f => decide (f < 14)
  | .bar2Resize k => decide (k < 10)
  | .bar2Read _ n => decide (0 < n ∧ n ≤ 4096)
  | .bar2Write _ bs _ => decide (0 < bs.length ∧ bs.length ≤ 512)
  | .ingestReleaseTick | .grpEnWrite _ | .snapGo | .clrCntIng | .replayCtrlWrite _ | .creditReturn _ | .qsampSample
  | .qsampRecord | .clrCntFab | .hotEpochSwitch | .stokerMarkEnqueue | .creditEpochStart _ | .swapTimeout
  | .swapEpochComplete | .haltWrite | .runWrite | .hearthHalt | .hearthRelease | .trgDecision | .triggerRecordPost
  | .forceHit | .trgCommit _ | .commitApply | .timSet | .timAdjGo | .rateWrite _ | .nowTimeRead | .syncSend _ | .frcLoad
  | .descriptorStart | .streamPortSend _ | .streamPortDrain _ | .resyncGo | .stkDisable _ | .funcEnWrite _
  | .busMasterChange _ | .damperUpdate | .hotDigestWindowClose | .twinAttach | .twinInSync | .twinRestart
  | .twinRestartCheck | .twinDetach | .twinDetached | .twinPromote | .twinDemote | .mergeTimeout _
  | .memInjWrite _ | .clrCntMem | .errPulseEnd | .hceBucketLeak | .safeEnter | .safeExit | .fltInjWrite _ | .clrCntFlt
  | .getInfo | .mailboxAttest | .getKemCert | .enrollOwner | .fuseOffVendor | .debugChallenge | .debugUnlock | .debugLock
  | .readLog | .setSvn | .treeRegenerated | .glitchDetect | .perstAssert _ | .perstDeassert | .chipReset | .chipResetWrite
  | .powerOnReset | .hbmFillDone _ | .coreRelease | .ashpitRelease | .flr | .pcieLinkDown | .refclkLoss | .avsStep _ _
  | .tempThreshold _ | .loaderPassEnd | .fireboxRequestDone | .refclkReturn | .extest _ => true

end Sys2Proof
end

