-- ==== Sys2Proof/Tests/Slice0.lean ====
section
/-!
SUPPORT. Tests of the model: the checks of well-formed commands, one small state for each hypothesis of a statement that meets
it, with the command's effect there, and worked examples of the spec. A test's expected values come from the rule its comment
names.
-/
namespace Sys2Proof.Tests
open Sys2Proof Sys2Proof.Machine

set_option maxRecDepth 100000
set_option exponentiation.threshold 10000
set_option Elab.async false

/-- The state after reset with fields set. -/
def st (ws : List (Fld × Nat)) : State := ws.foldl (fun s w => s.setF w.1 w.2) State.reset

/-- The outcome is a next state that passes a check. -/
def ok (o : Out) (p : State → Bool) : Bool :=
  match o with
  | .next t => p t
  | _ => false

/-- The outcome is the state it began with. -/
def same (i : Instr) (s : State) : Bool := ok (exec i s) fun t => decide (t = s)

/-- The state after reset with fields set and the Hearth running. -/
def run (ws : List (Fld × Nat)) : State := st ((glbImgState_Halted, 0) :: (glbImgState_Running, 1) :: ws)

/-- A token with a payload. -/
def tok (d : BitVec 512) : Token := ⟨d, 0, 0, false, false, false, false, none⟩

/-- The state with the tokens of a queue of a grate. -/
def fill (s : State) (g q : Nat) (ts : List Token) : State :=
  s.setGrate g { s.grate g with queues := mput (fun _ => Queue.init) (s.grate g).queues q { Queue.init with toks := ts } }

/-- A grate with tables and queues. -/
def grateOf (tab : SMap (BitVec 256)) (qs : SMap Queue) : Grate := { Grate.init with tab := tab, queues := qs }

/-! ### Well-formed commands: each check refuses a command that breaks it -/

theorem test_wf_sizes : (Instr.registerWrite .bar0 0x10 0 1).wellFormed = false ∧
    (Instr.registerWrite .bar4 0x10000 4 1).wellFormed = false ∧ (Instr.rcCounterRead .bar0 0x4000000 4).wellFormed = false ∧
    (Instr.pairLowWordRead 2).wellFormed = false ∧ (Instr.w1cStatusWrite 0x4000000 0).wellFormed = false ∧
    (Instr.registerWrite .bar0 0x10 4 1).wellFormed = true := by decide +kernel

theorem test_wf_lanes_and_sites : (Instr.laneTickHeader 256 2 0).wellFormed = false ∧
    (Instr.replayRead (2 ^ 24) 0).wellFormed = false ∧ (Instr.hotBundleIssue 300 .clean).wellFormed = false ∧
    (Instr.mac8 0 512 0 false 0 .clean).wellFormed = false ∧ (Instr.gend 0 0 0 0 4 0 .clean).wellFormed = false ∧
    (Instr.recv 0 2 0 0).wellFormed = false ∧ (Instr.muRead 2 4 0 false .clean false .clean).wellFormed = false ∧
    (Instr.xferComplete 2 4).wellFormed = false ∧ (Instr.shadowWrite 25 0).wellFormed = false ∧
    (Instr.gend 0 0 0 0 3 0 .clean).wellFormed = true := by decide +kernel

theorem test_wf_tags_and_ports : (Instr.copyDesc 512).wellFormed = false ∧ (Instr.dmaComplete (some 512)).wellFormed = false ∧
    (Instr.trigOutPulseEnd 4).wellFormed = false ∧ (Instr.trigInEdge 4 true 0).wellFormed = false ∧
    (Instr.poolStart 16).wellFormed = false ∧ (Instr.echoReq 4 0 0).wellFormed = false ∧
    (Instr.tpFrameTransmit 0 1024).wellFormed = false ∧ (Instr.tsqPop 2).wellFormed = false ∧
    (Instr.sqDoorbell 16 0).wellFormed = false ∧ (Instr.warmDigestWindowClose 0).wellFormed = false ∧
    (Instr.zlFrameSend 24).wellFormed = false ∧ (Instr.zlContainerRelease 0 39).wellFormed = false ∧ (Instr.zlFrameReceive 0 [0] 0).wellFormed = false ∧
    (Instr.dmaComplete none).wellFormed = true := by decide +kernel

theorem test_wf_memory_and_power : (Instr.hbmSectorRead 11 0 0 none).wellFormed = false ∧
    (Instr.hbmSectorWrite 0 8 1 0 false).wellFormed = false ∧ (Instr.readModifyWrite 0 3 0).wellFormed = false ∧ (Instr.hbmRefresh 384 0).wellFormed = false ∧
    (Instr.hbmBucketLeak 6).wellFormed = false ∧ (Instr.faultStatusSet 256 none).wellFormed = false ∧
    (Instr.faultStatusSet 0 (some 261)).wellFormed = false ∧ (Instr.fltParityScan 261 true).wellFormed = false ∧ (Instr.msixSend 256).wellFormed = false ∧
    (Instr.pcieLinkUp 3 6 true 6).wellFormed = false ∧ (Instr.railReturn 13).wellFormed = false ∧
    (Instr.pllUnlock 22).wellFormed = false ∧ (Instr.cdcTimeout 21).wellFormed = false ∧
    (Instr.cdcResync 21 0).wellFormed = false ∧ (Instr.companionLoss 34).wellFormed = false ∧
    (Instr.flueFault 14).wellFormed = false ∧ (Instr.bar2Resize 10).wellFormed = false ∧
    (Instr.bar2Read 0 4097).wellFormed = false ∧ (Instr.bar2Write 0 [] false).wellFormed = false ∧
    (Instr.hbmSectorRead 10 32 0 none).wellFormed = true := by decide +kernel

/-! ### The machine as a whole, and register accesses -/

/-- A state in canonical form with a command in front that answers a next state (EmptyQueueStepPassesOneCycle, StepKeepsCanon,
StepKeepsPartAndQueue, OtpOnlyGrows): fuses are programmed in it, and the step keeps them. -/
theorem witness_steps : State.reset.pending = [] ∧ mwf (resetWord State.reset.part) State.reset.regs = true ∧
    (let s : State := { State.reset with pending := [.glitchDetect, .flr], hostMem := [(3, 7)], sec := { Sec.reset with
      vendorOff := true, ownerSet := true, ownerHash := 5, leafB := 1, svnA := 3 } }
    mwf (fun _ => 0) s.hostMem = true ∧ ok (step s) fun t => t.sec.vendorOff && t.sec.ownerHash == 5 && t.sec.stopped
      && decide (t.pending = [.flr])) := by decide +kernel

/-- FRC counts a cycle on an empty queue (R6), and a supply that has been low for 15,001 cycles is lost (R449). -/
theorem test_idle_cycle : State.reset.coreLost = false ∧ ok (step State.reset) (fun t => t.frc == 1 && t.cyc == 1 && t.hcyc == 0) = true ∧
    (let s : State := { State.reset with cyc := 15001, pwr := { Pwr.reset with coreLowFrom := some 0 } }
    s.coreLost = true) := by decide +kernel

/-- AccessesThatReachNoRegister: sizes and offsets that R435 refuses, and offsets that no map lists (R17). -/
theorem witness_no_register : (¬ ((4 = 4 ∧ 1 % 4 = 0) ∨ (4 = 8 ∧ 1 % 8 = 0))) ∧ (¬ ((8 = 4 ∧ 4 % 4 = 0) ∨ (8 = 8 ∧ 4 % 8 = 0))) ∧
    State.reset.pwr.ioLow = false ∧ State.reset.pcie.asleep = false ∧ State.reset.pcieDead = false ∧
    State.reset.decodes 0x300540 = true ∧ findRow (regRowsAt 0x300540) 0x300540 = none ∧
    findRow (regRowsAt 0x7FFFFC) 0x7FFFFC = none ∧ findRow (regRowsAt 0xFFFC) 0xFFFC = none ∧ State.reset.decodes 0xFFFC = true ∧
    findRow (regRowsAt 0xFFFFFC) 0xFFFFFC = none ∧ State.reset.decodes 0xFFFFFC = true ∧
    ok (exec (.rcCounterRead .bar0 4 8) State.reset) (fun t => t.readUr && t.flag glbPcieStatus_BadAccess &&
      (t.pcie.word 0x104).testBit 20) = true := by decide +kernel

/-- SlewWrite: PWR.SLEW.STEP takes 16 and 34, and refuses 15 and 35 (R454, R18). -/
theorem witness_slew : State.reset.pcieDead = false ∧ State.reset.pwr.released = true ∧
    ok (exec (.registerWrite .bar0 pwrSlew 4 16) State.reset) (fun t => t.getF pwrSlew_Step == 16 && !t.flag pwrStatus_WrRefused) ∧
    ok (exec (.registerWrite .bar0 pwrSlew 4 34) (st [(pwrSlew_Step, 20)])) (fun t => t.getF pwrSlew_Step == 34) ∧
    ok (exec (.registerWrite .bar0 pwrSlew 4 15) (st [(pwrSlew_Step, 20)])) (fun t => t.getF pwrSlew_Step == 20 && t.flag pwrStatus_WrRefused) ∧
    ok (exec (.registerWrite .bar0 pwrSlew 4 35) (st [(pwrSlew_Step, 35)])) (fun t => !t.flag pwrStatus_WrRefused) := by decide +kernel

/-- RcReadKeepsTheIncrement: MEM.DECODE_ERR of 32 bits and PRBS_ERR of lane 255 of 48 bits, each counting in the cycle of its read
(R15). -/
theorem witness_rc_read :
    (let r : RegRow := ⟨memDecodeErr, 4, 1, 0, 1, 0, [⟨0, 32, .rc, 0⟩]⟩
    findRow (regRowsAt memDecodeErr) memDecodeErr = some (r, 0) ∧ rcFields r = [⟨0, 32, .rc, 0⟩]) ∧
    mget (fun _ => (0, 0)) State.reset.incNow memDecodeErr = (0, 0) ∧ memDecodeErr ∉ [timNowTime 0, pwrAvs] ∧
    ok (exec (.rcCounterRead .bar0 memDecodeErr 4) ((st [(memDecodeErrF, 5)]).bump memDecodeErrF 1)) (fun t =>
      t.readData == 5 && t.getF memDecodeErrF == 1) ∧
    (let o := ingLanePrbsErr 255
    (findRow (regRowsAt o) o).map (fun x => (x.2, x.1.bytes, rcFields x.1)) = some (0, 8, [⟨0, 48, .rc, 0⟩]) ∧ o % 8 = 0 ∧
      ok (exec (.rcCounterRead .bar0 o 8) ((st [(ingLanePrbsErr_Count 255, 2 ^ 40)]).bump (ingLanePrbsErr_Count 255) 1)) (fun t =>
        t.readData == 2 ^ 40 && t.getF (ingLanePrbsErr_Count 255) == 1)) := by decide +kernel

/-- W1cBitSetInThisCycleStays: a bit that was set before is cleared, one set in this cycle stays, and 0 leaves it (R14). -/
theorem witness_w1c :
    (let s := st [(memStatus_WrRefused, 1)]
    (1 : W32).toNat.testBit 0 = true ∧ ((mget (fun _ => 0) s.setNow memStatus).toNat.testBit memStatus_WrRefused.lsb) = false ∧
      ok (exec (.w1cStatusWrite memStatus (BitVec.ofNat 32 (2 ^ memStatus_WrRefused.lsb))) s) (fun t => !t.flag memStatus_WrRefused) ∧
      ok (exec (.w1cStatusWrite memStatus 0) s) (fun t => t.flag memStatus_WrRefused)) ∧
    (let s := State.reset.raise memStatus_WrRefused
    ((mget (fun _ => 0) s.setNow memStatus).toNat.testBit memStatus_WrRefused.lsb) = true ∧
      ok (exec (.w1cStatusWrite memStatus (BitVec.ofNat 32 (2 ^ memStatus_WrRefused.lsb))) s) (fun t => t.flag memStatus_WrRefused)) := by
  decide +kernel

/-- PairReadCapturesTheHighWord: TIM.REF_FRC read low, changed, and read high (R12). -/
theorem witness_pair_read :
    (let s := st [(timRefFrc_Ref, 0x100000002)]
    (findRow (regRowsAt timRefFrc) timRefFrc).map (fun x => (x.2, x.1.bytes, rcFields x.1)) = some (0, 8, []) ∧
      (findRow (regRowsAt (timRefFrc + 4)) (timRefFrc + 4)).map (fun x => (x.2, x.1.bytes)) = some (1, 8) ∧ timRefFrc % 8 = 0 ∧
      s.decodes timRefFrc = true ∧ mget (fun _ => none) s.hiCap (timRefFrc + 4) = none ∧
      ok (exec (.pairLowWordRead timRefFrc) s) (fun t => t.readData == 2 && ok (exec (.rcCounterRead .bar0 (timRefFrc + 4) 4)
        (t.setF timRefFrc_Ref 0)) fun u => u.readData == 1 && decide (mget (fun _ => none) u.hiCap (timRefFrc + 4) = none))) := by
  decide +kernel

/-! ### Ingest -/

/-- Lane 0 in block lock and tick lock, in a place of its lane tick, with the lane tick of device tick 4 arriving. -/
def lane0 (pos : Nat) : State :=
  let s := st [(ingLaneCtrl_En 0, 1), (ingLaneStatus_BlockLock 0, 1), (ingLaneStatus_TickLock 0, 1)]
  { s with frc := 330 }.setLane 0 { Lane.init with pos := pos, lastTick := 4, buf := [⟨4, 0, 0, true, false, true, 0, none⟩] }

/-- LaneBlocksUnderTickLock: a data block in place 39, and a header in place 0 with AM 0xC5, LANE_ID 0 and TICK 5, which arrives 10
cycles into tick 5 (R44, R53, R61). -/
theorem witness_lane_blocks : (lane0 39).laneListens 0 = true ∧ (lane0 0).flag (ingLaneStatus_TickLock 0) = true ∧
    (blockLock true true 0 0 0).2.2.2 = true ∧
    ok (exec (.dataBlock 0 1 0xFF) (lane0 39)) (fun t => (t.lane 0).pos == 0 && (t.lane 0).buf.map LaneTick.dev == [4] &&
      ((t.lane 0).buf.map fun x => bitsAt x.data.toNat (64 * 38) 8) == [0xFF]) ∧
    (let p := ofBitsLsb (descramble 0 (bitsLsb 64 0x16806280000500c5)).1
    (lane0 0).hdrQualifies 0 2 p = true ∧ hdrTick p = 5 ∧
      ok (exec (.laneTickHeader 0 2 0x16806280000500c5) (lane0 0)) (fun t => t.getF (ingLaneStatus_Arrival 0) == 10 &&
        (t.lane 0).pos == 1 && (t.lane 0).lastTick == 5 && t.getF (ingLaneHdrObs_Status 0) == 0)) := by decide +kernel

/-- LaneVerdictsAndSignalLoss: a verdict that is due, with a mismatch; loss of light, and in the near-end
serial loop; and PRBS bits of an enabled checker (R43, R45,
R70). -/
theorem witness_lane_events :
    (let s := (lane0 5).setLane 0 { (lane0 5).lane 0 with verdict := some (4, false, 0) }
    (s.lane 0).verdict = some (4, false, 0) ∧ ok (exec (.crc16Verdict 0) s) (fun t => t.getF (ingLaneCrcErrF 0) == 1 &&
      decide ((t.lane 0).verdict = none))) ∧
    ok (exec (.laneSignalLoss 0) (lane0 5)) (fun t => !t.flag (ingLaneStatus_TickLock 0) && (t.lane 0).losses == 1) ∧
    ok (exec (.laneSignalLoss 0) ((lane0 5).setF (ingLaneCtrl_Loop 0) 1)) (fun t => t.flag (ingLaneStatus_TickLock 0) && (t.lane 0).losses == 0) ∧
    (let s := st [(ingLaneCtrl_En 255, 1), (ingLaneCtrl_PrbsChk 255, 1)]
    s.getF (ingLaneCtrl_Loop 255) ≠ 2 ∧
      ok (exec (.prbs31Check 255 (List.replicate 31 true)) s) (fun t => (t.lane 255).prbs.seeded == 31)) ∧
    (let s0 := st [(ingLaneCtrl_En 3, 1), (ingLaneCtrl_PrbsChk 3, 1), (ingLaneCtrl_PrbsGen 3, 1), (ingLaneCtrl_Loop 3, 2)]
    let s := { s0 with ing := { s0.ing with gens := [(3, 0x48000000)] } }
    s.getF (ingLaneCtrl_Loop 3) = 2 ∧ s.flag (ingLaneCtrl_PrbsGen 3) = true ∧ mget (fun _ => 0) s.ing.gens 3 ≠ 0 ∧
      ok (exec (.prbs31Check 3 (List.replicate 2 true)) s) (fun t => (t.lane 3).prbs.hist == 0 && (t.lane 3).prbs.seeded == 2 &&
        mget (fun _ => 0) t.ing.gens 3 == 0x20000000)) := by decide +kernel

/-- IngestRegisterCommands: a REPLAY_CTRL write in time and one too late, two while EN is set, a snapshot that starts, and a replay record 8 ticks ahead
(R73 to R75). -/
theorem witness_ing_commands :
    (let s := st [(ingReplayStart_Start, 16), (ingReplayFirst_First, 1), (ingSnapCtrl_Ticks, 1)]
    s.flag ingStatus_SnapBusy = false ∧ 0 < s.getF ingSnapCtrl_Ticks ∧
      ok (exec (.replayCtrlWrite 0x80000002) s) (fun t => t.flag ingReplayCtrl_En && t.getF ingReplayCtrl_Ticks == 2) ∧
      ok (exec (.replayCtrlWrite 0x80000001) s) (fun t => t.flag ingStatus_WrRefused) ∧
      ok (exec (.replayCtrlWrite 0xC0000001) (s.setF ingReplayCtrl_En 1)) (fun t => t.flag ingReplayCtrl_Loop && !t.flag ingStatus_WrRefused) ∧
      ok (exec (.replayCtrlWrite 0x80000000) (s.setF ingReplayCtrl_En 1)) (fun t => t.flag ingStatus_WrRefused) ∧
      ok (exec .snapGo s) (fun t => t.ing.snapLeft == 1 && t.ing.snapCyc == 1)) ∧
    (let s := st [(ingReplayCtrl_En, 1), (ingReplayCtrl_Ticks, 3), (ingReplayStart_Start, 8)]
    s.replayAt (s.tick + 8) = some 0 ∧ s.replayNext 0 255 = some 8 ∧
      ok (exec (.replayRead 0 255) s) (fun t => t.ing.replay.map (fun x => (x.tick, x.record, x.lane)) == [(8, 0, 255)])) := by decide +kernel

/-- ReleaseTickRunsOncePerTick: cycle 0 of tick 1 after CTRL.EN was set in tick 0 (R54). -/
theorem witness_release_tick :
    (let s : State := { st [(ingCtrl_En, 1)] with frc := 64 }
    s.flag ingCtrl_En = true ∧ s.ing.enFrom ≤ s.cyc ∧ s.ing.relCyc ≠ s.cyc + 1 ∧ s.cycle = 0 ∧ s.ing.grpPending = false ∧
      s.replayAt s.tick = none ∧ ¬ (s.ing.zeroFrom ≤ s.tick ∧ s.tick < s.ing.zeroTo) ∧
      ok (exec .ingestReleaseTick s) (fun t => t.ing.relTick == 1 && t.ing.maps.length == 1)) := by decide +kernel

/-! ### Compute units -/

/-- A hot and a warm compute unit at site 0. -/
def hotCu : State := run [(hrtUnitCfg_Mode 0, 1)]
def warmCu : State :=
  let s := run [(hrtUnitCfg_Mode 0, 2), (hrtUnitCfg_Plen 0, 1)]
  s.setUnit 0 { HUnit.init with graphOn := true, bundle := 1 }

/-- MacSlotsIssue: an active unit without an injection; an odd LDW is ILLEGAL (R79, R84). -/
theorem witness_mac_slots : hotCu.cuOn 0 = true ∧ hotCu.flag fltInj_Armed = false ∧ warmCu.cuOn 0 = true ∧
    ok (exec (.mac8 0 511 15 true 3 .uncorrectable) hotCu) (fun t => t.hearth.flights.map Flight.due == [5]) ∧
    ok (exec (.ldw 0 1 false .clean) hotCu) (fun t => t.getF (hrtIllegalF 0) == 1) ∧
    ok (exec (.ldw 0 510 true .clean) hotCu) (fun t => t.hearth.flights.map Flight.due == [1]) := by decide +kernel

/-- MAC8 of activations 1, 2 with the weights 3 and 5 in column 0, at tile bytes 0 and 32: the sum is 1 · 3 + 2 · 5 (R79). -/
theorem test_mac8_column : listGet 0 (passCols [1, 2] (BitVec.ofNat 8192 (3 + 2 ^ (8 * 32) * 5)) false) 0 = 13 := by decide +kernel

/-- GendVectorScalarIssue: listed and unlisted operands; ADD of S1 and an immediate of −1 into S2 (R82, R85, R95). -/
theorem witness_gend_vector_scalar : (510 ≠ 511 ∧ 3 ≤ 3) ∧ (¬ (511 ≠ 511 ∧ 3 ≤ 3)) ∧ vecListed 0 = true ∧
    vecListed (BitVec.ofNat 80 (2 ^ 79)) = true ∧ (vecListed (BitVec.ofNat 80 1) && bitsAt 0 0 10 == 0) = false ∧
    hotCu.scalarValue 0 0x1107FF = some (2, 0xFFFFFFFF) ∧ bitsAt 0xE00000 20 4 = 14 ∧
    ok (exec (.gend 0 510 3 0 0 7 .clean) hotCu) (fun t => t.hearth.flights.map Flight.due == [5]) ∧
    ok (exec (.scalarOperation 0 0x1107FF) hotCu) (fun t => t.hearth.flights == [⟨1, .scal 0 2 0xFFFFFFFF⟩]) ∧
    ok (exec (.vectorInstruction 0 (BitVec.ofNat 80 (2 ^ 79)) 0 .clean) hotCu) (fun t => t.hearth.flights.length == 1) := by decide +kernel

/-- RecvAndSendIssue: a queue with a VOID head, one with a data token, and an empty one (R99, R137). -/
theorem witness_recv_send :
    (let s := fill (fill hotCu 0 0 [tok 5]) 0 1 [{ tok 6 with void := true }, tok 7]
    s.cuOn 0 = true ∧ s.unitMode 0 = 1 ∧ ((s.grate 0).queue 0).toks = [tok 5] ∧
      ok (exec (.recv 0 1 511 7) s) (fun t => ((t.grate 0).queue 1).toks == [tok 7] &&
        t.hearth.flights == [⟨2, .recv 0 511 7 0 Tags.clear⟩])) ∧
    ((hotCu.grate 0).queue 0).toks = [] ∧ ok (exec (.recv 0 0 0 0) hotCu) (fun t => t.getF (hrtOverrunF 0) == 1) ∧
    ok (exec (.send 0 1 0 7 .clean .uncorrectable) hotCu) (fun t => t.hearth.flights.map Flight.due == [2] && t.getF (grTblUeF 0) == 1) := by decide +kernel

/-- BundlesIssue: NOP bundles of a hot and a warm unit, an unlisted one, and a held unit (R86, R94, R96, R97). -/
theorem witness_bundles : hotCu.running = true ∧ hotCu.siteOn 0 = true ∧ isMu 0 = false ∧
    cuListed ((hotCu.unit 0).entry 0 (hotCu.bundleNow 0)) = true ∧
    (let s := hotCu.setUnit 0 { HUnit.init with tab := [(0, 1)] }
    cuListed ((s.unit 0).entry 0 (s.bundleNow 0)) = false ∧
      ok (exec (.hotBundleIssue 0 .clean) s) (fun t => t.getF (hrtIllegalF 0) == 1)) ∧
    (warmCu.unitMode 0 = 2 ∧ (warmCu.unit 0).graphOn = true ∧ (warmCu.unit 0).xfers = [] ∧ warmCu.damperHolds 0 = false ∧
      warmCu.portsReady 0 ((warmCu.unit 0).entry 0 (warmCu.bundleNow 0)) = true) ∧
    (warmCu.sendCheck 0 ((warmCu.unit 0).entry 0 (warmCu.bundleNow 0)) .clean).1 = false ∧
    ok (exec (.warmBundleIssue 0 .clean) warmCu) (fun t => (t.unit 0).bundle == 0 && (t.unit 0).step == 1) ∧
    ok (exec (.hotBundleIssue 0 { Checks.clean with tp := .uncorrectable }) hotCu) (fun t => t.getF (hrtTpUeF 0) == 1) ∧
    (let s : State := { warmCu with pwr := { warmCu.pwr with line2 := 1 } }
    s.damperHolds 0 = true ∧ ok (exec (.warmBundleIssue 0 .clean) s) (fun t => t.getF (hrtStallCycF 0) == 1)) := by decide +kernel

/-- A pass lands in its set alone, and the set that GEND takes is empty (R82, R84). -/
theorem test_pass_lands : (let t := hotCu.land (.mac 0 1 false false (3 :: List.replicate 63 0) 4 (List.replicate 64 0) Tags.clear)
    listGet 0 ((t.unit 0).acc 1).cols 0 = 3 ∧ ((t.unit 0).acc 1).row = 4 ∧ (t.unit 0).acc 0 = Acc.init ∧
    (t.land (.take 0 0 1 0 0 0 0 0 Tags.clear)).unit 0 = HUnit.init) := by decide +kernel

/-- PassLandsAndGendZeroes, in column 63: a pass adds 5 to the 2 of its set, and GEND leaves a set of zeros (R80, R83). -/
theorem witness_pass :
    (let s := State.reset.setUnit 1 { HUnit.init with accs := [(3, { Acc.init with cols := List.replicate 64 2 })] }
    (63 : Nat) < 64 ∧
      listGet 0 (((s.land (.mac 1 3 false false (List.replicate 64 5) 7 [] Tags.clear)).unit 1).acc 3).cols 63 = 7 ∧
      ((s.land (.take 1 0 3 0 0 0 0 0 Tags.clear)).unit 1).acc 3 = Acc.init) := by decide +kernel

/-! ### Memory units, tables and statistics -/

/-- A memory unit at site 2 with pattern 7 of AG 3 and pattern 0 of AG 0 listed: LINEAR with one element in each dimension. -/
def muTab : SMap (BitVec 256) :=
  mputRange (fun _ => 0) (mputRange (fun _ => 0) [] (2 * 2 ^ 17 + 5) [0x10001, 0x10001]) (2 * 2 ^ 17 + 9 * 31 + 5) [0x10001, 0x10001]
def muUnit : HUnit := { HUnit.init with tab := muTab }
def hotMu : State := (run [(hrtUnitCfg_Mode 2, 1)]).setUnit 2 muUnit
def warmMuUnit : HUnit := { muUnit with graphOn := true, tab := mput (fun _ => 0) muTab 0 0x44 }
def warmMu : State := (run [(hrtUnitCfg_Mode 2, 2)]).setUnit 2 warmMuUnit

/-- HotMemoryAccessesIssue: a listed and an unlisted pattern, and a write whose queue holds a token (R103, R106). -/
theorem witness_hot_mu : hotMu.muOn 2 1 = true ∧ ((hotMu.unit 2).pat 3 7).listed = true ∧ ((hotMu.unit 2).pat 3 6).listed = false ∧
    ok (exec (.muRead 2 3 7 true .clean false .clean) hotMu) (fun t => t.hearth.flights.map Flight.due == [1]) ∧
    ok (exec (.muRead 2 3 6 false .clean false .clean) hotMu) (fun t => t.getF (hrtIllegalF 2) == 1 && t.hearth.flights.map Flight.due == [6]) ∧
    ok (exec (.muWrite 2 3 7 false) (fill hotMu 2 3 [tok 9])) (fun t => t.hearth.flights.map Flight.due == [2] &&
      ((t.grate 2).queue 3).toks.isEmpty) := by decide +kernel

/-- WarmBurstsAndGrants: a burst that begins, a grant of a read, a burst that has ended, and a buffered write (R109, R110, R483). -/
theorem witness_warm_mu : warmMu.muOn 2 2 = true ∧ (warmMu.unit 2).xfers = [] ∧ (warmMu.unit 2).xferFree 0 = true ∧ ((warmMu.unit 2).pat 0 0).listed = true ∧
    ok (exec (.muXfer 2 0 0 false true) warmMu) (fun t => (t.unit 2).xfers.length == 1) ∧
    (let s := warmMu.setF (hrtUnitCfg_Plen 2) 3
    let b := ((s.unit 2).bundleAt true (s.unit 2).bundle).toNat
    muListed false b = true ∧ s.damperHolds 2 = false ∧ s.ask 2 b 0 = .read 0 true ∧ (s.unit 2).arbCyc ≠ s.cyc + 1 ∧
      s.readRoom 2 0 = true ∧ errAt [(1, .uncorrectable)] 0 = .clean ∧ s.grantable 2 0 (.read 0 true) = true) ∧
    (let s := warmMu.setUnit 2 { warmMu.unit 2 with xfers := [⟨3, false, 0, 0, []⟩], cfgBuf := [(65535, 7)] }
    s.xferEnded 2 3 = true ∧ s.pairFree 2 65535 = true ∧ ok (exec (.xferComplete 2 3) s) (fun t => (t.unit 2).xfers.isEmpty) ∧
      ok (exec (.configBufferDrain 2) s) (fun t => (t.unit 2).entry 1 65535 == 7 && (t.unit 2).cfgBuf.isEmpty)) := by decide +kernel

/-- TablesReadAndWrite: the last entry of table 1 of a memory unit and a queue word of its grate, with table debug unlocked; and the
refusal while the Hearth runs, of an entry that R192 does not allow and of port bits in a CU's grate (R112, R113, R145, R192, R488). -/
theorem witness_tables :
    (let s : State := { st [(hrtTblSel_Table 2, 1), (hrtTblAddr_Index 2, 65535), (⟨grTblSel 2, 0, 2⟩, 1), (⟨grTblAddr 2, 0, 10⟩, 4),
      (⟨hrtTblData 2 0, 0, 32⟩, 77)] with sec := { Sec.reset with scopes := 1 } }
    s.siteOn 2 = true ∧ s.hrtTblOk 2 = true ∧ s.grTblOk 2 = true ∧
      ok (exec (.hrtTblWrite 2) s) (fun t => (t.unit 2).entry 1 65535 == 77 && ok (exec (.hrtTblRead 2 .clean) t) fun u =>
        u.word (hrtTblData 2 0) == 77)) ∧
    (let s : State := { st [(hrtTblSel_Table 0, 2), (hrtTblAddr_Index 0, 31), (⟨grTblData 0 0, 0, 32⟩, 0x40)] with sec := { Sec.reset with scopes := 1 } }
    isMu 0 = false ∧ s.hrtTblOk 0 = true ∧ s.grTblOk 0 = true ∧ rqBad (s.data8 (hrtTblData 0 0)) = true ∧
      slotSetsPorts (s.data8 (grTblData 0 0)) = true ∧
      ok (exec (.hrtTblWrite 0) s) (fun t => t.flag (hrtUnitStatus_WrRefused 0) && decide (t.hearth = s.hearth)) ∧
      ok (exec (.grateTblWrite 0) s) (fun t => t.flag (grStatus_WrRefused 0) && decide (t.hearth = s.hearth))) ∧
    hotMu.running = true ∧ hotMu.hrtTblOk 2 = false ∧ hotMu.grTblOk 2 = false ∧
      ok (exec (.hrtTblWrite 2) hotMu) (fun t => t.flag (hrtUnitStatus_WrRefused 2)) ∧
      ok (exec (.grateTblRead 2 .clean) hotMu) (fun t => t.flag (grStatus_WrRefused 2)) := by decide +kernel

/-- WindowsCloseAndScalesPublish: cycle 56 and cycle 0 of a hot unit, the closing place of a warm one, and AMX_SEL (R184, R187,
R193). -/
theorem witness_windows :
    (let s : State := { hotCu with frc := 120 }
    s.cycle = 56 ∧ (s.unit 0).closedFor s.tick = false ∧
      ok (exec (.hotWindowClose 0) s) (fun t => ((t.unit 0).rqt 31).closed.window == 1)) ∧
    (let s := (warmCu.setF (hrtUnitCfg_Plen 0) 8).setUnit 0 { HUnit.init with graphOn := true, bundle := 1 }
    0 * (8 + 1) + 1 + 7 = 8 + 0 * (8 + 1) ∧ s.getF (hrtUnitCfg_Plen 0) = 8 ∧ (s.unit 0).closedFor 0 = false ∧
      ok (exec (.warmWindowClose 0) s) (fun t => (t.unit 0).closedFor 0)) ∧
    hotCu.cycle = 0 ∧ ok (exec (.scalePublish 0) (hotCu.setUnit 0 { HUnit.init with rqts := [(31, { Rqt.init with
      next := some [1, 2, 3, 4] })] })) (fun t => decide (((t.unit 0).rqt 31).next = none) &&
        ((t.unit 0).entry 2 31).toNat % 2 ^ 64 == 0x0004000300020001 && (t.unit 0).entry 2 30 == 0) ∧
    (let c : Closed := ⟨9, [1, 7, 3, 2], 5⟩
    ok (exec (.amxSelWrite 0 31) (hotCu.setUnit 0 { HUnit.init with rqts := [(31, { Rqt.init with closed := c })] })) (fun t =>
      t.getF (hrtAmxSel_Entry 0) == 31 && t.getF (hrtAmxTensor_Absmax 0) == 7 && t.word (hrtAmxQ 0 2) == 3 &&
        t.getF (hrtAmxPeriod_Window 0) == 9 && t.word (hrtAmxFlags 0) == 5)) := by decide +kernel

/-! ### The slot fabric and the configuration network -/

/-- Grate 13 in the hot region with a token on its west input, and a slot table that sends it east or nowhere. -/
def grate13 (tab : SMap (BitVec 256)) : State :=
  let s := (run [(grCfg_Mode 13, 1)]).setGrate 13 { Grate.init with tab := tab }
  { s with hearth := { s.hearth with present := [(13, 0, tok 5)] } }

/-- TokensCrossGrates: a routed token, a stray one, a relay grate of the disabled course 24, and a halted Hearth (R116, R121,
R125). -/
theorem witness_crossing :
    (let s := grate13 [(0, 2)]
    s.running = true ∧ s.relay 13 = false ∧ s.grMode 13 ≠ 0 ∧ columnOf 13 ≠ 0 ∧
      slotMask (s.grate 13) 13 0 (s.grEntry 13 0) = 2 ∧ s.dest 13 1 = .mesh 14 0 ∧
      ok (exec (.tokenCrossing 13 [] []) s) (fun t => t.hearth.flights == [⟨2, .arrive 14 0 (tok 5)⟩]) ∧
      ok (exec (.tokenCrossing 13 [(0, ⟨[.uncorrectable], 3⟩)] []) s) (fun t => t.getF (grLinkUeF 13) == 1 &&
        t.hearth.flights == [⟨2, .arrive 14 0 { tok 6 with poison := true }⟩])) ∧
    slotMask ((grate13 []).grate 13) 13 0 0 = 0 ∧
    ok (exec (.tokenCrossing 13 [] []) (grate13 [])) (fun t => t.getF (grStrayF 13) == 1 && t.hearth.present.isEmpty) ∧
    (let s := run [(grCfg_Mode 12, 3)]
    let r : State := { s with hearth := { s.hearth with present := [(12, 2, tok 1)] } }
    r.relay 12 = true ∧ ok (exec (.tokenCrossing 12 [] []) r) (fun t => t.hearth.flights == [⟨2, .arrive 24 2 (tok 1)⟩])) ∧
    State.reset.running = false := by decide +kernel

/-- A steering grate at site 13 in a mode, with SELECT and its fire bit of entry 0, room on SO0 and heads on SD0, SD1 and SC. -/
def steer13 (mode : Nat) : State :=
  let s := (run [(grCfg_Mode 13, mode)]).setGrate 13 (grateOf [(1024, 1), (1025, 1)] [(11, { Queue.init with credits := 2 })])
  fill (fill (fill s 13 8 [tok 10]) 13 9 [tok 11]) 13 10 [tok 1]

/-- SteeringFires: SELECT with control bit 1 takes SD1, in a hot and in a warm grate; no fire bit (R126, R127). -/
theorem witness_steering : ((steer13 1).grate 13).steerOp = 1 ∧ ((steer13 1).grate 13).fires ((steer13 1).grEntry 13 0) = true ∧
    (steer13 2).steerReady 13 = true ∧ ((steer13 1).grate 12).fires 0 = false ∧
    ok (exec (.steerFireHot 13 .clean []) (steer13 1)) (fun t => t.hearth.flights == [⟨2, .enqueue 13 11 8 false (tok 11) false⟩]) ∧
    ok (exec (.steerFireWarm 13 []) (steer13 2)) (fun t => t.hearth.flights == [⟨2, .enqueue 13 11 8 false (tok 11) false⟩]) ∧
    ok (exec (.steerFireWarm 13 [(0, .uncorrectable)]) (steer13 2)) (fun t => t.hearth.flights.isEmpty && t.getF (grTblUeF 13) == 1) := by decide +kernel

/-- CreditsReturn: a sender below its INIT_CREDIT of 5, one at it, and none due (R133, R138). -/
theorem witness_credits :
    (let s0 := (run []).setGrate 13 { Grate.init with tab := [(2048, 5 * 2 ^ 20)], queues := [(0, { Queue.init with credits := 4 })] }
    let s : State := { s0 with hearth := { s0.hearth with credits := [(16 * 13, 0)] } }
    s.hearth.credits.any (creditDue 208 s.hcyc) = true ∧ (s.senderQ 208).1.hold = none ∧ (s.senderQ 208).1.credits < qwInit (s.senderQ 208).2 ∧
      ok (exec (.creditReturn 208) s) (fun t => (t.senderQ 208).1.credits == 5 && t.hearth.credits.isEmpty)) ∧
    (let s0 := (run []).setGrate 13 { Grate.init with tab := [(2048, 5 * 2 ^ 20)], queues := [(0, { Queue.init with credits := 5 })] }
    let s : State := { s0 with hearth := { s0.hearth with credits := [(16 * 13, 0)] } }
    ¬ (s.senderQ 208).1.credits < qwInit (s.senderQ 208).2 ∧
      ok (exec (.creditReturn 208) s) (fun t => (t.senderQ 208).1.credits == 5 && t.getF (grCreditOverF 13) == 1)) ∧
    State.reset.hearth.credits.any (creditDue 208 0) = false := by decide +kernel

/-- QueueSamplingAndCounters: a sample at its cycle, of a queue at 3 of 16, the bins of its record, and records with and without room (R141). -/
theorem witness_qsamp :
    (let s := st [(fabQsampCtrl_En, 1), (fabQsampCtrl_Cycle, 0), (fabQsampSel_En 254, 1)]
    s.flag fabQsampCtrl_En = true ∧ s.cycle = s.getF fabQsampCtrl_Cycle ∧
      (let u := fill ((s.setF (fabQsampSel_Site 254) 13).setF (fabQsampSel_Queue 254) 8) 13 8 [tok 1, tok 2, tok 3]
      u.qsampSel[0]? = some (13, 8) ∧ ok (exec .qsampSample u) (fun t => t.hearth.hist == [[0, 0, 0, 1] ++ List.replicate 12 0]) ∧
        (let v : State := { u with hearth := { u.hearth with histTicks := 2, hist := [65535 :: 5 :: 6 :: 65535 :: List.replicate 12 0] } }
        ok (exec .qsampSample v) (fun t => (t.hearth.hist.map fun h => h.take 4) == [[65535, 5, 6, 65535]]) ∧
          v.hearth.hist.length < 256 ∧ (v.qsampBytes.drop 32).take 6 = leBytes 2 65535 ++ leBytes 2 5 ++ leBytes 2 6))) ∧
    (let s0 := st [(fabQsampCtrl_En, 1), (fabQsampCtrl_Interval, 1), (fabQsampRing_Records, 2)]
    let s : State := { s0 with hearth := { s0.hearth with histTicks := 1 } }
    s.getF fabQsampCtrl_Interval ≤ s.hearth.histTicks ∧ s.hearth.histTicks ≠ 0 ∧ s.getF fabQsampRing_Records = 2 ∧
      ok (exec .qsampRecord (s.setF fabQsampRd_Index 1)) (fun t => t.getF fabQsampDropF == 1 && t.getF fabQsampWr_Index == 0)) := by decide +kernel

/-- A configuration token for the memory unit at column 2. -/
def ctok (op table index data : Nat) : BitVec 512 :=
  BitVec.ofNat 512 (data + 2 ^ 478 * index + 2 ^ 499 * table + 2 ^ 504 * 2 + 2 ^ 508 * op)

/-- ConfigurationTokensAct: one token of each OP, and an unlisted one (R217, R222, R223). -/
theorem witness_cfg : (CfgTok.ofBits (ctok 1 1 65535 7)).op = 1 ∧ (CfgTok.ofBits (ctok 1 1 65535 7)).column = 2 ∧
    (CfgTok.ofBits (ctok 1 1 65535 7)).target = 0 ∧ State.reset.courseOff 23 = false ∧ State.reset.cfgEpoch 0 = true ∧ State.reset.cfgSlot = true ∧
    (State.reset.grate 2).cfgOut < 16 ∧ cfgEntryOk (CfgTok.ofBits (ctok 3 1 65535 0)) 2 = true ∧
    ok (exec (.scanReq 0 (ctok 3 1 65535 0)) State.reset) (fun t => decide (t.scanFirst 0 = some (2, 0, 1, 65535)) &&
      ok (exec (.cfgEmpty 0 (ctok 0 0 0 0)) (t.setUnit 2 { HUnit.init with tab := [(2 ^ 17 + 65535, 7)] })) fun u =>
        u.hearth.scanReady.isEmpty && (mget (fun _ => 0) u.hearth.collected 0).toNat % 2 ^ 256 == 7) ∧ State.reset.scanFirst 0 = none ∧
    ok (exec (.shadowWrite 0 (ctok 1 1 65535 7)) State.reset) (fun t => (t.unit 2).shadow == [(2 ^ 17 + 65535, some 7)]) ∧
    ok (exec (.liveWrite 0 (ctok 2 1 65535 7)) State.reset) (fun t => (t.unit 2).cfgBuf == [(65535, 7)]) ∧
    ok (exec (.scanData 0 (ctok 4 1 65535 7)) State.reset) (fun t => (t.unit 2).entry 1 65535 == 7) ∧
    (let s0 := st [(grCfg_Mode 2, 2)]
    let s : State := { s0 with hearth := { s0.hearth with swap := some ⟨0, 16, 0, true, false, false⟩ } }
    s.grMode 2 = 2 ∧ ok (exec (.cfgMark 0 (ctok 5 0 0 0)) s) (fun t => (t.unit 2).netMark)) ∧
    ok (exec (.shadowClear 0 (ctok 6 0 0 0)) (State.reset.setUnit 2 { HUnit.init with shadow := [(1, some 1)] })) (fun t =>
      (t.unit 2).shadow.isEmpty) ∧
    6 < (CfgTok.ofBits (ctok 7 0 0 0)).op ∧
    ok (exec (.scanReq 0 (ctok 7 0 0 0)) State.reset) (fun t => t.getF (hrtIllegalF 2) == 1) := by decide +kernel


/-! ### Loads, swaps, halt and scans -/

/-- A descriptor of 64 bytes: values at byte offsets, and zeros (R299). -/
def descOf (fs : List (Nat × Nat)) : List Byte := leBytes 64 (fs.map fun f => f.2 * 2 ^ (8 * f.1)).sum

/-- A descriptor in flight from queue 0, not begun. -/
def flyOf (tag : Nat) (d : List Byte) : Fly := ⟨tag, 0, 0, d, 0, false, false, [], 0, none, false⟩

/-- A state with a descriptor in flight. -/
def flying (s : State) (f : Fly) : State := { s with stk := { s.stk with flights := s.stk.flights ++ [f] } }

/-- The entries that wait in completion queue 0: status and result. -/
def posted (t : State) : List (Nat × Nat) := (t.cq 0).held.map fun e => (e.status, e.result)

/-- A Hearth replaced. -/
def withHearth (s : State) (f : Hearth → Hearth) : State := { s with hearth := f s.hearth }

/-- An image of one course on course 0, with H hot courses and a grid of one row. -/
def imgOf (h : Nat) (row : List Nat) : ImgInfo :=
  ⟨0, 1, h, 0, 0, 0, 0, 0, 0, 0, 0, 0xFF, 1, 0, 0, false, 0, [row], [], [], [], [], [], [], none, [], []⟩

/-- The smallest image: V 1, H 0, a GRID of unused sites and no TABLES record; 256 bytes (R197, R198). -/
def tinyBody : List Byte :=
  leBytes 256 (0x52594C44 + 2 ^ 32 + 2 * 2 ^ 48 + 256 * 2 ^ 64 + 2 ^ 128 + 2 ^ (8 * 27) + 2 ^ (8 * 33)
    + 2 ^ 1024 * (1 + 2 ^ 32 + 192 * 2 ^ 64 + 4 * 2 ^ 128) + 2 ^ 1280 * (5 + 256 * 2 ^ 64))

/-- Its signature block: a header with a vendor key of one level (LMS_SHA256_M32_H5, LMOTS_SHA256_N32_W2), and the key's signature
of the SHA-256 of the image (R411). Another program made the key and the signature. -/
def tinyBlock : List Byte :=
  beBytes 1024 0x4849534b00000000701100000000000000000001000000050000000274696e7920696d616765206b657920496baaaa89c59e9aa3ebddbcbe9fa9a72910b33f4ba003092cd07609044f95a9fa000000000000000000000000000000000000000000000000000000000000000000000000000000000000000000000000000000000000000000000003000000022ccda990cebf00bc14e925690b6ba4b17a360bed82350a6843e2304ca3e7e65fd1aceb00062d580af3b767f3710de496150aa2c3268a3ddbfc5c44393f2ac5939ae5e42c5c379377d94ec7e56692b823374b758383f07a8ddd1273644a1aa448d43d42f7658c490413b9030361b972dc609122cff5c071ed9d7371bc6eca221f0929b55bddd6118fd97379dd1e8896e1c341aa3ca3859dc0d2d99bd3449ca41c304738c412dea0c1a0a331501ebd0b17b3c044349bbbd0140f8b04af88c476bb4398f1ae5f91a144cce94fcfd07fdad3833e304505220066cf0a164fe5d2753e2f10d13b82b84db739060a7edefa398360c5156ee154b989302e7617463226d8ca63ec8d5fef8efcbd0e67da28b3ba08ab217b343d1cf8126b843012643ffd4d534ceed75c4c5757edb836b9ce72a2082150de0303b8986cfb47a2d29a6a1ba0f3fbd234e576ccca835caaa2b17dda2badb4af52e55a107f70b516e24acfe4e411da85893c130e2db2257015700eab17ccc85308877c23c3d490cfe3eec1dc32869db0e7f83b1bd8fedaaa12e6551efc7a6bc528e7c382ee54388c69b2fa086e3b027e985a47c0337d1c08a2e0290e0f53dfe85a655f7892ea5da690ededa99ce8a0551a750bc728044d00873fbcc73a332e037aa62506a2c05869a2d9d719d30de86e5112a0a21e04fe82a29d1c3444fe2a9dc1d07918907de1ee3d8011e667a8ae4b65bf09032e09b6dd95364c8523a5d045aa4348d2b4d489564ac9494a50b1a0279aaeb7104d181070ef66b6885673e442b08a4c701079a3da79afc7c50e10efb18a6ac4b67df27611f94056103f85927dda7171494455141eb542ec0801a19d57747d7873931b42d001ea996bf8288af60f249d0f97ac916ae4ac8d5628caaae9a0f50615676e30923bddd67e0af48f038d4d4c834a86ddc6b6f145a0ec84780ebe28a61df3f10a4e59530516a1e29fdfc89cc067b40d283e60827225301922c3b44abd4f963f7af3b79a30c8e59b74aa951447bb03656967a6964ea5966c94c049c42b2a4f88984cf7048b0a68c83253b647f82aba8c3f48985b53ca3ae99c2c46b960a87259192edd45cd59a287897dfbb76e933f9dc9110d0927c5aff7ef549484ae211842cd448a8802ffffa4037d2b0aa8c6ce5061856da917417f2b4b64b8c64915d5ab7461a38e7da2ad8fac3988e0e0915afe0b1e497dea004a4e5861a1962f3812d7a08dbac7eb28a86246c48d
  ++ beBytes 1024 0xa0ddaf7688561de1ed478780731f596f3d0a9768cd56be96dae78fece46df2d4f05ad637377776a63667b2d1e312b5e59321c9aeca29fcf2bac24d181f11dd7bc73f2a75a1f5accff9e32f55287ff0b79b1d0dc1578fb2eab40b53d0a130f7901ce3826d1669e75eeb484086f66499d5cf2b31f7d4d6a14862cdce9606c57c170ffbb5d32076e956c0e5eed35d90b14f8ea7b8cf78bc1bd7c34e9b3594d5377490ad35967763657b44c2b2ed3e9b252ae4a53e1ab50cffb8ccc47d8abfd752519b6604faa3e828c9afadac8c20ec957b85f240f03149639dda23577bfb4c2a1b6f79718ac9eb96662ade0b6f4157ba5a7fca8f347fefed6c4f08ee6d0fdfcb9cb2a3013b7debd2c0d143ce827128c12c6f949178a7728b342e266c62e05bb1461f47cc9e3294ea0683c43239ffdb21a433dfb6a188a29854963647761aa0f4a9fdb6c4a13064eb232cf7446f53e931fc0bbc33ed937bea90db9760d37238a44123a39973b8d42c491ba0d41dbbbefacf68e6a086f5a766d08666956a93fe5b5d124dfdf1177d87968d3cbe462dea2ccf08c2cb36a3872b4a42969b3fc25df177e5227f6f2d4ebf92d3b34875959dfd8b79e778738ad4d93c3e33db5673b1b12d95391aa3761eb683e637eb735840642a854747a624395a32f28d94b5b1a6f0b54c94fabbeec49f6dcd9093d2bc4d65659b8a3d9fd06e6527f3ae5d678296574f9ee33bf3a4119231caa4c3f3740670ec368558fb237acd21bd86bda4c74b2268028932f714bacbb8ac7636edcefc7b59a350f1a04977855f9004d40ffacd86db0422f55fbb1fb5811ce0b7e2ffdad06758207c3aa8dbe0f7aa4f2bf859f56d1465b2ac34c5e9a59d16f573a9811c34cf0976597c8d557dfda61703567067641c08599d51f127903c9a83b228ef1a2adf74215048c6aa937e054da9119abb380f747524049e8bbd504cb26075cdaee8f3ef303484be91ba9547b3eb603eb6a5efb1702c5d9e05c1bc84c99b2d7a99d327efb5d1055d64634d6d74f669e6f5f9296af08ddd492557fb0ad1fa1a8ad38a6266a44fd5f9fdcddaac050ba5143ce2d87bb424ca3733a84faca6651e3cb54600648ad18aa533028924bc665e8c3eb0fa12b8383c9d5c201ef13382fa8cf08b12d02d5fa4ea9a1a087fd91830466671990554d6ad75f07d97cc65314fdb2a4ff1a920d489380154b64ac48b9576ac0f1741469be4ac8cfe46b78a5b6855b9974e38d82513753d0daf6ecd8ea9078ee2ec4210ec9924b0be1ef332b4c7da6166385bc5da841a6a93628e314f3797ea1cc71d567b1cd874076a821ab47d330856810f856c953be865d2eab5cb3c920ce36528203dd7532884bc86c07b268ea7b413650e048994dd17e7ea1a375d6a1b63cc3ff963f0a207c2bba2308355d10ad0aa47c65845b70a2f81feadcf4061d7880a
  ++ beBytes 1024 0xb12d306f64a9218f4df63ad7e75b28ded8314398937551bfb24ed209a79ef0721924b1d10aabe7ccedfe8a65238698f3302a93489f4cafc331a709cddf7558e01beccf570bc30f12020553379f2f539c89aa092a580f7950bc8799152e24556557e378a24c282ec0c95115e58bbcb049d79a860793d7f94318fa9f4e4deca90b3c542d12a18581359ac69ec6ece0fa8796a4e996f18dfa3b7154bc061290bfa735b26c7b4e009d6ab5c0b8fac0d2774fed45e9b9e08d5d8b7cfc464c732e136eb69f4fe6ee9f417091397af75ee88532b5b8a71c7b1b9e3aff61a6f013f024bf2e36f8377055e6cb3a87da7faff14398648aef27031d0d992441ae79827d454b27d3dab29d0a677c646c13ebdd8b28cdc632723c9a33393fa2630a4af469ff40f67a791a56694f2c1f292dacc8100cc7e5c80777d0d1844a8f56d28784d4686b671ad8e631d042ccd220d50b0d301cf844eb4a4c52f590a4b2c6951b4080b12353fd7c2fd9c291a6acc663f0ac2040b94d5bb93fd75f01fa7a9f48833f08a710cb0b23391fdcc7960afbb1fb87b5f2b1d446553450450bcaad235ee2429afd6425d6d6a62770040109de067c8ecc96a46e777cb56e9528b5034f7f8c7229bf8ffc763408ca1919636acdfff3ea6f5115ec0b8899d1560fc8ff5fde0c9f2dce183bc9c2ce6ee33adeded617b8168373f717c52a64326223a7d248f816170a3aaf35da32b3eeee7225fc1f3fa843af8d081eb1dc611aec008ae86f559a819c24a1fbec9089cadecc261333fcffb8504809ef3b14231adf3cf2b1455f60799c5addbed302bc026bbc28f345245753af74f88e892eb5661ed4f9555309d7f0990a59b733adb3a48e2bad2932e0d8acca62c46d3a5235a3a0bf620d48947ca62e1c8a8a9f0ed662ce004d6d04c39e9c56ba5b6e6d3aa6bda81f713ee0b70597c16941c9477a5756be1fcf15b87f935f007f48aa92eaaf0ece55c9b97c188fca8bf3ce5ecdf38150dce57859e38cbc2eab5bce97547ed0082b38b57c75b0417f167dbd8001cbbf3f04b8f186c785673655bd65a1e6b51057dbb1520e6474d28e6cd99ae320b7443e14fb847846f0435e3faa8181290256825d11be8935fab1d344f429bd0bc762e1aa4942460873a435d5b821c0ae305072c6f70a15fc73e0957a04b12b9958dc5db611b9ec6a5d1e4331153527c41bfe55c533b757c431942c8925492b2e53e2b3490036c595e067de4adda9d6e2d411a36589dd8dfe66eeb4065c16b92e6004427f4847169b9346e10fb97fa253501ced53afd7b2e7b15ed5563da4dd5865de63af5fbf6838423f734f56792479b85de7d03ccdee48462cfb6680afbe9f75b127ea3745d85fbe8d09ab4b37c6bf29e2ef6969ed2c63419d76645e38dfde4b740cd75a98a1992f5b56ddc5a7f5af3f50a339c25dc0794959b663dda6
  ++ beBytes 1024 0x2f76bafb1637e2484869ea4a90e7ef7cb24f2bd7760e4546b5fdfd2160c113380159a932874f8780df040f992e030918802bf40de734616a280be7b0188dbddcb27ebbb0f7ae3a99d21cd214d502dfd05db344bbf880ac55df697d2d3a144322cbc5d099a254dc70e098d2a388247eb23e17d7e8934b257d5f0b26b60be1d8635a471b473cda6a2a96c6ed2ec34dbb10e070f2545d76c4c51f8ac56ff1937ce146acad9a91559f6dcbfd4bbc4ad49efb7eeb8f0ed2e3d5c70d240dfc02829a21b81c81fe7705b90eae0837c06bf95674ba8be39c6b519f7acce3bb61fdf3a4113e9897200814f13afd634aaf27a976bcc0e1f395c31c567ae2bb244260e110a15543455372c187af1c78fa628116ebec897c3e4f2a911ea9986025aba972f8bfdaaabfda7f017f180c6086a8538ebcba140c394829bac55257caa88c405a7db49e62eca940fc8ada2f05cc9aa8360930cf6519ebd0f7ba095ef899099248af8260bbf99b3a6ede94f392650b3840df83ed18c794def80bf306e66bed290ee315644c4c27129539c88d26aab491b041703c167571710a0d827201953c73b81bdf247fa864bd98f41280d225da5d53034ddbd5b42e0d22666ff14ef89fe348d9c10d6abc0170dec22297cda309eb30ed46f0b2a5ec9c2f6ba30502437023b2e60559199cff6beceacf7e560ff5654fd5a1d6d2424ee8b3ff191e1e8f1b5240208557019505befee59e9309dd6789d15542d65a5f0e45df511bde7fd6fc11e21aadb95093d6096abf40f40e88d70e371f5b4bd7b0675ba297851042201171d8adf6785d6395cec52b18e336f2aa3f0e30b2cbaafd4a158572a792cb5bb90a3be1c8eb0c6e6c8d25aabf65b8ea55238f0147a8e7dc1f49431a4e81f786097332ee8fa55ebc5b9c0f6607fa40b388acdf56854b8eb509a104dc720834c2d89c4cfb4db95444a6a13d4ffb8634eb6b811a92672b1e025389c5b19117930de9980836f5b040142d1b665d7a52cba5bb6d6c7ce5eda4be969dbfcebf773a99c745c0bafc918b2c359b2da8a7f7dde9cf8432562bfb286442b9d0a7fafb91cdbcc8aea97e7cb2ca972c76ef29d611f5d9871c7a501d946d541e919f5220bd0ac6706c64fd5234bbe9366a18bea5efbaf39853da81961e2fb0a471c9754f56267b03c376168f78a636444ebf494a81678848e1cd23c1125693cddf9a31ccaa2b058e1ed57de9a39ad78b1362cdbf083f2f5a453611ff6d3f4f304b022946d8f59fa4d63b761e68881251f3e2a6465a6112948524382a8673ebdf5dd0af211e15f89019e628ca66e653aef6aa1e4468e08b28607cc562afeb54f6e7e7bee726fa0bade991764e6bbd3777d777f6e14c9cc46aea02d6c7d94101c781b3b86b5fda1431063693565b33a0da7e46159a1ace30e50790fab19c9634e78fd3944d812a637d448935
  ++ beBytes 496 0x9d2f149ca68abb433f55446fe0f6c63633e2adb3492c377cdca62a083140198acd0712e079b653f3b8dee8964216fcce7bd59b92929cf4580351b688a4e922e023e187026920493ef69c5e443013f5ecc65e9df609466892b4a8692b72ca6936c75337f3174763ecc0bbc6720bfab0616fc035718514ca0dcc5cbaf01819151c837f40c2d81fe70077bfc031cc3e505e6d5b3d34b991d94b22386d0cd0cc2875148165d1d92ca843d4365054ee49aece3a836e6058de7e5c51eb7824438a6ad270106eb450ce1c985b4eb3dfeac4ce36336a79e82abc87bb229679eab1277d347fe68aabcad71f52d950bf84f200986dc1e0e05d28a49cb808e537a97b697ae353991b18ce5cf0e1a1e9362eaf6e97d167a4d3026714b15af9f0bf0b8c7fafda68f3439c1a2a9fb93af062f5973d2a6783c6f45bf6d60f7572623ea86f81a100a8ef0980c0797550de62a746000000052062aa8b0b8284622458fa80d6d4e96774ff6c499d06972167d70c76dea705c1b8b857327e70b3f90d836de68940f8857673a5eaf8b42285cfb6073c771b76029760fd8dc82d7ae23ba3d7557bb14daae4ad7db57847700c2186618a886952f1ae211f632efb1b0110185c800f485a659a4e7c41a13ef96e4597a93676204d2a03e9ef1547871f8fd45dbb604356cf57811f87564b5a3f64075484b4e69b9075

/-- The image as the loader reads it. -/
def tinyImage : List Byte := tinyBody ++ tinyBlock

/-- What `tinyImage` reads as. -/
def tiny : Image :=
  { info := { imgOf 0 (List.replicate 12 0) with digest := sha256N tinyBody }
    seat := 0, seats := 1, lat := [], routes := [], recs := [], edges := [], hbm := [], sects := [(1, 0), (5, 1)] }

/-- The LOAD_IMAGE descriptor of `tinyImage` at address 0 of host memory, with a placement record of zeros at 0x2000. -/
def tinyLoad (mode : Nat) : List Byte :=
  descOf [(0, 1), (8, 2 ^ 63), (16, 4848), (24, 2 ^ 63 + 0x2000), (32, mode)]

/-- Bytes laid out from an address, with the zeros left out. -/
def laid : List Byte → Nat → SMap Byte
  | [], _ => []
  | b :: bs, n => if b = 0 then laid bs (n + 1) else (n, b) :: laid bs (n + 1)

/-- The device with the image in host memory, with an image of a FOOTPRINT section loaded, and with the key in its OTP. -/
def tinyState : State :=
  { State.reset with
    hostMem := laid tinyImage 0
    pcie := { Pcie.reset with up := true }
    sec := { Sec.reset with vendorHash := sha256N (sbKey tinyBlock) }
    hearth := { Hearth.reset with img := some { tiny.info with footprint := some [] } } }.setF glbPcieStatus_Bm 1

/-- The format rules pass (R197, R198). -/
theorem tiny_parse : (match parseImage tinyImage false 0 with | .ok i => decide (i = tiny) | .error _ => false) = true := by
  decide +kernel

/-- The signature verifies (R411). -/
theorem tiny_signed : tinyState.sec.imageSigned tinyImage = true := by decide +kernel

/-- Every check of R211 after the format passes, for a FULL and for a STAGE load. -/
theorem tiny_passes (full : Bool) : tinyState.imageFail tiny (List.replicate 80 0) full = none := by
  have g (v c : Nat) : tiny.grateOf v c = Grate.init := rfl
  have u (v c : Nat) : tiny.unitOf v c = HUnit.init := rfl
  have w (t v c k : Nat) : tiny.written t v c k = [] := rfl
  have b (v c : Nat) : tiny.bundles v c = [] := rfl
  have z (k e : Nat) : Grate.init.slotWord k e = 0 := by simp [Grate.slotWord, Grate.init, bitsAt]
  have hg : tinyState.gridBad tiny (tinyState.vmap 0 1) = false := by
    simp only [State.gridBad, Bool.or_eq_false_iff, g, z]
    exact ⟨⟨by decide +kernel, by decide +kernel⟩, by simp⟩
  have hb : tiny.bundleBad = false := by simp [Image.bundleBad, u, w, b, patBad]
  have sh (v c : Nat) : tiny.shifted (tiny.moves (tinyState.vmap 0 1)) v c = Grate.init := rfl
  have hc (ks : List Nat) : collides Grate.init ks tiny.nent = false := by
    simp [collides, z]
  simp only [State.imageFail, show tiny.info.base = 0 from rfl, show tiny.info.v = 1 from rfl, hg, hb, sh, List.any_map,
    Function.comp_def, hc]
  cases full <;> decide +kernel

/-- What stands below the first address is not read. -/
theorem laid_below (bs : List Byte) (n k : Nat) (h : k < n) : mget (fun _ => 0) (laid bs n) k = 0 := by
  induction bs generalizing n with
  | nil => rfl
  | cons b bs ih =>
    unfold laid
    split
    · exact ih (n + 1) (by omega)
    · simp only [mget, if_neg (show n ≠ k by omega)]
      exact ih (n + 1) (by omega)

/-- A byte of what is laid out. -/
theorem laid_get (bs : List Byte) (n k : Nat) : mget (fun _ => 0) (laid bs n) (n + k) = bs.getD k 0 := by
  induction bs generalizing n k with
  | nil => simp [laid]
  | cons b bs ih =>
    unfold laid
    cases k with
    | zero =>
      split
      · rename_i z
        rw [laid_below _ _ _ (by omega), z]
        rfl
      · simp [mget]
    | succ k =>
      have := ih (n + 1) k
      rw [show n + 1 + k = n + (k + 1) by omega] at this
      split
      · simpa using this
      · simp only [mget, if_neg (show n ≠ n + (k + 1) by omega)]
        simpa using this

/-- A range of what is laid out reads as its bytes. -/
theorem laid_range (bs : List Byte) (n k m : Nat) :
    mgetRange (fun _ => 0) (laid bs n) (n + k) m = (List.range' k m).map fun j => bs.getD j 0 := by
  induction m generalizing k with
  | zero => rfl
  | succ m ih =>
    simp only [mgetRange, laid_get, List.range'_succ, List.map_cons]
    rw [show n + k + 1 = n + (k + 1) by omega, ih]

/-- A whole list, byte by byte. -/
theorem getD_all (bs : List Byte) : (List.range' 0 bs.length).map (fun j => bs.getD j 0) = bs := by
  apply List.ext_getElem
  · simp
  · intro i h1 h2
    simp [h2]

/-- A load out of host memory reads both objects from there while the bus is on. -/
theorem load_host {s : State} {d : List Byte} {a p n : Nat} (o : s.busOff = false) (ha : dfield d 8 8 = a) (hp : dfield d 24 8 = p)
    (hn : dfield d 16 8 = n) (ia : isHostAddr a = true) (ip : isHostAddr p = true) :
    s.loadBytes d = (s, s.hostBytes (a % 2 ^ 63) n, s.hostBytes (p % 2 ^ 63) 80, false, false) := by
  simp [State.loadBytes, State.awRead, ha, hp, hn, ia, ip, o]

/-- The loader reads the image and its placement record. -/
theorem tiny_read : tinyState.loadBytes (tinyLoad 1) = (tinyState, tinyImage, List.replicate 80 0, false, false) := by
  have m : tinyState.hostMem = laid tinyImage 0 := by rw [tinyState, hostMem_setF]
  have l : tinyImage.length = 4848 := by decide +kernel
  have a : tinyState.hostBytes (2 ^ 63 % 2 ^ 63) 4848 = tinyImage := by
    have := laid_range tinyImage 0 0 tinyImage.length
    rw [getD_all, l] at this
    rw [State.hostBytes, m, Nat.mod_self]
    exact this
  have p : tinyState.hostBytes ((2 ^ 63 + 0x2000) % 2 ^ 63) 80 = List.replicate 80 0 := by
    have := laid_range tinyImage 0 0x2000 80
    have e : (List.range' 0x2000 80).map (fun j => tinyImage.getD j 0) = List.replicate 80 0 :=
      List.eq_replicate_iff.2 ⟨by simp, fun b h => by
        obtain ⟨j, hj, rfl⟩ := List.mem_map.1 h
        have := (List.mem_range'_1.1 hj).1
        simp [List.getD, List.getElem?_eq_none (show tinyImage.length ≤ j by omega)]⟩
    rw [e] at this
    rw [State.hostBytes, m, show (2 ^ 63 + 0x2000) % 2 ^ 63 = 0 + 0x2000 from by decide +kernel]
    exact this
  rw [load_host (s := tinyState) (by decide +kernel) (show dfield (tinyLoad 1) 8 8 = 2 ^ 63 from by decide +kernel)
    (show dfield (tinyLoad 1) 24 8 = 2 ^ 63 + 0x2000 from by decide +kernel)
    (show dfield (tinyLoad 1) 16 8 = 4848 from by decide +kernel) (by decide +kernel) (by decide +kernel), a, p]

/-- A buffer that is an image, is signed and passes every check is accepted. -/
theorem check_ok {s : State} {buf place : List Byte} {full : Bool} {i : Image} (o : s.sec.openImage buf = some (buf, false))
    (h : s.sec.imageSigned buf = true) (p : parseImage buf false (dfield place 0 1) = .ok i)
    (f : s.imageFail i place full = none) : s.checkImage buf place full = .ok i := by
  simp [State.checkImage, o, h, p, f]

/-- LoadsBeginAndPass, second clause: the first pass of both modes ends with no failed check (R207 to R211). -/
theorem witness_load_pass (full : Bool) :
    (tinyState.loadBytes (tinyLoad 1)).2.2.2.2 = false ∧ (tinyState.loadBytes (tinyLoad 1)).2.2.2.1 = false ∧
    (tinyState.loadBytes (tinyLoad 1)).1.checkImage (tinyState.loadBytes (tinyLoad 1)).2.1
      (tinyState.loadBytes (tinyLoad 1)).2.2.1 full = .ok tiny := by
  rw [tiny_read]
  refine ⟨rfl, rfl, ?_⟩
  have p : parseImage tinyImage false 0 = .ok tiny := by
    have q := tiny_parse
    split at q
    · rename_i i e
      rw [e, of_decide_eq_true q]
    · cases q
  have o : tinyState.sec.openImage tinyImage = some (tinyImage, false) := by
    unfold Sec.openImage
    rw [if_pos (by decide +kernel)]
  have d : dfield (List.replicate 80 (0 : Byte)) 0 1 = 0 := by decide +kernel
  exact check_ok o tiny_signed (d.symm ▸ p) (tiny_passes full)

/-- FRC at a value. -/
def atFrc (s : State) (n : Nat) : State := { s with frc := BitVec.ofNat 64 n }

/-- A descriptor of an opcode is in flight with a tag, neither begun nor ended nor abandoned nor QUIET: what Waits says. -/
def waits (s : State) (tag op : Nat) : Bool :=
  match s.fly tag with
  | some f => dOp f.bytes == op && !f.begun && !f.ended && !f.orphan && !dQuiet f.bytes
  | none => false

/-- A descriptor is in flight with a tag, neither ended nor abandoned nor QUIET: what Runs says. -/
def runs (s : State) (tag : Nat) : Bool :=
  match s.fly tag with
  | some f => !f.ended && !f.orphan && !dQuiet f.bytes
  | none => false

/-- LoadsBeginAndPass, first and third clause: both modes begin, and a scan that has landed ends (R207, R208, R209). -/
theorem witness_load_begin :
    (let s := flying State.reset (flyOf 3 (tinyLoad 0))
    waits s 3 1 = true ∧ s.hearth.load = none ∧ dfield (tinyLoad 0) 32 1 = 0 ∧
      ok (exec (.loadImageFull 3) s) (fun t => decide (t.hearth.load = some ⟨3, true, 1, tinyLoad 0, [], none⟩)) ∧
      same (.loadImageStage 3) s) ∧
    (let s := flying State.reset (flyOf 3 (tinyLoad 1))
    waits s 3 1 = true ∧ dfield (tinyLoad 1) 32 1 = 1 ∧
      ok (exec (.loadImageStage 3) s) (fun t => decide (t.hearth.load = some ⟨3, false, 1, tinyLoad 1, [], none⟩))) ∧
    (let s := flying State.reset { flyOf 3 (descOf [(0, 0x0A)]) with begun := true, outcome := some (0, 7) }
    runs s 3 = true ∧ s.hearth.load = none ∧ s.scanLanding = some (3, 0, 7) ∧
      ok (exec .loaderPassEnd s) (fun t => posted t == [(0x100, 7)])) := by decide +kernel

/-- A running Hearth with one image in force and another staged: course 0 hot or warm. -/
def twoImages (h : Nat) (row : List Nat) : State :=
  withHearth (run []) fun x => { x with img := some (imgOf h row), staged := some (imgOf h row) }

/-- SwapStartsAndSwitchesHot, starts: K just far enough, K too near, nothing staged, and the Hearth halted (R213). -/
theorem witness_swap_start :
    (let s := atFrc (flying (twoImages 1 []) (flyOf 5 (descOf [(0, 2), (8, 18)]))) 128
    waits s 5 2 = true ∧ s.tick + 16 = 18 ∧ s.hearth.staged ≠ none ∧ s.running = true ∧
      ok (exec (.swapEpoch 5) s) (fun t => t.getF glbImgState_SwapPending == 1 && (t.hearth.swap.map Swap.k) == some 18)) ∧
    (let s := atFrc (flying (twoImages 1 []) (flyOf 5 (descOf [(0, 2), (8, 17)]))) 128
    waits s 5 2 = true ∧ 17 < s.tick + 16 ∧
      ok (exec (.swapEpoch 5) s) (fun t => posted t == [(0x11B, 17)] && t.hearth.swap.isNone)) ∧
    (let s := flying (run []) (flyOf 5 (descOf [(0, 2), (8, 17)]))
    waits s 5 2 = true ∧ s.hearth.staged = none ∧ ok (exec (.swapEpoch 5) s) (fun t => posted t == [(0x11B, 17)])) ∧
    (let s := (flying (twoImages 1 []) (flyOf 5 (descOf [(0, 2), (8, 17)]))).setF glbImgState_Running 0
    waits s 5 2 = true ∧ s.tick + 16 ≤ 17 ∧ s.hearth.staged ≠ none ∧ s.running = false ∧
      ok (exec (.swapEpoch 5) s) (fun t => posted t == [(0x11D, 17)] && t.hearth.swap.isNone)) := by
  decide +kernel

/-- A swap in progress at tick 18, in the hot or the warm part. -/
def swapping (s : State) (marks hot : Bool) : State :=
  withHearth s fun x => { x with swap := some ⟨5, 18, 0, marks, hot, false⟩ }

/-- SwapStartsAndSwitchesHot, the switch at cycle 0 of tick K, and MARKs of a swap with no RUN (R214, R217). -/
theorem witness_hot_switch :
    (let s := atFrc (swapping (twoImages 1 []) true false) (64 * 18)
    s.switchDue ≠ none ∧ ok (exec .hotEpochSwitch s) (fun t => t.getF glbImgState_Epoch == 1 && t.hearth.staged.isNone
      && mget (fun _ => 0) t.hearth.t0s 1 == 18)) ∧
    (let w := swapping (twoImages 0 []) false false
    let s := w.setEdge (edgeWest 0) { w.edge (edgeWest 0) with txWord := 2 ^ 31 }
    s.hearth.swap = some ⟨5, 18, 0, false, false, false⟩ ∧ s.swapImage ⟨5, 18, 0, false, false, false⟩ ≠ none ∧
      s.stk.runs.all (fun r => r.sentAll (r.graph.chunk / 32)) = true ∧ edgeWest 0 ∈ (imgOf 0 []).markKeys (s.vmap 0 1) ∧
      qwCredited (s.edge (edgeWest 0)).txWord = true ∧
      ok (exec .stokerMarkEnqueue s) (fun t => (t.edge (edgeWest 0)).tx.toks.map (fun k => (k.mark, k.epoch)) == [(true, 1)])) := by
  decide +kernel

/-- WarmRegionSwitches, units and grates: a unit that the configuration network marked, with one output queue in use, and a grate
of no routes (R218). -/
theorem witness_warm_switch :
    (let row := [0, 2]
    let w := ((swapping (twoImages 0 row) true false).setF (grCfg_Mode 1) 2).setF glbPlaceMap_Map 1
    let s := (w.setUnit 1 { HUnit.init with netMark := true }).setGrate 1 (grateOf [(2048, 2 ^ (32 * 4 + 31))] [])
    s.swapImage ⟨5, 18, 0, true, false, false⟩ ≠ none ∧ s.warmReady 1 1 ((imgOf 0 row).mode (s.vcourse 0) 1) = true ∧
      s.usedOq 1 = [4] ∧
      ok (exec (.warmUnitSwitch 1) s) (fun t => t.getF (hrtUnitCfg_Epoch 1) == 1 && t.getF (hrtUnitCfg_Mode 1) == 2 &&
        ((t.grate 1).queue 4).toks.map (fun k => (k.mark, k.epoch)) == [(true, 1)])) ∧
    (let w := (swapping (twoImages 0 []) true false).setF (grCfg_Mode 1) 2
    let s := w.setGrate 1 { grateOf [] [] with shadow := [(0, 2)] }
    s.running = true ∧ s.relay 1 = false ∧ s.grMode 1 = 2 ∧ s.getF (grCfg_Epoch 1) ≠ 1 ∧
      (s.grRoutes 1).all (s.grate 1).marked.contains = true ∧
      ok (exec (.warmGrateSwitch 1) s) (fun t => t.getF (grCfg_Epoch 1) == 1 && decide ((t.grate 1).tab = [(0, 2)]))) := by
  decide +kernel

/-- WarmRegionSwitches, credits and ends: the kinds of sender, one that does not wait, no swap, a swap past its timeout, and a finished one
(R219, R220, R221). -/
theorem witness_swap_end :
    (let s := State.reset.setGrate 0 (grateOf [(2048, 3 * 2 ^ 20)] [(0, { Queue.init with credits := 2, hold := some 2 })])
    ((s.grate 0).queue (inputQueue 0)).hold = some 2 ∧
      ok (exec (.creditEpochStart 0) s) (fun t => decide (((t.grate 0).queue 0) = { Queue.init with credits := 3 }))) ∧
    (let s := State.reset.setEdge 127 { EdgePort.init with txShadow := 9 * 2 ^ 20, tx := { Queue.init with credits := 2, hold := some 2 } }
    (s.edge (4927 - 4800)).tx.hold = some 2 ∧
      ok (exec (.creditEpochStart 4927) s) (fun t => (t.edge 127).tx.credits == 9 && (t.edge 127).tx.hold.isNone)) ∧
    (let a := { Queue.init with credits := 2, hold := some 2 }
    let b := { Queue.init with credits := 4, hold := some 3 }
    let s := State.reset.setEdge (edgeCross 23) { EdgePort.init with txShadow := 9 * 2 ^ 20, rxShadow := 5 * 2 ^ 20, tx := a, rx := b }
    (s.edge (edgeCross 23)).tx.hold = some 2 ∧ (s.edge (edgeCross 23)).rx.hold = some 3 ∧
      ok (exec (.creditEpochStart 4983) s) (fun t => (t.edge (edgeCross 23)).tx.credits == 9 && (t.edge (edgeCross 23)).rx.credits == 4) ∧
      ok (exec (.creditEpochStart (senderEdge (edgeCross 23))) s) (fun t => (t.edge (edgeCross 23)).rx.credits == 5)) ∧
    (((State.reset.grate 0).queue (inputQueue 0)).hold = none ∧ same (.creditEpochStart 0) State.reset ∧
      State.reset.hearth.swap = none ∧ same (.warmUnitSwitch 0) State.reset) ∧
    (let s := (flying (swapping (twoImages 0 [0, 2]) true false) (flyOf 5 (descOf [(0, 2)]))).setF glbSwapCtrl_Timeout 0
    runs s 5 = true ∧ s.warmDone (imgOf 0 [0, 2]) 1 = false ∧ 0 + s.getF glbSwapCtrl_Timeout ≤ s.tick ∧ s.flt.released = true ∧
      ok (exec .swapTimeout s) (fun t => posted t == [(0x11C, 18)] && t.hearth.swap.isNone && (t.flt.pend.map Assertion.src) == [19])) ∧
    (let s := flying (swapping (twoImages 0 [0, 2]) true true) (flyOf 5 (descOf [(0, 2)]))
    runs s 5 = true ∧ s.warmDone (imgOf 0 [0, 2]) (s.getF glbImgState_Epoch) = true ∧
      ok (exec .swapEpochComplete s) (fun t => posted t == [(0x100, 18)] && t.hearth.swap.isNone)) := by decide +kernel

/-- HaltAndRelease, commands: HALT of a running Hearth, HALT that cancels the release of a FULL load, RUN at the least tick allowed
and one below (R226, R227). -/
theorem witness_halt_run :
    ((run []).running = true ∧ ok (exec .haltWrite (run [])) (fun t => t.hearth.haltAt == some 1)) ∧
    (let s := withHearth (flying State.reset (flyOf 5 (descOf [(0, 1)]))) fun x => { x with runAt := some 9, runTag := some 5 }
    s.running = false ∧ runs s 5 = true ∧ ok (exec .haltWrite s) (fun t => posted t == [(0x100, 0)] && t.hearth.runAt.isNone)) ∧
    (let s := withHearth (st [(glbRunTick_Tick, 2)]) fun x => { x with img := some (imgOf 0 []) }
    s.hearth.img ≠ none ∧ s.running = false ∧ s.tick + 2 ≤ s.getF glbRunTick_Tick ∧ s.noRelease = false ∧
      ok (exec .runWrite s) (fun t => t.hearth.runAt == some 2 && t.flag glbImgState_ReleasePending) ∧
      same .runWrite (s.setF glbRunTick_Tick 1) ∧ same .runWrite (withHearth s fun x => { x with img := none })) ∧
    same .runWrite (run []) := by decide +kernel

/-- HaltAndRelease, effects: an armed halt at its tick, and an armed release with the T0 of epoch 0 moved by the halt's length,
and the release of a FULL load (R226, R227). -/
theorem witness_halt_release :
    (let s := withHearth (run []) fun x => { x with haltAt := some 0 }
    s.cycle = 0 ∧ s.tick = 0 ∧ s.running = true ∧ s.hearth.swap = none ∧ s.safe = false ∧ s.hearth.load = none ∧
      ok (exec .hearthHalt s) (fun t => !t.running && t.flag glbImgState_Halted)) ∧
    (let s := atFrc (withHearth (st [(glbHaltTick_Tick, 3)]) fun x => { x with runAt := some 8, t0s := [(0, 1)] }) 512
    s.cycle = 0 ∧ s.tick = 8 ∧ s.running = false ∧ s.noRelease = false ∧ s.hearth.runTag = none ∧ mwf (fun _ => 0) s.hearth.t0s = true ∧
      ok (exec .hearthRelease s) (fun t => t.running && mget (fun _ => 0) t.hearth.t0s 0 == 6)) ∧
    (let s := atFrc (withHearth (flying (st [(glbHaltTick_Tick, 3)]) (flyOf 5 (descOf [(0, 1)]))) fun x =>
      { x with runAt := some 8, runTag := some 5, t0s := [(0, 8)] }) 512
    s.running = false ∧ s.noRelease = false ∧ runs s 5 = true ∧
      ok (exec .hearthRelease s) (fun t => t.hearth.t0s == [(0, 8)] && posted t == [(0x100, 8)])) := by decide +kernel

/-- Headers of the twelve blocks of a scan of course 0 with no contents, from address 0: stepping 0xB0 and arithmetic revision. -/
def scanBytes (s : State) : SMap Byte :=
  (List.range 12).flatMap fun c => [(scanPitch * c + 4, 0xB0), (scanPitch * c + 5, BitVec.ofNat 8 (s.getF glbReproSig_ArithRev))]

/-- ScansOfTheHaltedHearth: scans of a running Hearth, a scan out of a halted one, and a scan of this part that goes back in
(R228, R229). -/
theorem witness_scan :
    (let s := flying (flying (run []) (flyOf 5 (descOf [(0, 0x0A)]))) (flyOf 6 (descOf [(0, 0x0B)]))
    waits s 5 0x0A = true ∧ waits s 6 0x0B = true ∧ s.running = true ∧
      ok (exec (.scanOut 5) s) (fun t => posted t == [(0x11E, 0)]) ∧ ok (exec (.scanIn 6) s) (fun t => posted t == [(0x11E, 0)])) ∧
    (let s := withHearth (flying State.reset (flyOf 5 (descOf [(0, 0x0A)]))) fun x => { x with img := some (imgOf 0 []) }
    waits s 5 0x0A = true ∧ s.running = false ∧ s.hearth.img = some (imgOf 0 [])) ∧
    (let r : ScanRec := ⟨List.replicate 12 [], [], [], [], [(7, 0, tok 3)], [⟨9, .arrive 1 0 (tok 2)⟩], [], 8, 4⟩
    let w := withHearth (flying State.reset (flyOf 6 (descOf [(0, 0x0B), (16, 12 * scanPitch)]))) fun x =>
      { x with img := some (imgOf 0 []), scans := [r] }
    let s : State := { w with mem := { w.mem with hbm := scanBytes w } }
    let b := (s.begin 6).readBlocks 0 (12 * scanPitch) (siteList (s.vmap 0 1))
    let heads := b.2.1.map fun y => y.1
    waits s 6 0x0B = true ∧ s.running = false ∧ b.2.2.1 = false ∧ heads.any (s.blockForeign (imgOf 0 [])) = false ∧
      dfield (listGet [] heads 0) 24 4 = s.getF glbPlaceMap_Map ∧ b.1.scanFor (imgOf 0 []) (b.2.1.map fun y => y.2) = some r ∧
      ok (exec (.scanIn 6) s) (fun t => decide (t.hearth.present = [(7, 0, tok 3)]) &&
        t.hearth.flights == [⟨1, .arrive 1 0 (tok 2)⟩])) := by decide +kernel

/-! ### Triggers and record capture -/

/-- TRG's edge port of course 0 with an entry and tokens, in a running hot course. -/
def taking (ws : List (Fld × Nat)) (x : Nat) (ks : List Token) : State :=
  (run ((grCfg_Mode 11, 1) :: ws)).setEdge (edgeTrg 0)
    { EdgePort.init with edge := [(0, x)], rx := { Queue.init with toks := ks } }

/-- TakesReachDetectorsAndPools, takes: a score of exactly THRESH of detector 0, a take lost to a swap gap, and a capture take of
channel 15 with its pool running (R215, R246, R247). -/
theorem witness_takes :
    (let e := 0x3F800000 * 2 ^ 32 + 5 * 2 ^ 16 + 7 * 2 ^ 8
    let w := taking [(trgSdCfg_En 0, 1)] 0x8000 [tok (BitVec.ofNat 512 e)]
    let s : State := { w with trg := { w.trg with active := [(trgSdThresh 0, 0x3F800000)] } }
    s.takeEntry 0 0 = some 0x8000 ∧ (s.edge (edgeTrg 0)).rx.toks ≠ [] ∧ s.takeLost (s.takeRel 0x8000) = false ∧
      s.trgDone (s.takeRel 0x8000 - s.effDelay) = false ∧ s.frc.toNat + 2 ≤ s.readyLimit (s.takeRel 0x8000 - s.effDelay) ∧
      s.flag (trgSdCfg_En (8 * bitsAt 0x8000 7 2 + 0)) = true ∧
      scoreHits (s.flag (trgSdCfg_Pol 0)) (bitsAt (bitsAt e 0 64) 32 32) (s.trgReg 0 (trgSdThresh 0)) = true ∧
      ok (exec (.scoreTake 0) s) (fun t => (t.trg.hits.map fun h => (h.tick, h.bit, h.tag.offset, h.tag.frac)) == [(0, 0, 5, 7)])) ∧
    (let s := withHearth (taking [] 0x8000 [tok 9]) fun x => { x with gapTo := 1 }
    s.takeEntry 0 0 = some 0x8000 ∧ s.takeLost (s.takeRel 0x8000) = true ∧
      ok (exec (.scoreTake 0) s) (fun t => t.getF glbSwapGap_Discarded == 1 && (t.edge (edgeTrg 0)).rx.toks.isEmpty)) ∧
    (let x := 0x8000 + 2 ^ 9 + 15 * 2 ^ 5
    let s := (taking [] x [tok 9]).setPool 15 { Pool.init with on := true }
    s.takeEntry 0 1 = some x ∧ s.takeLost (s.takeRel x) = false ∧ (s.pool (bitsAt x 5 4)).on = true ∧
      ok (exec (.captureTake 0) s) (fun t => (t.edge (edgeTrg 0)).rx.toks.isEmpty && decide (t.pool 15 ≠ s.pool 15))) := by
  decide +kernel

/-- TakesReachDetectorsAndPools, elements: at a distance of DEADBAND the value is held, at one more it is stored (R269). -/
theorem witness_element :
    (let p : Pool := { Pool.init with on := true, first := false, held := 100, elem := 4, last := 2 }
    let k : CapTake := ⟨0, 0, 0, false, false, false, false⟩
    p.stopped = none ∧ p.gapRun = 0 ∧ p.first = false ∧ p.capt = none ∧ k.suspect = p.susRun ∧ beyond 3 103 p.held = false ∧
      (p.element 4096 3 k 103).pos = 0 ∧ beyond 3 104 p.held = true ∧ p.room 4096 4 = true ∧
      (p.element 4096 3 k 104).wbuf = [104, 0, 2, 0] ∧ (p.element 4096 3 k 104).last = 5) := by decide +kernel

/-- A hit of a source at a tick time. -/
def hitOf (tick bit tau : Nat) : Hit := ⟨tick, bit, ⟨tick, 0, 0, 0, tau⟩, 0, false, false⟩

/-- TriggerUnitsQualifyAndDecide: OR takes the earlier of two, AND the later, and neither fires without its sources; SEQ, with a B hit before
the A event, after two of them, and at both sides of WINDOW 2; a unit held to
its last tick; a decision at its cycle and none at the next (R245, R252 to R254). -/
theorem witness_trigger_units :
    (let v (m : Nat) : TuView := ⟨m, 3, 0, 0, Tu.init⟩
    let hs := [hitOf 0 0 9, hitOf 0 1 4]
    ((v 0).qualify 0 hs).1 = none ∧ ((v 1).qualify 0 hs).1 = some (hitOf 0 1 4) ∧ ((v 1).qualify 0 [hitOf 0 2 0]).1 = none ∧
      ((v 2).qualify 0 hs).1 = some (hitOf 0 0 9) ∧ ((v 2).qualify 0 [hitOf 0 0 9]).1 = none) ∧
    (let v (es : List (Nat × Nat)) : TuView := ⟨3, 1, 2, 2 * 2 ^ 16, ⟨none, es⟩⟩
    (v []).qualify 0 [hitOf 0 0 9, hitOf 0 1 4] = (none, [(0, 9)]) ∧
      (v [(0, 9), (1, 2)]).qualify 2 [hitOf 2 1 4] = (some (hitOf 2 1 4), [(0, 9)]) ∧
      (v [(0, 9)]).qualify 2 [hitOf 2 1 0] = (some (hitOf 2 1 0), []) ∧ (v [(0, 9)]).qualify 3 [hitOf 3 1 4] = (none, [(0, 9)])) ∧
    (let s : State := { State.reset with trg := { Trg.reset with tus := [(0, ⟨some (3, 5), []⟩)] } }
    (s.tuView 5 0).tu.hold = some (3, 5) ∧ (s.runTu 5 [hitOf 5 0 0] 0).2 = none) ∧
    (let w := atFrc State.reset State.reset.trgLat
    let s : State := { w with trg := { w.trg with hits := [hitOf 0 4 1, hitOf 1 4 1] } }
    s.trg.old = none ∧ s.frc.toNat = 64 * 0 + s.trgLat ∧ s.trg.next ≤ 0 ∧
      ok (exec .trgDecision s) (fun t => t.trg.next == 1 && decide (t.trg.hits = [hitOf 1 4 1])) ∧
      (let u := atFrc s (State.reset.trgLat + 1)
      u.trgLat ≤ u.frc.toNat ∧ (u.frc.toNat - u.trgLat) % 64 ≠ 0 ∧ same .trgDecision u)) := by decide +kernel

/-- TriggerInputsAndOutputs: edges of the last input, one that follows too soon and one in a tick that has its hit, a host-forced hit, a pulse over in this cycle and one that lasts, and a record that is posted
(R250, R258, R259). -/
theorem witness_trigger_io :
    (let s := st [(trgTinCfg_En 3, 1)]
    s.flag (trgTinCfg_En 3) = true ∧ true ≠ s.flag (trgTinCfg_Fall 3) ∧
      ok (exec (.trigInEdge 3 true 0) s) (fun t => t.getF (trgTinEdgesF 3) == 1 && t.trg.hits.map Hit.bit == [35]) ∧
      same (.trigInEdge 3 (s.flag (trgTinCfg_Fall 3)) 0) s ∧
      (let u : State := { s with trg := { s.trg with edgeAt := [(3, s.stamp 0 + 1)] } }
      ok (exec (.trigInEdge 3 true 0) u) (fun t => t.getF (trgTinEdgesF 3) == 1 && t.trg.hits.isEmpty)) ∧
      (let u : State := { s with trg := { s.trg with edges := [(3, s.stamp 0 + 1)] } }
      ok (exec (.trigInEdge 3 true 200) u) (fun t => t.trg.hits.isEmpty)) ∧
      ok (exec .forceHit s) (fun t => (t.trg.hits.map fun h => (h.bit, h.tag.tau)) == [(52, 0)] && t.freeIx == s.freeIx + 1)) ∧
    (let s : State := { State.reset with cyc := 5, trg := { Trg.reset with pulses := [(3, [(1, 5), (2, 6)])] } }
    ok (exec (.trigOutPulseEnd 3) s) (fun t => mget (fun _ => []) t.trg.pulses 3 == [(2, 6)])) ∧
    (let w := st [(stkCtrl_En, 1)]
    let s : State := { w with trg := { w.trg with firings := [⟨2, ⟨7, 0, 0, 0, 0⟩, 0, 0, 0, 1, none, 13⟩] } }
    s.flag stkCtrl_En = true ∧ (s.cq (s.getF trgCtrl_Cq)).held.length < 256 ∧
      ok (exec .triggerRecordPost s) (fun t => (t.cq 0).held.map (fun e => (e.ty, e.tag, e.tick)) == [(0x10, 0x200, 13)])) := by
  decide +kernel

/-- CommitTakesThePendingCopies: COMMIT of a tick 2 ahead and of 2^23 − 1 ahead, 1 ahead, and with one pending; and its tick
(R257). -/
theorem witness_commit :
    (let d (v : W32) := (v.toNat % 2 ^ 24 + 2 ^ 24 - State.reset.tick % 2 ^ 24) % 2 ^ 24
    State.reset.trg.commitAt = none ∧ 2 ≤ d 2 ∧ d 2 < 2 ^ 23 ∧ 2 ≤ d 0x7FFFFF ∧ d 0x7FFFFF < 2 ^ 23 ∧ d 1 < 2 ∧
      ok (exec (.trgCommit 2) State.reset) (fun t => t.trg.commitAt == some 2 && t.flag trgStatus_CommitPending) ∧
      ok (exec (.trgCommit 0x7FFFFF) State.reset) (fun t => t.trg.commitAt == some 0x7FFFFF) ∧
      ok (exec (.trgCommit 1) State.reset) (fun t => t.trg.commitAt.isNone && t.flag trgStatus_WrRefused)) ∧
    (let w := st [(⟨trgTuCfg 7, 0, 2⟩, 1), (trgStatus_CommitPending, 1)]
    let s : State := { w with trg := { w.trg with commitAt := some 4, next := 4 } }
    s.trg.commitAt = some 4 ∧ 4 ≤ s.trg.next ∧
      ok (exec (.trgCommit 9) s) (fun t => t.trg.commitAt == some 4 && t.flag trgStatus_WrRefused) ∧
      ok (exec .commitApply s) (fun t => t.trg.commitAt.isNone &&
        mget (resetWord t.part) t.trg.active (trgTuCfg 7) == w.word (trgTuCfg 7)) ∧
      (let v := atFrc { s with trg := { s.trg with next := 0 } } (64 * 3 + s.trgLd 3 + 1)
      64 * (4 - 1) + v.trgLd (4 - 1) < v.frc.toNat ∧ ok (exec .commitApply v) (fun t => t.trg.commitAt.isNone))) := by decide +kernel

/-- PoolsStartStopAndRelease: releases at both ends of their range and beyond, and pools that start, stop, resume and finish a
record (R272 to R275). -/
theorem witness_pools :
    (let s := st [(trgPoolRelease_Record 15, 2), (trgPoolNext_Record 15, 5)]
    s.getF (trgPoolRelease_Record 15) ≤ 2 ∧ 5 ≤ s.getF (trgPoolNext_Record 15) ∧ (s.pool 15).capt = none ∧
      ok (exec (.poolReleaseWrite 15 2) s) (fun t => t.getF (trgPoolRelease_Record 15) == 2 && !t.flag trgStatus_WrRefused) ∧
      ok (exec (.poolReleaseWrite 15 5) s) (fun t => t.getF (trgPoolRelease_Record 15) == 5) ∧
      ok (exec (.poolReleaseWrite 15 1) s) (fun t => t.flag trgStatus_WrRefused) ∧
      ok (exec (.poolReleaseWrite 15 6) s) (fun t => t.getF (trgPoolRelease_Record 15) == 2 && t.flag trgStatus_WrRefused) ∧
      (let u := s.setPool 15 { Pool.init with capt := some ⟨4, ⟨6, 0, 0, 0, 0⟩, 0, 0, 0, some 0, 6, 0, 0, 0⟩ }
      ok (exec (.poolReleaseWrite 15 4) u) (fun t => t.getF (trgPoolRelease_Record 15) == 4) ∧
        ok (exec (.poolReleaseWrite 15 5) u) (fun t => t.flag trgStatus_WrRefused))) ∧
    (let s := st [(trgPoolRingSize_Size 0, 1)]
    (0x80000000 : W32).toNat.testBit 31 = true ∧ s.flag (trgPoolCtrl_En 0) = false ∧ s.getF (trgPoolRingSize_Size 0) ≠ 0 ∧
      ok (exec (.poolCtrlWrite 0 0x80010007) s) (fun t => (t.pool 0).startAt == some 1 && t.getF (trgPoolCtrl_Deadband 0) == 7 &&
        t.getF (trgPoolCtrl_TuMask 0) == 1)) ∧
    (let s := (st [(trgPoolCtrl_En 0, 1)]).setPool 0 { Pool.init with on := true }
    s.flag (trgPoolCtrl_En 0) = true ∧ (s.pool 0).on = true ∧
      ok (exec (.poolCtrlWrite 0 0) s) (fun t => (t.pool 0).stopAt == some 1 && !t.flag (trgPoolCtrl_En 0))) ∧
    (let s := (st [(trgPoolRingSize_Size 0, 1)]).setPool 0 { Pool.init with startAt := some 0 }
    ok (exec (.poolStart 0) s) (fun t => (t.pool 0).on && (t.pool 0).wbuf == leBytes 4 (markWord 5 3) && (t.pool 0).pos == 4)) ∧
    (let s := State.reset.setPool 0 { Pool.init with on := true, stopAt := some 0 }
    ok (exec (.poolStop 0) s) (fun t => !(t.pool 0).on)) ∧
    (let s := State.reset.setPool 0 { Pool.init with on := true, stopped := some 9 }
    (s.pool 0).room (s.ringSize 0) 12 = true ∧ ok (exec (.acqWriteResume 0) s) (fun t => (t.pool 0).resume)) ∧
    (let d : DoneRec := ⟨⟨0, ⟨6, 0, 0, 0, 0⟩, 0, 0, 0, some 0, 6, 0, 0, 0⟩, 8, 1⟩
    let s := (st [(stkCtrl_En, 1)]).setPool 0 { Pool.init with pos := 8, finished := [d] }
    d.stop ≤ (s.pool 0).pos - (s.pool 0).wbuf.length ∧ s.flag stkCtrl_En = true ∧
      ok (exec (.recordComplete 0) s) (fun t => (t.cq 0).held.map (fun e => (e.ty, e.tick)) == [(0x11, 6)] &&
        (t.pool 0).finished.isEmpty)) := by decide +kernel

/-! ### Chimney ports -/

/-- A message with its CRC8 (R260). -/
def msgOf (w : Nat) : W64 := BitVec.ofNat 64 (w + chmCrc w)

/-- Port p on and in block lock, with what it holds. -/
def chmOn (ws : List (Fld × Nat)) (p : Nat) (x : ChmPort) : State :=
  (st ((chmCtrl_En, 15) :: (chmPortStatus_BlockLock p, 1) :: ws)).setChm p x

/-- UserMessageEntersItsQueue: a queue of 15 entries takes the message, one of 16 does not (R266). -/
theorem witness_user :
    (let m := msgOf (4 * 2 ^ 60 + 0xABC * 2 ^ 8)
    let q (n : Nat) := { ChmPort.init with rxq := List.replicate n (m, 0) }
    (chmOn [] 3 (q 15)).chmListens 3 = true ∧ (chmOn [] 3 (q 15)).flag (chmPortStatus_BlockLock 3) = true ∧
      chmType m.toNat = 4 ∧ chmGood m.toNat = true ∧
      ok (exec (.chmUser 3 m) (chmOn [] 3 (q 15))) (fun t => (t.chmPort 3).rxq.length == 16 && t.getF (chmPortRxDropF 3) == 0) ∧
      ok (exec (.chmUser 3 m) (chmOn [] 3 (q 16))) (fun t => (t.chmPort 3).rxq.length == 16 && t.getF (chmPortRxDropF 3) == 1)) := by
  decide +kernel

/-- ChimneySlotsSend, slot 0 at cycle 0: a TRIGGER message whose slot it is, the safe state, an echo answer, an echo request, and a queue entry
(R260, R262, R264, R265). -/
theorem witness_slots :
    (let l : Nat × Nat × Nat × Nat × Bool := (0, 0, 5, 2, false)
    let s := chmOn [] 0 { ChmPort.init with trigs := [l], reqPending := true }
    s.slotNow = some 0 ∧ (s.getF chmCtrl_En).testBit 0 = true ∧ s.txSafeNow = false ∧ s.flueDead (txFlue 24) = false ∧
      (s.chmPort 0).trigs.find? (fun y => y.1 == s.tick && y.2.1 == 0) = some l ∧
      ok (exec (.chimneySlotLaunch 0) s) (fun t => chmType (t.chmPort 0).sent.toNat == 1 && chmLine (t.chmPort 0).sent.toNat == 2 &&
        (t.chmPort 0).trigs.isEmpty && (t.chmPort 0).reqPending) ∧
      (s.setF fltStatus_Safe 1).txSafeNow = true ∧ same (.chimneySlotLaunch 0) (s.setF fltStatus_Safe 1)) ∧
    (let s := chmOn [] 0 { ChmPort.init with replies := [(9, 0)], reqPending := true }
    (s.chmPort 0).trigs.find? (fun y => y.1 == s.tick && y.2.1 == 0) = none ∧ s.slotReserved 0 0 = false ∧
      ok (exec (.chimneySlotLaunch 0) s) (fun t => (t.chmPort 0).replies.isEmpty && (t.chmPort 0).reqPending)) ∧
    (let m := msgOf (4 * 2 ^ 60)
    let s := chmOn [] 0 { ChmPort.init with txq := [(m, 0)] }
    (0 : W64).toNat ≤ s.frc.toNat ∧
      ok (exec (.chimneySlotLaunch 0) s) (fun t => (t.chmPort 0).txq.isEmpty && chmType (t.chmPort 0).sent.toNat == 4) ∧
      ok (exec (.chimneySlotLaunch 0) (s.setChm 0 { s.chmPort 0 with reqPending := true })) (fun t =>
        !(t.chmPort 0).reqPending && (t.chmPort 0).echo.isSome && (t.chmPort 0).txq.length == 1)) := by decide +kernel

/-- ChimneySlotsSend, commands: a push of USER into 15 entries, into 16, and of an ECHO type; an echo of 1,024 ticks (R264, R265). -/
theorem witness_push :
    (let s (n : Nat) := chmOn [(chmPortTxqMsg_Msg 0, 4 * 2 ^ 60)] 0 { ChmPort.init with txq := List.replicate n (0, 0) }
    chmType ((s 15).getF (chmPortTxqMsg_Msg 0)) = 4 ∧
      ok (exec (.txqPush 0) (s 15)) (fun t => (t.chmPort 0).txq.length == 16) ∧
      ok (exec (.txqPush 0) (s 16)) (fun t => (t.chmPort 0).txq.length == 16 && t.flag chmStatus_WrRefused) ∧
      ok (exec (.txqPush 0) ((s 0).setF (chmPortTxqMsg_Msg 0) (2 * 2 ^ 60))) (fun t => t.flag chmStatus_WrRefused)) ∧
    (let s := atFrc (chmOn [] 0 { ChmPort.init with echo := some (3, 0, 0) }) (64 * 1024)
    0 + 1024 ≤ s.tick ∧ ok (exec (.chmEchoTimeout 0) s) (fun t => t.flag (chmPortStatus_EchoTimeout 0) && (t.chmPort 0).echo.isNone) ∧
      same (.chmEchoTimeout 0) (atFrc s (64 * 1023))) := by decide +kernel

/-- ChimneyReceives: a trigger in time, one before ECHO_VALID, and a shadow that is not accepted (R261, R263). -/
theorem witness_chm_trigger :
    (let m := msgOf (2 ^ 60 + 3 * 2 ^ 50)
    let s := chmOn [(chmPortStatus_EchoValid 1, 1)] 1 ChmPort.init
    s.chmListens 1 = true ∧ s.flag (chmPortStatus_BlockLock 1) = true ∧ chmGood m.toNat = true ∧ chmType m.toNat = 1 ∧
      s.getF chmSyslat_Cycles = 64 * 64 ∧ s.trgDone 64 = false ∧ s.stamp 0 + 4096 ≤ 256 * s.readyLimit 64 ∧
      ok (exec (.chimneyTriggerReceive 1 m 0) s) (fun t => t.trg.hits.map (fun h => (h.tick, h.bit)) == [(64, 39)]) ∧
      ok (exec (.chimneyTriggerReceive 1 m 0) (s.setF (chmPortStatus_EchoValid 1) 0)) (fun t =>
        t.trg.hits.isEmpty && t.getF (chmPortLateF 1) == 1)) ∧
    (let m := msgOf (2 ^ 60 + 2 ^ 55)
    let s := chmOn [] 1 ChmPort.init
    chmShadow m.toNat = true ∧ s.flag chmCtrl_AcceptShadow = false ∧
      ok (exec (.chimneyTriggerReceive 1 m 0) s) (fun t => t.getF (chmPortShadowDropF 1) == 1 && t.trg.hits.isEmpty)) := by
  decide +kernel

/-- ChimneyReceives: an echo request and an answer, a message of a bad CRC8 in two commands, and in a block (R264, R284). -/
theorem witness_chm_echo :
    (let m := msgOf (2 * 2 ^ 60 + 7 * 2 ^ 46)
    let s := atFrc (chmOn [] 1 ChmPort.init) 10
    chmGood m.toNat = true ∧ chmType m.toNat = 2 ∧
      ok (exec (.echoReq 1 m 5) s) (fun t => (t.chmPort 1).replies == [(7, s.stamp 5)])) ∧
    (let m := msgOf (3 * 2 ^ 60 + 7 * 2 ^ 46 + 60 * 2 ^ 8)
    let s := atFrc (chmOn [] 1 { ChmPort.init with echo := some (7, 500, 0) }) 10
    chmGood m.toNat = true ∧ chmType m.toNat = 3 ∧ s.stamp 0 - 500 - chmTime m.toNat = 2000 ∧
      ok (exec (.echoRsp 1 m 0) s) (fun t => t.getF (chmPortRttF 1) == 2000 && t.flag (chmPortStatus_EchoValid 1))) ∧
    (let m : W64 := msgOf (4 * 2 ^ 60) + 1
    chmType m.toNat ≠ 0 ∧ chmGood m.toNat = false ∧
      ok (exec (.chmUser 1 m) (chmOn [] 1 ChmPort.init)) (fun t => t.getF (chmPortCrcErrF 1) == 1 && (t.chmPort 1).rxq.isEmpty) ∧
      ok (exec (.echoReq 1 m 0) (chmOn [] 1 ChmPort.init)) (fun t => t.getF (chmPortCrcErrF 1) == 1) ∧
      ok (exec (.chimneyBlockReceive 1 1 0x8000000000000005) (chmOn [] 1 ChmPort.init)) (fun t => t.getF (chmPortCrcErrF 1) == 1) ∧
      ok (exec (.chimneyBlockReceive 1 2 0x8000000000000005) (chmOn [] 1 ChmPort.init)) (fun t => t.getF (chmPortCrcErrF 1) == 0)) := by decide +kernel

/-! ### Device time -/

/-- DeviceTimeChanges: a nanosecond field of 10^9 − 1 and of 10^9, an adjustment to 0 and one below, RATE, and NOW_TIME (R277 to
R279). -/
theorem witness_time :
    (let s := (st [(timAdj_Adj, 2 ^ 64 - 5)]).setWords (timSetTime 0) [BitVec.ofNat 32 ((10 ^ 9 - 1) * 2 ^ 16 % 2 ^ 32), BitVec.ofNat 32 ((10 ^ 9 - 1) / 2 ^ 16), 0]
    bitsAt (s.word96 (timSetTime 0)) 16 32 = 10 ^ 9 - 1 ∧
      ok (exec .timSet s) (fun t => t.word96 (timBaseTime 0) == (10 ^ 9 - 1) * 2 ^ 16 && !t.flag timStatus_WrRefused) ∧
      sint 64 (s.getF timAdj_Adj) = -5 ∧ unitsOfTime (s.word96 (timBaseTime 0)) = 0 ∧
      ok (exec .timAdjGo s) (fun t => t.flag timStatus_WrRefused) ∧
      ok (exec .timAdjGo (s.setWords (timBaseTime 0) [5, 0, 0])) (fun t => t.word96 (timBaseTime 0) == 0 && !t.flag timStatus_WrRefused)) ∧
    (let s := State.reset.setWords (timSetTime 0) [BitVec.ofNat 32 (10 ^ 9 * 2 ^ 16 % 2 ^ 32), BitVec.ofNat 32 (10 ^ 9 / 2 ^ 16), 0]
    bitsAt (s.word96 (timSetTime 0)) 16 32 = 10 ^ 9 ∧ ok (exec .timSet s) (fun t => t.flag timStatus_WrRefused)) ∧
    (let s := atFrc State.reset 1500000000
    ok (exec (.rateWrite 7) s) (fun t => t.getF timRate_Rate == 7 && t.getF timRefFrc_Ref == 1500000000 &&
      t.word96 (timBaseTime 0) == s.timeAtFrc 1500000000) ∧
      ok (exec .nowTimeRead s) (fun t => t.getF timNowFrc_Frc == 1500000000)) := by decide +kernel

/-- A timing port whose ring of 8 at address 0 of HBM holds a descriptor at index 0 (R286). -/
def tpWith (len flags launch : Nat) (q : Nat) : State :=
  let w := st [(timTpCtrl_TxEn 1, 1), (timTpTxTail_Index 1, 1), (timTpTxSize_Entries 1, 8)]
  let d := leBytes 32 (0x1000 + len * 2 ^ 64 + flags * 2 ^ 80 + 77 * 2 ^ 96 + launch * 2 ^ 128)
  { w with
    mem := { w.mem with hbm := (d.zipIdx.filter fun b => b.1 != 0).map fun b => (b.2, b.1) }
    tim := { w.tim with tps := [(1, ⟨List.replicate q (0, 0), []⟩)] } }

/-- TimingPortFrames, sending: lengths 59, 60 and 2,045, a launch that is to come, and a timestamp with a queue of 15 and of 16
(R286, R288). -/
theorem witness_tp_send :
    (let s := tpWith 59 0 0 0
    s.flag (timTpCtrl_TxEn 1) = true ∧ s.txSafeNow = false ∧ s.flueDead (txFlue 29) = false ∧ s.getF (timTpTxTail_Index 1) ≠ s.getF (timTpTxHead_Index 1) ∧
      dfield (s.hbmRead 9 0x1FF (32 * s.getF (timTpTxBase_Addr 1)) 32).2.1 8 2 = 59 ∧
      ok (exec (.tpFrameTransmit 1 0) s) (fun t => t.flag (timTpStatus_TxDescErr 1) && t.getF (timTpTxHead_Index 1) == 1 &&
        t.getF (timTpTxFramesF 1) == 0)) ∧
    ok (exec (.tpFrameTransmit 1 0) (tpWith 2045 0 0 0)) (fun t => t.flag (timTpStatus_TxDescErr 1)) ∧
    ok (exec (.tpFrameTransmit 1 0) (tpWith 60 1 0 15)) (fun t => t.getF (timTpTxFramesF 1) == 1 && (t.tp 1).tsq.length == 16) ∧
    ok (exec (.tpFrameTransmit 1 0) (tpWith 60 1 0 16)) (fun t => t.getF (timTpTsqLostF 1) == 1 && (t.tp 1).tsq.length == 16) ∧
    same (.tpFrameTransmit 1 0) (tpWith 60 4 9 0) ∧
    ok (exec (.tpFrameTransmit 1 0) (tpWith 2044 4 0 0)) (fun t => t.getF (timTpTxFramesF 1) == 1) := by decide +kernel

/-- TimingPortFrames, receiving: a bad FCS, 2,049 bytes, no descriptor left, and a good frame (R289). -/
theorem witness_tp_receive :
    (let s := st [(timTpCtrl_RxEn 0, 1), (timTpStatus_BlockLock 0, 1), (timTpRxTail_Index 0, 1), (timTpRxSize_Entries 0, 8)]
    let z (n : Nat) : List Byte := List.replicate n 0 ++ fcsOf (List.replicate n 0)
    s.flag (timTpCtrl_RxEn 0) = true ∧ s.flueDead (txFlue 28) = false ∧ fcsOk [1, 2] = false ∧ fcsOk (z 2045) = true ∧ s.flag (timTpStatus_BlockLock 0) = true ∧ s.blockHeld 24 = false ∧
      s.getF (timTpRxHead_Index 0) ≠ s.getF (timTpRxTail_Index 0) ∧
      ok (exec (.tpFrameReceive 0 [1, 2] 0) s) (fun t => t.getF (timTpRxFcsErrF 0) == 1 && t.getF (timTpRxFramesF 0) == 0) ∧
      ok (exec (.tpFrameReceive 0 (z 2045) 0) s) (fun t => t.getF (timTpRxDropF 0) == 1) ∧
      ok (exec (.tpFrameReceive 0 (z 60) 0) (s.setF (timTpRxTail_Index 0) 0)) (fun t => t.getF (timTpRxDropF 0) == 1) ∧
      ok (exec (.tpFrameReceive 0 (z 60) 0) s) (fun t => t.getF (timTpRxFramesF 0) == 1 && t.getF (timTpRxHead_Index 0) == 1) ∧
      ok (exec (.tpBlockLock 0 false true) s) (fun t => !t.flag (timTpStatus_BlockLock 0) && t.flag (timTpStatus_Signal 0))) := by decide +kernel

/-- SyncsAndFrcLoads: a SYNC on a frozen link and on one that is not, and an FRC load whose START is far enough, or not, in
the safe state, and of a running Hearth (R290 to R292). -/
theorem witness_sync :
    (let s := st [(timSyncTx_Links, 2 ^ 23 + 1), (zlLinkStatus_Frozen 23, 1), (timSyncStart_Tick, 44)]
    (3 : W32).toNat.testBit 0 = true ∧ (s.getF timSyncTx_Links).testBit 23 = true ∧ s.flag (zlLinkStatus_Frozen 0) = false ∧
      ok (exec (.syncSend 3) s) (fun t => (t.zlink 23).syncOut == some (true, 44) && (t.zlink 0).syncOut.isNone &&
        t.flag timSyncStat_Skipped)) ∧
    (let w := withHearth State.reset fun x => { x with img := some (imgOf 0 []) }
    let s (start : Nat) : State := { w with tim := { w.tim with load := some ⟨640, 128, true, start, 3, 0⟩ } }
    (640 - 128 + 128) / 256 = 2 ∧ w.running = false ∧ w.noRelease = false ∧
      ok (exec .frcLoad (s 2)) (fun t => t.frc == 2 && t.getF timRefFrc_Ref == 2 && t.getF timSyncJump_K == 2 &&
        t.getF timSyncStat_Link == 3 && t.hearth.runAt == some 2) ∧
      ok (exec .frcLoad (s 1)) (fun t => t.flag timSyncStat_StartLate && t.hearth.runAt.isNone) ∧
      ((s 2).setF fltStatus_Safe 1).noRelease = true ∧
      ok (exec .frcLoad ((s 2).setF fltStatus_Safe 1)) (fun t => t.flag timSyncStat_StartLate && t.frc == 2) ∧
      ok (exec .frcLoad ((s 2).setF glbImgState_Running 1)) (fun t => t.flag timSyncStat_Refused && t.frc == 0 && t.tim.load.isNone)) := by decide +kernel

/-! ### The Stoker -/

/-- A part whose host link is up with bus mastering on. -/
def onBus (s : State) : State := { s.setF glbPcieStatus_Bm 1 with pcie := { s.pcie with up := true } }

/-- Submission queue 3 of 16 entries, enabled, with a descriptor read and what stands beside it. -/
def sq3 (d : List Byte) (poi : Bool) : State :=
  (st [(stkCtrl_En, 1), (stkSqCtrl_En 3, 1), (stkSqCfg_Log2size 3, 4), (stkSqTail_Index 3, 1), (⟨stkFuncEn, 0, 4⟩, 15)]).setSq 3
    ⟨[(d, poi)], 0⟩

/-- A FENCE for completion queue 2 with tag 9. -/
def fence9 : List Byte := descOf [(0, 6), (2, 9), (4, 2)]

/-- QueuesPublishAndStart, doorbells and fetches: 15 and 16 of a ring of 16, and the first and the eighth fetch (R299, R300). -/
theorem witness_doorbells :
    (let s := st [(stkSqCfg_Log2size 15, 4), (stkCqCfg_Log2size 15, 4)]
    s.sqSize 15 = 16 ∧ s.cqSize 15 = 16 ∧
      ok (exec (.sqDoorbell 15 15) s) (fun t => t.getF (stkSqTail_Index 15) == 15 && !t.flag stkStatus_DbErr) ∧
      ok (exec (.sqDoorbell 15 16) s) (fun t => t.getF (stkSqTail_Index 15) == 0 && t.flag stkStatus_DbErr) ∧
      ok (exec (.cqDoorbell 15 15) s) (fun t => t.getF (stkCqHead_Index 15) == 15) ∧
      ok (exec (.cqDoorbell 15 16) s) (fun t => t.getF (stkCqHead_Index 15) == 0 && t.flag stkStatus_DbErr) ∧ s.barOn = true ∧
      (let u : State := { s with pwr := { s.pwr with released := false } }
      u.barOn = false ∧ same (.sqDoorbell 15 15) u ∧ same (.cqDoorbell 15 15) u)) ∧
    (let w := st [(stkCtrl_En, 1), (stkSqCtrl_En 3, 1), (stkSqCfg_Log2size 3, 4), (stkSqTail_Index 3, 9)]
    let s : State := { w with mem := { w.mem with hbm := [(64 * 7, 6)] } }
    let r := s.setSq 3 ⟨List.replicate 7 ([], false), 0⟩
    s.sqOn 3 = true ∧ s.published 3 = 9 ∧ isHostAddr (s.getF (stkSqBase_Addr 3)) = false ∧
      ok (exec (.descriptorFetch 3) s) (fun t => (t.sq 3).fetched.length == 1) ∧
      ok (exec (.descriptorFetch 3) r) (fun t => ((t.sq 3).fetched.map fun d => dOp d.1) == [0, 0, 0, 0, 0, 0, 0, 6]) ∧
      same (.descriptorFetch 3) (s.setSq 3 ⟨List.replicate 8 ([], false), 0⟩)) := by decide +kernel

/-- QueuesPublishAndStart, starts: a FENCE that starts, a COPY of a disabled class, and a poisoned descriptor (R301, R320, R321). -/
theorem witness_start :
    (let s := sq3 fence9 false
    s.sqOn 3 = true ∧ s.waitBits 3 = (false, false, false) ∧ s.startOrder.find? (fun q => (s.headState q).ready) = some 3 ∧ s.headState 3 = .start ∧ descStatus fence9 = stOk ∧
      ok (exec .descriptorStart s) (fun t => t.stk.flights.map (fun f => (f.tag, f.sq)) == [(9, 3)] && t.getF (stkSqHead_Index 3) == 1)) ∧
    (let s := (sq3 (descOf [(0, 4), (2, 9), (4, 2), (24, 1)]) false).setF ⟨stkFuncEn, 0, 4⟩ 14
    s.headState 3 = .cancel ∧ ok (exec .descriptorStart s) (fun t => t.stk.flights.isEmpty && t.getF (stkSqCancelledF 3) == 1 &&
      (t.cq 2).held.map (fun e => (e.tag, e.status)) == [(9, stCancelled)])) ∧
    (let s := sq3 fence9 true
    s.headState 3 = .poison ∧ ok (exec .descriptorStart s) (fun t => t.stk.flights.isEmpty &&
      (t.cq 3).held.map (fun e => (e.tag, e.status)) == [(0x3FF, stPoison)])) := by decide +kernel

/-- QueuesPublishAndStart, disabling: a queue of one descriptor, the Stoker, and a class (R320, R321, R322). -/
theorem witness_disable :
    (let s := sq3 fence9 false
    s.getF (stkSqHead_Index 3) < s.sqSize 3 ∧ s.getF (stkSqTail_Index 3) < s.sqSize 3 ∧ s.sqSize 3 ≤ 2 ^ 16 ∧ s.published 3 = 1 ∧
      ok (exec (.sqDisable 3) s) (fun t => t.getF (stkSqHead_Index 3) == 1 && t.getF (stkSqCancelledF 3) == 1) ∧
      ok (exec (.stkDisable 0) s) (fun t => t.getF (stkSqHead_Index 3) == 1 && !t.flag stkCtrl_En) ∧
      ok (exec (.stkDisable 3) s) (fun t => t.flag stkCtrl_En && t.flag stkCtrl_Balance && t.getF (stkSqHead_Index 3) == 0)) ∧
    (let s := sq3 (descOf [(0, 4), (2, 9), (4, 2), (24, 1)]) false
    (s.setF ⟨stkFuncEn, 0, 4⟩ 14).headState 3 = .cancel ∧ ok (exec (.funcEnWrite 14) s) (fun t => (t.sq 3).passed == 1) ∧
      ok (exec (.funcEnWrite 15) s) (fun t => (t.sq 3).passed == 0)) := by decide +kernel

/-- EntriesArePostedAndSignalled: an entry into host memory at the last slot of a ring of 4 with the phase 1, signalled by COUNT 1; a
late signal; and both sides of a CQ.CFG write (R306, R309). -/
theorem witness_post :
    (let e : Entry := ⟨0, 9, 0x101, 3, 4, 5, [], false, some 9, 0⟩
    let base := 2 ^ 63 + 4096
    let w := flying (onBus (st [(stkCqBase_Addr 2, base), (stkCqCfg_En 2, 1), (stkCqCfg_IrqEn 2, 1), (stkCqCfg_Count 2, 1),
      (stkCqCfg_Vector 2, 255), (stkCqCfg_Log2size 2, 2), (stkCqTail_Index 2, 3), (stkCqHead_Index 2, 2), (stkCqStat_Phase 2, 1)]))
      (flyOf 9 fence9)
    let s := w.setCq 2 { Cq.init with held := [e] }
    s.flag (stkCqCfg_En 2) = true ∧ s.cqFull 2 = false ∧ isHostAddr (s.getF (stkCqBase_Addr 2)) = true ∧ s.busOff = false ∧
      s.getF (stkCqBase_Addr 2) % 64 = 0 ∧ s.getF (stkCqBase_Addr 2) + 64 * 3 + 64 ≤ 2 ^ 64 ∧ (3 + 1) % s.cqSize 2 = 0 ∧
      ok (exec (.completionPost 2) s) (fun t => t.getF (stkCqTail_Index 2) == 0 && t.getF (stkCqStat_Phase 2) == 0 &&
        t.getF (stkCqPostedF 2) == 1 && (t.fly 9).isNone && t.pcie.pending.toNat.testBit 255 &&
        t.hostBytes (4096 + 192) 8 == [0, 1, 9, 0, 1, 1, 3, 0])) ∧
    (let s := (atFrc (st [(stkCqCfg_IrqEn 2, 1), (stkCqCfg_Vector 2, 8)]) (64 * 70)).setCq 2 { Cq.init with unsig := 3, unsigTick := 6 }
    0 < (s.cq 2).unsig ∧ (s.cq 2).unsigTick + 64 ≤ s.tick ∧
      ok (exec (.cqIrqTimeout 2) s) (fun t => (t.cq 2).unsig == 0 && t.pcie.pending.toNat.testBit 8) ∧
      same (.cqIrqTimeout 2) (atFrc s (64 * 69))) ∧
    ok (exec (.cqEnable 2 0x40000000) State.reset) (fun t => t.flag stkStatus_WrRefused) ∧
    ok (exec (.cqEnable 2 0xC0070100) (st [(stkCqTail_Index 2, 9)])) (fun t => t.getF (stkCqTail_Index 2) == 0 &&
      t.getF (stkCqStat_Phase 2) == 1 && t.getF (stkCqCfg_Vector 2) == 7 && t.getF (stkCqCfg_Count 2) == 1) := by decide +kernel

/-- FencesAndBarriersWait: a FENCE with none ahead of it, with one in flight, one not started and one whose
completion is held, and a BARRIER at its start, done, and at its TIMEOUT
(R301, R310 to R312). -/
theorem witness_fence :
    (let f : Fly := { flyOf 9 fence9 with sq := 3, seq := 1, begun := true }
    let g : Fly := { flyOf 4 (descOf [(0, 4)]) with sq := 3, seq := 0 }
    let s := (flying (sq3 fence9 false) f).setSq 3 ⟨[(fence9, false)], 1⟩
    let e : Entry := ⟨0, 4, 0x101, 3, 4, 5, [], false, none, 0⟩
    runs s 9 = true ∧ f.ended = false ∧ s.headState 3 ≠ .start ∧
      waits (flying State.reset (flyOf 9 fence9)) 9 6 = true ∧
      ok (exec (.fenceComplete 9) s) (fun t => (t.cq 2).held.map (fun e => e.status) == [stOk]) ∧
      g.sq = f.sq ∧ g.seq < f.seq ∧ same (.fenceComplete 9) (flying s g) ∧ same (.fenceComplete 9) (flying (sq3 fence9 false) f) ∧
      e.sq = f.sq ∧ e.place < f.seq ∧ same (.fenceComplete 9) (s.setCq 5 { Cq.init with held := [e] })) ∧
    (let d := descOf [(0, 7), (2, 9), (4, 2), (8, 8), (12, 5)]
    let s := flying (sq3 fence9 false) (flyOf 9 d)
    waits s 9 7 = true ∧ (dfield d 8 2).testBit 3 = true ∧
      ok (exec (.barrierDesc 9) s) (fun t => match t.fly 9 with
        | some f => f.begun && f.waits.contains (0, 0, 0) && f.waits.contains (3, 0, 1) && f.limit == 0
        | none => false) ∧
      (let b : Fly := { flyOf 9 d with begun := true, waits := [(0, 0, 0), (3, 0, 1)] }
      let u := flying (sq3 fence9 false) b
      runs u 9 = true ∧ u.barrierLeft b = (8, 0) ∧ same (.barrierComplete 9) u ∧ 0 + dfield d 12 4 ≤ (atFrc u 320).tick ∧
        ok (exec (.barrierTimeout 9) (atFrc u 320)) (fun t => (t.cq 2).held.map (fun e => (e.status, e.result)) == [(stTimeout, 8)])) ∧
      (let b : Fly := { flyOf 9 d with begun := true, waits := [(0, 0, 0)] }
      (flying State.reset b).barrierLeft b = (0, 0) ∧
        ok (exec (.barrierComplete 9) (flying State.reset b)) (fun t => (t.cq 2).held.map (fun e => e.status) == [stOk]))) := by
  decide +kernel

/-- A graph of one course and one replica on virtual course 0, with chunks of 512 elements. -/
def graph1 : GraphEnt := ⟨7, 0, 1, 1, none, 0, 0, 512, 1, 1, 1, 0⟩

/-- The image with that graph, warm on course 0 with a unit at column 1, and its placement. -/
def warmState (ws : List (Fld × Nat)) : State :=
  withHearth (run ([(glbPlaceMap_Map, 1), (hrtUnitCfg_Mode 1, 2), (grCfg_Mode 0, 2), (grCfg_Mode 11, 2)] ++ ws)) fun x =>
    { x with img := some { imgOf 0 [0, 2] with graphs := [graph1] } }

/-- A RUN of that graph with tag 9 over n chunks. -/
def run9 (n : Nat) (p : Replica) : Run :=
  ⟨9, graph1, 0, 512 * n, 0, 2 ^ 63, 0, 0, [], true, false, n, 0, [p], [], [], [], [], 0, [], 0, 0, 0, 0, false, false, false⟩

/-- RunsFeedDrainAndEnd: a RUN that begins with 1,025 elements in 3 chunks, one of no graph, one of too many elements, and one that
waits for the DMA line with its state to read; chunks, summaries and the end (R314 to R317). -/
theorem witness_run :
    (let s (d : List Byte) := flying (warmState []) (flyOf 9 d)
    waits (s (descOf [(0, 3), (8, 7), (12, 1025)])) 9 3 = true ∧
      ok (exec (.runDesc 9) (s (descOf [(0, 3), (8, 7), (12, 1025)]))) (fun t => t.stk.runs.map (fun r => (r.tag, r.chunks)) == [(9, 3)] &&
        (t.unit 1).graphOn) ∧
      ok (exec (.runDesc 9) (s (descOf [(0, 3), (8, 6), (12, 1)]))) (fun t => posted t == [(stNoGraph, 0)]) ∧
      runOperands (descOf [(0, 3), (8, 7), (12, 4194305)]) = false ∧
      ok (exec (.runDesc 9) (s (descOf [(0, 3), (8, 7), (12, 4194305)]))) (fun t => posted t == [(stBadOperand, 0)])) ∧
    (let g : GraphEnt := { graph1 with comb := some 1, combCourses := 1, stateBytes := 64 }
    let w := withHearth (warmState []) fun x => { x with img := some { imgOf 0 [0, 2] with graphs := [g] } }
    let s : State := { flying w (flyOf 9 (descOf [(0, 3), (8, 7), (12, 5)])) with pwr := { Pwr.reset with line2 := 2 ^ 25 } }
    s.dmaHeld = true ∧ runOperands (descOf [(0, 3), (8, 7), (12, 5)]) = true ∧ same (.runDesc 9) s) ∧
    (let w := warmState []
    let s (r : Run) : State := { w with stk := { w.stk with runs := [r], flights := [flyOf 9 (descOf [(0, 3)])] } }
    let r := run9 2 ⟨none, 0, 0, []⟩
    (s r).runOf 9 = some r ∧ r.pick = some 0 ∧
      ok (exec (.chunkAssign 9) (s r)) (fun t => t.stk.runs.map (fun r => (r.nextChunk, r.replicas)) == [(1, [⟨some 0, 0, 0, [0]⟩])]) ∧
      (let q := { r with arrived := [(4, 0, [(5, Tags.clear)])] }
      q.nextSummary = some (0, [(5, Tags.clear)]) ∧
        ok (exec (.summaryEnter 9) (s q)) (fun t => t.stk.runs.map (fun r => (r.entered, r.combQueue)) == [([0], [(5, Tags.clear)])])) ∧
      (let q := { run9 0 ⟨none, 0, 0, []⟩ with written := 3 }
      q.ended = true ∧ runs (s q) 9 = true ∧
        ok (exec (.runComplete 9) (s q)) (fun t => posted t == [(stOk, 3 * 2 ^ 32)] && t.stk.runs.isEmpty))) := by decide +kernel

/-- RunsFeedDrainAndEnd, ports: a west port that takes a chunk's first token, one whose head crosses, an east port that drains a MARK
and an output token (R130, R133, R315). -/
theorem witness_ports :
    (let w := warmState []
    let r := { run9 1 ⟨some 0, 0, 0, [0]⟩ with nextChunk := 1 }
    let s : State := { w with stk := { w.stk with runs := [r] } }
    s.running = true ∧ s.relay (edgeSite (portKey 0)) = false ∧ s.grMode (edgeSite (portKey 0)) = 2 ∧ s.dmaHeld = false ∧
      s.portRole (portKey 0) = some (r, some 0) ∧ 0 < r.graph.chunkTokens ∧
      ok (exec (.streamPortSend 0) s) (fun t => t.stk.runs.map (fun r => r.replicas) == [[⟨some 0, 1, 0, [0]⟩]]) ∧
      s.portRole (portKey 1) = some (r, some 0) ∧
      (let u := onBus (s.setEdge (portKey 1) { EdgePort.init with rx := { Queue.init with toks := [tok 77] } })
      ((u.edge (portKey 1)).inQ (portKey 1)).toks = [tok 77] ∧ isHostAddr (r.outAddr + 64 * 0) = true ∧ u.busOff = false ∧
        ok (exec (.streamPortDrain 1) u) (fun t => t.stk.runs.map (fun r => r.written) == [1] && t.hostBytes 0 2 == [77, 0])) ∧
      (let u := s.setEdge (portKey 1) { EdgePort.init with rx := { Queue.init with toks := [markToken 6 0] } }
      ok (exec (.streamPortDrain 1) u) (fun t => (t.edge (portKey 1)).rx.epoch == 6))) ∧
    (let w := (warmState []).setEdge (portKey 1) { EdgePort.init with tx := { Queue.init with toks := [tok 5] } }
    let s := w.setGrate 11 { Grate.init with tab := [(64, 2)] }
    slotMask (s.grate 11) 11 1 (s.grEntry 11 0) ≠ 0 ∧ mayWait (s.edge (portKey 1)).txWord (s.edge (portKey 1)).tx = false ∧
      ok (exec (.streamPortSend 1) s) (fun t => t.hearth.present == [(11, 1, { tok 5 with port := some (portKey 1) })] &&
        (t.edge (portKey 1)).tx.toks.isEmpty)) := by decide +kernel

/-- DmaAndServicesComplete, data movement: a COPY of 3 bytes and a FILL of 9 in host memory, a timestamp with and without DST, and
what lands (R303, R305, R341). -/
theorem witness_dma :
    (let h := 2 ^ 63
    let w := { onBus State.reset with hostMem := [(1, 5), (2, 6)] }
    let c := flying w (flyOf 9 (descOf [(0, 4), (8, h), (16, h + 8), (24, 3)]))
    let g := flying w (flyOf 9 (descOf [(0, 5), (8, h + 8), (16, 9), (24, 0x0807060504030201)]))
    waits c 9 4 = true ∧ c.dmaHeld = false ∧ c.busOff = false ∧
      ok (exec (.copyDesc 9) c) (fun t => t.hostBytes 8 3 == [0, 5, 6] && (t.fly 9).map Fly.outcome == some (some (stOk, 3))) ∧
      waits g 9 5 = true ∧ ok (exec (.fillDesc 9) g) (fun t => t.hostBytes 8 9 == [1, 2, 3, 4, 5, 6, 7, 8, 1])) ∧
    (let s := atFrc (flying State.reset (flyOf 9 (descOf [(0, 8)]))) 123
    waits s 9 8 = true ∧ ok (exec (.timestampDesc 9) s) (fun t => posted t == [(stOk, 123)])) ∧
    (let d := descOf [(0, 8), (8, 2 ^ 63 + 64)]
    let s := flying (onBus State.reset) { flyOf 9 d with begun := true, outcome := some (stOk, 0) }
    dfield d 8 8 ≠ 0 ∧ runs s 9 = true ∧
      ok (exec (.dmaComplete (some 9)) s) (fun t => posted t == [(stOk, 0)] && t.hostBytes 64 12 == leBytes 12 s.timeNow)) ∧
    (let d := descOf [(0, 4), (8, 2 ^ 63), (24, 3)]
    let s := flying State.reset { flyOf 9 d with begun := true, outcome := some (stOk, 3) }
    runs s 9 = true ∧ opClass (dOp d) ≠ some 2 ∧
      ok (exec (.dmaComplete (some 9)) s) (fun t => posted t == [(stOk, 3)]) ∧
      ok (exec (.completionTimeout 9 2 1 false) s) (fun t => (t.fly 9).map Fly.outcome == some (some (stPoison, 3))) ∧
      ok (exec (.completionTimeout 9 2 1 true) s) (fun t => (t.fly 9).map Fly.outcome == some (some (stBusOff, 3)))) ∧
    (let w := State.reset
    let r := { run9 1 ⟨none, 0, 0, []⟩ with inAddr := 2 ^ 63 }
    let s : State := { w with stk := { w.stk with runs := [r], flights := [flyOf 9 (descOf [(0, 3)])] } }
    s.runOf 9 = some r ∧ 0 < 2 * r.elems ∧
      ok (exec (.completionTimeout 9 0 64 false) s) (fun t => t.stk.runs.map (fun r => (r.sawPoison, r.lost)) == [(true, [(0, 64)])]) ∧
      (let g : GraphEnt := { graph1 with comb := some 1, stateBytes := 128 }
      let q : Run := { r with graph := g, inAddr := 0, stateAddr := 2 ^ 63, combQueue := [(5, Tags.clear), (6, Tags.clear)] }
      ok (exec (.completionTimeout 9 (1024 + 64) 1 true) { s with stk := { s.stk with runs := [q] } }) (fun t =>
        t.stk.runs.map (fun r => (r.busOff, r.combQueue.map fun x => x.2)) == [(true, [Tags.clear, ⟨false, true⟩])]))) ∧
    (let d := descOf [(0, 1), (8, 2 ^ 63)]
    let s := withHearth (flying State.reset (flyOf 9 d)) fun x => { x with load := some ⟨9, false, 1, d, [], none⟩ }
    runs s 9 = true ∧ ok (exec (.completionTimeout 9 0 64 false) s) (fun t => t.hearth.load.isNone && posted t == [(stLoader 4, 0)]) ∧
      (let u := withHearth s fun x => { x with load := some ⟨9, true, 3, d, [], none⟩, img := some (imgOf 0 []) }
      ok (exec (.completionTimeout 9 0 64 true) u) (fun t => t.hearth.load.isNone && t.hearth.img.isNone && posted t == [(stBusOff, 0)]))) := by
  decide +kernel

/-- DmaAndServicesComplete, services: SNAPSHOT of 1 tick, while one runs, and with its START just far enough and too near, READ_DIGESTS, ATTEST that waits, and RESYNC by
descriptor, and by register while one writes and as it ends (R305, R323, R430). -/
theorem witness_services :
    (let s := flying State.reset (flyOf 9 (descOf [(0, 9), (16, 1)]))
    waits s 9 9 = true ∧ s.flag ingStatus_SnapBusy = false ∧
      ok (exec (.snapshotDesc 9) s) (fun t => t.flag ingStatus_SnapBusy && t.ing.snapTag == some 9) ∧
      ok (exec (.snapshotDesc 9) (s.setF ingStatus_SnapBusy 1)) (fun t => posted t == [(stBusy, 0)]) ∧
      ok (exec (.snapshotDesc 9) (flying State.reset (flyOf 9 (descOf [(0, 9), (16, 1), (24, 2)])))) (fun t => t.ing.snapFrom == 2) ∧
      ok (exec (.snapshotDesc 9) (flying State.reset (flyOf 9 (descOf [(0, 9), (16, 1), (24, 1)])))) (fun t => posted t == [(stBadOperand, 0)])) ∧
    (let s := flying State.reset (flyOf 9 (descOf [(0, 12)]))
    waits s 9 12 = true ∧ ok (exec (.readDigests 9) s) (fun t => (t.fly 9).map (fun f => (f.outcome.map Prod.snd)) == some (some 0))) ∧
    (let s := flying State.reset (flyOf 9 (descOf [(0, 13)]))
    let b : State := { s with sec := { s.sec with busy := some (none, 0, 0, []) } }
    waits s 9 13 = true ∧ s.sec.stopped = false ∧ s.sec.busy = none ∧ s.sec.waiting = [] ∧
      ok (exec (.attestDesc 9) b) (fun t => t.sec.waiting == [9])) ∧
    (let s := flying State.reset (flyOf 9 (descOf [(0, 14), (8, 0x1000)]))
    waits s 9 14 = true ∧ isHostAddr (s.getF stkResyncAddr_Addr) = false ∧ s.stk.resyncBusy = false) ∧
    (let s : State := { State.reset with stk := { Stk.reset with resyncBusy := true } }
    ok (exec .resyncGo s) (fun t => t.flag stkStatus_WrRefused) ∧
      ok (exec (.dmaComplete none) s) (fun t => t.flag stkStatus_ResyncDone && !t.stk.resyncBusy)) := by decide +kernel

/-! ### HBM -/

/-- AccessAboveHbmIsADecodeError: the first address above HBM by a read and a write, and the last sector below it (R371). -/
theorem witness_decode_error : 0x4800000000 ≤ 0x4800000000 ∧ State.reset.flt.released = true ∧
    ok (exec (.hbmSectorRead 6 0x4800000000 0 none) State.reset) (fun t => t.getF memDecodeErrF == 1 && t.mem.outPoison &&
      t.mem.out == List.replicate 32 0 && (t.flt.pend.map Assertion.src) == [29]) ∧
    ok (exec (.hbmSectorWrite 6 0x4800000000 1 1 false) State.reset) (fun t => t.getF memDecodeErrF == 1 && t.mem.hbm.isEmpty) ∧
    ok (exec (.hbmSectorRead 6 0x47FFFFFFE0 0 none) State.reset) (fun t => t.getF memDecodeErrF == 0 && !t.mem.outPoison) := by decide +kernel

/-- HBM with bytes and check differences, and what the merge buffers hold. -/
def hbmState (hbm check : SMap Byte) (merge : List MergeEnt) : State :=
  { State.reset with mem := { Mem.reset with hbm := hbm, check := check, merge := merge } }

/-- HbmStoresAndDelivers, sectors: a whole write, a poisoned one, a partial one, one symbol in error (first and last) and as a hard
fault, and a poisoned read (R375 to R378, R382). -/
theorem witness_sectors :
    (let s := hbmState [(64, 7)] [] [⟨2, 0, 1, 0, 6, 0x1FF⟩]
    s.secBad 2 = false ∧ s.hbmIdle 2 = true ∧ s.flag memInj_Armed = false ∧
      ok (exec (.hbmSectorWrite 6 64 0xFFFFFFFF 3 false) s) (fun t => t.secBytes 2 == leBytes 32 3 && (t.held 2).isNone) ∧
      ok (exec (.hbmSectorWrite 6 64 0xFFFFFFFF 3 true) s) (fun t => t.secDiff 2 == poisonDiff)) ∧
    (let s := hbmState [(64, 7)] [] []
    (2 : W32) ≠ 0 ∧ (2 : W32) ≠ 0xFFFFFFFF ∧ s.held 2 = none ∧ s.hbmIdle 2 = true ∧ mget (fun _ => 0) s.mem.faults 2 = 0 ∧ s.secDiff 2 = [0, 0, 0, 0] ∧
      ok (exec (.hbmSectorWrite 6 64 2 0x0900 false) s) (fun t => (t.held 2).map MergeEnt.mask == some 2 && t.secBytes 2 == leBytes 32 7) ∧
      ok (exec (.hbmSectorRead 6 64 0 none) s) (fun t => t.mem.out == leBytes 32 7 && t.getF (memStackCeF 0) == 0) ∧
      ok (exec (.hbmSectorRead 6 64 0 (some 255)) s) (fun t => t.mem.out == leBytes 32 7 && t.getF (memStackCeF 0) == 1 &&
        mget (fun _ => 0) t.mem.faults 2 == 255) ∧
      ok (exec (.hbmSectorRead 6 64 255 none) s) (fun t => t.mem.out == leBytes 32 7 && t.getF (memStackCeF (stackOf 2)) == 1) ∧
      ok (exec (.hbmSectorRead 6 64 (BitVec.ofNat 288 (2 ^ 280)) none) s) (fun t => t.mem.out == leBytes 32 7 &&
        t.getF (memStackCeF (stackOf 2)) == 1)) ∧
    (let s := hbmState [(64, 7)] [(8, 0xFF), (9, 0xFF)] []
    s.held 2 = none ∧ s.secDiff 2 = poisonDiff ∧
      ok (exec (.hbmSectorRead 6 64 0 none) s) (fun t => t.mem.outPoison && t.getF (memStackUeF (stackOf 2)) == 1)) := by decide +kernel

/-- HbmStoresAndDelivers, slots: a request that finds its cycle's slot taken, one whose crossing resynchronises, one that yields to ACQ, and the refreshes of the last
pseudo-channel and of none (R28, R373, R375). -/
theorem witness_slots_taken :
    (let w := State.reset
    let s : State := { w with mem := { w.mem with slots := [(0, w.cyc + 1)] } }
    s.secBad 2 = false ∧ pcOf 2 = 0 ∧ ok (exec (.hbmSectorRead 6 64 0 none) s) (fun t => t.mem.waits == [⟨6, 64, none, 0⟩])) ∧
    (let w := State.reset
    let s : State := { w with pwr := { w.pwr with cdcSync := [(14, w.cyc + 1)] } }
    s.secBad 2 = false ∧ s.syncing 14 = true ∧ ok (exec (.hbmSectorRead 6 64 0 none) s) (fun t => t.mem.waits == [⟨6, 64, none, 0⟩])) ∧
    (let s := (st [(trgPoolRingSize_Size 0, 1)]).setPool 0 { Pool.init with on := true, pos := 2, wbuf := [1, 2] }
    s.syncing 14 = false ∧ s.waitsAt 0 = [] ∧ s.acqWaits 0 = some (0, 2) ∧
      ok (exec (.hbmSectorRead 6 64 0 none) s) (fun t => t.mem.waits == [⟨6, 64, none, 0⟩] && (t.pool 0).wbuf.isEmpty)) ∧
    State.reset.channelIdle 383 = true ∧ ok (exec (.hbmRefresh 383 0) State.reset) (fun t => t.mem.slots == [(383, State.reset.cyc + 1)]) ∧
    (let s : State := { State.reset with mem := { Mem.reset with slots := [(383, State.reset.cyc + 1)] } }
    s.channelIdle 383 = false) ∧
    same (.hbmRefresh 384 0) State.reset := by decide +kernel

/-- HbmStoresAndDelivers, the rest: a held entry at its timeout and before it, for a read, as the oldest of a full buffer, and in a
failed stack; refresh 85 and 86, a leak, INJ, clearing, and BAR2 to
the last byte of its window (R372, R381 to R384, R388). -/
theorem witness_hbm_rest :
    (let e : MergeEnt := ⟨2, 0x0900, 2, 0, 6, 0x1FF⟩
    let s := hbmState [(64, 7)] [] [e]
    let late : State := { s with cyc := s.getF memMergeCfg_Timeout }
    let early : State := { s with cyc := s.getF memMergeCfg_Timeout - 1 }
    s.held 2 = some e ∧ s.flag memInj_Armed = false ∧ s.secDiff 2 = [0, 0, 0, 0] ∧
      s.secBad 2 = false ∧ mget (fun _ => 0) s.mem.faults 2 = 0 ∧
      (let r : State := { s with mem := { s.mem with waits := [⟨6, 64, none, 0⟩] } }
      r.readWaits 2 = true ∧ ok (exec (.readModifyWrite 2 2 0) r) (fun t => t.secBytes 2 == leBytes 32 0x0907 && (t.held 2).isNone) ∧
        s.readWaits 2 = false ∧ same (.readModifyWrite 2 2 0) s) ∧
      ok (exec (.readModifyWrite 2 0 0) late) (fun t => t.secBytes 2 == leBytes 32 0x0907 && (t.held 2).isNone) ∧
      same (.readModifyWrite 2 0 0) early ∧
      (let full := hbmState [] [] (e :: (List.range 63).map fun i => ⟨2 + 3072 * (i + 1), 1, 1, 0, 6, 0x1FF⟩)
      let r : State := { full with mem := { full.mem with waits := [⟨6, 32 * (2 + 3072 * 64), some (1, 1, false), 0⟩] } }
      r.held 2 = some e ∧ r.evictee (pcOf 2) = some e ∧ r.entryNeeded (pcOf 2) = true ∧ full.entryNeeded (pcOf 2) = false ∧
        same (.readModifyWrite 2 1 0) full ∧
        ok (exec (.readModifyWrite 2 1 0) r) (fun t => (t.held 2).isNone && t.getF (memStackMergeEvictF 0) == 1)) ∧
      (let bad := late.setF (memStackStatus_Failed 0) 1
      bad.secBad 2 = true ∧ ok (exec (.mergeTimeout 2) bad) (fun t => (t.held 2).isNone && t.getF memDecodeErrF == 1 &&
        t.mem.hbm == [(64, 7)])) ∧
      ok (exec (.mergeTimeout 2) late) (fun t => t.secBytes 2 == leBytes 32 0x0907 && t.getF (memStackMergeRmwF (stackOf 2)) == 1) ∧
      early.cyc - e.born < early.getF memMergeCfg_Timeout ∧ same (.mergeTimeout 2) early) ∧
    ok (exec (.hotRefresh 5 85) State.reset) (fun t => !t.flag (memStackStatus_HotRefresh 5)) ∧
    ok (exec (.hotRefresh 5 86) State.reset) (fun t => t.flag (memStackStatus_HotRefresh 5)) ∧
    (let s := atFrc (st [(memStackCfg_Leak 5, 1), (memStackBucket_Level 5, 4)]) (64 * 1024)
    s.getF (memStackCfg_Leak 5) * 1024 ≠ 0 ∧ 0 < s.tick / 1024 ∧
      ok (exec (.hbmBucketLeak 5) s) (fun t => t.getF (memStackBucket_Level 5) == 3) ∧
      ok (exec (.hbmBucketLeak 5) (atFrc s (64 * 2050))) (fun t => t.getF (memStackBucket_Level 5) == 2 &&
        t.mem.leakFrom == [(5, 2048)]) ∧ same (.hbmBucketLeak 5) (atFrc s (64 * 1024 - 1)) ∧
      same (.hbmBucketLeak 5) (s.setF (memStackCfg_Leak 5) 0)) ∧
    bitsAt (42 : W32).toNat 3 3 = 5 ∧ bitsAt (42 : W32).toNat 0 2 = 2 ∧
    ok (exec (.memInjWrite 42) State.reset) (fun t => t.flag memInj_Armed && t.getF memInj_Stack == 5) ∧
    ok (exec (.memInjWrite 42) (st [(memInj_Armed, 1)])) (fun t => t.flag memStatus_WrRefused) ∧
    (let s := hbmState [(2 ^ 30 - 1, 9)] [] []
    (2 ^ 30 - 1) + 1 ≤ s.bar2Size ∧ s.barOn = true ∧ 1 ≤ s.pcie.maxRead ∧ s.pcie.maxPayload = 128 ∧
      ok (exec (.bar2Read (2 ^ 30 - 1) 1) s) (fun t => t.bar2Data == [9]) ∧
      ok (exec (.bar2Write 0 (List.replicate 32 4) false) s) (fun t => t.secBytes 0 == List.replicate 32 4) ∧
      (let u : State := { s with pcie := s.pcie.setWord 0x44 3 }
      u.pwr.ioLow = false ∧ u.pcie.asleep = true ∧
        ok (exec (.bar2Read 0 1) u) (fun t => t.bar2Data.isEmpty && (t.pcie.word 0x104).testBit 20))) := by decide +kernel

/-! ### The Ashpit -/

/-- An assertion of a source. -/
def assertion (n : Nat) : Assertion := ⟨n, 0, 0, 0⟩

/-- A state whose Ashpit has assertions waiting. -/
def asserted (s : State) (ns : List Nat) : State := { s with flt := { s.flt with pend := ns.map assertion } }

/-- AshpitCollectsAndReacts, sources: source 4 with every reaction, source 4 again while its bit is set, the level source 20, and source 1 without an
assertion (R391, R392, R397, R400, R401, R404). -/
theorem witness_ashpit :
    (let s := asserted (st [(⟨fltReact 4, 0, 8⟩, 0xDE), (fltCtrl_Vector, 200)]) [4, 4]
    srcInfo 4 ≠ none ∧ (s.flt.pend.filter fun a => a.src == 4) ≠ [] ∧ s.flag ⟨fltSrcStatus 0, 4, 1⟩ = false ∧
      s.reactions 4 = 0xDE ∧ s.reactTick = 1 ∧
      ok (exec (.faultStatusSet 4 none) s) (fun t => t.flag ⟨fltSrcStatus 0, 4, 1⟩ && t.getF (fltCntF 4) == 2 &&
        t.pcie.pending.toNat.testBit 200 && t.flt.log.map Prod.fst == [4] && t.flt.pulse == some (s.cyc + 4, s.cyc + 4 + 1500 * max 2 (s.getF fltPinCtrl_Pulse)) &&
        t.hearth.haltAt == some 1 && t.flag fltStatus_Safe && t.flt.chip == some (4, true))) ∧
    (let s := asserted (st [(⟨fltReact 4, 0, 8⟩, 0xDE), (⟨fltSrcStatus 0, 4, 1⟩, 1)]) [4]
    s.flag ⟨fltSrcStatus 0, 4, 1⟩ = true ∧ ok (exec (.faultStatusSet 4 none) s) (fun t => t.getF (fltCntF 4) == 1 && !t.safe)) ∧
    (let s := st [(chmCtrl_En, 1)]
    (s.flt.released && true && s.levelHolds 20) = true ∧ (srcInfo 20).map SrcInfo.level = some true ∧
      ok (exec (.faultStatusSet 20 none) s) (fun t => t.flag ⟨fltSrcStatus 0, 20, 1⟩ && t.getF (fltCntF 20) == 1)) ∧
    ((State.reset.flt.released && false && State.reset.levelHolds 1) = false ∧ same (.faultStatusSet 1 none) State.reset) := by decide +kernel

/-- AshpitCollectsAndReacts, times: a pulse over and not over, with an armed chip reset and without, a held block that restarts, and
the bucket (R393, R397, R400). -/
theorem witness_ashpit_time :
    (let s : State := { State.reset with cyc := 9, flt := { Flt.reset with pulse := some (4, 9) } }
    let c : State := { s with flt := { s.flt with chip := some (255, true) } }
    s.flt.pulse = some (4, 9) ∧ 9 ≤ s.cyc ∧ s.flt.chip = none ∧
      ok (exec .errPulseEnd s) (fun t => t.flt.pulse.isNone) ∧
      c.flt.chip = some (255, true) ∧
      same .errPulseEnd { s with cyc := 8 }) ∧
    (let s : State := { State.reset with cyc := 9, flt := { Flt.reset with blocked := [(175, 9), (175, 10), (20, 3)] } }
    ok (exec (.blockRestart 175) s) (fun t => t.flt.blocked == [(175, 10), (20, 3)])) ∧
    (let s := atFrc (st [(fltHceCfg_Leak, 1), (fltHceBucket_Level, 4)]) (64 * 1024)
    s.getF fltHceCfg_Leak * 1024 ≠ 0 ∧ s.flt.hceFrom + 1024 ≤ s.tick ∧ 4 ∉ s.flt.upset ∧
      ok (exec .hceBucketLeak s) (fun t => t.getF fltHceBucket_Level == 3) ∧ same .hceBucketLeak (s.setF fltHceCfg_Leak 0)) := by
  decide +kernel

/-- AshpitCollectsAndReacts, commands: EXIT allowed, not, and with the word of a set source, of another one and of SAFE_CTRL upset, INJ of source 37 at the last site that is on and at one that is off, a
parity failure and an injected one, the safe state, and the release (R397, R402, R404 to R406). -/
theorem witness_ashpit_commands :
    (let s := st [(fltStatus_Safe, 1)]
    let u (w : Nat) : State := { st [(fltStatus_Safe, 1), (⟨fltSrcStatus 0, 20, 1⟩, 1)] with flt := { s.flt with upset := [w] } }
    25 ∈ (u 25).flt.upset ∧
      ok (exec .safeExit (u 25)) (fun t => t.safe && t.flag fltStatus_SelfFault && t.flag fltStatus_WrRefused) ∧
      ok (exec .safeExit (u 24)) (fun t => !t.safe && t.flt.upset == [24]) ∧ ok (exec .safeExit (u 2)) (fun t => !t.safe && t.flt.upset == []) ∧
      ok (exec .safeExit { State.reset with flt := { s.flt with upset := [2, 3] } }) (fun t => t.flt.upset == [3]) ∧
      ok (exec .clrCntFlt { State.reset with flt := { s.flt with upset := [0, 3] } }) (fun t => t.flt.upset == [3]) ∧
    s.safe = true ∧ s.flag fltStatus_SelfFault = false ∧ s.safeHeld = false ∧ ok (exec .safeExit s) (fun t => !t.safe) ∧
      ok (exec .safeExit (s.setF fltStatus_SelfFault 1)) (fun t => t.safe && t.flag fltStatus_WrRefused)) ∧
    (let v (site : Nat) : W32 := BitVec.ofNat 32 (37 + 256 * site + 2 ^ 29)
    (srcInfo 37).map SrcInfo.inj = some true ∧ State.reset.siteOn 287 = true ∧ State.reset.siteOn 288 = false ∧
      ok (exec (.fltInjWrite (v 287)) State.reset) (fun t => t.flag fltInj_Armed && t.getF fltInj_Site == 287) ∧
      ok (exec (.fltInjWrite (v 288)) State.reset) (fun t => !t.flag fltInj_Armed && t.flag fltStatus_WrRefused) ∧
      ok (exec (.fltInjWrite (v 287)) (st [(fltInj_Armed, 1)])) (fun t => t.flag fltStatus_WrRefused)) ∧
    (State.reset.flag fltInj_Armed = false ∧ State.reset.flt.released = true ∧ same (.fltParityScan 260 true) State.reset ∧
      ok (exec (.fltParityScan 260 false) State.reset) (fun t => t.flag fltStatus_SelfFault && t.flt.upset == [260] &&
        t.flt.pend.map Assertion.src == [0]) ∧
      (let s := st [(fltInj_Armed, 1)]
      s.getF fltInj_Source = 0 ∧ ok (exec (.fltParityScan 0 true) s) (fun t => t.flag fltStatus_SelfFault && !t.flag fltInj_Armed))) ∧
    ok (exec .safeEnter State.reset) (fun t => t.safe && t.hearth.haltAt == some 1) ∧
    (let s : State := { State.reset with flt := Flt.cold }
    s.flt.released = false ∧ s.flag pwrPllStatus_Core = true ∧ ok (exec .ashpitRelease s) (fun t => t.flt.released) ∧
      same .ashpitRelease (s.setF pwrPllStatus_Core 0) ∧ same .ashpitRelease { s with pwr := { s.pwr with ioLow := true } }) := by decide +kernel

/-! ### The Firebox -/

/-- The part on its bus with a Firebox, an input of host memory at address 2^63, and fields set. -/
def firebox (ws : List (Fld × Nat)) (c : Sec) (host : SMap Byte) : State :=
  { onBus (st ((secAddr_Addr, 2 ^ 63) :: ws)) with sec := c, hostMem := host }

/-- FireboxServesRequests, refusals: a mailbox command while one is served, after a glitch, and in a chip held in reset (R413, R426, R444). -/
theorem witness_mailbox_busy :
    (let s := st [(secStatus_Busy, 1)]
    s.flag secStatus_Busy = true ∧ ok (exec .setSvn s) (fun t => t.flag secStatus_WrRefused && t.sec.busy.isNone) ∧
      ok (exec .getInfo s) (fun t => t.flag secStatus_WrRefused)) ∧
    (let s : State := { State.reset with sec := { Sec.reset with stopped := true } }
    s.flag secStatus_Busy = false ∧ s.sec.stopped = true ∧ same .setSvn s ∧ same .getInfo s ∧ same .readLog s) ∧
    same .debugChallenge { State.reset with pwr := { Pwr.reset with ioLow := true } } := by decide +kernel

/-- FireboxServesRequests, commands that no key decides: SET_SVN up to 64, DEBUG_LOCK, ATTEST without a ready tree, with every
block used and with a block whose bit does not verify, ENROLL_OWNER and FUSE_OFF_VENDOR outside their state, and the tree (R416, R417, R419, R420, R425). -/
theorem witness_mailbox :
    (let s := firebox [(secLen_Bytes, 32)] { Sec.reset with svn := 70, scopes := 7 } []
    s.flag secStatus_Busy = false ∧ s.sec.stopped = false ∧ s.sec.bootFailed = false ∧ isHostAddr (s.getF secAddr_Addr) = true ∧
      s.busOff = false ∧ 32 ≤ s.getF secLen_Bytes ∧ s.sec.takeLeaf s.part.weakBlocks = .busy ∧ s.sec.lifecycle = 0 ∧
      ok (exec .setSvn s) (fun t => t.sec.fwSvn == 64 && t.flag secStatus_Busy) ∧
      ok (exec .debugLock s) (fun t => t.sec.scopes == 0) ∧ s.pwr.ioLow = false ∧
      ok (exec .enrollOwner { s with sec := { s.sec with ownerHash := 9 } }) (fun t => t.sec.busy == some (none, rcOtpFail, 0, [])) ∧
      ok (exec .mailboxAttest s) (fun t => t.sec.busy == some (none, rcBusy, 0, [])) ∧
      ok (exec .fuseOffVendor s) (fun t => t.sec.busy == some (none, rcDenied, 0, [])) ∧
      s.sec.running = true ∧ s.sec.topBuild = false ∧ s.sec.ready = false ∧ s.sec.block < 1024 ∧
      ok (exec .treeRegenerated s) (fun t => t.sec.ready)) ∧
    (let s := firebox [(secLen_Bytes, 32)] { Sec.reset with block := 1023, leaf := 1024, ready := true, ownerSet := true } []
    s.sec.takeLeaf s.part.weakBlocks = .exhausted ∧ s.sec.lifecycle = 1 ∧
      ok (exec .mailboxAttest s) (fun t => t.sec.busy == some (none, rcExhausted, 0, [])) ∧
      ok (exec .enrollOwner s) (fun t => t.sec.busy == some (none, rcDenied, 0, []))) ∧
    (let c : Sec := { Sec.reset with block := 2, leaf := 1023, ready := true, leafA := 4, leafB := 4 }
    let d : Sec := { c with leaf := 1024, nextReady := true }
    let e : Sec := { c with block := 3, leafA := 12, nextReady := false }
    let s := firebox [(secLen_Bytes, 32)] d []
    c.takeLeaf 0 = .use (2 * 1024 + 1023) { c with leaf := 1024 } ∧ d.takeLeaf 0 = .use (3 * 1024) { e with leaf := 1, leafB := 12 } ∧
      d.takeLeaf 8 = .failed { e with leaf := 1024 } ∧
      ok (exec .mailboxAttest { s with part := { s.part with weakBlocks := 8 } }) (fun t => t.sec.busy == some (none, rcOtpFail, 0, []) &&
        t.flt.pend.map Assertion.src == [14])) := by decide +kernel

/-- FireboxServesRequests, input that a signature decides: the bytes of a token with the nonce of the part, of an enrolment and of
FUSE_OFF_VENDOR reach the Firebox; which one verifies depends on DEVICE_ID, a free value (log entry 6). -/
theorem witness_mailbox_input :
    (let s := firebox [(secLen_Bytes, 72)] { Sec.reset with nonce := some (256 * 5) } [(0, 0x44), (1, 0x44), (2, 0x42), (3, 0x47), (41, 5)]
    let tok := s.hostBytes (s.getF secAddr_Addr % 2 ^ 63) 72
    72 ≤ s.getF secLen_Bytes ∧ dfield tok 0 4 = 0x47424444 ∧ s.sec.nonce = some (BitVec.ofNat 256 (dfield tok 40 32))) ∧
    (let s := firebox [(secLen_Bytes, 188)] Sec.reset [(64, 1)]
    188 ≤ s.getF secLen_Bytes ∧ s.sec.ownerHash = 0 ∧ s.part.weakHash = 0 ∧ s.sec.lifecycle = 0 ∧ dfield ((s.hostBytes 0 188).drop 60) 4 1 = 1) ∧
    (let s := firebox [(secLen_Bytes, 188)] { Sec.reset with ownerSet := true, nonce := some 4 } [(4, 1)]
    s.sec.lifecycle = 1 ∧ s.sec.nonce = some 4 ∧ dfield (s.hostBytes 0 188) 4 1 = 1) := by decide +kernel

/-- FireboxServesRequests, a glitch and the end of an enrolment with its vector (R396, R413, R426). -/
theorem witness_firebox_end :
    (State.reset.flt.released = true ∧ ok (exec .glitchDetect State.reset) (fun t => t.sec.stopped &&
      t.flt.pend.map Assertion.src == [15])) ∧
    (let s := firebox [(secLen_Bytes, 2), (secStatus_Busy, 1), (secCtrl_IrqEn, 1), (secCtrl_Vector, 31)]
      { Sec.reset with busy := some (none, 0, 3, [7, 8, 9]), enrolling := true } []
    s.sec.busy = some (none, 0, 3, [7, 8, 9]) ∧ s.sec.waiting = [] ∧
      ok (exec .fireboxRequestDone s) (fun t => t.flag secStatus_Done && !t.flag secStatus_Busy && t.hostBytes 0 3 == [7, 8, 0] && t.sec.ownerSet && !t.sec.enrolling &&
        t.pcie.pending.toNat.testBit 31)) := by decide +kernel

/-! ### Resets, release and the PCI Express attachment -/

/-- ResetsAndTheHostLink, resets and release: PERST_N of 999 and 1,000 ns, an armed chip reset that waits for its pulse, an empty
merge buffer, the fill, and the release with each condition missing (R387, R397, R440, R447, R448). -/
theorem witness_resets :
    1000 ≤ 1000 ∧ 999 < 1000 ∧ same (.perstAssert 999) State.reset ∧ State.reset.flt.chip = none ∧ State.reset.mem.merge = [] ∧
    (let s (a : Nat) : State := { State.reset with cyc := 9, flt := { Flt.reset with chip := some (3, true), pulse := some (a, 10) } }
    (s 10).pulseDue = true ∧ same .chipReset (s 10) ∧ (s 9).pulseOn = true ∧ same .chipReset (s 9)) ∧
    (let w := st [(memStatus_InitDone, 0)]
    let s : State := { w with pwr := { w.pwr with hbmLost := true }, mem := { w.mem with hbm := [(3, 4)] } }
    s.flag memStatus_InitDone = false ∧ s.pwr.hbmLost = true ∧
      ok (exec (.hbmFillDone 0x20) s) (fun t => t.flag memStatus_InitDone && t.mem.hbm.isEmpty && t.flag (memStackStatus_Failed 5) &&
        !t.flag (memStackStatus_Failed 0)) ∧
      ok (exec (.hbmFillDone 0x20) { s with pwr := { s.pwr with hbmLost := false } }) (fun t => decide (t.mem.hbm = [(3, 4)]))) ∧
    (let s : State := { State.reset with pwr := { Pwr.reset with released := false } }
    s.pwr.released = false ∧ s.flag memStatus_InitDone = true ∧ s.sec.signalled = true ∧ s.pcie.perst = false ∧ s.pwr.ioLow = false ∧
      ok (exec .coreRelease s) (fun t => t.pwr.released && t.frc == 0) ∧
      same .coreRelease (s.setF memStatus_InitDone 0) ∧ same .coreRelease { s with sec := { s.sec with signalled := false } } ∧
      same .coreRelease { s with pcie := { s.pcie with perst := true } } ∧
      same .coreRelease { s with pwr := { s.pwr with ioLow := true } }) := by decide +kernel

/-- ResetsAndTheHostLink, the link: up and down with PERST_N idle and asserted, FLR, vector 255, and BAR2 sizes (R429, R433, R439,
R442). -/
theorem witness_link :
    (let s := onBus State.reset
    s.pcie.perst = false ∧ ok (exec .pcieLinkDown s) (fun t => t.flag glbPcieStatus_LinkLost && t.busOff) ∧
      ok (exec .pcieLinkDown { s with pcie := { s.pcie with perst := true } }) (fun t => !t.flag glbPcieStatus_LinkLost) ∧
      linkOption 4 6 true = true ∧ linkOption 4 6 false = false ∧ same (.pcieLinkUp 4 6 false 7) State.reset ∧
      ok (exec (.pcieLinkUp 4 6 true 7) State.reset) (fun t => t.flag glbPcieStatus_LinkUp && t.flag glbPcieStatus_Flit &&
        t.getF glbPcieStatus_Width == 4 && t.getF glbPcieStatus_Speed == 6 && t.pcie.rateReq == some 7)) ∧
    (let s := flying (onBus State.reset) (flyOf 3 [])
    ok (exec .flr s) (fun t => t.stk.flights.isEmpty && t.pcie.up) ∧
      ok (exec .flr (flying s (flyOf 4 (descOf [(0, 2)])))) (fun t => t.stk.flights.map (fun f => (f.tag, f.orphan)) == [(4, true)])) ∧
    (let w := onBus State.reset
    let s : State := { w with pcie := { w.pcie with table := [(1020, 0x10), (1021, 0x20), (1022, 0x30), (1023, 0)],
                                                    pending := BitVec.ofNat 256 (2 ^ 255 + 1), msixEnable := true } }
    s.pcie.pending.toNat.testBit 255 = true ∧ s.pcie.funcMask = false ∧ s.busOff = false ∧
      same (.msixSend 255) { s with pcie := { s.pcie with up := false } } ∧
      ok (exec (.msixSend 255) s) (fun t => t.pcie.sent == [(0x2000000010, 0x30)] && t.pcie.pending == 1) ∧
      same (.msixSend 0) s ∧ same (.msixSend 254) s) ∧
    (State.reset.flag glbPcieStatus_Mse = false ∧ ok (exec (.bar2Resize 9) State.reset) (fun t => t.bar2Size == 2 ^ 39) ∧
      same (.bar2Resize 10) State.reset ∧ same (.bar2Resize 9) (st [(glbPcieStatus_Mse, 1)])) := by decide +kernel

/-- ResetsAndTheHostLink, configuration space of a function that is ready and of one that is not, and its Device Control (R431, R432,
R436). -/
theorem witness_config :
    (let w := State.reset
    let s : State := { w with pcie := { w.pcie with ready := true } }
    s.pcie.ready = true ∧ ok (exec (.rcCounterRead .config 0x09 2) s) (fun t => t.readData == 0 && !t.readRetry) ∧
      ok (exec (.rcCounterRead .config 0x0B 1) s) (fun t => t.readData == 0x12) ∧
      ok (exec (.registerWrite .config 0x78 2 0x10) s) (fun t => t.pcie.relaxOn) ∧
      ok (exec (.registerWrite .config 0x78 2 0) s) (fun t => !t.pcie.relaxOn)) ∧
    (let s : State := { State.reset with pcie := { Pcie.reset with ready := false } }
    s.pwr.ioLow = false ∧ ok (exec (.rcCounterRead .config 0 4) s) (fun t => t.readRetry) ∧
      ok (exec (.registerWrite .config 4 2 6) s) (fun t => t.readRetry && !t.flag glbPcieStatus_Bm)) := by decide +kernel

/-! ### Supplies, clocks, the Damper and optical safety -/

/-- MonitorsRaiseTheirSources, rails and clocks: VDD_CORE both ways, the last HBM rail, PLLs of each kind, and the reference (R444,
R449, R450, R451). -/
theorem witness_rails :
    State.reset.pwr.released = true ∧ State.reset.flt.released = true ∧
    ok (exec (.railOutOfTolerance 1 true) State.reset) (fun t => t.flt.level == [4] && t.getF ⟨pwrRails, 1, 1⟩ == 0) ∧
    ok (exec (.railOutOfTolerance 1 false) State.reset) (fun t => t.flt.level == [3] && t.pwr.coreLowFrom == some 0) ∧
    ok (exec (.railOutOfTolerance 12 false) State.reset) (fun t => t.pwr.hbmLost && t.getF ⟨pwrRails, 12, 1⟩ == 0) ∧
    ok (exec (.railOutOfTolerance 3 false) (onBus State.reset)) (fun t => t.busOff) ∧
    (let s : State := { st [(⟨pwrRails, 1, 1⟩, 0)] with flt := { Flt.reset with level := [3] } }
    ok (exec (.railReturn 1) s) (fun t => t.flt.level.isEmpty && t.getF ⟨pwrRails, 1, 1⟩ == 1)) ∧
    ok (exec (.pllUnlock 0) State.reset) (fun t => t.flt.level == [10]) ∧
    ok (exec (.pllUnlock 14) State.reset) (fun t => t.flt.level == [11]) ∧
    State.reset.stackBad 5 = false ∧
    ok (exec (.pllUnlock 20) State.reset) (fun t => t.stackBad 5 && t.flt.pend.map Assertion.src == [175]) ∧
    ok (exec .refclkLoss State.reset) (fun t => t.flt.level == [12] && t.flag pwrStatus_Holdover) := by decide +kernel

/-- MonitorsRaiseTheirSources, targets: AVS from 0, to 800 at most, too early; temperatures at each bound; the last crossing; and
EXTEST with and without PERST_N (R452, R453, R461, R479). -/
theorem witness_monitors :
    (let s : State := { st [(pwrAvs_Target, 800)] with cyc := 15000 }
    State.reset.getF pwrAvs_Target = 0 ∧ ok (exec (.avsStep false true) State.reset) (fun t => t.getF pwrAvs_Target == 650) ∧
      s.pwr.avsFrom + 15000 ≤ s.cyc ∧ ok (exec (.avsStep true true) s) (fun t => t.getF pwrAvs_Target == 800) ∧
      ok (exec (.avsStep false true) s) (fun t => t.getF pwrAvs_Target == 795) ∧
      ok (exec (.avsStep true false) s) (fun t => t.flag pwrStatus_AvsErr && t.getF pwrAvs_Target == 800) ∧
      same (.avsStep true true) { s with cyc := 14999 }) ∧
    (let h : Int := State.reset.getF pwrTemp_High
    ok (exec (.tempThreshold h) State.reset) (fun t => t.flt.level.contains 8) ∧
      ok (exec (.tempThreshold (h - 1)) State.reset) (fun t => !t.flt.level.contains 8) ∧
      (let s : State := { State.reset with flt := { Flt.reset with level := [8, 9] } }
      ok (exec (.tempThreshold (h - 4)) s) (fun t => t.flt.level.contains 8) ∧
        ok (exec (.tempThreshold (h - 5)) s) (fun t => !t.flt.level.contains 8) ∧
        ok (exec (.tempThreshold 111) s) (fun t => t.flt.level.contains 9) ∧
        ok (exec (.tempThreshold 110) s) (fun t => !t.flt.level.contains 9) ∧
        ok (exec (.tempThreshold 115) State.reset) (fun t => t.flt.level.contains 9))) ∧
    ok (exec (.cdcTimeout 20) State.reset) (fun t => t.pwr.cdcDead == 2 ^ 20 && t.flt.pend.map Assertion.src == [2]) ∧
    ok (exec (.cdcResync 20 3) { State.reset with pwr := { Pwr.reset with cdcSync := [(20, 1)] } }) (fun t => t.getF pwrCdcDropF == 3 &&
      !t.syncing 20) ∧
    ok (exec (.extest 3) State.reset) (fun t => t.jtagNow == 0 && ({ t with pcie := { t.pcie with perst := true } } : State).jtagNow == 3) ∧
    ok (exec (.extest 3) { State.reset with pcie := { Pcie.reset with perst := true } }) (fun t => t.jtagNow == 3) ∧
    ok (exec (.extest 4) State.reset) (fun t => t.jtagNow == 0) ∧
    ok (exec (.extest 4) { State.reset with sec := { Sec.reset with scopes := 4 } }) (fun t => t.jtagNow == 4 && t.pwr.shift.isNone) ∧
    ok (exec (.extest 1) State.reset) (fun t => t.jtagNow == 1 && t.pwr.shift.isSome) := by decide +kernel

/-- DamperKeepsCapsAndSlew: allowances of 0 within the caps, at cycle 0 and at cycle 1 (R454 to R456). -/
theorem witness_damper : State.reset.cycle = 0 ∧
    State.reset.capsOk ((List.range 26).map fun g => if State.reset.demand g then State.reset.getF (pwrAllow_Cycles g) else 0) = true ∧
    (atFrc State.reset 1).cycle ≠ 0 ∧ same .damperUpdate (atFrc State.reset 1) := by decide +kernel

/-- FibresFollowTheirCompanions: fibre 29 lost while on and while off, present in PROBE for 750,000 cycles and one fewer, a pulse, the
third trip of a Flue, and a Flue fault (R463 to R466). -/
theorem witness_fibres :
    (let s := st [(optTxState_State 29, txOn), (optTxState_Companion 29, 1)]
    s.flt.released = true ∧ s.getF (optTxState_State 29) = txOn ∧
      ok (exec (.companionLoss 29) s) (fun t => t.getF (optTxState_State 29) == txProbe && t.getF (optTxAprCntF 29) == 1 &&
        t.flt.pend.map Assertion.src == [176 + 3 * txFlue 29]) ∧
      ok (exec (.companionLoss 28) s) (fun t => t.getF (optTxAprCntF 28) == 1 && t.flt.pend.isEmpty)) ∧
    (let s : State := { st [(optTxState_State 33, txProbe), (optTxState_Companion 33, 1)] with cyc := 750000 }
    s.getF (optTxState_State 33) = txProbe ∧ (s.tx 33).presentFrom + 750000 ≤ s.cyc ∧
      ok (exec (.transmitterOn 33) s) (fun t => t.getF (optTxState_State 33) == txOn) ∧
      same (.transmitterOn 33) { s with cyc := 749999 } ∧
      same (.probePulse 33) { s with cyc := 150000000 } ∧
      (let u : State := { st [(optTxState_State 29, txProbe)] with cyc := 150000000 }
      ok (exec (.probePulse 29) u) (fun t => t.txPulsing 29 && (t.tx 29).probeFrom == 150000000))) ∧
    (let k := txFlue 33
    let w := st [(optTxState_State 33, txOn)]
    let s : State := { w with cyc := 1500000000, pwr := { w.pwr with trips := [(k, [1400000000, 1])] } }
    s.getF (optTxState_State 33) ≠ txFault ∧
      ok (exec (.clampTrip 33) s) (fun t => t.flag (optFlue_Fault k) && t.getF (optTxState_State 33) == txFault) ∧
      same (.clampTrip 33) (s.setF (optTxState_State 33) txFault) ∧
      ok (exec (.clampTrip 33) w) (fun t => t.getF (optTxState_State 33) == txOff && t.pwr.clamped.isEmpty) ∧
      ok (exec (.clampTrip 29) (st [(optTxState_State 29, txOn)])) (fun t => t.getF (optTxState_State 29) == txProbe && t.pwr.clamped == [29])) ∧
    ok (exec (.flueFault 13) State.reset) (fun t => t.flag (optFlue_Fault 13) && t.flag (optFlue_SupplyOpen 13) &&
      (t.flt.pend.map Assertion.src).getLast? == some (178 + 3 * 13)) := by decide +kernel

/-! ### Zhevvel Links, twins and digests -/

/-- Link n enabled, in lock and frozen, with what it holds. -/
def linkOn (ws : List (Fld × Nat)) (n : Nat) (l : ZlLink) : State :=
  (st ((zlLinkCfg_En n, 1) :: (zlLinkStatus_FrameLock n, 1) :: (zlLinkStatus_Frozen n, 1) :: (zlLinkLz_Lz n, 320) :: ws)).setZlink n l

/-- The lane blocks of a frame of zeros, whose codeword is one. -/
def zeroLanes : List (BitVec 2640) := List.replicate 8 (BitVec.ofNat 2640 (2 ^ 2639))

/-- The lane blocks of a frame with 20 symbols in error: the polynomial with roots α^0 to α^18, which no 18 errors explain. -/
def badLanes : List (BitVec 2640) :=
  (frameLanes [] (BitVec.ofNat 21104 ((rsGen 19).zipIdx.map fun c => c.1 * 2 ^ (11 * c.2)).sum)).map Prod.fst

/-- LinksSendReceiveAndRelease, frames: a link off, the cycles of a frame, a frame in time, one whose lane header is invalid, one too
late, and one that cannot be corrected (R344 to R346, R351). -/
theorem witness_frames :
    same (.zlFrameSend 23) State.reset ∧
    (let s (c n : Nat) := atFrc (linkOn [] 23 { ZlLink.init with build := List.replicate n 0 }) c
    (s 0 0).cycle = 0 ∧ (s 38 38).flag (zlLinkCfg_En 23) = true ∧ ((s 38 38).zlink 23).build.length = (s 38 38).cycle ∧
      (s 39 39).cycle = 39 ∧ ((s 39 39).zlink 23).build.length = 39 ∧ (s 0 0).txSafeNow = false ∧ (s 0 0).flueDead (txFlue 23) = false ∧
      ok (exec (.zlFrameSend 23) (s 0 0)) (fun t => (t.zlink 23).build.length == 1) ∧
      ok (exec (.zlFrameSend 23) (s 38 38)) (fun t => (t.zlink 23).build.length == 39)) ∧
    (let l := { ZlLink.init with lastTick := 5 }
    let s := atFrc (linkOn [] 22 l) 390
    s.zlListens 22 = true ∧ s.flag (zlLinkStatus_FrameLock 22) = true ∧ s.flag (zlLinkStatus_Frozen 22) = true ∧
      s.zlDecode 22 zeroLanes = (true, some 0, 0) ∧ (s.zlDecode 22 (zeroLanes.set 7 0)).1 = false ∧
      64 * nearTick s.tick 5 + s.getF (zlLinkLz_Lz 22) = 640 ∧ (s.zlink 22).failRun + 1 < 4 ∧
      ok (exec (.zlFrameReceive 22 zeroLanes 0) s) (fun t => t.getF (zlLinkFecCeF 22) == 0 && (t.zlink 22).frames.map RxFrame.tick == [5]) ∧
      ok (exec (.zlFrameReceive 22 (zeroLanes.set 7 0) 0) s) (fun t => t.getF (zlLinkFecUeF 22) == 0 && (t.zlink 22).frames.length == 1) ∧
      ok (exec (.zlFrameReceive 22 zeroLanes 0) (atFrc s 641)) (fun t => t.getF (zlLinkLateF 22) == 1 && (t.zlink 22).frames.isEmpty) ∧
      (let u := s.setF (zlLinkStatus_Frozen 22) 0
      ok (exec (.zlFrameReceive 22 zeroLanes 0) u) (fun t => (t.zlink 22).frames.map RxFrame.tick == [5]) ∧
        ok (exec (.zlFrameReceive 22 zeroLanes 0) (atFrc u 641)) (fun t => t.getF (zlLinkLateF 22) == 0 && (t.zlink 22).frames.isEmpty)) ∧
      ok (exec (.zlFrameReceive 22 badLanes 0) s) (fun t => t.getF (zlLinkFecUeF 22) == 1 && (t.zlink 22).frames.length == 1)) := by
  decide +kernel

/-- LinksSendReceiveAndRelease, releases: a container of slot 38 at its cycle, and an absent frame of an unreliable slot (R345, R349,
R357). -/
theorem witness_release :
    (let b : Binding := ⟨23, 1, true, false, 0, 2 ^ 38⟩
    let f : RxFrame := ⟨0, List.replicate 39 ((tok 6).container, false, true)⟩
    let w := atFrc (linkOn [(glbImgState_Halted, 0), (glbImgState_Running, 1)] 1 { ZlLink.init with frames := [f] }) (38 + 320)
    let s : State := { w with zl := { w.zl with bindings := [b] } }
    s.bindingAt 1 38 true = some b ∧ s.running = true ∧ (s.edge (edgeCross 23)).rx.toks.length < edgeDepth (edgeCross 23) ∧
      f.conts[38]? = some ((tok 6).container, false, true) ∧ (tokenOf (tok 6).container).void = false ∧
      ok (exec (.zlContainerRelease 1 38) s) (fun t => (t.edge (edgeCross 23)).rx.toks == [tok 6]) ∧
      38 ∉ s.reliableSlots 1 ∧
      ok (exec (.zlContainerRelease 1 38) (s.setZlink 1 { ZlLink.init with rxSeq := [(23, 9)] })) (fun t =>
        (t.edge (edgeCross 23)).rx.toks.map (fun k => (k.suspect, k.seq)) == [(true, 9)])) := by decide +kernel

/-- LinksSendReceiveAndRelease, control: a retry at its time, an echo of 1,024 ticks, and FREEZE at both bounds and outside (R347,
R348, R352). -/
theorem witness_link_control :
    (let k : KeptFrame := ⟨7, [], 0⟩
    let s := atFrc (linkOn [] 0 { ZlLink.init with kept := [k] }) (64 * (2 * 5 + 4))
    (s.zlink 0).resend.head? ≠ some 7 ∧ (s.zlink 0).turn ≠ some 7 ∧ s.flag (zlLinkStatus_LinkDown 0) = false ∧ (s.zlink 0).goBacks + 1 < 32 ∧
      k.sentTick + 2 * ((s.getF (zlLinkLz_Lz 0) + 63) / 64) + 4 ≤ s.tick ∧
      ok (exec (.zlRetryTimeout 0) s) (fun t => (t.zlink 0).resend == [7] && t.getF (zlLinkRetryF 0) == 1) ∧
      same (.zlRetryTimeout 0) (atFrc s (64 * 13)) ∧ same (.zlRetryTimeout 0) (s.setZlink 0 { s.zlink 0 with turn := some 7 })) ∧
    (let s := atFrc (linkOn [] 0 { ZlLink.init with echo := some (1, 2, 0) }) (64 * 1024)
    ok (exec (.zlEchoTimeout 0) s) (fun t => t.flag (zlLinkStatus_EchoTimeout 0) && (t.zlink 0).echo.isNone)) ∧
    (let s (lz : Nat) := st [(zlLinkStatus_EchoValid 0, 1), (zlLinkDz_Dz 0, 257), (zlLinkLz_Lz 0, lz)]
    (sint 32 ((s 0).getF (zlLinkDz_Dz 0)) + 255) / 256 = 2 ∧
      ok (exec (.zlFreeze 0) (s 322)) (fun t => t.flag (zlLinkStatus_Frozen 0)) ∧
      ok (exec (.zlFreeze 0) (s 577)) (fun t => t.flag (zlLinkStatus_Frozen 0)) ∧
      ok (exec (.zlFreeze 0) (s 321)) (fun t => !t.flag (zlLinkStatus_Frozen 0) && t.flag zlStatus_WrRefused) ∧
      ok (exec (.zlFreeze 0) (s 578)) (fun t => t.flag zlStatus_WrRefused)) := by decide +kernel

/-- TwinStatesAndDigestWindows, the way in: ATTACH with JOIN 16 ticks ahead and 15, in step at JOIN + SETTLE and before, and a
restart with T0 at JOIN and elsewhere, and of a chip that has diverged (R365, R366). -/
theorem witness_attach :
    (let s (join : Nat) := st [(zlTwinCtrl_Role, 2), (zlLinkStatus_Frozen 23, 1), (zlLinkStatus_FrameLock 23, 1), (zlJoin_Tick, join),
      (glbSettle_Settle, 4)]
    (s 16).canAttach = true ∧ ok (exec .twinAttach (s 16)) (fun t => t.getF zlTwinStatus_State == twAttaching) ∧
      (s 15).canAttach = false ∧ ok (exec .twinAttach (s 15)) (fun t => t.flag zlStatus_WrRefused)) ∧
    (let s := st [(zlTwinStatus_State, twAttaching), (zlJoin_Tick, 6), (glbSettle_Settle, 4)]
    s.getF zlTwinStatus_State = twAttaching ∧ ok (exec .twinInSync (atFrc s 640)) (fun t => t.getF zlTwinStatus_State == twInSync) ∧
      same .twinInSync (atFrc s 639)) ∧
    (let w := atFrc (st [(zlJoin_Tick, 6), (glbHotT0_T0, 6)]) 384
    let s : State := { w with zl := { w.zl with restartArmed := true } }
    s.getF zlJoin_Tick ≤ s.tick ∧ s.getF glbHotT0_T0 = s.getF zlJoin_Tick ∧
      ok (exec .twinRestartCheck s) (fun t => t.getF zlTwinStatus_State == twInSync && t.flag zlTwinStatus_CoverageGap) ∧
      ok (exec .twinRestartCheck (s.setF glbHotT0_T0 5)) (fun t => t.getF zlTwinStatus_State == twDiverged && t.getF zlDivTick_Tick == 6) ∧
      ok (exec .twinRestartCheck (s.setF zlTwinStatus_State twDiverged)) (fun t => t.getF zlTwinStatus_State == twDiverged) ∧
      same .twinRestartCheck w) := by decide +kernel

/-- TwinStatesAndDigestWindows, the way out: DETACH, 16 ticks of it, a promotion at cycle 0 and at cycle 1, and a demotion (R363, R364,
R367). -/
theorem witness_twin_out :
    (let s := st [(zlTwinStatus_State, twInSync)]
    s.getF zlTwinStatus_State ≠ twDetaching ∧ ok (exec .twinDetach s) (fun t => t.getF zlTwinStatus_State == twDetaching)) ∧
    (let s := st [(zlTwinStatus_State, twDetaching)]
    s.zl.detachFrom + 16 ≤ (atFrc s 1024).tick ∧
      ok (exec .twinDetached (atFrc s 1024)) (fun t => t.getF zlTwinStatus_State == twDetached && t.zl.voidAll)) ∧
    (let w := st [(zlTwinStatus_State, twInSync), (zlTwinCtrl_Role, 2)]
    let s : State := { w with zl := { w.zl with promoteDue := true } }
    s.cycle = 0 ∧ s.flt.released = true ∧
      ok (exec .twinPromote s) (fun t => t.getF zlTwinCtrl_Role == 1 && t.flag zlTwinStatus_Promoted &&
        (t.flt.pend.map Assertion.src).contains 161) ∧
      same .twinPromote (atFrc s 1) ∧ same .twinPromote w) ∧
    (let w := st [(zlTwinCtrl_Role, 1)]
    let s : State := { w with zl := { w.zl with demoteDue := true } }
    ok (exec .twinDemote s) (fun t => t.getF zlTwinCtrl_Role == 2 && t.flag chmCtrl_Shadow) ∧ same .twinDemote w) := by decide +kernel

/-- TwinStatesAndDigestWindows, windows: the hot one of tick 0 with a share and a take, and a warm one before and after its unit's
step (R338 to R340). -/
theorem witness_digest_windows :
    (let i : ImgInfo := { imgOf 1 [] with points := [⟨3, 0, 0, 1, []⟩] }
    let w := withHearth (run []) fun x => { x with img := some i, halts := [(0, 0)], twinTick := 1, twinCrc := 77 }
    let s := atFrc (w.setUnit 4 { HUnit.init with digs := [⟨3, 0, 9, true, false⟩] }) 64
    s.hotImage = some i ∧ s.cycle = 0 ∧ 0 < s.tick ∧ s.ranLast = true ∧ s.zl.digests = [] ∧
      mget (fun _ => 0) s.hearth.t0s (s.getF glbImgState_Epoch) ≤ s.tick - 1 ∧
      ok (exec .hotDigestWindowClose s) (fun t => t.getF glbTwinDig_Digest == 77 && t.zl.digests == [(0, some 77)] &&
        (t.hearth.img.map fun j => j.points.map fun p => p.hist.map fun h => (h.1, h.2.1)) == some [[(0, 1)]])) ∧
    (let i : ImgInfo := { imgOf 0 [0, 2] with points := [⟨3, 1, 7, 1, []⟩], graphs := [graph1] }
    let v := withHearth (run [(glbPlaceMap_Map, 1), (hrtUnitCfg_Mode 1, 2)]) fun x => { x with img := some i }
    let w := v.setUnit 1 { HUnit.init with digs := [⟨3, 0, 9, false, false⟩] }
    let s := v.setUnit 1 { HUnit.init with step := 1, digs := [⟨3, 0, 9, false, false⟩] }
    i.points.find? (fun p => p.point == 3 && p.region == 1) = some ⟨3, 1, 7, 1, []⟩ ∧ i.graphs.find? (fun g => g.graph == 7) = some graph1 ∧
      (s.graphUnits graph1).contains 1 = true ∧
      ok (exec (.warmDigestWindowClose 3) s) (fun t =>
        (t.hearth.img.map fun j => j.points.map fun p => p.hist.map Prod.fst) == some [[0]]) ∧
      ok (exec (.warmDigestWindowClose 3) (v.setUnit 1 { HUnit.init with pastStep := 1, digs := [⟨3, 0, 9, false, false⟩] })) (fun t =>
        (t.hearth.img.map fun j => j.points.map fun p => p.hist.map Prod.fst) == some [[0]]) ∧
      same (.warmDigestWindowClose 3) w ∧ same (.warmDigestWindowClose 3) (s.setF glbImgState_Running 0)) := by decide +kernel

end Sys2Proof.Tests
end

section
/-!
# What every operation of the model keeps

`Keeps clk s t` says that `t` has the part and the queue of `s`, that its stores are canonical if those of `s` are, and,
when `clk` is true, that the clocks and the release of the core are those of `s`. There is one lemma per operation of
the model, in the order of the model's files: each takes `Keeps clk s₀ s` to the state after the operation, so that the
proof for an operation that is a chain of smaller ones is the same chain. An operation that loads FRC, counts a cycle or
resets the core has its lemma for `Keeps False` only.

`exec_keeps` collects them for every command, `step_keeps` for the step.
-/

set_option autoImplicit false
-- The lemmas are many and short: each in a task of its own is more than the check's threads.
set_option Elab.async false

namespace Sys2Proof.Machine

/-- What `t` has kept of `s`: part, queue, canonical stores, and, if `clk`, the clocks and the release of the core. -/
structure Keeps (clk : Prop) (s t : State) : Prop where
  part : t.part = s.part
  pending : t.pending = s.pending
  canon : s.Canon → t.Canon
  clocks : clk → t.frc = s.frc ∧ t.cyc = s.cyc ∧ t.hcyc = s.hcyc ∧ t.pwr.released = s.pwr.released

/-- An outcome that is a next state keeps what `Keeps` names. -/
def KeepsOut (clk : Prop) (s : State) : Host.Outcome State Fault Refusal → Prop
  | .next t => Keeps clk s t
  | .fault _ => True
  | .refused _ => True

variable {clk : Prop} {s₀ s : State}

/-! ## Composition -/

theorem Keeps.refl (s : State) : Keeps clk s s := ⟨rfl, rfl, id, fun _ => ⟨rfl, rfl, rfl, rfl⟩⟩

theorem Keeps.trans {t : State} (h : Keeps clk s₀ s) (ht : Keeps clk s t) : Keeps clk s₀ t :=
  ⟨ht.part.trans h.part, ht.pending.trans h.pending, ht.canon ∘ h.canon, fun hk => by
    obtain ⟨hf, hc, hh, hr⟩ := h.clocks hk
    obtain ⟨hf', hc', hh', hr'⟩ := ht.clocks hk
    exact ⟨hf'.trans hf, hc'.trans hc, hh'.trans hh, hr'.trans hr⟩⟩

/-- An operation that rewrites components without clocks and stores; those of HBM and power may change but for HBM's
contents and the release of the core. -/
theorem Keeps.update (h : Keeps clk s₀ s)
    {hiCap readData readUr readRetry bar2Data bar2Ep setNow incNow freeIx ing stk flt sec pcie trg pools chm tim zl}
    {hearth mem pwr}
    (hbm : mem.hbm = s.mem.hbm := by rfl) (check : mem.check = s.mem.check := by rfl)
    (released : pwr.released = s.pwr.released := by rfl) :
    Keeps clk s₀
      { s with
        hiCap, readData, readUr, readRetry, bar2Data, bar2Ep, setNow, incNow, freeIx, ing, stk, flt, sec, pcie, trg
        pools, chm, tim, zl, hearth, mem, pwr } :=
  h.trans ⟨rfl, rfl, fun hc => hc.congr rfl rfl hbm check rfl, fun _ => ⟨rfl, rfl, rfl, released⟩⟩

/-- An operation that rewrites components, clocks among them, but no store. -/
theorem Keeps.updateClocks {t : State} (h : Keeps False s₀ s) (part : t.part = s.part := by rfl)
    (pending : t.pending = s.pending := by rfl) (regs : t.regs = s.regs := by rfl)
    (hbm : t.mem.hbm = s.mem.hbm := by rfl) (check : t.mem.check = s.mem.check := by rfl)
    (host : t.hostMem = s.hostMem := by rfl) : Keeps False s₀ t :=
  h.trans ⟨part, pending, fun hc => hc.congr part regs hbm check host, False.elim⟩

theorem Keeps.ite {c : Prop} [Decidable c] {a b : State} (ha : Keeps clk s₀ a) (hb : Keeps clk s₀ b) :
    Keeps clk s₀ (if c then a else b) := by split <;> assumption

/-- A test chooses between two pairs. -/
theorem Keeps.iteFst {α : Type} {c : Prop} [Decidable c] {a b : State × α} (ha : Keeps clk s₀ a.1)
    (hb : Keeps clk s₀ b.1) : Keeps clk s₀ (if c then a else b).1 := by split <;> assumption

theorem Keeps.foldl {α : Type} {f : State → α → State} {xs : List α} (h : Keeps clk s₀ s)
    (hf : ∀ s x, Keeps clk s₀ s → Keeps clk s₀ (f s x)) : Keeps clk s₀ (xs.foldl f s) := by
  induction xs generalizing s with
  | nil => exact h
  | cons x xs ih => exact ih (hf _ _ h)

/-- An operation under a condition. -/
theorem Keeps.maybe (h : Keeps clk s₀ s) {c : Prop} [Decidable c] {t : State}
    (ht : Keeps clk s₀ s → Keeps clk s₀ t) : Keeps clk s₀ (if c then t else s) := (ht h).ite h

/-- An operation unless a condition holds. -/
theorem Keeps.maybeNot (h : Keeps clk s₀ s) {c : Prop} [Decidable c] {t : State}
    (ht : Keeps clk s₀ s → Keeps clk s₀ t) : Keeps clk s₀ (if c then s else t) := h.ite (ht h)

/-- A function that also answers a value gives a pair. -/
theorem Keeps.snd {α : Type} {a : α} (h : Keeps clk s₀ s) : Keeps clk s₀ (a, s).2 := h

/-- A function that also answers a value gives a pair. -/
theorem Keeps.fst {α : Type} {a : α} (h : Keeps clk s₀ s) : Keeps clk s₀ (s, a).1 := h

/-! ## Register operations (`Machine/Ops`) -/

theorem Keeps.setWord (h : Keeps clk s₀ s) {off v} : Keeps clk s₀ (s.setWord off v) :=
  h.trans ⟨rfl, rfl, fun hc => hc.setWord off v, fun _ => ⟨rfl, rfl, rfl, rfl⟩⟩

theorem Keeps.setF (h : Keeps clk s₀ s) {f v} : Keeps clk s₀ (s.setF f v) := h.setWord.maybeNot fun h1 => h1.setWord

theorem Keeps.bump (h : Keeps clk s₀ s) {f k} : Keeps clk s₀ (s.bump f k) := h.setF.update

theorem Keeps.raise (h : Keeps clk s₀ s) {f} : Keeps clk s₀ (s.raise f) := h.setF.update

theorem Keeps.setWords (h : Keeps clk s₀ s) {off xs} : Keeps clk s₀ (s.setWords off xs) := by
  induction xs generalizing s off with
  | nil => exact h
  | cons x xs ih => exact ih h.setWord

theorem Keeps.resetWords (h : Keeps clk s₀ s) {p} : Keeps clk s₀ (s.resetWords p) :=
  h.trans ⟨rfl, rfl, fun hc => hc.resetWords p, fun _ => ⟨rfl, rfl, rfl, rfl⟩⟩

theorem Keeps.clearCounters (h : Keeps clk s₀ s) {p} : Keeps clk s₀ (s.clearCounters p) := h.resetWords.update

theorem Keeps.when (h : Keeps clk s₀ s) {ok t} (ht : Keeps clk s₀ t) : Keeps clk s₀ (s.when ok t) := ht.ite h

theorem Keeps.draw (h : Keeps clk s₀ s) {w} : Keeps clk s₀ (s.draw w).2 := h.update

theorem Keeps.drawBytes (h : Keeps clk s₀ s) {n} : Keeps clk s₀ (s.drawBytes n).2 := h.update

theorem Keeps.assertSrc (h : Keeps clk s₀ s) {n info rank} : Keeps clk s₀ (s.assertSrc n info rank) :=
  Keeps.ite h.update h

theorem Keeps.levelOn (h : Keeps clk s₀ s) {n info} : Keeps clk s₀ (s.levelOn n info) := Keeps.ite h h.assertSrc.update

theorem Keeps.levelOff (h : Keeps clk s₀ s) {n} : Keeps clk s₀ (s.levelOff n) := h.update

theorem Keeps.aer (h : Keeps clk s₀ s) {i} : Keeps clk s₀ (s.aer i) := h.update

theorem Keeps.hostPut (h : Keeps clk s₀ s) {a bs data} : Keeps clk s₀ (s.hostPut a bs data) :=
  h.trans ⟨rfl, rfl, fun hc => hc.hostPut a bs data, fun _ => ⟨rfl, rfl, rfl, rfl⟩⟩

theorem Keeps.trySend (h : Keeps clk s₀ s) {v} : Keeps clk s₀ (s.trySend v) := Keeps.ite h.update h

theorem Keeps.signal (h : Keeps clk s₀ s) {v} : Keeps clk s₀ (s.signal v) := h.update

theorem Keeps.setCq (h : Keeps clk s₀ s) {q c} : Keeps clk s₀ (s.setCq q c) := h.update

theorem Keeps.evtLost (h : Keeps clk s₀ s) : Keeps clk s₀ s.evtLost := h.bump.assertSrc

theorem Keeps.hand (h : Keeps clk s₀ s) {q e} : Keeps clk s₀ (s.hand q e) := Keeps.ite h.bump.raise.assertSrc h.setCq

theorem Keeps.event (h : Keeps clk s₀ s) {q ty src tick body} : Keeps clk s₀ (s.event q ty src tick body) :=
  Keeps.ite h.hand h.evtLost

theorem Keeps.routed (h : Keeps clk s₀ s) {route ty src tick body} : Keeps clk s₀ (s.routed route ty src tick body) :=
  Keeps.ite h.event h.evtLost

theorem Keeps.refuse (h : Keeps clk s₀ s) {off} : Keeps clk s₀ (s.refuse off) := by
  unfold State.refuse
  split
  · exact h
  · exact h.raise

theorem Keeps.setIf (h : Keeps clk s₀ s) {ok f v} : Keeps clk s₀ (s.setIf ok f v) :=
  Keeps.ite h.setF (Keeps.ite h h.refuse)

/-! ## HBM (`Machine/Hbm`) -/

theorem Keeps.feCapture (h : Keeps clk s₀ s) {kind acc master site sec} :
    Keeps clk s₀ (s.feCapture kind acc master site sec) :=
  Keeps.ite h h.raise.setF.setWord.setF

theorem Keeps.decodeError (h : Keeps clk s₀ s) {acc master site sec} :
    Keeps clk s₀ (s.decodeError acc master site sec) :=
  h.bump.raise.feCapture.assertSrc

theorem Keeps.bucketLeak (h : Keeps clk s₀ s) {st} : Keeps clk s₀ (s.bucketLeak st) := Keeps.ite h h.update.setF

theorem Keeps.corrected (h : Keeps clk s₀ s) {st} : Keeps clk s₀ (s.corrected st) :=
  Keeps.ite h.bucketLeak.bump.setF.bump.assertSrc h.bucketLeak.bump.setF

theorem Keeps.countRead (h : Keeps clk s₀ s) {r acc master site sec} :
    Keeps clk s₀ (s.countRead r acc master site sec) := by
  unfold State.countRead
  split
  · exact h
  · exact h.corrected
  · exact h.bump.feCapture

theorem Keeps.storeSector (h : Keeps clk s₀ s) {sec bs poison} : Keeps clk s₀ (s.storeSector sec bs poison) := by
  unfold State.storeSector
  extract_lets st hit mode inj diff hbm check src s1 s2
  have h1 : Keeps clk s₀ s1 := h.trans ⟨rfl, rfl, fun hc => hc.putHbm _ _ bs diff, fun _ => ⟨rfl, rfl, rfl, rfl⟩⟩
  have h2 : Keeps clk s₀ s2 := h1.setF.ite h1
  exact h2.bump.ite h2

theorem Keeps.rmw (h : Keeps clk s₀ s) {sec data mask poison master site err} :
    Keeps clk s₀ (s.rmw sec data mask poison master site err) :=
  (h.countRead.maybe fun h1 => h1.bump).storeSector

theorem Keeps.dropHeld (h : Keeps clk s₀ s) {sec} : Keeps clk s₀ (s.dropHeld sec) := h.update

theorem Keeps.writeBack (h : Keeps clk s₀ s) {e master site err} : Keeps clk s₀ (s.writeBack e master site err) :=
  Keeps.ite h.dropHeld.decodeError h.dropHeld.rmw

theorem Keeps.flushFor (h : Keeps clk s₀ s) {sec master site} : Keeps clk s₀ (s.flushFor sec master site) := by
  unfold State.flushFor
  split
  · exact h
  · exact h.bump.writeBack

theorem Keeps.makeRoom (h : Keeps clk s₀ s) {sec master site} : Keeps clk s₀ (s.makeRoom sec master site) := by
  unfold State.makeRoom
  split
  · exact h.bump.writeBack
  · exact h

theorem Keeps.addHeld (h : Keeps clk s₀ s) {e} : Keeps clk s₀ (s.addHeld e) := h.update

theorem Keeps.getSector (h : Keeps clk s₀ s) {master site sec err} :
    Keeps clk s₀ (s.getSector master site sec err).1 := by
  unfold State.getSector
  dsimp only
  split
  · exact h.decodeError.fst
  · exact h.flushFor.countRead.fst

theorem Keeps.putSector (h : Keeps clk s₀ s) {master site sec data mask poison} :
    Keeps clk s₀ (s.putSector master site sec data mask poison) := by
  unfold State.putSector
  dsimp only
  split
  · exact h.decodeError
  split
  · exact h
  split
  · exact h.dropHeld.storeSector
  · exact Keeps.ite h.dropHeld.rmw (Keeps.ite h.dropHeld.storeSector (Keeps.ite h.update h.makeRoom.addHeld))

theorem Keeps.setPool (h : Keeps clk s₀ s) {c p} : Keeps clk s₀ (s.setPool c p) := h.update

theorem Keeps.acqPut (h : Keeps clk s₀ s) {put c n k}
    (hput : ∀ sec data mask s, Keeps clk s₀ s → Keeps clk s₀ (put sec data mask s)) :
    Keeps clk s₀ (s.acqPut put c n k) := by
  induction k generalizing s n with
  | zero => exact h
  | succ k ih => exact h.ite (ih (hput _ _ _ _ h.setPool))

theorem Keeps.arbMove (h : Keeps clk s₀ s) {pc master} : Keeps clk s₀ (s.arbMove pc master) :=
  Keeps.ite h.update h.update

theorem Keeps.hbmServe (h : Keeps clk s₀ s) {r} : Keeps clk s₀ (s.hbmServe r) := by
  unfold State.hbmServe
  dsimp only
  split
  · exact h.update.arbMove.putSector
  · exact h.update.arbMove.getSector.update

theorem Keeps.acqTurn (h : Keeps clk s₀ s) {pc} : Keeps clk s₀ (s.acqTurn pc) := by
  unfold State.acqTurn
  split
  · exact h
  · exact (h.acqPut (fun _ _ _ _ h1 => h1.putSector)).arbMove

theorem Keeps.acqAll (h : Keeps clk s₀ s) {pc n} : Keeps clk s₀ (s.acqAll pc n) := by
  induction n generalizing s with
  | zero => exact h
  | succ n ih => exact Keeps.ite (ih h.acqTurn) h

theorem Keeps.hbmServeAll (h : Keeps clk s₀ s) {pc zero n} : Keeps clk s₀ (s.hbmServeAll pc zero n) := by
  induction n generalizing s with
  | zero => exact h
  | succ n ih =>
    unfold State.hbmServeAll
    split
    · exact h
    · exact Keeps.ite h (ih h.hbmServe)

theorem Keeps.hbmServeAhead (h : Keeps clk s₀ s) {pc master n} : Keeps clk s₀ (s.hbmServeAhead pc master n) := by
  induction n generalizing s with
  | zero => exact h
  | succ n ih =>
    unfold State.hbmServeAhead
    split
    · exact h
    · exact Keeps.ite (ih h.hbmServe) h

theorem Keeps.takeSlot (h : Keeps clk s₀ s) {pc} : Keeps clk s₀ (s.takeSlot pc) := h.update

theorem Keeps.hbmGrant (h : Keeps clk s₀ s) {pc master} : Keeps clk s₀ (s.hbmGrant pc master) := by
  unfold State.hbmGrant
  exact ((Keeps.ite h.hbmServeAll.acqAll.hbmServeAhead (h.hbmServeAll.maybe fun h1 => h1.acqTurn)).arbMove).takeSlot

theorem Keeps.slotGrant (h : Keeps clk s₀ s) {pc} : Keeps clk s₀ (s.slotGrant pc) := by
  unfold State.slotGrant
  split
  · exact h
  · exact Keeps.ite h (Keeps.ite h.takeSlot.acqTurn h.takeSlot.hbmServe)

theorem Keeps.hbmRequest (h : Keeps clk s₀ s) {r} : Keeps clk s₀ (s.hbmRequest r) :=
  Keeps.ite h.update.hbmServe h.update.slotGrant

theorem Keeps.refreshDue (h : Keeps clk s₀ s) {pc} : Keeps clk s₀ (s.refreshDue pc) :=
  Keeps.ite h.takeSlot (Keeps.ite h.draw.takeSlot h.draw.update)

theorem Keeps.refreshFirst (h : Keeps clk s₀ s) {xs} : Keeps clk s₀ (s.refreshFirst xs) := by
  induction xs generalizing s with
  | nil => exact h
  | cons x xs ih => exact Keeps.ite (ih h.update.takeSlot) (ih h)

theorem Keeps.refreshIdle (h : Keeps clk s₀ s) {xs} : Keeps clk s₀ (s.refreshIdle xs) := by
  induction xs generalizing s with
  | nil => exact h
  | cons x xs ih => exact Keeps.ite (ih h.update.takeSlot) (ih h.draw.update)

theorem Keeps.slotGrants (h : Keeps clk s₀ s) {xs} : Keeps clk s₀ (s.slotGrants xs) := by
  induction xs generalizing s with
  | nil => exact h
  | cons x xs ih => exact ih h.slotGrant

theorem Keeps.readSector (h : Keeps clk s₀ s) {master site sec err} :
    Keeps clk s₀ (s.readSector master site sec err).1 :=
  (Keeps.ite h h.hbmGrant).getSector

theorem Keeps.writeSector (h : Keeps clk s₀ s) {master site sec data mask poison} :
    Keeps clk s₀ (s.writeSector master site sec data mask poison) :=
  (Keeps.ite h h.hbmGrant).putSector

theorem Keeps.readSectors (h : Keeps clk s₀ s) {master site sec n} :
    Keeps clk s₀ (s.readSectors master site sec n).1 := by
  induction n generalizing s sec with
  | zero => exact h.fst
  | succ n ih => exact (ih h.readSector).fst

theorem Keeps.hbmRead (h : Keeps clk s₀ s) {master site a n} : Keeps clk s₀ (s.hbmRead master site a n).1 :=
  h.readSectors

theorem Keeps.writeSectors (h : Keeps clk s₀ s) {master site sec off bs poison n} :
    Keeps clk s₀ (s.writeSectors master site sec off bs poison n) := by
  induction n generalizing s sec off bs with
  | zero => exact h
  | succ n ih => exact ih h.writeSector

theorem Keeps.hbmWrite (h : Keeps clk s₀ s) {master site a bs poison} :
    Keeps clk s₀ (s.hbmWrite master site a bs poison) :=
  h.writeSectors

theorem Keeps.acqDrain (h : Keeps clk s₀ s) {c n} : Keeps clk s₀ (s.acqDrain c n) :=
  h.acqPut (fun _ _ _ _ h1 => h1.writeSector)

theorem Keeps.writeBackAll (h : Keeps clk s₀ s) {xs} : Keeps clk s₀ (s.writeBackAll xs) := by
  induction xs generalizing s with
  | nil => exact h.update
  | cons x xs ih => exact ih (Keeps.ite h h.writeBack)

theorem Keeps.awRead (h : Keeps clk s₀ s) {master aw n} : Keeps clk s₀ (s.awRead master aw n).1 := by
  unfold State.awRead
  dsimp only
  split
  · split
    · exact h.drawBytes.fst
    · exact h.fst
  · exact h.hbmRead.fst

theorem Keeps.awWrite (h : Keeps clk s₀ s) {master aw bs poison data} :
    Keeps clk s₀ (s.awWrite master aw bs poison data).1 := by
  unfold State.awWrite
  split
  · split
    · exact h.fst
    · exact h.hostPut.fst
  · exact h.hbmWrite.fst

/-! ## The Stoker's queues (`Machine/StkOps`) -/

theorem Keeps.setFly (h : Keeps clk s₀ s) {f} : Keeps clk s₀ (s.setFly f) := h.update

theorem Keeps.dropFly (h : Keeps clk s₀ s) {tag} : Keeps clk s₀ (s.dropFly tag) := h.update

theorem Keeps.complete (h : Keeps clk s₀ s) {tag status result} : Keeps clk s₀ (s.complete tag status result) := by
  unfold State.complete
  split
  · exact h
  · exact Keeps.ite h (Keeps.ite h.dropFly h.setFly.hand)

theorem Keeps.landing (h : Keeps clk s₀ s) {tag status result} : Keeps clk s₀ (s.landing tag status result) := by
  unfold State.landing
  split
  · exact h
  · exact h.setFly

theorem Keeps.begin (h : Keeps clk s₀ s) {tag} : Keeps clk s₀ (s.begin tag) := by
  unfold State.begin
  split
  · exact h
  · exact h.setFly

theorem Keeps.loaderEnd (h : Keeps clk s₀ s) {tag code sect src cons result} :
    Keeps clk s₀ (s.loaderEnd tag code sect src cons result) :=
  h.setF.setF.setF.setF.complete

theorem Keeps.loaderDone (h : Keeps clk s₀ s) {tag code result} : Keeps clk s₀ (s.loaderDone tag code result) :=
  h.loaderEnd

theorem Keeps.cancelRelease (h : Keeps clk s₀ s) : Keeps clk s₀ s.cancelRelease := by
  unfold State.cancelRelease
  dsimp only
  split
  · exact h.update.setF
  · exact h.update.setF.loaderDone

/-! ## The Firebox's stores (`Machine/Firebox`) -/

theorem Keeps.fireboxBoot (h : Keeps clk s₀ s) : Keeps clk s₀ s.fireboxBoot := by
  unfold State.fireboxBoot
  dsimp only
  split
  · exact h.update.setWord
  · split
    · exact h.update.setWord
    · exact h.update.setWord

theorem Keeps.serve (h : Keeps clk s₀ s) {r out} : Keeps clk s₀ (s.serve r out) := h.update.setF

theorem Keeps.mailbox (h : Keeps clk s₀ s) {info f} (hf : ∀ s, Keeps clk s₀ s → Keeps clk s₀ (f s)) :
    Keeps clk s₀ (s.mailbox info f) :=
  h.refuse.ite (h.ite (hf s h))

theorem Keeps.mailIn (h : Keeps clk s₀ s) {n} : Keeps clk s₀ (s.mailIn n).1 := h.awRead

theorem Keeps.serveAttest (h : Keeps clk s₀ s) {tag} : Keeps clk s₀ (s.serveAttest tag) := by
  unfold State.serveAttest
  dsimp only
  split
  · exact h
  · split
    · exact h.awRead.update.setF
    · exact h.awRead.update.setF
    · exact h.awRead.update.draw.assertSrc.update.setF
    · exact h.awRead.update.setF

theorem Keeps.serveNext (h : Keeps clk s₀ s) : Keeps clk s₀ s.serveNext := by
  unfold State.serveNext
  dsimp only
  split
  · exact Keeps.ite h h.update.serveAttest
  · exact h

/-! ## The ingest lanes (`Machine/IngOps`) -/

theorem Keeps.setLane (h : Keeps clk s₀ s) {l x} : Keeps clk s₀ (s.setLane l x) := h.update

/-! ## The transmitters (`Machine/OptOps`) -/

theorem Keeps.setTx (h : Keeps clk s₀ s) {t x} : Keeps clk s₀ (s.setTx t x) := h.update

theorem Keeps.txEnter (h : Keeps clk s₀ s) {t st} : Keeps clk s₀ (s.txEnter t st) := Keeps.ite h h.setF.setTx

theorem Keeps.txSettle (h : Keeps clk s₀ s) {safe t} : Keeps clk s₀ (s.txSettle safe t) :=
  Keeps.ite h.txEnter (Keeps.ite h.txEnter (Keeps.ite h.txEnter (Keeps.ite h.txEnter h)))

theorem Keeps.txSettleAll (h : Keeps clk s₀ s) {safe xs} : Keeps clk s₀ (s.txSettleAll safe xs) := by
  induction xs generalizing s with
  | nil => exact h
  | cons x xs ih => exact ih h.txSettle

theorem Keeps.txUpdate (h : Keeps clk s₀ s) {t} : Keeps clk s₀ (s.txUpdate t) := h.txSettle

/-! ## Fault reactions (`Machine/React`) -/

theorem Keeps.keepFailed (h : Keeps clk s₀ s) {old xs} : Keeps clk s₀ (s.keepFailed old xs) := by
  induction xs generalizing s with
  | nil => exact h
  | cons x xs ih => exact ih h.setF

theorem Keeps.bootOrHold (h : Keeps clk s₀ s) : Keeps clk s₀ s.bootOrHold := Keeps.ite h.update h.fireboxBoot

theorem Keeps.chipReset (h : Keeps False s₀ s) {cause} : Keeps False s₀ (s.chipReset cause) := by
  unfold State.chipReset
  extract_lets w cold cls ks keep _ _ _ _ _ t t1 t2
  have hw : Keeps False s w := (Keeps.refl s).writeBackAll
  have ht : Keeps False s t := ⟨rfl, rfl, fun hc => by
    obtain ⟨hr, hb, hk, hh⟩ := hw.canon hc
    refine ⟨?_, hb, hk, hh⟩
    unfold State.RegsWf at hr ⊢
    rw [hw.part] at hr
    exact filter_wf _ _ _ hr, False.elim⟩
  clear_value t
  have h1 : Keeps False s₀ t1 := (h.trans ht).ite (h.trans ht).keepFailed
  have h2 : Keeps False s₀ t2 := by
    unfold t2
    split
    · exact h1
    · exact h1.setF.setF
  exact h2.bootOrHold

theorem Keeps.powerOn (h : Keeps False s₀ s) : Keeps False s₀ s.powerOn :=
  Keeps.bootOrHold <| h.trans ⟨rfl, rfl, fun ⟨_, hm⟩ => ⟨rfl, hm⟩, False.elim⟩

theorem Keeps.armHalt (h : Keeps clk s₀ s) {k} : Keeps clk s₀ (s.armHalt k) := h.update

theorem Keeps.enterSafe (h : Keeps clk s₀ s) {k} : Keeps clk s₀ (s.enterSafe k) :=
  (((Keeps.ite h.cancelRelease h).setF).update).armHalt

theorem Keeps.startPulse (h : Keeps clk s₀ s) : Keeps clk s₀ s.startPulse := h.update

theorem Keeps.holdBlock (h : Keeps clk s₀ s) {n} : Keeps clk s₀ (s.holdBlock n) := h.update

theorem Keeps.resetLane (h : Keeps clk s₀ s) {l} : Keeps clk s₀ (s.resetLane l) := h.setLane.setF.setF.holdBlock

theorem Keeps.syncFrom (h : Keeps clk s₀ s) {k} : Keeps clk s₀ (s.syncFrom k) := h.update

theorem Keeps.resetLanes (h : Keeps clk s₀ s) {xs} : Keeps clk s₀ (s.resetLanes xs) := by
  induction xs generalizing s with
  | nil => exact h
  | cons x xs ih => exact ih h.resetLane

theorem Keeps.setChm (h : Keeps clk s₀ s) {p x} : Keeps clk s₀ (s.setChm p x) := h.update

theorem Keeps.setZlink (h : Keeps clk s₀ s) {n x} : Keeps clk s₀ (s.setZlink n x) := h.update

theorem Keeps.blockReset (h : Keeps clk s₀ s) {n} : Keeps clk s₀ (s.blockReset n) := by
  unfold State.blockReset
  dsimp only
  split
  · exact h.resetLanes
  split
  · exact h.setChm.setF.holdBlock
  split
  · exact h.setF.holdBlock
  · exact Keeps.ite h.setZlink.setF.setF.holdBlock (Keeps.ite h.holdBlock.syncFrom.txSettleAll h)

theorem Keeps.capture (h : Keeps clk s₀ s) {n i frc info} : Keeps clk s₀ (s.capture n i frc info) := by
  unfold State.capture
  dsimp only
  split
  · exact h.setF.raise.setF.setWords.update
  · exact Keeps.ite h.setF.setF.raise.setF.setWords.update h.setF

theorem Keeps.trap (h : Keeps clk s₀ s) {n frc} : Keeps clk s₀ (s.trap n frc) := Keeps.ite h h.update

theorem Keeps.selfFault (h : Keeps clk s₀ s) : Keeps clk s₀ s.selfFault := h.setF.assertSrc

theorem Keeps.useWord (h : Keeps clk s₀ s) {w} : Keeps clk s₀ (s.useWord w) :=
  (Keeps.ite h.setF h).maybe fun h1 => h1.selfFault

theorem Keeps.useWords (h : Keeps clk s₀ s) {xs} : Keeps clk s₀ (s.useWords xs) := by
  induction xs generalizing s with
  | nil => exact h
  | cons x xs ih => exact ih h.useWord

theorem Keeps.upsetWord (h : Keeps clk s₀ s) {w} : Keeps clk s₀ (s.upsetWord w) := Keeps.ite h h.update

theorem Keeps.freshParity (h : Keeps clk s₀ s) {w} : Keeps clk s₀ (s.freshParity w) := h.update

theorem Keeps.armChip (h : Keeps clk s₀ s) {n pin} : Keeps clk s₀ (s.armChip n pin) := h.update

theorem Keeps.react (h : Keeps clk s₀ s) {n i r frc info} : Keeps clk s₀ (s.react n i r frc info) := by
  unfold State.react
  extract_lets on s0 s1 s2 s3 s4 s5 s6
  have on_keeps {b s f} (hs : Keeps clk s₀ s) (hf : Keeps clk s₀ s → Keeps clk s₀ (f s)) :
    Keeps clk s₀ (on b s f) := hs.maybe hf
  clear_value on
  have h0 : Keeps clk s₀ s0 := on_keeps h.useWord fun h => h.routed
  have h1 : Keeps clk s₀ s1 := on_keeps h0 fun h => h.useWord.signal
  have h2 : Keeps clk s₀ s2 := on_keeps h1 fun h => h.trap
  have h3 : Keeps clk s₀ s3 := on_keeps h2 fun h => h.useWord.startPulse
  have h4 : Keeps clk s₀ s4 := on_keeps h3 fun h => h.armHalt
  have h5 : Keeps clk s₀ s5 := on_keeps h4 fun h => h.blockReset
  have h6 : Keeps clk s₀ s6 := on_keeps h5 fun h => h.enterSafe
  exact on_keeps h6 fun h => h.armChip

theorem Keeps.takeInj (h : Keeps clk s₀ s) {n site} : Keeps clk s₀ (s.takeInj n site).2 := by
  unfold State.takeInj
  split
  · exact h.useWord.setF.snd
  · exact h.snd

theorem Keeps.hearthCe (h : Keeps clk s₀ s) {k} : Keeps clk s₀ (s.hearthCe k) :=
  Keeps.ite h (Keeps.ite h.useWord.setF.assertSrc h.useWord.setF)

/-! ## The fabric (`Machine/Fabric`) -/

theorem Keeps.setGrate (h : Keeps clk s₀ s) {g x} : Keeps clk s₀ (s.setGrate g x) := h.update

theorem Keeps.setUnit (h : Keeps clk s₀ s) {u x} : Keeps clk s₀ (s.setUnit u x) := h.update

theorem Keeps.setEdge (h : Keeps clk s₀ s) {k x} : Keeps clk s₀ (s.setEdge k x) := h.update

theorem Keeps.after (h : Keeps clk s₀ s) {d a} : Keeps clk s₀ (s.after d a) := h.update

theorem Keeps.grFaultK (h : Keeps clk s₀ s) {g kind code input queue epoch bundle} :
    Keeps clk s₀ (s.grFaultK g kind code input queue epoch bundle) :=
  ((Keeps.ite h.setWord.setWord.setGrate h).raise).assertSrc

theorem Keeps.grFault (h : Keeps clk s₀ s) {g code input queue} : Keeps clk s₀ (s.grFault g code input queue) :=
  h.grFaultK

theorem Keeps.portFault (h : Keeps clk s₀ s) {k code} : Keeps clk s₀ (s.portFault k code) := h.grFaultK

theorem Keeps.unitFault (h : Keeps clk s₀ s) {u code port bank queue bundle} :
    Keeps clk s₀ (s.unitFault u code port bank queue bundle) :=
  ((Keeps.ite h.setWord.setWord.setUnit h).raise).assertSrc

theorem Keeps.tblCheck (h : Keeps clk s₀ s) {g e input queue} : Keeps clk s₀ (s.tblCheck g e input queue) := by
  unfold State.tblCheck
  split
  · exact h
  · exact h.bump.hearthCe
  · exact h.bump.grFault

theorem Keeps.checked (h : Keeps clk s₀ s) {code site e} : Keeps clk s₀ (s.checked code site e).2 := by
  unfold State.checked
  dsimp only
  split
  · exact h.takeInj.snd
  split
  · exact h.takeInj.snd
  · exact h.takeInj.snd

theorem Keeps.checkedWords (h : Keeps clk s₀ s) {code site e} : Keeps clk s₀ (s.checkedWords code site e).2 := by
  unfold State.checkedWords
  dsimp only
  split
  · exact h.takeInj.snd
  split
  · exact h.takeInj.snd
  · exact h.takeInj.snd

theorem Keeps.outCheck (h : Keeps clk s₀ s) {site q e} : Keeps clk s₀ (s.outCheck site q e).2 := h.tblCheck

theorem Keeps.creditBack (h : Keeps clk s₀ s) {site sender} : Keeps clk s₀ (s.creditBack site sender) := h.update

theorem Keeps.giveCredit (h : Keeps clk s₀ s) {site word t} : Keeps clk s₀ (s.giveCredit site word t) := by
  unfold State.giveCredit
  split
  · exact h
  split
  · split
    · exact h.creditBack
    · exact h
  · exact h.creditBack

theorem Keeps.headFix (h : Keeps clk s₀ s) {site q} : Keeps clk s₀ (s.headFix site q) := by
  unfold State.headFix
  dsimp only
  split
  · exact h
  · exact Keeps.ite h (Keeps.ite h.setGrate (Keeps.ite h h.setGrate.bump.grFaultK))

theorem Keeps.push (h : Keeps clk s₀ s) {site q t} : Keeps clk s₀ (s.push site q t) :=
  h.setGrate.maybe fun h1 => h1.headFix

theorem Keeps.pop (h : Keeps clk s₀ s) {site q} : Keeps clk s₀ (s.pop site q) := h.setGrate.headFix

theorem Keeps.takeHead (h : Keeps clk s₀ s) {site q} : Keeps clk s₀ (s.takeHead site q).1 := by
  unfold State.takeHead
  split
  · exact h.fst
  · exact h.pop.giveCredit.fst

theorem Keeps.arriveQ (h : Keeps clk s₀ s) {site q input depth0 t late} :
    Keeps clk s₀ (s.arriveQ site q input depth0 t late) :=
  Keeps.ite h.push (Keeps.ite h.after (Keeps.ite h.bump.grFault h.bump.grFault))

theorem Keeps.arriveEdge (h : Keeps clk s₀ s) {k input site t late} : Keeps clk s₀ (s.arriveEdge k input site t late) :=
  Keeps.ite h.setEdge (Keeps.ite h.after (Keeps.ite h.bump.portFault h.bump.portFault))

theorem Keeps.crossArrive (h : Keeps clk s₀ s) {k warm t late} : Keeps clk s₀ (s.crossArrive k warm t late) :=
  Keeps.ite h.setEdge (Keeps.ite h.after (Keeps.ite h.bump.portFault h.bump.portFault))

theorem Keeps.takeEdge (h : Keeps clk s₀ s) {k} : Keeps clk s₀ (s.takeEdge k).1 := by
  unfold State.takeEdge
  dsimp only
  split
  · exact h.fst
  · exact h.setEdge.giveCredit.fst

theorem Keeps.deliver (h : Keeps clk s₀ s) {site input out t err} : Keeps clk s₀ (s.deliver site input out t err) := by
  unfold State.deliver
  dsimp only
  split
  · exact h.after
  · exact h.after
  · exact h.bump.grFault
  · exact h.tblCheck.after

theorem Keeps.grant (h : Keeps clk s₀ s) {site err xs n} : Keeps clk s₀ (s.grant site err xs n) := by
  induction xs generalizing s n with
  | nil => exact h
  | cons x xs ih => exact ih (h.foldl (fun _ _ h1 => Keeps.ite h1 (Keeps.ite h1.bump.grFault h1.deliver)))

theorem Keeps.linkCredit (h : Keeps clk s₀ s) {x} : Keeps clk s₀ (s.linkCredit x) := by
  unfold State.linkCredit
  dsimp only
  split
  · exact h
  · exact h.setZlink

theorem Keeps.crossSent (h : Keeps clk s₀ s) {site input} : Keeps clk s₀ (s.crossSent site input) := by
  unfold State.crossSent
  dsimp only
  split
  · exact h
  · exact h.setEdge.linkCredit.maybe fun h1 => h1.bump.portFault

theorem Keeps.ingestSent (h : Keeps clk s₀ s) {course} : Keeps clk s₀ (s.ingestSent course) := h.setEdge

theorem Keeps.meshTok (h : Keeps clk s₀ s) {site input} : Keeps clk s₀ (s.meshTok site input).2 := by
  unfold State.meshTok
  dsimp only
  split
  · exact h.update.snd
  · split
    · exact h.ingestSent.snd
    · split
      · exact h.crossSent.snd
      · exact h.snd

theorem Keeps.linkUes (h : Keeps clk s₀ s) {site input n} : Keeps clk s₀ (s.linkUes site input n) := by
  induction n generalizing s with
  | zero => exact h
  | succ n ih => exact ih h.bump.grFault

theorem Keeps.linkCheck (h : Keeps clk s₀ s) {site input t e} : Keeps clk s₀ (s.linkCheck site input t e).2 := by
  unfold State.linkCheck
  dsimp only
  split
  · exact (h.checked.maybeNot fun h1 => h1.bump.hearthCe).snd
  · exact ((h.checked.maybeNot fun h1 => h1.bump.hearthCe).linkUes).snd

theorem Keeps.noteMark (h : Keeps clk s₀ s) {site input mask t} : Keeps clk s₀ (s.noteMark site input mask t) :=
  Keeps.ite h.setGrate h

theorem Keeps.present (h : Keeps clk s₀ s) {site linkErr tblErr input} :
    Keeps clk s₀ (s.present site linkErr tblErr input).2 := by
  unfold State.present
  extract_lets c s1 mask q g x w
  have h1 : Keeps clk s₀ s1 := h.checked.tblCheck
  clear_value s1 mask
  split
  · have hm := h1.meshTok (site := site) (input := input)
    split
    · rename_i heq; rw [heq] at hm; exact hm
    · rename_i heq; rw [heq] at hm
      extract_lets r
      have hr : Keeps clk s₀ r.2 := hm.linkCheck
      split
      · exact hr.bump.grFault.snd
      · exact hr.noteMark.snd
  · split
    · exact h1.snd
    split
    · exact h1.setGrate.snd
    split
    · exact h1.snd
    · exact (h1.setGrate.bump.grFault.ite h1.setGrate).noteMark.snd

theorem Keeps.presents (h : Keeps clk s₀ s) {site linkErr tblErr xs} :
    Keeps clk s₀ (s.presents site linkErr tblErr xs).2 := by
  induction xs generalizing s with
  | nil => exact h.snd
  | cons x xs ih => exact (ih h.present).snd

theorem Keeps.relayCross (h : Keeps clk s₀ s) {site} : Keeps clk s₀ (s.relayCross site) := by
  unfold State.relayCross
  extract_lets pass
  have pass_keeps {s i o} (h : Keeps clk s₀ s) : Keeps clk s₀ (pass s i o) := by
    have hm := h.meshTok (site := site) (input := i)
    unfold pass
    split <;> (rename_i heq; rw [heq] at hm)
    · exact hm.deliver
    · exact hm
  exact pass_keeps (pass_keeps h)

theorem Keeps.crossGrate (h : Keeps clk s₀ s) {site linkErr tblErr} : Keeps clk s₀ (s.crossGrate site linkErr tblErr) :=
  Keeps.ite h (Keeps.ite h.relayCross (Keeps.ite h h.presents.grant))

theorem Keeps.steerPut (h : Keeps clk s₀ s) {site q depth0 xs} : Keeps clk s₀ (s.steerPut site q depth0 xs) := by
  induction xs generalizing s with
  | nil => exact h
  | cons x xs ih => exact ih h.after

theorem Keeps.soCheck (h : Keeps clk s₀ s) {site q so out} : Keeps clk s₀ (s.soCheck site q so out).2 := by
  unfold State.soCheck
  split
  · exact h.snd
  · exact h.outCheck

theorem Keeps.steerTake (h : Keeps clk s₀ s) {site q c} : Keeps clk s₀ (s.steerTake site q c).1 := by
  have ht := h.takeHead (site := site) (q := q)
  unfold State.steerTake
  split <;> (rename_i heq; rw [heq] at ht)
  · exact ht
  · exact ht.bump.grFault.fst

theorem Keeps.steerFire (h : Keeps clk s₀ s) {site so} : Keeps clk s₀ (s.steerFire site so) := by
  unfold State.steerFire
  dsimp only
  refine ((((Keeps.ite ((Keeps.bump ?_).grFault) ?_).soCheck).soCheck).steerPut).steerPut
  · split
    · exact h.steerTake.steerTake.fst
    · exact h.steerTake.steerTake.steerTake
  · split
    · exact h.steerTake.steerTake.fst
    · exact h.steerTake.steerTake.steerTake

/-! ## Ingest (`Machine/Ingest`) -/

theorem Keeps.laneCount (h : Keeps clk s₀ s) {l f k} : Keeps clk s₀ (s.laneCount l f k) := h.when h.bump

theorem Keeps.loseLock (h : Keeps clk s₀ s) {l block dev} : Keeps clk s₀ (s.loseLock l block dev) :=
  (h.setF.laneCount.maybe fun h1 => h1.setF).setLane

theorem Keeps.hdrPass (h : Keeps clk s₀ s) {l p} : Keeps clk s₀ (s.hdrPass l p) :=
  (h.setF.setLane.setF.setF.setF.setF.maybe fun h1 => h1.laneCount).maybe fun h1 => h1.raise

theorem Keeps.beginLaneTick (h : Keeps clk s₀ s) {l dev hdrOk ovr} : Keeps clk s₀ (s.beginLaneTick l dev hdrOk ovr) :=
  h.setLane

theorem Keeps.headerLocked (h : Keeps clk s₀ s) {l sync p} : Keeps clk s₀ (s.headerLocked l sync p) := by
  unfold State.headerLocked
  dsimp only
  split
  · exact h.setLane.hdrPass.beginLaneTick
  · exact h.setLane.laneCount.beginLaneTick.maybe fun h1 => h1.loseLock

theorem Keeps.headerSearch (h : Keeps clk s₀ s) {l sync p} : Keeps clk s₀ (s.headerSearch l sync p) :=
  Keeps.ite h.setLane (Keeps.ite h.setLane.setF.hdrPass.beginLaneTick h.setLane)

theorem Keeps.dataLocked (h : Keeps clk s₀ s) {l sync p} : Keeps clk s₀ (s.dataLocked l sync p) :=
  h.setLane.maybe fun h1 => h1.laneCount

theorem Keeps.countInvalid (h : Keeps clk s₀ s) {l} : Keeps clk s₀ (s.countInvalid l) := Keeps.ite h h.laneCount

theorem Keeps.lineBlock (h : Keeps clk s₀ s) {l sync raw} : Keeps clk s₀ (s.lineBlock l sync raw) := by
  unfold State.lineBlock
  dsimp only
  split
  · exact h.setLane.countInvalid.loseLock
  split
  · exact h.setLane.setF
  · exact Keeps.ite h.setLane.headerSearch (Keeps.ite h.setLane.headerLocked h.setLane.dataLocked)

theorem Keeps.laneBlock (h : Keeps clk s₀ s) {l sync raw} : Keeps clk s₀ (s.laneBlock l sync raw) :=
  Keeps.ite h (Keeps.ite h.draw.lineBlock ((Keeps.ite h.setF.update h.setF).lineBlock))

theorem Keeps.crc16Verdict (h : Keeps clk s₀ s) {l} : Keeps clk s₀ (crc16Verdict l s) := by
  unfold Machine.crc16Verdict
  dsimp only
  split
  · exact h
  · exact Keeps.ite h (h.setLane.maybeNot fun h1 => h1.laneCount)

theorem Keeps.laneSignalLoss (h : Keeps clk s₀ s) {l} : Keeps clk s₀ (laneSignalLoss l s) :=
  Keeps.ite h.setF.loseLock h.setF

theorem Keeps.laneEvent (h : Keeps clk s₀ s) {tick lane cause} : Keeps clk s₀ (s.laneEvent tick lane cause) := h.routed

theorem Keeps.settleLane (h : Keeps clk s₀ s) {dev l} : Keeps clk s₀ (s.settleLane dev l) := by
  unfold State.settleLane
  dsimp only
  refine Keeps.setLane ?_
  split
  · exact h.laneEvent
  · exact Keeps.ite h.laneEvent (Keeps.ite h.laneEvent h)

theorem Keeps.settleLanes (h : Keeps clk s₀ s) {dev xs} : Keeps clk s₀ (s.settleLanes dev xs) := by
  induction xs generalizing s with
  | nil => exact h
  | cons x xs ih => exact ih h.settleLane

theorem Keeps.applyGrp (h : Keeps clk s₀ s) : Keeps clk s₀ s.applyGrp := Keeps.ite h.update.setF h

theorem Keeps.replayEdge (h : Keeps clk s₀ s) {now} : Keeps clk s₀ (s.replayEdge now) :=
  Keeps.ite h.setF.laneEvent (Keeps.ite h.setF.laneEvent h.setF)

theorem Keeps.snapEnd (h : Keeps clk s₀ s) {status} : Keeps clk s₀ (s.snapEnd status) := by
  unfold State.snapEnd
  dsimp only
  split
  · exact h.update.setF
  · exact h.update.setF.complete

theorem Keeps.snapTick (h : Keeps clk s₀ s) {outs} : Keeps clk s₀ (s.snapTick outs) := by
  unfold State.snapTick
  dsimp only
  split
  · exact h
  · exact Keeps.ite h.draw.raise.snapEnd (h.draw.hbmWrite.update.setF.maybe fun h1 => h1.snapEnd)

theorem Keeps.countSuspect (h : Keeps clk s₀ s) {m xs} : Keeps clk s₀ (s.countSuspect m xs) := by
  induction xs generalizing s with
  | nil => exact h
  | cons x xs ih => exact ih (Keeps.ite h.bump h)

theorem Keeps.releaseTick (h : Keeps clk s₀ s) : Keeps clk s₀ s.releaseTick := by
  unfold State.releaseTick
  exact (((h.applyGrp.update.countSuspect.maybe fun h1 => h1.bump.assertSrc).replayEdge).snapTick).settleLanes

theorem Keeps.ingestReleaseTick (h : Keeps clk s₀ s) : Keeps clk s₀ (ingestReleaseTick s) := Keeps.ite h.releaseTick h

theorem Keeps.grpEnWrite (h : Keeps clk s₀ s) {value} : Keeps clk s₀ (grpEnWrite value s) := h.setF.update

theorem Keeps.snapStart (h : Keeps clk s₀ s) {from' tag} : Keeps clk s₀ (s.snapStart from' tag) :=
  h.update.setF.setF.maybe fun h1 => h1.snapEnd

theorem Keeps.snapGo (h : Keeps clk s₀ s) : Keeps clk s₀ (snapGo s) := Keeps.ite h h.snapStart

theorem Keeps.clrCntIng (h : Keeps clk s₀ s) : Keeps clk s₀ (clrCntIng s) := h.clearCounters

theorem Keeps.replayCtrlWrite (h : Keeps clk s₀ s) {value} : Keeps clk s₀ (replayCtrlWrite value s) :=
  Keeps.ite h.refuse h.setF.setF.setF.update

theorem Keeps.sectorsEach (h : Keeps clk s₀ s) {master a n} : Keeps clk s₀ (s.sectorsEach master a n).1 := by
  induction n generalizing s a with
  | zero => exact h.fst
  | succ n ih => exact (ih h.hbmRead).fst

theorem Keeps.replayRead (h : Keeps clk s₀ s) {rec lane} : Keeps clk s₀ (replayRead rec lane s) := by
  unfold Machine.replayRead
  dsimp only
  split
  · exact h
  · exact h.sectorsEach.update

theorem Keeps.gen (h : Keeps clk s₀ s) {l} : Keeps clk s₀ (s.gen l).2 := by
  unfold State.gen
  dsimp only
  split
  · exact h.snd
  · exact h.draw.snd

theorem Keeps.drawBits (h : Keeps clk s₀ s) {n} : Keeps clk s₀ (s.drawBits n).2 := h.draw.snd

theorem Keeps.loopBits (h : Keeps clk s₀ s) {l n} : Keeps clk s₀ (s.loopBits l n).2 := by
  unfold State.loopBits
  dsimp only
  split
  · exact h.gen.update.snd
  · exact h.drawBits

theorem Keeps.prbs31Check (h : Keeps clk s₀ s) {l bits} : Keeps clk s₀ (prbs31Check l bits s) := by
  unfold Machine.prbs31Check
  dsimp only
  split
  · exact Keeps.ite h.update h
  refine (((Keeps.setLane ?_).setF).bump).bump
  split
  · exact (Keeps.ite h.update h).loopBits
  · exact (Keeps.ite h.update h).snd

/-! ## Acquisition (`Machine/AcqOps`) -/

theorem Keeps.poolPut (h : Keeps clk s₀ s) {c p} : Keeps clk s₀ (s.poolPut c p) :=
  h.setPool.maybeNot fun h1 => h1.bump.assertSrc

theorem Keeps.breakPools (h : Keeps clk s₀ s) {cause flag xs} : Keeps clk s₀ (s.breakPools cause flag xs) := by
  induction xs generalizing s with
  | nil => exact h
  | cons x xs ih => exact ih (Keeps.ite h.poolPut h)

theorem Keeps.poolFire (h : Keeps clk s₀ s) {c f} : Keeps clk s₀ (s.poolFire c f).1 := by
  unfold State.poolFire
  dsimp only
  split
  · exact h.bump.fst
  · split
    · exact h.bump.fst
    split
    · exact h.bump.fst
    split
    · exact h.bump.fst
    · exact h.poolPut.setF.fst

theorem Keeps.poolFires (h : Keeps clk s₀ s) {c fs} : Keeps clk s₀ (s.poolFires c fs).1 := by
  unfold State.poolFires
  dsimp only
  split
  · exact h.fst
  split
  · exact h.fst
  · exact (h.poolFire.maybeNot fun h1 => h1.bump).fst

theorem Keeps.allPools (h : Keeps clk s₀ s) {fs xs} : Keeps clk s₀ (s.allPools fs xs).1 := by
  induction xs generalizing s with
  | nil => exact h.fst
  | cons x xs ih => exact (ih h.poolFires).fst

theorem Keeps.twinTake (h : Keeps clk s₀ s) {t} : Keeps clk s₀ (s.twinTake t) := h.update

theorem Keeps.takeToken (h : Keeps clk s₀ s) {course} : Keeps clk s₀ (s.takeToken course).1 := by
  unfold State.takeToken
  dsimp only
  split
  · exact h.takeEdge.twinTake.fst
  · exact h.portFault.twinTake.fst

theorem Keeps.discardTake (h : Keeps clk s₀ s) : Keeps clk s₀ s.discardTake := h.setF

theorem Keeps.addHit (h : Keeps clk s₀ s) {h'} : Keeps clk s₀ (s.addHit h') := h.update

theorem Keeps.markDet (h : Keeps clk s₀ s) {m} : Keeps clk s₀ (s.markDet m) := h.update

/-! ## The Hearth's record (`Machine/HearthOps`) -/

theorem Keeps.armRun (h : Keeps clk s₀ s) {r} : Keeps clk s₀ (s.armRun r) := h.update.setF

/-! ## The grates (`Machine/Grates`) -/

theorem Keeps.tokenCrossing (h : Keeps clk s₀ s) {site linkErr tblErr} :
    Keeps clk s₀ (tokenCrossing site linkErr tblErr s) :=
  h.crossGrate

theorem Keeps.steerFireHot (h : Keeps clk s₀ s) {site ecc so} : Keeps clk s₀ (steerFireHot site ecc so s) :=
  Keeps.ite h (h.checked.tblCheck.maybeNot fun h1 => Keeps.ite h1.steerFire h1)

theorem Keeps.steerFireWarm (h : Keeps clk s₀ s) {site so} : Keeps clk s₀ (steerFireWarm site so s) := by
  unfold Machine.steerFireWarm
  split
  · exact h
  extract_lets n a b
  have ha : Keeps clk s₀ a.2 := by
    unfold a
    split
    · exact h
    · exact h.outCheck
  have hb : Keeps clk s₀ b.2 := by
    unfold b
    split
    · exact ha
    · exact ha.outCheck
  exact hb.ite hb.steerFire

theorem Keeps.setSenderQ (h : Keeps clk s₀ s) {k x} : Keeps clk s₀ (s.setSenderQ k x) := Keeps.ite h.setGrate h.setEdge

theorem Keeps.addCredit (h : Keeps clk s₀ s) {k} : Keeps clk s₀ (s.addCredit k) :=
  Keeps.ite h.setSenderQ (Keeps.ite h.bump.grFault h.bump.portFault)

theorem Keeps.creditReturn (h : Keeps clk s₀ s) {sender} : Keeps clk s₀ (creditReturn sender s) :=
  Keeps.ite h.update.addCredit h

theorem Keeps.qsampSample (h : Keeps clk s₀ s) : Keeps clk s₀ (qsampSample s) := Keeps.ite h h.update

theorem Keeps.qsampRecord (h : Keeps clk s₀ s) : Keeps clk s₀ (qsampRecord s) :=
  Keeps.ite h (Keeps.ite h.bump.update h.hbmWrite.setF.update)

theorem Keeps.clrCntFab (h : Keeps clk s₀ s) : Keeps clk s₀ (clrCntFab s) := h.clearCounters

theorem Keeps.grateTblRead (h : Keeps clk s₀ s) {site ecc} : Keeps clk s₀ (grateTblRead site ecc s) := by
  unfold Machine.grateTblRead
  dsimp only
  split
  · exact h.refuse
  refine Keeps.setWords ?_
  split
  · exact h
  · exact h.bump.hearthCe
  · exact h.bump

theorem Keeps.grateTblWrite (h : Keeps clk s₀ s) {site} : Keeps clk s₀ (grateTblWrite site s) :=
  Keeps.ite h.refuse h.setGrate

/-! ## Compute units (`Machine/CuOps`) -/

theorem Keeps.wordFaults (h : Keeps clk s₀ s) {u code bundle n} : Keeps clk s₀ (s.wordFaults u code bundle n) := by
  induction n generalizing s with
  | zero => exact h
  | succ n ih => exact ih h.unitFault

theorem Keeps.vrfCheck (h : Keeps clk s₀ s) {u e} : Keeps clk s₀ (s.vrfCheck u e).1 := by
  unfold State.vrfCheck
  dsimp only
  split
  · exact (h.checkedWords.maybeNot fun h1 => h1.bump.hearthCe).fst
  · exact (((h.checkedWords.maybeNot fun h1 => h1.bump.hearthCe).bump).wordFaults).fst

theorem Keeps.consumed (h : Keeps clk s₀ s) {u t} : Keeps clk s₀ (s.consumed u t) := Keeps.ite h.unitFault h

theorem Keeps.macIssue (h : Keeps clk s₀ s) {u asrc aseg wsel acc w4 omac ecc} :
    Keeps clk s₀ (s.macIssue u asrc aseg wsel acc w4 omac ecc) :=
  h.vrfCheck.consumed.after

theorem Keeps.ldwIssue (h : Keeps clk s₀ s) {u asrc wsel ecc} : Keeps clk s₀ (s.ldwIssue u asrc wsel ecc) :=
  h.vrfCheck.consumed.after

theorem Keeps.ldoIssue (h : Keeps clk s₀ s) {u asrc ecc} : Keeps clk s₀ (s.ldoIssue u asrc ecc) :=
  h.vrfCheck.consumed.after

theorem Keeps.gendIssue (h : Keeps clk s₀ s) {u asrc aseg acc gsz dst ecc} :
    Keeps clk s₀ (s.gendIssue u asrc aseg acc gsz dst ecc) :=
  h.vrfCheck.consumed.after

theorem Keeps.vecIssue (h : Keeps clk s₀ s) {u vec ctrl e} : Keeps clk s₀ (s.vecIssue u vec ctrl e) :=
  (h.vrfCheck.consumed.maybe fun h1 => h1.setUnit).after

theorem Keeps.scalarIssue (h : Keeps clk s₀ s) {u slot} : Keeps clk s₀ (s.scalarIssue u slot) := by
  unfold State.scalarIssue
  split
  · exact h
  · exact h.after

theorem Keeps.recvIssue (h : Keeps clk s₀ s) {u q vr blk} : Keeps clk s₀ (s.recvIssue u q vr blk) := by
  unfold State.recvIssue
  split
  · exact Keeps.ite h h.takeHead.after
  · exact Keeps.ite h.bump.unitFault.after h

theorem Keeps.sendIssue (h : Keeps clk s₀ s) {u q vr blk ecc depth0} :
    Keeps clk s₀ (s.sendIssue u q vr blk ecc depth0) :=
  h.vrfCheck.after

theorem Keeps.macSlot (h : Keeps clk s₀ s) {u m ecc} : Keeps clk s₀ (s.macSlot u m ecc) := by
  unfold State.macSlot
  dsimp only
  split
  · exact h.macIssue
  split
  · exact h.macIssue
  split
  · exact h.macIssue
  · exact Keeps.ite h.macIssue (Keeps.ite h.ldwIssue (Keeps.ite h.ldoIssue (Keeps.ite h.gendIssue h)))

theorem Keeps.sendCheck (h : Keeps clk s₀ s) {u b c} : Keeps clk s₀ (s.sendCheck u b c).2 := by
  unfold State.sendCheck
  dsimp only
  split
  · exact h.outCheck
  · exact h.snd

theorem Keeps.cuIssue (h : Keeps clk s₀ s) {u b c depth0} : Keeps clk s₀ (s.cuIssue u b c depth0) := by
  unfold State.cuIssue
  dsimp only
  split
  · exact (((h.macSlot.maybe fun h1 => h1.vecIssue).foldl
    (fun _ _ h1 => h1.scalarIssue)).maybe fun h1 => h1.recvIssue).sendIssue
  split
  · exact ((h.macSlot.maybe fun h1 => h1.vecIssue).foldl (fun _ _ h1 => h1.scalarIssue)).recvIssue
  · exact (h.macSlot.maybe fun h1 => h1.vecIssue).foldl (fun _ _ h1 => h1.scalarIssue)

theorem Keeps.landTake (h : Keeps clk s₀ s) {u aseg acc gsz dst bundle p0 p1 t} :
    Keeps clk s₀ (s.landTake u aseg acc gsz dst bundle p0 p1 t) :=
  (h.setUnit.maybe fun h1 => h1.unitFault).after

theorem Keeps.landBytes (h : Keeps clk s₀ s) {u vr rank bs t} : Keeps clk s₀ (s.landBytes u vr rank bs t) :=
  (h.setUnit.maybe fun h1 => h1.bump).update

theorem Keeps.landV5 (h : Keeps clk s₀ s) {u vec ctrl x mask cmp t rq} :
    Keeps clk s₀ (s.landV5 u vec ctrl x mask cmp t rq) :=
  ((Keeps.ite h h.setUnit).maybe fun h1 => h1.bump.bump).after

theorem Keeps.landVec (h : Keeps clk s₀ s) {u dst bs cmp t} : Keeps clk s₀ (s.landVec u dst bs cmp t) := by
  unfold State.landVec
  dsimp only
  split
  · exact h.landBytes
  · exact h.landBytes.setUnit

theorem Keeps.landSend (h : Keeps clk s₀ s) {u q bundle port depth0 t late} :
    Keeps clk s₀ (s.landSend u q bundle port depth0 t late) :=
  Keeps.ite h.setGrate (Keeps.ite h.after h.bump.unitFault)

/-! ## Memory units (`Machine/MuOps`) -/

theorem Keeps.sramRead (h : Keeps clk s₀ s) {u ag line bundle ecc tagBad} :
    Keeps clk s₀ (s.sramRead u ag line bundle ecc tagBad).1 := by
  unfold State.sramRead
  exact (((h.checkedWords.maybe fun h1 => h1.bump).maybeNot fun h1 => h1.bump.hearthCe).maybe fun h1 =>
    h1.bump.unitFault).fst

theorem Keeps.illegal (h : Keeps clk s₀ s) {u} : Keeps clk s₀ (s.illegal u) := h.bump

theorem Keeps.readNothing (h : Keeps clk s₀ s) {u ag bundle d depth0} :
    Keeps clk s₀ (s.readNothing u ag bundle d depth0) :=
  h.after

theorem Keeps.readIssue (h : Keeps clk s₀ s) {u ag k step ecc tagBad depth0} :
    Keeps clk s₀ (s.readIssue u ag k step ecc tagBad depth0) :=
  Keeps.ite h.illegal.readNothing ((Keeps.ite h.setUnit h).after)

theorem Keeps.writeTake (h : Keeps clk s₀ s) {u ag} : Keeps clk s₀ (s.writeTake u ag).1 := by
  unfold State.writeTake
  split
  · split
    · exact h.fst
    · exact h.takeHead
  · split
    · exact h.bump.unitFault.fst
    · exact h.fst

theorem Keeps.writeIssue (h : Keeps clk s₀ s) {u ag k step} : Keeps clk s₀ (s.writeIssue u ag k step) := by
  have hw := h.writeTake (u := u) (ag := ag)
  unfold State.writeIssue
  split <;> (rename_i heq; rw [heq] at hw)
  · exact hw
  · exact hw.illegal.ite ((hw.setUnit.ite hw).after)

theorem Keeps.holdBanks (h : Keeps clk s₀ s) {u ag line issue} : Keeps clk s₀ (s.holdBanks u ag line issue) := h.update

theorem Keeps.conflict (h : Keeps clk s₀ s) {u ag bank bundle} : Keeps clk s₀ (s.conflict u ag bank bundle) :=
  h.bump.unitFault

theorem Keeps.landRead (h : Keeps clk s₀ s) {u ag line bundle issue ecc tagBad depth0} :
    Keeps clk s₀ (s.landRead u ag line bundle issue ecc tagBad depth0) := by
  unfold State.landRead
  dsimp only
  split
  · exact h.conflict.readNothing
  · exact h.holdBanks.sramRead.after

theorem Keeps.landWrite (h : Keeps clk s₀ s) {u ag line bundle issue t} :
    Keeps clk s₀ (s.landWrite u ag line bundle issue t) := by
  unfold State.landWrite
  dsimp only
  split
  · exact h.conflict
  · exact h.holdBanks.setUnit

theorem Keeps.landStore (h : Keeps clk s₀ s) {u ag line bundle addr ecc tagBad} :
    Keeps clk s₀ (s.landStore u ag line bundle addr ecc tagBad) :=
  h.holdBanks.sramRead.hbmWrite

theorem Keeps.xferIssue (h : Keeps clk s₀ s) {u ag k step store} : Keeps clk s₀ (s.xferIssue u ag k step store) :=
  Keeps.ite h.illegal h.setUnit

theorem Keeps.grantBlock (h : Keeps clk s₀ s) {u ag store line addr c} :
    Keeps clk s₀ (s.grantBlock u ag store line addr c) :=
  Keeps.ite h.setUnit.after h.setUnit.hbmRead.after

theorem Keeps.decide1 (h : Keeps clk s₀ s) {u b ag cs oq} : Keeps clk s₀ (s.decide1 u b ag cs oq).1 := by
  unfold State.decide1
  extract_lets a c wait mark o
  have ho : Keeps clk s₀ o.2 := h.outCheck
  have hm {t : State} (ht : Keeps clk s₀ t) : Keeps clk s₀ (mark t) := ht.setUnit
  clear_value wait a
  refine Keeps.iteFst h (Keeps.iteFst h.bump ?_)
  cases a with
  | none => exact h
  | read k step => exact ho.ite (hm ho.readIssue)
  | write k step => exact hm h.writeIssue
  | block store l addr => exact h.grantBlock

theorem Keeps.decideAll (h : Keeps clk s₀ s) {u b cs oq xs} : Keeps clk s₀ (s.decideAll u b cs oq xs).1 := by
  induction xs generalizing s with
  | nil => exact h.fst
  | cons x xs ih => exact (ih h.decide1).fst

theorem Keeps.arbitrate (h : Keeps clk s₀ s) {u b cs oq} : Keeps clk s₀ (s.arbitrate u b cs oq) :=
  Keeps.ite h h.decideAll.setUnit

theorem Keeps.xferAll (h : Keeps clk s₀ s) {u b xs} : Keeps clk s₀ (s.xferAll u b xs) := by
  induction xs generalizing s with
  | nil => exact h
  | cons x xs ih => exact ih (Keeps.ite h.xferIssue h)

theorem Keeps.muIssue (h : Keeps clk s₀ s) {u b cs oq xs} : Keeps clk s₀ (s.muIssue u b cs oq xs) := by
  induction xs generalizing s with
  | nil => exact h
  | cons x xs ih => exact ih (Keeps.ite h.outCheck.readIssue (Keeps.ite h.writeIssue h))

/-! ## Bundles and steps (`Machine/Units`) -/

theorem Keeps.tpCheck (h : Keeps clk s₀ s) {u e} : Keeps clk s₀ (s.tpCheck u e).2 := by
  unfold State.tpCheck
  dsimp only
  split
  · exact h.checked.snd
  · exact h.checked.bump.hearthCe.snd
  · exact h.checked.bump.unitFault.snd

theorem Keeps.hotBundleIssue (h : Keeps clk s₀ s) {u chk} : Keeps clk s₀ (hotBundleIssue u chk s) := by
  have ht := h.tpCheck (u := u) (e := chk.tp)
  unfold Machine.hotBundleIssue
  split
  · exact h
  extract_lets b
  split <;> (rename_i heq; rw [heq] at ht)
  · exact ht
  · exact ht.illegal.ite (ht.muIssue.ite ht.sendCheck.cuIssue)

theorem Keeps.stall (h : Keeps clk s₀ s) {u damper} : Keeps clk s₀ (s.stall u damper) := h.bump.setF.setF

theorem Keeps.warmStep (h : Keeps clk s₀ s) {u} : Keeps clk s₀ (s.warmStep u) :=
  Keeps.ite h.setF.setF.setUnit h.setF.setF.setUnit

theorem Keeps.warmBundleIssue (h : Keeps clk s₀ s) {u chk} : Keeps clk s₀ (warmBundleIssue u chk s) := by
  have ht := h.tpCheck (u := u) (e := chk.tp)
  unfold Machine.warmBundleIssue
  split
  · exact h
  split
  · exact h.arbitrate.stall
  split
  · exact h.stall
  extract_lets b
  split <;> (rename_i heq; rw [heq] at ht)
  · exact ht.warmStep
  split
  · exact ht.illegal.warmStep
  split
  · exact ht.arbitrate.xferAll.warmStep.ite ht.arbitrate.stall
  · exact (ht.sendCheck.stall.ite ht.sendCheck.cuIssue.warmStep).ite ht.stall

theorem Keeps.slot (h : Keeps clk s₀ s) {u listed t} (ht : Keeps clk s₀ t) : Keeps clk s₀ (s.slot u listed t) :=
  h.ite (ht.ite h.illegal)

theorem Keeps.refusedAccess (h : Keeps clk s₀ s) {u ag a} : Keeps clk s₀ (s.refusedAccess u ag a) :=
  h.stall.maybeNot fun h1 => h1.bump.setUnit

theorem Keeps.muRead (h : Keeps clk s₀ s) {u ag k step ecc tagBad oq} :
    Keeps clk s₀ (muRead u ag k step ecc tagBad oq s) := by
  unfold Machine.muRead
  dsimp only
  split
  · exact h.outCheck.readIssue
  · exact Keeps.ite h (Keeps.ite h.refusedAccess (Keeps.ite h.outCheck.stall h.outCheck.readIssue))

theorem Keeps.muWrite (h : Keeps clk s₀ s) {u ag k step} : Keeps clk s₀ (muWrite u ag k step s) :=
  Keeps.ite h.writeIssue (Keeps.ite h.refusedAccess h)

theorem Keeps.muXfer (h : Keeps clk s₀ s) {u ag k step store} : Keeps clk s₀ (muXfer u ag k step store s) :=
  Keeps.ite h.illegal (Keeps.ite (Keeps.ite h.xferIssue h.stall) h)

theorem Keeps.muAccessGrant (h : Keeps clk s₀ s) {u ags oq} : Keeps clk s₀ (muAccessGrant u ags oq s) :=
  Keeps.ite h (Keeps.ite h.arbitrate (Keeps.ite h (Keeps.ite h.arbitrate h)))

theorem Keeps.xferComplete (h : Keeps clk s₀ s) {u ag} : Keeps clk s₀ (xferComplete u ag s) := Keeps.ite h.setUnit h

theorem Keeps.hrtTblRead (h : Keeps clk s₀ s) {u ecc} : Keeps clk s₀ (hrtTblRead u ecc s) :=
  Keeps.ite h.refuse (((Keeps.ite h h.bump.hearthCe).maybeNot fun h1 => h1.bump).setWords)

theorem Keeps.hrtTblWrite (h : Keeps clk s₀ s) {u} : Keeps clk s₀ (hrtTblWrite u s) :=
  h.refuse.maybeNot fun h1 => Keeps.ite h1 h.setUnit

theorem Keeps.configBufferDrain (h : Keeps clk s₀ s) {u} : Keeps clk s₀ (configBufferDrain u s) := by
  unfold Machine.configBufferDrain
  dsimp only
  split
  · exact h
  · exact h.setUnit.setGrate

theorem Keeps.hotWindowClose (h : Keeps clk s₀ s) {u} : Keeps clk s₀ (hotWindowClose u s) := Keeps.ite h.setUnit h

theorem Keeps.warmWindowClose (h : Keeps clk s₀ s) {u} : Keeps clk s₀ (warmWindowClose u s) := Keeps.ite h.setUnit h

theorem Keeps.scalePublish (h : Keeps clk s₀ s) {u} : Keeps clk s₀ (scalePublish u s) :=
  Keeps.ite h.setUnit (Keeps.ite h.setUnit h)

theorem Keeps.amxSelWrite (h : Keeps clk s₀ s) {u value} : Keeps clk s₀ (amxSelWrite u value s) :=
  h.setF.setF.setF.setWords.setWord

/-! ## Trigger and pools (`Machine/Trigger`) -/

theorem Keeps.scoreEntry (h : Keeps clk s₀ s) {t k group j} : Keeps clk s₀ (s.scoreEntry t k group j) :=
  ((Keeps.ite h.bump h).maybe fun h1 => h1.markDet).maybe fun h1 => h1.addHit

theorem Keeps.scoreEntries (h : Keeps clk s₀ s) {t k group xs} : Keeps clk s₀ (s.scoreEntries t k group xs) := by
  induction xs generalizing s with
  | nil => exact h
  | cons x xs ih => exact ih h.scoreEntry

theorem Keeps.noteEpoch (h : Keeps clk s₀ s) {k} : Keeps clk s₀ (s.noteEpoch k) := h.update

theorem Keeps.scoreTake (h : Keeps clk s₀ s) {course} : Keeps clk s₀ (scoreTake course s) := by
  unfold Machine.scoreTake
  dsimp only
  split
  · exact h
  · exact Keeps.ite h.takeToken.discardTake (h.takeToken.noteEpoch.maybeNot fun h1 => h1.scoreEntries)

theorem Keeps.captureTake (h : Keeps clk s₀ s) {course} : Keeps clk s₀ (captureTake course s) := by
  unfold Machine.captureTake
  dsimp only
  split
  · exact h
  · exact Keeps.ite h.takeToken.discardTake (h.takeToken.noteEpoch.maybeNot fun h1 => h1.poolPut)

theorem Keeps.trigInEdge (h : Keeps clk s₀ s) {i rising frac} : Keeps clk s₀ (trigInEdge i rising frac s) := by
  unfold Machine.trigInEdge
  dsimp only
  split
  · exact h
  split
  · exact h.bump.update
  · exact Keeps.ite h.bump.update (Keeps.ite h.bump.update.addHit h.bump.update.bump.addHit)

theorem Keeps.forceHit (h : Keeps clk s₀ s) : Keeps clk s₀ (forceHit s) := h.draw.addHit

theorem Keeps.setTu (h : Keeps clk s₀ s) {k u x} : Keeps clk s₀ (s.setTu k u x) := by
  unfold State.setTu
  dsimp only
  split
  · exact h.update
  · exact h.update

theorem Keeps.runTu (h : Keeps clk s₀ s) {k src u} : Keeps clk s₀ (s.runTu k src u).1 := by
  unfold State.runTu
  extract_lets v q held _ kept
  clear_value held kept
  split
  · exact (h.setTu.bump.ite h.setTu).fst
  split
  · exact h.setTu.fst
  · exact h.setTu.fst

theorem Keeps.runTus (h : Keeps clk s₀ s) {k src xs} : Keeps clk s₀ (s.runTus k src xs).1 := by
  induction xs generalizing s with
  | nil => exact h.fst
  | cons x xs ih => exact (ih h.runTu).fst

theorem Keeps.pulse (h : Keeps clk s₀ s) {u xs} : Keeps clk s₀ (s.pulse u xs) := by
  induction xs generalizing s with
  | nil => exact h
  | cons x xs ih => exact ih (Keeps.ite h.update h)

theorem Keeps.sendTrigs (h : Keeps clk s₀ s) {f marked xs} : Keeps clk s₀ (s.sendTrigs f marked xs) := by
  induction xs generalizing s with
  | nil => exact h
  | cons x xs ih => exact ih (Keeps.ite h.setChm h)

theorem Keeps.fire (h : Keeps clk s₀ s) {k src recs f} : Keeps clk s₀ (s.fire k src recs f) :=
  (((Keeps.ite h.bump.bump h.bump).update).pulse).sendTrigs

theorem Keeps.fires (h : Keeps clk s₀ s) {k src recs xs} : Keeps clk s₀ (s.fires k src recs xs) := by
  induction xs generalizing s with
  | nil => exact h
  | cons x xs ih => exact ih h.fire

theorem Keeps.countHits (h : Keeps clk s₀ s) {xs} : Keeps clk s₀ (s.countHits xs) := by
  induction xs generalizing s with
  | nil => exact h
  | cons x xs ih => exact ih (Keeps.ite h.bump h)

theorem Keeps.tickDecided (h : Keeps clk s₀ s) {k} : Keeps clk s₀ (s.tickDecided k) := h.update

theorem Keeps.decideTick (h : Keeps clk s₀ s) {k} : Keeps clk s₀ (s.decideTick k) :=
  Keeps.ite h.tickDecided ((((((Keeps.ite h.bump h).countHits).runTus).allPools).fires).tickDecided)

theorem Keeps.trgDecision (h : Keeps clk s₀ s) : Keeps clk s₀ (trgDecision s) := by
  unfold Machine.trgDecision
  extract_lets f try' s1
  have try_keeps {s lat ok} (h : Keeps clk s₀ s) : Keeps clk s₀ (try' s lat ok) := h.decideTick.ite h
  clear_value try'
  have h1 : Keeps clk s₀ s1 := by
    unfold s1
    split
    · exact try_keeps h
    · exact h
  exact try_keeps h1

theorem Keeps.trigOutPulseEnd (h : Keeps clk s₀ s) {m} : Keeps clk s₀ (trigOutPulseEnd m s) := h.update

theorem Keeps.triggerRecordPost (h : Keeps clk s₀ s) : Keeps clk s₀ (triggerRecordPost s) := by
  unfold Machine.triggerRecordPost
  dsimp only
  split
  · exact h
  · exact h.update.event

theorem Keeps.trgCommit' (h : Keeps clk s₀ s) {value} : Keeps clk s₀ (trgCommit' value s) :=
  Keeps.ite h.refuse h.update.setF

theorem Keeps.takePending (h : Keeps clk s₀ s) {xs} : Keeps clk s₀ (s.takePending xs) := by
  induction xs generalizing s with
  | nil => exact h
  | cons x xs ih => exact ih h.update

theorem Keeps.commitApply (h : Keeps clk s₀ s) : Keeps clk s₀ (commitApply s) := by
  unfold Machine.commitApply
  dsimp only
  split
  · exact h
  · exact Keeps.ite h.takePending.setF.update h

theorem Keeps.recordDone (h : Keeps clk s₀ s) {c d} : Keeps clk s₀ (s.recordDone c d) := h.hbmWrite.event

theorem Keeps.recordComplete (h : Keeps clk s₀ s) {c} : Keeps clk s₀ (recordComplete c s) := by
  unfold Machine.recordComplete
  dsimp only
  split
  · exact h
  · exact Keeps.ite h.setPool.recordDone h

theorem Keeps.acqWriteResume (h : Keeps clk s₀ s) {c} : Keeps clk s₀ (acqWriteResume c s) := Keeps.ite h.setPool h

theorem Keeps.poolReleaseWrite (h : Keeps clk s₀ s) {c value} : Keeps clk s₀ (poolReleaseWrite c value s) :=
  Keeps.ite h.refuse h.setF.setPool

theorem Keeps.poolCtrlWrite (h : Keeps clk s₀ s) {c value} : Keeps clk s₀ (poolCtrlWrite c value s) := by
  unfold Machine.poolCtrlWrite
  dsimp only
  split
  · exact h.setIf.setIf.setIf
  split
  · exact h.setIf.setIf.setIf.setF.setPool
  · exact Keeps.ite h.setIf.setIf.setIf.refuse h.setIf.setIf.setIf.setF.setPool

theorem Keeps.recordsDone (h : Keeps clk s₀ s) {c xs} : Keeps clk s₀ (s.recordsDone c xs) := by
  induction xs generalizing s with
  | nil => exact h
  | cons d ds ih =>
    unfold State.recordsDone
    exact ih h.recordDone

theorem Keeps.poolStop (h : Keeps clk s₀ s) {c} : Keeps clk s₀ (poolStop c s) := by
  unfold Machine.poolStop
  dsimp only
  split
  · exact h
  · exact Keeps.ite h h.poolPut.acqDrain.setPool.recordsDone

theorem Keeps.poolStart (h : Keeps clk s₀ s) {c} : Keeps clk s₀ (poolStart c s) := by
  unfold Machine.poolStart
  dsimp only
  split
  · exact h
  · exact Keeps.ite h h.setPool.setF.setF

/-! ## The loader's passes (`Machine/LoadOps`) -/

theorem Keeps.loadBytes (h : Keeps clk s₀ s) {desc} : Keeps clk s₀ (s.loadBytes desc).1 := h.awRead.awRead

theorem Keeps.setDigest (h : Keeps clk s₀ s) {off d} : Keeps clk s₀ (s.setDigest off d) := h.setWords

theorem Keeps.setCaps (h : Keeps clk s₀ s) {caps} : Keeps clk s₀ (s.setCaps caps) := h.foldl (fun _ _ h1 => h1.setF)

theorem Keeps.unload (h : Keeps clk s₀ s) : Keeps clk s₀ s.unload := h.update.resetWords.setF.setF.setF.setCaps

theorem Keeps.showImage (h : Keeps clk s₀ s) {x map} : Keeps clk s₀ (s.showImage x map) := by
  unfold State.showImage
  exact ((((((((h.resetWords.maybeNot fun h1 =>
    h1.setF.setF.setF.setF.setF.setF.setF.setF.setF.setF.setF).setF).setDigest).setF).setF).setF).setF).setF).setCaps

theorem Keeps.writeTrigger (h : Keeps clk s₀ s) {xs} : Keeps clk s₀ (s.writeTrigger xs) := by
  induction xs generalizing s with
  | nil => exact h
  | cons x xs ih => exact ih (h.setWord.maybe fun h1 => h1.update)

theorem Keeps.setModes (h : Keeps clk s₀ s) {x xs} : Keeps clk s₀ (s.setModes x xs) := by
  induction xs generalizing s with
  | nil => exact h
  | cons x xs ih => exact ih h.setF.setF

theorem Keeps.setRelays (h : Keeps clk s₀ s) {xs} : Keeps clk s₀ (s.setRelays xs) := by
  induction xs generalizing s with
  | nil => exact h
  | cons x xs ih => exact ih h.setF.setF

theorem Keeps.clearHearth (h : Keeps clk s₀ s) {x vm} : Keeps clk s₀ (s.clearHearth x vm) :=
  h.setRelays.setModes.unload.update

theorem Keeps.cfgSite (h : Keeps clk s₀ s) {x epoch v c u} : Keeps clk s₀ (s.cfgSite x epoch v c u) := by
  unfold State.cfgSite
  exact h.setF.setF.setF.setF.setF.setF.setF.setF

theorem Keeps.writeEdges (h : Keeps clk s₀ s) {i epoch xs} : Keeps clk s₀ (s.writeEdges i epoch xs) := by
  induction xs generalizing s with
  | nil => exact h
  | cons x xs ih => exact ih h.setEdge

/-- What `State.writeSites` does at one site. -/
def State.writeSite (s : State) (i : Image) (x : ImgInfo) (mv : List (Hop × Nat)) (epoch v c u : Nat) : State :=
  let n : HUnit := { i.unitOf v c with rqts := (s.unit u).rqts }
  let s1 := (s.setUnit u (if isMu c then n else n.publish)).setGrate u ((i.shifted mv v c).startQueues epoch)
  s1.cfgSite x epoch v c u

theorem Keeps.writeSite (h : Keeps clk s₀ s) {i x mv epoch v c u} : Keeps clk s₀ (s.writeSite i x mv epoch v c u) :=
  h.setUnit.setGrate.cfgSite

/-- The equation of `State.writeSites` at a site: by the recursor, since the unifier does not get through
`State.cfgSite`. -/
theorem State.writeSites_cons {i : Image} {x : ImgInfo} {mv : List (Hop × Nat)} {epoch v c u : Nat} {r : List
  (Nat × Nat × Nat)} :
    s.writeSites i x mv epoch ((v, c, u) :: r) = (s.writeSite i x mv epoch v c u).writeSites i x mv epoch r := by
  delta State.writeSites
  exact congrFun (List.brecOn.eq ((v, c, u) :: r) (State.writeSites._f i x mv epoch)) s

theorem Keeps.writeSites (h : Keeps clk s₀ s) {i x mv epoch xs} : Keeps clk s₀ (s.writeSites i x mv epoch xs) := by
  induction xs generalizing s with
  | nil => exact h
  | cons p ps ih =>
    obtain ⟨v, c, u⟩ := p
    rw [State.writeSites_cons]
    exact ih h.writeSite

theorem Keeps.copyHbm (h : Keeps clk s₀ s) {i place} : Keeps clk s₀ (s.copyHbm i place) := Keeps.ite h h.hbmWrite

theorem Keeps.writeFull (h : Keeps clk s₀ s) {i place epoch} : Keeps clk s₀ (s.writeFull i place epoch) :=
  (h.writeSites.writeEdges.copyHbm.showImage.writeTrigger.setF.setF.maybeNot fun h1 => h1.setF).update

theorem Keeps.setT0 (h : Keeps clk s₀ s) {epoch t0} : Keeps clk s₀ (s.setT0 epoch t0) :=
  h.update.maybe fun h1 => h1.setF

theorem Keeps.stageSites (h : Keeps clk s₀ s) {i mv xs} : Keeps clk s₀ (s.stageSites i mv xs) := by
  induction xs generalizing s with
  | nil => exact h
  | cons x xs ih => exact ih h.setUnit.setGrate

theorem Keeps.stageEdges (h : Keeps clk s₀ s) {i xs} : Keeps clk s₀ (s.stageEdges i xs) := by
  induction xs generalizing s with
  | nil => exact h
  | cons x xs ih => exact ih h.setEdge

theorem Keeps.leaveLive (h : Keeps clk s₀ s) {o i n xs} : Keeps clk s₀ (s.leaveLive o i n xs) := by
  induction xs generalizing s n with
  | nil => cases n <;> exact h
  | cons t ts ih =>
    unfold State.leaveLive
    exact Keeps.ite (ih h) (ih h.setUnit)

theorem Keeps.writeStage (h : Keeps clk s₀ s) {i place} : Keeps clk s₀ (s.writeStage i place) :=
  h.stageSites.stageEdges.setF.setF.copyHbm.setDigest.update

theorem Keeps.dropShadows (h : Keeps clk s₀ s) : Keeps clk s₀ s.dropShadows := h.update

theorem Keeps.stopUnits (h : Keeps clk s₀ s) {xs} : Keeps clk s₀ (s.stopUnits xs) := by
  induction xs generalizing s with
  | nil => exact h
  | cons x xs ih => exact ih (Keeps.ite h.setUnit h)

theorem Keeps.abortTags (h : Keeps clk s₀ s) {xs} : Keeps clk s₀ (s.abortTags xs) := by
  induction xs generalizing s with
  | nil => exact h
  | cons x xs ih => exact ih h.complete

theorem Keeps.abortRuns (h : Keeps clk s₀ s) {xs} : Keeps clk s₀ (s.abortRuns xs) := by
  induction xs generalizing s with
  | nil => exact h.update.abortTags
  | cons x xs ih => exact ih h.stopUnits.complete

/-! ## Configuration tokens (`Machine/CfgNet`) -/

theorem Keeps.cfgToken (h : Keeps clk s₀ s) {course token op act} (ha : ∀ t u, Keeps clk s₀ (act t u)) :
    Keeps clk s₀ (s.cfgToken course token op act) :=
  h.ite (h.illegal.ite ((ha _ _).ite h))

theorem Keeps.cfgRefuse (h : Keeps clk s₀ s) {t u} : Keeps clk s₀ (s.cfgRefuse t u) := Keeps.ite h.raise h.raise

theorem Keeps.shadowPut (h : Keeps clk s₀ s) {course t u} : Keeps clk s₀ (s.shadowPut course t u) :=
  Keeps.ite h.cfgRefuse (Keeps.ite h.setUnit (Keeps.ite h.setGrate h.setEdge))

theorem Keeps.shadowWrite (h : Keeps clk s₀ s) {course token} : Keeps clk s₀ (shadowWrite course token s) :=
  h.cfgToken (fun _ _ => h.shadowPut)

theorem Keeps.activePut (h : Keeps clk s₀ s) {course t u} : Keeps clk s₀ (s.activePut course t u) :=
  Keeps.ite h.cfgRefuse (Keeps.ite h.setUnit (Keeps.ite h.setGrate h.setEdge))

theorem Keeps.livePut (h : Keeps clk s₀ s) {course t u} : Keeps clk s₀ (s.livePut course t u) :=
  Keeps.ite h.setUnit.setGrate h.activePut

theorem Keeps.liveWrite (h : Keeps clk s₀ s) {course token} : Keeps clk s₀ (liveWrite course token s) :=
  h.cfgToken (fun _ _ => h.livePut)

theorem Keeps.scanReq (h : Keeps clk s₀ s) {course token} : Keeps clk s₀ (scanReq course token s) :=
  h.cfgToken (fun _ _ => Keeps.ite h h.update)

theorem Keeps.cfgEmpty (h : Keeps clk s₀ s) {course token} : Keeps clk s₀ (cfgEmpty course token s) := by
  refine h.cfgToken fun _ _ => ?_
  split
  · exact h
  · exact h.update

theorem Keeps.scanData (h : Keeps clk s₀ s) {course token} : Keeps clk s₀ (scanData course token s) :=
  h.cfgToken (fun _ _ => Keeps.ite h h.activePut)

theorem Keeps.cfgMark (h : Keeps clk s₀ s) {course token} : Keeps clk s₀ (cfgMark course token s) := by
  refine h.cfgToken fun _ _ => ?_
  split
  · exact h.setUnit.ite h
  · exact h

theorem Keeps.shadowClear (h : Keeps clk s₀ s) {course token} : Keeps clk s₀ (shadowClear course token s) :=
  h.cfgToken (fun _ _ => h.setUnit.setGrate)

/-! ## Power and resets (`Machine/Power`) -/

theorem Keeps.perstAssert (h : Keeps False s₀ s) {ns} : Keeps False s₀ (perstAssert ns s) :=
  Keeps.ite h h.update.chipReset

theorem Keeps.perstDeassert (h : Keeps clk s₀ s) : Keeps clk s₀ (perstDeassert s) := h.update

theorem Keeps.chipResetCmd (h : Keeps False s₀ s) : Keeps False s₀ (chipResetCmd s) := by
  unfold Machine.chipResetCmd
  split
  · exact Keeps.ite h h.chipReset
  · exact h.chipReset

theorem Keeps.chipResetWrite (h : Keeps False s₀ s) : Keeps False s₀ (chipResetWrite s) := h.chipReset

theorem Keeps.markFailed (h : Keeps clk s₀ s) {failed xs} : Keeps clk s₀ (s.markFailed failed xs) := by
  induction xs generalizing s with
  | nil => exact h
  | cons x xs ih => exact ih (Keeps.ite h.setF.assertSrc h.setF)

theorem Keeps.hbmFillDone (h : Keeps clk s₀ s) {failed} : Keeps clk s₀ (Machine.hbmFillDone failed s) := by
  have hcold {z : State} (hz : Keeps clk s₀ z) : Keeps clk s₀
      { z with mem := { Mem.reset with faults := z.mem.faults }, pwr := { z.pwr with hbmLost := false } } :=
    hz.trans ⟨rfl, rfl, fun ⟨hr, _, _, hh⟩ => ⟨hr, rfl, rfl, hh⟩, fun _ => ⟨rfl, rfl, rfl, rfl⟩⟩
  unfold Machine.hbmFillDone
  extract_lets z _ _ s1 s2
  have h1 : Keeps clk s₀ s1 := (hcold h.resetWords).markFailed.ite h
  have h2 : Keeps clk s₀ s2 := h1.setF
  clear_value s2
  exact h2.update.ite h2

theorem Keeps.coreRelease (h : Keeps False s₀ s) : Keeps False s₀ (coreRelease s) := h.updateClocks.ite h

theorem Keeps.linkDown (h : Keeps clk s₀ s) : Keeps clk s₀ s.linkDown := h.update.setF.maybeNot fun h1 => h1.raise

theorem Keeps.railOutOfTolerance (h : Keeps False s₀ s) {rail high} :
    Keeps False s₀ (Machine.railOutOfTolerance rail high s) := by
  unfold Machine.railOutOfTolerance
  extract_lets s1 _ s2 _ _ s3
  have h1 : Keeps False s₀ s1 := h.setF
  clear_value s1
  have h2 : Keeps False s₀ s2 := h1.update.ite h1
  clear_value s2
  have h3 : Keeps False s₀ s3 := by
    unfold s3
    split
    · exact h2
    · exact h2.levelOn
  exact h1.update.chipReset.ite <| h2.ite <| (h2.levelOn.ite h2.levelOn.updateClocks).ite <| h2.linkDown.ite <|
    h3.txSettleAll.ite h3

theorem Keeps.railReturn (h : Keeps False s₀ s) {rail} : Keeps False s₀ (Machine.railReturn rail s) := by
  unfold Machine.railReturn
  extract_lets s1 _ _ s2
  have h1 : Keeps False s₀ s1 := h.setF
  clear_value s1
  have h2 : Keeps False s₀ s2 := by
    unfold s2
    split
    · exact h1
    · exact h1.levelOff
  exact (h1.update.fireboxBoot.ite h1).ite <| ((h1.levelOff (n := 3)).levelOff (n := 4)).updateClocks.ite <|
    h2.txSettleAll.ite h2

theorem Keeps.pllUnlock (h : Keeps clk s₀ s) {pll} : Keeps clk s₀ (pllUnlock pll s) :=
  Keeps.ite h.linkDown (Keeps.ite h.setF.levelOn (Keeps.ite h.setF.levelOn h.setF.assertSrc))

theorem Keeps.pllRelock (h : Keeps clk s₀ s) {pll} : Keeps clk s₀ (Machine.pllRelock pll s) := by
  unfold Machine.pllRelock
  extract_lets w p s1
  have hp : p.released = w.pwr.released := congrArg Pwr.released (pwr_setF s ⟨pwrPllStatus, pll, 1⟩ 1).symm
  have hw : Keeps clk s₀ w := h.setF
  have h1 : Keeps clk s₀ s1 := hw.update (released := hp)
  exact h.ite (h1.levelOff.ite ((h1.levelOff.ite h1).ite h1))

theorem Keeps.refclkLoss (h : Keeps clk s₀ s) : Keeps clk s₀ (refclkLoss s) := h.levelOn.setF

theorem Keeps.refclkReturn (h : Keeps clk s₀ s) : Keeps clk s₀ (refclkReturn s) := h.levelOff

theorem Keeps.avsStep (h : Keeps clk s₀ s) {up ack} : Keeps clk s₀ (avsStep up ack s) :=
  Keeps.ite h (Keeps.ite h.raise h.update.setF)

theorem Keeps.tempThreshold (h : Keeps clk s₀ s) {celsius} : Keeps clk s₀ (tempThreshold celsius s) := by
  unfold Machine.tempThreshold
  dsimp only
  split
  · exact (Keeps.ite h.setF.levelOn (Keeps.ite h.setF.levelOff h.setF)).levelOn
  · exact (Keeps.ite h.setF.levelOn (Keeps.ite h.setF.levelOff h.setF)).maybe fun h1 => h1.levelOff

theorem Keeps.setAllow (h : Keeps clk s₀ s) {n xs} : Keeps clk s₀ (s.setAllow n xs) := by
  induction xs generalizing s n with
  | nil => exact h
  | cons x xs ih => exact ih h.setF

theorem Keeps.damperUpdate (h : Keeps clk s₀ s) : Keeps clk s₀ (damperUpdate s) :=
  Keeps.ite h (h.setAllow.setF.setF.maybe fun h1 => h1.assertSrc)

theorem Keeps.cdcTimeout (h : Keeps clk s₀ s) {crossing} : Keeps clk s₀ (cdcTimeout crossing s) :=
  h.raise.assertSrc.update

theorem Keeps.cdcResync (h : Keeps clk s₀ s) {crossing words} : Keeps clk s₀ (cdcResync crossing words s) :=
  h.bump.update

theorem Keeps.companionLoss (h : Keeps clk s₀ s) {t} : Keeps clk s₀ (companionLoss t s) :=
  Keeps.ite h (h.setF.setF.bump.maybe fun h1 => h1.txEnter.assertSrc)

theorem Keeps.companionPresent (h : Keeps clk s₀ s) {t} : Keeps clk s₀ (companionPresent t s) :=
  Keeps.ite h h.setF.setF.setTx

theorem Keeps.transmitterOn (h : Keeps clk s₀ s) {t} : Keeps clk s₀ (transmitterOn t s) := Keeps.ite h.txEnter h

theorem Keeps.probePulse (h : Keeps clk s₀ s) {t} : Keeps clk s₀ (probePulse t s) := Keeps.ite h.setTx h

theorem Keeps.flueFail (h : Keeps clk s₀ s) {k} : Keeps clk s₀ (s.flueFail k) := h.setF.setF.txSettleAll.assertSrc

theorem Keeps.clampTrip (h : Keeps clk s₀ s) {t} : Keeps clk s₀ (clampTrip t s) :=
  Keeps.ite h (h.bump.txEnter.assertSrc.update.maybe fun h1 => h1.flueFail)

theorem Keeps.extest (h : Keeps clk s₀ s) {instr} : Keeps clk s₀ (extest instr s) :=
  h.update.maybe fun h1 => h1.draw.update

/-! ## A core cycle (`Machine/Cycle`) -/

theorem Keeps.land (h : Keeps clk s₀ s) {a} : Keeps clk s₀ (s.land a) := by
  unfold State.land
  dsimp only
  split
  · exact h.setUnit
  · exact h.setUnit
  · exact h.setUnit
  · exact h.setUnit
  · exact h.landTake
  · exact h.landBytes
  · exact h.landV5
  · exact h.landVec
  · exact h.landBytes
  · exact h.landSend
  · exact h.landRead
  · exact h.landWrite
  · exact h.landStore
  · exact h.update
  · exact h.arriveQ
  · exact h.arriveEdge
  · exact h.crossArrive

theorem Keeps.landAll (h : Keeps clk s₀ s) {xs} : Keeps clk s₀ (s.landAll xs) := by
  induction xs generalizing s with
  | nil => exact h
  | cons x xs ih => exact ih h.land

theorem Keeps.landIf (h : Keeps clk s₀ s) {p} : Keeps clk s₀ (s.landIf p) := h.update.landAll

theorem Keeps.damperCycle (h : Keeps clk s₀ s) : Keeps clk s₀ s.damperCycle := by
  unfold State.damperCycle
  extract_lets l s1
  have h1 : Keeps clk s₀ s1 := h.ite h.bump
  clear_value s1
  exact h1.update

theorem Keeps.cuLive (h : Keeps clk s₀ s) {xs} : Keeps clk s₀ (s.cuLive xs) := by
  induction xs generalizing s with
  | nil => exact h
  | cons x xs ih => exact Keeps.ite (ih h) (ih h.setUnit.setGrate)

theorem Keeps.drainPools (h : Keeps clk s₀ s) {xs} : Keeps clk s₀ (s.drainPools xs) := by
  induction xs generalizing s with
  | nil => exact h
  | cons x xs ih => exact Keeps.ite (ih h) (ih h.draw.acqDrain)

theorem Keeps.advance (h : Keeps False s₀ s) : Keeps False s₀ s.advance := h.updateClocks

theorem Keeps.hearthCycle (h : Keeps False s₀ s) : Keeps False s₀ s.hearthCycle :=
  Keeps.ite h.landIf.advance.landIf h.advance

theorem Keeps.safeCycle (h : Keeps clk s₀ s) : Keeps clk s₀ s.safeCycle := Keeps.ite h.txSettleAll h

theorem Keeps.clampCycle (h : Keeps clk s₀ s) : Keeps clk s₀ s.clampCycle := h.update.txSettleAll

theorem Keeps.cycleWork (h : Keeps False s₀ s) : Keeps False s₀ s.cycleWork := by
  unfold State.cycleWork
  exact ((((((((Keeps.ite h.damperCycle
    h).hearthCycle).safeCycle).clampCycle).cuLive).drainPools).refreshFirst).slotGrants).refreshIdle

theorem Keeps.cyclePass (h : Keeps False s₀ s) : Keeps False s₀ (cyclePass s) := Keeps.ite h.powerOn h.cycleWork

/-! ## The Ashpit (`Machine/Ashpit`) -/

theorem Keeps.faultStatusSet (h : Keeps False s₀ s) {n upset} : Keeps False s₀ (Machine.faultStatusSet n upset s) := by
  unfold Machine.faultStatusSet
  extract_lets t mine _ t0 t1 bit was t2
  have ht : Keeps False s₀ t := by
    unfold t
    split
    · exact h.upsetWord.ite h
    · exact h
  clear_value t
  split
  · exact ht
  extract_lets a
  clear_value a
  have h0 : Keeps False s₀ t0 := ht.update
  clear_value t0
  split
  · exact h0
  · exact h0.bump.raise.ite h0.bump.raise.capture.react

theorem Keeps.errPulseEnd (h : Keeps False s₀ s) : Keeps False s₀ (errPulseEnd s) := by
  unfold Machine.errPulseEnd
  dsimp only
  split
  · exact h
  · split
    · exact h
    split
    · exact h.update.chipReset
    · exact h.update

theorem Keeps.blockRestart (h : Keeps clk s₀ s) {n} : Keeps clk s₀ (blockRestart n s) :=
  h.update.maybe fun h1 => h1.txSettleAll

theorem Keeps.hceBucketLeak (h : Keeps clk s₀ s) : Keeps clk s₀ (hceBucketLeak s) := Keeps.ite h.useWord.update.setF h

theorem Keeps.safeEnter (h : Keeps clk s₀ s) : Keeps clk s₀ (safeEnter s) := h.freshParity.enterSafe

theorem Keeps.safeExit (h : Keeps clk s₀ s) : Keeps clk s₀ (safeExit s) :=
  Keeps.ite h.freshParity (Keeps.ite h.useWords.refuse h.useWords.freshParity.setF.txSettleAll)

theorem Keeps.fltInjWrite (h : Keeps clk s₀ s) {value} : Keeps clk s₀ (fltInjWrite value s) :=
  Keeps.ite h.refuse (h.setF.setF.setIf.freshParity.maybe fun h1 => h1.setF)

theorem Keeps.clrCntFlt (h : Keeps clk s₀ s) : Keeps clk s₀ (clrCntFlt s) := h.freshParity.clearCounters

theorem Keeps.fltParityScan (h : Keeps clk s₀ s) {word parityOk} : Keeps clk s₀ (fltParityScan word parityOk s) :=
  (Keeps.ite h h.upsetWord).useWord

theorem Keeps.ashpitRelease (h : Keeps clk s₀ s) : Keeps clk s₀ (ashpitRelease s) := Keeps.ite h.update h

/-! ## The Chimney (`Machine/Chimney`) -/

theorem Keeps.chmSent (h : Keeps clk s₀ s) {p m x} : Keeps clk s₀ (s.chmSent p m x) := h.setChm

theorem Keeps.chmIdle (h : Keeps clk s₀ s) {p x} : Keeps clk s₀ (s.chmIdle p x) := h.draw.setChm

theorem Keeps.chimneySlotLaunch (h : Keeps clk s₀ s) {p} : Keeps clk s₀ (chimneySlotLaunch p s) := by
  unfold Machine.chimneySlotLaunch
  dsimp only
  split
  · exact h
  · split
    · exact h
    split
    · exact h.chmSent
    · split
      · exact h.chmIdle
      split
      · exact h.draw.chmSent
      · split
        · exact h.draw.chmSent
        split
        · exact h.chmIdle
        · exact Keeps.ite h.chmIdle ((Keeps.ite h.bump h).chmSent)

theorem Keeps.chmSync (h : Keeps clk s₀ s) {p valid hist} : Keeps clk s₀ (s.chmSync p valid hist) := by
  unfold State.chmSync
  exact h.setChm.setF.setF

theorem Keeps.chmMessage (h : Keeps clk s₀ s) {p ty msg f} (hf : ∀ s, Keeps clk s₀ s → Keeps clk s₀ (f s)) :
    Keeps clk s₀ (s.chmMessage p ty msg f) :=
  h.ite (h.chmSync.ite (h.chmSync.bump.ite ((hf _ h.chmSync).ite h.chmSync)))

theorem Keeps.chimneyBlockReceive (h : Keeps clk s₀ s) {p sync payload} :
    Keeps clk s₀ (chimneyBlockReceive p sync payload s) :=
  Keeps.ite h (h.chmSync.maybe fun h1 => h1.bump)

theorem Keeps.chimneyTriggerReceive (h : Keeps clk s₀ s) {p msg frac} :
    Keeps clk s₀ (chimneyTriggerReceive p msg frac s) := by
  unfold Machine.chimneyTriggerReceive
  exact h.chmMessage (fun _ h1 => Keeps.ite h1.bump (h1.bump.maybeNot fun h2 => Keeps.ite h1.addHit h2.routed))

theorem Keeps.echoReq (h : Keeps clk s₀ s) {p msg frac} : Keeps clk s₀ (echoReq p msg frac s) :=
  h.chmMessage (fun _ h1 => h1.setChm)

theorem Keeps.halfTrip (h : Keeps clk s₀ s) {rtt asym} : Keeps clk s₀ (s.halfTrip rtt asym).2 := by
  unfold State.halfTrip
  dsimp only
  split
  · exact h.snd
  · exact h.draw.snd

theorem Keeps.echoRsp (h : Keeps clk s₀ s) {p msg frac} : Keeps clk s₀ (Machine.echoRsp p msg frac s) := by
  refine h.chmMessage fun s hs => ?_
  extract_lets x
  split
  · exact hs
  · exact hs.ite hs.halfTrip.setChm.setF.setF.setF

theorem Keeps.chmUser (h : Keeps clk s₀ s) {p msg} : Keeps clk s₀ (chmUser p msg s) :=
  h.chmMessage (fun _ h1 => Keeps.ite h1.setChm h1.bump)

theorem Keeps.chmEchoGo (h : Keeps clk s₀ s) {p} : Keeps clk s₀ (chmEchoGo p s) := h.setChm

theorem Keeps.chmEchoTimeout (h : Keeps clk s₀ s) {p} : Keeps clk s₀ (chmEchoTimeout p s) := by
  unfold Machine.chmEchoTimeout
  dsimp only
  split
  · exact h
  · exact Keeps.ite h.setChm.raise h

theorem Keeps.txqPush (h : Keeps clk s₀ s) {p} : Keeps clk s₀ (txqPush p s) := Keeps.ite h.setChm h.refuse

theorem Keeps.rxqPop (h : Keeps clk s₀ s) {p} : Keeps clk s₀ (rxqPop p s) := h.setChm

/-! ## Digests (`Machine/Digests`) -/

theorem Keeps.dropShares (h : Keeps clk s₀ s) {points window xs} : Keeps clk s₀ (s.dropShares points window xs) := by
  induction xs generalizing s with
  | nil => exact h
  | cons x xs ih => exact ih (Keeps.ite h h.setUnit)

theorem Keeps.closePoints (h : Keeps clk s₀ s) {us window p} : Keeps clk s₀ (s.closePoints us window p) := by
  unfold State.closePoints
  dsimp only
  split
  · exact h
  · exact h.update.dropShares

theorem Keeps.twinClose (h : Keeps clk s₀ s) {ran} : Keeps clk s₀ (s.twinClose ran) := h.update.maybe fun h1 => h1.setF

theorem Keeps.hotDigestWindowClose (h : Keeps clk s₀ s) : Keeps clk s₀ (hotDigestWindowClose s) := by
  unfold Machine.hotDigestWindowClose
  dsimp only
  split
  · exact h
  · exact Keeps.ite h (h.twinClose.maybeNot fun h1 => h1.closePoints)

theorem Keeps.warmDigestWindowClose (h : Keeps clk s₀ s) {point} : Keeps clk s₀ (warmDigestWindowClose point s) := by
  unfold Machine.warmDigestWindowClose
  dsimp only
  split
  · exact h
  · split
    · exact h
    · split
      · exact h
      · exact Keeps.ite h.closePoints h

/-! ## Epochs (`Machine/Epoch`) -/

theorem Keeps.setSwap (h : Keeps clk s₀ s) {w} : Keeps clk s₀ (s.setSwap w) := h.update

theorem Keeps.endSwap (h : Keeps clk s₀ s) {w code result} : Keeps clk s₀ (s.endSwap w code result) :=
  h.setSwap.setF.loaderDone

/-- What `State.switchSites` does at one site. -/
def State.switchSite (s : State) (x : ImgInfo) (epoch v c u : Nat) : State :=
  let s1 := s.setGrate u ((s.grate u).switch.startQueues epoch)
  (s1.setUnit u { (s1.unit u).switch (isMu u) with digs := [] }).cfgSite x epoch v c u

theorem Keeps.switchSite (h : Keeps clk s₀ s) {x epoch v c u} : Keeps clk s₀ (s.switchSite x epoch v c u) :=
  h.setGrate.setUnit.cfgSite

/-- The equation of `State.switchSites` at a site: by the recursor, since the unifier does not get through
`State.cfgSite`. -/
theorem State.switchSites_cons {x : ImgInfo} {epoch v c u : Nat} {r : List (Nat × Nat × Nat)} :
    s.switchSites x epoch ((v, c, u) :: r) = (s.switchSite x epoch v c u).switchSites x epoch r := by
  delta State.switchSites
  exact congrFun (List.brecOn.eq ((v, c, u) :: r) (State.switchSites._f x epoch)) s

theorem Keeps.switchSites (h : Keeps clk s₀ s) {x epoch xs} : Keeps clk s₀ (s.switchSites x epoch xs) := by
  induction xs generalizing s with
  | nil => exact h
  | cons p ps ih =>
    obtain ⟨v, c, u⟩ := p
    rw [State.switchSites_cons]
    exact ih h.switchSite

theorem Keeps.switchEdges (h : Keeps clk s₀ s) {epoch xs} : Keeps clk s₀ (s.switchEdges epoch xs) := by
  induction xs generalizing s with
  | nil => exact h
  | cons x xs ih => exact ih h.setEdge

theorem Keeps.switchRegion (h : Keeps clk s₀ s) {x epoch vm} : Keeps clk s₀ (s.switchRegion x epoch vm) :=
  h.update.switchSites.switchEdges

theorem Keeps.swapGap (h : Keeps clk s₀ s) {o x k} : Keeps clk s₀ (s.swapGap o x k) := h.breakPools.setF.setF.update

theorem Keeps.hotSwitch (h : Keeps clk s₀ s) {w x o} : Keeps clk s₀ (s.hotSwitch w x o) := by
  unfold State.hotSwitch
  exact ((((((((Keeps.ite h h.swapGap.switchRegion).showImage).writeTrigger).setF).setF).setF).maybeNot fun h1 =>
    h1.setF).setT0).update

theorem Keeps.hotEpochSwitch (h : Keeps clk s₀ s) : Keeps clk s₀ (hotEpochSwitch s) := by
  unfold Machine.hotEpochSwitch
  split
  · exact h.hotDigestWindowClose.hotSwitch
  · exact h

theorem Keeps.markEdges (h : Keeps clk s₀ s) {epoch xs} : Keeps clk s₀ (s.markEdges epoch xs) := by
  induction xs generalizing s with
  | nil => exact h
  | cons x xs ih => exact ih (Keeps.ite h.setEdge h)

theorem Keeps.sendMarks (h : Keeps clk s₀ s) : Keeps clk s₀ s.sendMarks := by
  unfold State.sendMarks
  dsimp only
  split
  · exact h
  · split
    · exact h
    · exact Keeps.ite h h.setSwap.markEdges

theorem Keeps.stokerMarkEnqueue (h : Keeps clk s₀ s) : Keeps clk s₀ (stokerMarkEnqueue s) := h.sendMarks

theorem Keeps.swapEpoch (h : Keeps clk s₀ s) {tag} : Keeps clk s₀ (swapEpoch tag s) := by
  unfold Machine.swapEpoch
  dsimp only
  split
  · exact h
  · split
    · exact h.begin.loaderDone
    · exact Keeps.ite h.begin.loaderDone (h.begin.setSwap.setF.setF.maybe fun h1 => h1.sendMarks)

theorem Keeps.dropMarks (h : Keeps clk s₀ s) {u xs} : Keeps clk s₀ (s.dropMarks u xs) := by
  induction xs generalizing s with
  | nil => exact h
  | cons x xs ih => exact ih (Keeps.ite h.takeHead h)

theorem Keeps.putMarks (h : Keeps clk s₀ s) {u epoch xs} : Keeps clk s₀ (s.putMarks u epoch xs) := by
  induction xs generalizing s with
  | nil => exact h
  | cons x xs ih => exact ih h.setGrate

theorem Keeps.warmUnitSwitch (h : Keeps clk s₀ s) {u} : Keeps clk s₀ (warmUnitSwitch u s) := by
  unfold Machine.warmUnitSwitch
  dsimp only
  split
  · exact h
  · split
    · exact h
    · exact Keeps.ite h h.dropMarks.putMarks.setUnit.setF.setF.setF.setF.setF

theorem Keeps.warmGrateSwitch (h : Keeps clk s₀ s) {g} : Keeps clk s₀ (warmGrateSwitch g s) := by
  unfold Machine.warmGrateSwitch
  dsimp only
  split
  · exact h
  · split
    · exact h
    · exact Keeps.ite h.setGrate.setF.setF h

theorem Keeps.creditEpochStart (h : Keeps clk s₀ s) {k} : Keeps clk s₀ (creditEpochStart k s) := by
  unfold Machine.creditEpochStart
  extract_lets g q y j e
  split
  · split
    · exact h
    · exact Keeps.ite h.setGrate h
  split
  · split
    · exact h
    · exact Keeps.ite h.setEdge h
  · split
    · exact h
    · exact Keeps.ite h.setEdge h

theorem Keeps.swapTimeout (h : Keeps clk s₀ s) : Keeps clk s₀ (swapTimeout s) := by
  unfold Machine.swapTimeout
  split
  · exact h
  · split
    · exact h
    · exact Keeps.ite h.endSwap.assertSrc h

theorem Keeps.newRxWords (h : Keeps clk s₀ s) {xs} : Keeps clk s₀ (s.newRxWords xs) := by
  induction xs generalizing s with
  | nil => exact h
  | cons x xs ih => exact ih h.setEdge

theorem Keeps.swapEpochComplete (h : Keeps clk s₀ s) : Keeps clk s₀ (swapEpochComplete s) := by
  unfold Machine.swapEpochComplete
  dsimp only
  split
  · exact Keeps.ite h.newRxWords.endSwap h
  · exact h

/-! ## Descriptors (`Machine/StkRun`) -/

theorem Keeps.setRun (h : Keeps clk s₀ s) {r} : Keeps clk s₀ (s.setRun r) := h.update

theorem Keeps.choice (h : Keeps clk s₀ s) {r is} : Keeps clk s₀ (s.choice r is).1 := by
  unfold State.choice
  split
  · exact h.bump.fst
  · exact h.fst

theorem Keeps.ringWords (h : Keeps clk s₀ s) {base size at' n} : Keeps clk s₀ (s.ringWords base size at' n).1 := by
  induction n generalizing s at' with
  | zero => exact h.fst
  | succ n ih => exact (ih h.hbmRead).fst

theorem Keeps.expand (h : Keeps clk s₀ s) {pool elems rec'} : Keeps clk s₀ (s.expand pool elems rec').1 := h.ringWords

theorem Keeps.readTokens (h : Keeps clk s₀ s) {aw n n'} : Keeps clk s₀ (s.readTokens aw n n').1 := by
  induction n generalizing s aw n' with
  | zero => exact h.fst
  | succ n ih => exact (ih h.awRead).fst

theorem Keeps.startUnits (h : Keeps clk s₀ s) {xs} : Keeps clk s₀ (s.startUnits xs) := by
  induction xs generalizing s with
  | nil => exact h
  | cons x xs ih => exact ih (Keeps.ite h.setUnit h)

theorem Keeps.clearWarmHist (h : Keeps clk s₀ s) {g} : Keeps clk s₀ (s.clearWarmHist g) := h.update

theorem Keeps.beginRun (h : Keeps clk s₀ s) {tag d g decoded} : Keeps clk s₀ (s.beginRun tag d g decoded) :=
  h.readTokens.begin.startUnits.clearWarmHist.update

theorem Keeps.runDesc (h : Keeps clk s₀ s) {tag} : Keeps clk s₀ (runDesc tag s) := by
  unfold Machine.runDesc
  dsimp only
  split
  · exact h
  · split
    · exact h.complete
    · split
      · exact h.complete
      split
      · exact h
      split
      · exact h.beginRun
      · exact Keeps.ite h.hbmRead.complete (Keeps.ite h.hbmRead.complete h.hbmRead.expand.beginRun)

theorem Keeps.chunkAssign (h : Keeps clk s₀ s) {tag} : Keeps clk s₀ (chunkAssign tag s) := by
  unfold Machine.chunkAssign
  dsimp only
  split
  · exact h
  · split
    · exact h
    · exact h.choice.setRun

theorem Keeps.inputToken (h : Keeps clk s₀ s) {r chunk k} : Keeps clk s₀ (s.inputToken r chunk k).1 := by
  unfold State.inputToken
  dsimp only
  split
  · exact h.fst
  split
  · split
    · exact h.awRead.drawBytes.fst
    · exact h.awRead.fst
  · exact h.fst

theorem Keeps.portPush (h : Keeps clk s₀ s) {key x void} : Keeps clk s₀ (s.portPush key x void) := h.setEdge

theorem Keeps.portFeed (h : Keeps clk s₀ s) {key} : Keeps clk s₀ (s.portFeed key) := by
  unfold State.portFeed
  dsimp only
  split
  · exact h
  split
  · exact h
  · split
    · exact h
    · exact h.portPush.setRun
  · split
    · exact h
    · split
      · exact h
      · exact Keeps.ite h h.inputToken.portPush.setRun

theorem Keeps.streamPortSend (h : Keeps clk s₀ s) {port} : Keeps clk s₀ (streamPortSend port s) := by
  unfold Machine.streamPortSend
  dsimp only
  split
  · exact h
  split
  · exact Keeps.ite h.portFeed h
  · exact (Keeps.ite h.portFeed h).maybeNot fun h1 => h1.setEdge.update

theorem Keeps.portWrite (h : Keeps clk s₀ s) {r aw t n} : Keeps clk s₀ (s.portWrite r aw t n).1 := h.awWrite

theorem Keeps.replicaOut (h : Keeps clk s₀ s) {r j p c t} : Keeps clk s₀ (s.replicaOut r j p c t) :=
  Keeps.ite h.portWrite.setRun (Keeps.ite h.setRun h.setRun)

theorem Keeps.combineOut (h : Keeps clk s₀ s) {r t} : Keeps clk s₀ (s.combineOut r t) :=
  Keeps.ite h.portWrite.setRun (Keeps.ite h.portWrite.setRun h)

theorem Keeps.streamPortDrain (h : Keeps clk s₀ s) {port} : Keeps clk s₀ (streamPortDrain port s) := by
  unfold Machine.streamPortDrain
  dsimp only
  split
  · exact h
  split
  · exact h
  · split
    · exact h.takeEdge.setEdge
    split
    · exact h
    · exact Keeps.ite h.takeEdge.combineOut h
    · split
      · exact h
      · split
        · exact h
        · exact h.takeEdge.replicaOut

theorem Keeps.summaryEnter (h : Keeps clk s₀ s) {tag} : Keeps clk s₀ (summaryEnter tag s) := by
  unfold Machine.summaryEnter
  dsimp only
  split
  · exact h
  · split
    · exact h
    · exact h.choice.setRun

theorem Keeps.runComplete (h : Keeps clk s₀ s) {tag} : Keeps clk s₀ (runComplete tag s) := by
  unfold Machine.runComplete
  dsimp only
  split
  · exact h
  · exact Keeps.ite h.stopUnits.update.complete h

/-! ## The Stoker (`Machine/Stoker`) -/

theorem Keeps.setSq (h : Keeps clk s₀ s) {q x} : Keeps clk s₀ (s.setSq q x) := h.update

theorem Keeps.rang (h : Keeps clk s₀ s) {i v} : Keeps clk s₀ (s.rang i v) := h.update

theorem Keeps.sqDoorbell (h : Keeps clk s₀ s) {q value} : Keeps clk s₀ (sqDoorbell q value s) :=
  Keeps.ite h.rang.setF h.rang.raise

theorem Keeps.cqDoorbell (h : Keeps clk s₀ s) {q value} : Keeps clk s₀ (cqDoorbell q value s) :=
  Keeps.ite h.rang.setF h.rang.raise

theorem Keeps.descriptorFetch (h : Keeps clk s₀ s) {q} : Keeps clk s₀ (descriptorFetch q s) :=
  Keeps.ite h h.awRead.setSq

theorem Keeps.passHead (h : Keeps clk s₀ s) {q} : Keeps clk s₀ (s.passHead q) := by
  unfold State.passHead
  exact h.setSq.setF

theorem Keeps.handUnstarted (h : Keeps clk s₀ s) {q d poisoned status} :
    Keeps clk s₀ (s.handUnstarted q d poisoned status) :=
  Keeps.ite h.hand h.hand

theorem Keeps.dropHead (h : Keeps clk s₀ s) {q} : Keeps clk s₀ (s.dropHead q) := by
  unfold State.dropHead
  dsimp only
  split
  · exact h
  · exact Keeps.ite h.passHead.handUnstarted h.passHead.bump.handUnstarted

theorem Keeps.startHead (h : Keeps clk s₀ s) {q} : Keeps clk s₀ (s.startHead q) := by
  unfold State.startHead
  dsimp only
  split
  · exact h
  · exact h.passHead.update.maybeNot fun h1 => h1.complete

theorem Keeps.descriptorStart (h : Keeps clk s₀ s) : Keeps clk s₀ (descriptorStart s) := by
  unfold Machine.descriptorStart
  split
  · exact h
  · exact Keeps.ite h.startHead h.dropHead

theorem Keeps.cqSignal (h : Keeps clk s₀ s) {q irq} : Keeps clk s₀ (s.cqSignal q irq) :=
  Keeps.ite h (Keeps.ite h.setCq.signal h.setCq)

theorem Keeps.cqAdvance (h : Keeps clk s₀ s) {q} : Keeps clk s₀ (s.cqAdvance q) := Keeps.ite h.setF.setF h.setF

theorem Keeps.completionPost (h : Keeps clk s₀ s) {q} : Keeps clk s₀ (completionPost q s) := by
  unfold Machine.completionPost
  dsimp only
  split
  · exact h
  · split
    · exact h
    refine Keeps.cqSignal ?_
    split
    · exact h.awWrite.awWrite.setCq.cqAdvance.bump.dropFly
    · exact h.awWrite.awWrite.setCq.cqAdvance.bump

theorem Keeps.cqIrqTimeout (h : Keeps clk s₀ s) {q} : Keeps clk s₀ (cqIrqTimeout q s) := Keeps.ite h.setCq.signal h

theorem Keeps.cqEnable (h : Keeps clk s₀ s) {q value} : Keeps clk s₀ (cqEnable q value s) :=
  Keeps.ite h.refuse (Keeps.ite h.setIf.setF.setF.setF.setF.setF.setF h.setIf.setF.setF.setF.setF)

theorem Keeps.fenceDesc (h : Keeps clk s₀ s) {tag} : Keeps clk s₀ (fenceDesc tag s) := by
  unfold Machine.fenceDesc
  split
  · exact h.begin
  · exact h

theorem Keeps.fenceComplete (h : Keeps clk s₀ s) {tag} : Keeps clk s₀ (fenceComplete tag s) := by
  unfold Machine.fenceComplete
  split
  · exact h
  · exact Keeps.ite h.complete h

theorem Keeps.barrierDesc (h : Keeps clk s₀ s) {tag} : Keeps clk s₀ (barrierDesc tag s) := by
  unfold Machine.barrierDesc
  dsimp only
  split
  · exact h.setFly
  · exact h

theorem Keeps.barrierComplete (h : Keeps clk s₀ s) {tag} : Keeps clk s₀ (barrierComplete tag s) := by
  unfold Machine.barrierComplete
  split
  · exact h
  · exact Keeps.ite h.complete h

theorem Keeps.barrierTimeout (h : Keeps clk s₀ s) {tag} : Keeps clk s₀ (barrierTimeout tag s) := by
  unfold Machine.barrierTimeout
  dsimp only
  split
  · exact h
  · exact Keeps.ite h.complete h

theorem Keeps.cancelAll (h : Keeps clk s₀ s) {q n} : Keeps clk s₀ (s.cancelAll q n) := by
  induction n generalizing s with
  | zero => exact h
  | succ n ih =>
    unfold State.cancelAll
    dsimp only
    refine ih (((Keeps.passHead ?_).bump).handUnstarted)
    split
    · exact h.fst
    · exact h.awRead.fst

theorem Keeps.disableSq (h : Keeps clk s₀ s) {q} : Keeps clk s₀ (s.disableSq q) := h.cancelAll

theorem Keeps.sqDisable (h : Keeps clk s₀ s) {q} : Keeps clk s₀ (sqDisable q s) := h.disableSq.setF

theorem Keeps.stkDisable (h : Keeps clk s₀ s) {value} : Keeps clk s₀ (stkDisable value s) := by
  unfold Machine.stkDisable
  exact ((Keeps.ite h (h.foldl (fun _ _ h1 => h1.disableSq))).setF).setF

theorem Keeps.funcEnWrite (h : Keeps clk s₀ s) {value} : Keeps clk s₀ (funcEnWrite value s) :=
  h.setF.foldl (fun _ _ h1 => Keeps.ite h1.dropHead h1)

theorem Keeps.busMasterChange (h : Keeps clk s₀ s) {on} : Keeps clk s₀ (busMasterChange on s) := h.setF

/-! ## The host's queues (`Machine/Host`) -/

theorem Keeps.flr (h : Keeps clk s₀ s) : Keeps clk s₀ (flr s) :=
  h.resetWords.update.maybeNot fun h1 => h1.bump.assertSrc

theorem Keeps.pcieLinkDown (h : Keeps clk s₀ s) : Keeps clk s₀ (pcieLinkDown s) := h.linkDown

theorem Keeps.pcieLinkUp (h : Keeps clk s₀ s) {width speed flit both} :
    Keeps clk s₀ (pcieLinkUp width speed flit both s) := by
  unfold Machine.pcieLinkUp
  exact h.update.setF.setF.setF.setF

theorem Keeps.msixSend (h : Keeps clk s₀ s) {v} : Keeps clk s₀ (msixSend v s) := h.trySend

theorem Keeps.bar2Resize (h : Keeps clk s₀ s) {log2GiB} : Keeps clk s₀ (bar2Resize log2GiB s) := Keeps.ite h h.update

/-! ## The loader (`Machine/Loader`) -/

theorem Keeps.setLoad (h : Keeps clk s₀ s) {l} : Keeps clk s₀ (s.setLoad l) := h.update

theorem Keeps.startLoad (h : Keeps clk s₀ s) {tag full} : Keeps clk s₀ (s.startLoad tag full) := by
  unfold State.startLoad
  split
  · exact h
  · exact Keeps.ite h.begin.setLoad h

theorem Keeps.loadImageFull (h : Keeps clk s₀ s) {tag} : Keeps clk s₀ (loadImageFull tag s) := h.startLoad

theorem Keeps.loadImageStage (h : Keeps clk s₀ s) {tag} : Keeps clk s₀ (loadImageStage tag s) := h.startLoad

theorem Keeps.firstPass (h : Keeps clk s₀ s) {l} : Keeps clk s₀ (s.firstPass l) := by
  unfold State.firstPass
  dsimp only
  split
  · exact h.loadBytes.setLoad.complete
  split
  · exact h.loadBytes.setLoad.loaderDone
  split
  · exact h.loadBytes.setLoad.loaderEnd
  · exact Keeps.ite h.loadBytes.setLoad.armHalt h.loadBytes.dropShadows.setLoad

theorem Keeps.startImage (h : Keeps clk s₀ s) {l epoch} : Keeps clk s₀ (s.startImage l epoch) :=
  Keeps.ite h.setT0.loaderDone (Keeps.ite h.setT0.loaderDone h.setT0.armRun.update)

theorem Keeps.stageLeft (h : Keeps clk s₀ s) {l buf poison} : Keeps clk s₀ (s.stageLeft l buf poison) := by
  unfold State.stageLeft
  dsimp only
  split
  · split
    · exact Keeps.ite h.draw.leaveLive h.leaveLive
    · exact h
  · exact h

theorem Keeps.secondFail (h : Keeps clk s₀ s) {l code} : Keeps clk s₀ (s.secondFail l code) :=
  ((Keeps.ite h.unload h.dropShadows).setLoad).loaderDone

theorem Keeps.secondPass (h : Keeps clk s₀ s) {l x} : Keeps clk s₀ (s.secondPass l x) := by
  unfold State.secondPass
  dsimp only
  split
  · exact ((Keeps.ite h.loadBytes.unload h.loadBytes.stageLeft.dropShadows).setLoad).complete
  split
  · exact (h.loadBytes.maybeNot fun h1 => h1.stageLeft).secondFail
  split
  · exact (h.loadBytes.maybeNot fun h1 => h1.stageLeft).secondFail
  · exact Keeps.ite h.loadBytes.writeFull.setF.startImage h.loadBytes.writeStage.loaderDone

theorem Keeps.loaderPassEnd (h : Keeps clk s₀ s) : Keeps clk s₀ (loaderPassEnd s) := by
  unfold Machine.loaderPassEnd
  split
  · split
    · exact h.firstPass
    split
    · exact Keeps.ite h.secondPass h
    · exact h
  · split
    · exact h.loaderDone
    · exact h

theorem Keeps.haltWrite (h : Keeps clk s₀ s) : Keeps clk s₀ (haltWrite s) := Keeps.ite h.armHalt h.cancelRelease

theorem Keeps.swapAtHalt (h : Keeps clk s₀ s) : Keeps clk s₀ s.swapAtHalt := by
  unfold State.swapAtHalt
  dsimp only
  split
  · exact h.hotEpochSwitch.maybe fun h1 => h1.endSwap
  · exact h.hotEpochSwitch

theorem Keeps.stopHearth (h : Keeps clk s₀ s) : Keeps clk s₀ s.stopHearth :=
  h.swapAtHalt.setF.setF.setF.breakPools.update

theorem Keeps.beginSecond (h : Keeps clk s₀ s) {l x} : Keeps clk s₀ (s.beginSecond l x) :=
  h.cancelRelease.clearHearth.setLoad

theorem Keeps.hearthHalt (h : Keeps clk s₀ s) : Keeps clk s₀ (hearthHalt s) := by
  unfold Machine.hearthHalt
  dsimp only
  split
  · exact h
  · split
    · exact h
    split
    · exact ((h.update.maybe fun h1 => h1.stopHearth).maybe fun h1 => h1.abortRuns).beginSecond
    · exact (h.update.maybe fun h1 => h1.stopHearth).maybe fun h1 => h1.abortRuns

theorem Keeps.runWrite (h : Keeps clk s₀ s) : Keeps clk s₀ (runWrite s) := Keeps.ite h.armRun h

theorem Keeps.shiftT0 (h : Keeps clk s₀ s) {halt release} : Keeps clk s₀ (s.shiftT0 halt release) :=
  h.update.maybe fun h1 => h1.setF

theorem Keeps.releaseHearth (h : Keeps clk s₀ s) : Keeps clk s₀ s.releaseHearth := by
  unfold State.releaseHearth
  dsimp only
  split
  · exact (h.setF.setF.setF.maybeNot fun h1 => h1.shiftT0).update
  · exact ((h.setF.setF.setF.maybeNot fun h1 => h1.shiftT0).update).loaderDone

theorem Keeps.hearthRelease (h : Keeps clk s₀ s) : Keeps clk s₀ (hearthRelease s) := by
  unfold Machine.hearthRelease
  split
  · exact h
  · exact Keeps.ite h (Keeps.ite h.cancelRelease h.releaseHearth)

/-! ## Memory commands (`Machine/Memory`) -/

theorem Keeps.hbmSectorRead (h : Keeps clk s₀ s) {master addr err hard} :
    Keeps clk s₀ (hbmSectorRead master addr err hard s) := by
  unfold Machine.hbmSectorRead
  dsimp only
  refine Keeps.hbmRequest ?_
  split
  · exact h.update
  · exact h

theorem Keeps.hbmSectorWrite (h : Keeps clk s₀ s) {master addr mask data poison} :
    Keeps clk s₀ (hbmSectorWrite master addr mask data poison s) :=
  h.hbmRequest

theorem Keeps.mergeTimeout (h : Keeps clk s₀ s) {sector} : Keeps clk s₀ (mergeTimeout sector s) := by
  unfold Machine.mergeTimeout
  split
  · exact h
  · exact Keeps.ite h.bump.writeBack h

theorem Keeps.readModifyWrite (h : Keeps clk s₀ s) {sector cause err} :
    Keeps clk s₀ (readModifyWrite sector cause err s) := by
  unfold Machine.readModifyWrite
  dsimp only
  split
  · exact h
  · exact Keeps.ite h.bump.writeBack (Keeps.ite h.bump.writeBack h)

theorem Keeps.hbmRefresh (h : Keeps clk s₀ s) {pchan _bank} : Keeps clk s₀ (hbmRefresh pchan _bank s) := h.refreshDue

theorem Keeps.hotRefresh (h : Keeps clk s₀ s) {stack celsius} : Keeps clk s₀ (hotRefresh stack celsius s) := h.setF.setF

theorem Keeps.hbmBucketLeak (h : Keeps clk s₀ s) {stack} : Keeps clk s₀ (hbmBucketLeak stack s) := h.bucketLeak

theorem Keeps.memInjWrite (h : Keeps clk s₀ s) {value} : Keeps clk s₀ (memInjWrite value s) :=
  Keeps.ite h.refuse (h.setIf.setIf.maybe fun h1 => h1.setF)

theorem Keeps.clrCntMem (h : Keeps clk s₀ s) : Keeps clk s₀ (clrCntMem s) := h.clearCounters

theorem Keeps.bar2Read (h : Keeps clk s₀ s) {off len} : Keeps clk s₀ (bar2Read off len s) :=
  Keeps.ite h (Keeps.ite h.update.aer (Keeps.ite h (Keeps.ite h.update h.hbmRead.update)))

theorem Keeps.bar2Write (h : Keeps clk s₀ s) {off bytes poisoned} : Keeps clk s₀ (bar2Write off bytes poisoned s) :=
  Keeps.ite h (Keeps.ite h.aer (Keeps.ite h ((Keeps.ite h.aer h).hbmWrite)))

/-! ## Configuration space (`Machine/CfgSpace`) -/

theorem Keeps.cfgRead (h : Keeps clk s₀ s) {off size} : Keeps clk s₀ (s.cfgRead off size) := by
  unfold State.cfgRead
  extract_lets s1 d r v _
  have h1 : Keeps clk s₀ s1 := h.update
  have hr : Keeps clk s₀ r.2 := h1.draw
  have hv : Keeps clk s₀ v.2 := by
    unfold v
    split
    · exact h1
    · exact hr
  exact h1.ite hv.update

theorem Keeps.cfgStore (h : Keeps clk s₀ s) {d x ones} : Keeps clk s₀ (s.cfgStore d x ones) := h.update

theorem Keeps.cfgWrite (h : Keeps clk s₀ s) {off size v} : Keeps clk s₀ (s.cfgWrite off size v) := by
  unfold State.cfgWrite
  dsimp only
  split
  · exact h.update
  · split
    · exact h.update
    split
    · exact h.update.cfgStore.setF.setF
    split
    · exact h.update
    split
    · exact h.update.maybe fun h1 => h1.bar2Resize
    · exact h.update.cfgStore.maybe fun h1 => Keeps.ite h.update.flr h1

/-! ## Device time (`Machine/Time`) -/

theorem Keeps.setWord96 (h : Keeps clk s₀ s) {off t} : Keeps clk s₀ (s.setWord96 off t) := h.setWords

theorem Keeps.keepTime (h : Keeps clk s₀ s) : Keeps clk s₀ s.keepTime := by
  unfold State.keepTime
  dsimp only
  split
  · exact h
  · exact h.update

theorem Keeps.timSet (h : Keeps clk s₀ s) : Keeps clk s₀ (timSet s) := Keeps.ite h.refuse h.keepTime.setWord96.setF

theorem Keeps.timAdjGo (h : Keeps clk s₀ s) : Keeps clk s₀ (timAdjGo s) := Keeps.ite h.refuse h.keepTime.setWord96

theorem Keeps.rateWrite (h : Keeps clk s₀ s) {value} : Keeps clk s₀ (rateWrite value s) := by
  unfold Machine.rateWrite
  exact h.keepTime.update.setWord96.setF.setF

theorem Keeps.nowTimeRead (h : Keeps clk s₀ s) : Keeps clk s₀ (nowTimeRead s) := h.setWord96.setF.update

theorem Keeps.setTp (h : Keeps clk s₀ s) {p x} : Keeps clk s₀ (s.setTp p x) := h.update

theorem Keeps.tsqPut (h : Keeps clk s₀ s) {p id t} : Keeps clk s₀ (s.tsqPut p id t) := Keeps.ite h.setTp h.bump.raise

theorem Keeps.tpFrameTransmit (h : Keeps clk s₀ s) {p boundary} : Keeps clk s₀ (tpFrameTransmit p boundary s) := by
  unfold Machine.tpFrameTransmit
  dsimp only
  split
  · exact h
  split
  · exact h.hbmRead.setF.raise
  split
  · exact h
  split
  · exact (((h.hbmRead.hbmRead.setF.bump.maybe fun h1 => h1.bump).maybe fun h1 => h1.bump).setTp).tsqPut
  · exact ((h.hbmRead.hbmRead.setF.bump.maybe fun h1 => h1.bump).maybe fun h1 => h1.bump).setTp

theorem Keeps.tsqPop (h : Keeps clk s₀ s) {p} : Keeps clk s₀ (tsqPop p s) := h.setTp

theorem Keeps.tpFrameReceive (h : Keeps clk s₀ s) {p frame frac} : Keeps clk s₀ (tpFrameReceive p frame frac s) :=
  Keeps.ite h (Keeps.ite h.bump (Keeps.ite h.bump h.hbmRead.hbmWrite.hbmWrite.setF.bump))

theorem Keeps.tpBlockLock (h : Keeps clk s₀ s) {p locked signal} : Keeps clk s₀ (tpBlockLock p locked signal s) := by
  unfold Machine.tpBlockLock
  exact h.setF.setF

theorem Keeps.sendSync (h : Keeps clk s₀ s) {valid start xs} : Keeps clk s₀ (s.sendSync valid start xs) := by
  induction xs generalizing s with
  | nil => exact h
  | cons x xs ih => exact ih (Keeps.ite h (Keeps.ite h.setZlink h.raise))

theorem Keeps.runOrLate (h : Keeps clk s₀ s) {start} : Keeps clk s₀ (s.runOrLate start) :=
  h.raise.maybeNot fun h1 => Keeps.ite h (Keeps.ite h1 (Keeps.ite h.armRun h))

theorem Keeps.syncSend (h : Keeps clk s₀ s) {value} : Keeps clk s₀ (syncSend value s) :=
  h.setF.setF.setF.maybeNot fun h1 => h1.sendSync.maybe fun h2 => h2.runOrLate

theorem Keeps.trgMoved (h : Keeps clk s₀ s) {k} : Keeps clk s₀ (s.trgMoved k) := h.update

theorem Keeps.frcLoad (h : Keeps False s₀ s) : Keeps False s₀ (Machine.frcLoad s) := by
  unfold Machine.frcLoad
  split
  · exact h
  extract_lets _ k t0 _ t1 t2 t3 t4 t5
  have h0 : Keeps False s₀ t0 := h.keepTime
  clear_value t0
  have h1 : Keeps False s₀ t1 := Keeps.trgMoved h0.updateClocks
  have h4 : Keeps False s₀ t4 := h1.setF.setF.setF.setF.raise.setF
  have h5 : Keeps False s₀ t5 := h4.runOrLate.ite h4
  exact h.update.raise.ite (h5.sendSync.ite h5)

/-! ## Security services (`Machine/Security`) -/

theorem Keeps.getInfo (h : Keeps clk s₀ s) : Keeps clk s₀ (getInfo s) := h.mailbox (fun _ h1 => h1.serve)

theorem Keeps.otpFail (h : Keeps clk s₀ s) : Keeps clk s₀ s.otpFail := h.serve.assertSrc

theorem Keeps.mailboxAttest (h : Keeps clk s₀ s) : Keeps clk s₀ (mailboxAttest s) := by
  refine h.mailbox fun s hs => ?_
  refine hs.mailIn.serve.ite ?_
  split
  · exact hs.mailIn.serve
  · exact hs.mailIn.serve
  · exact hs.mailIn.update.otpFail
  · exact hs.mailIn.update.serve

theorem Keeps.getKemCert (h : Keeps clk s₀ s) : Keeps clk s₀ (getKemCert s) := h.mailbox (fun _ h1 => h1.serve)

theorem Keeps.enrollOwner (h : Keeps clk s₀ s) : Keeps clk s₀ (enrollOwner s) := by
  unfold Machine.enrollOwner
  exact h.mailbox (fun _ h1 => Keeps.ite h1.serve (Keeps.ite h1.otpFail (Keeps.ite h1.mailIn.serve
    (Keeps.ite h1.mailIn.serve (Keeps.ite h1.mailIn.update.update.serve h1.mailIn.update.otpFail)))))

theorem Keeps.fuseOffVendor (h : Keeps clk s₀ s) : Keeps clk s₀ (fuseOffVendor s) := by
  refine h.mailbox fun s hs => ?_
  refine hs.serve.ite ?_
  extract_lets r
  split
  · exact hs.mailIn.serve
  · exact hs.mailIn.serve.ite (hs.mailIn.update.serve.ite hs.mailIn.serve)

theorem Keeps.debugChallenge (h : Keeps clk s₀ s) : Keeps clk s₀ (debugChallenge s) :=
  h.mailbox (fun _ h1 => h1.update.serve)

theorem Keeps.debugUnlock (h : Keeps clk s₀ s) : Keeps clk s₀ (debugUnlock s) := by
  unfold Machine.debugUnlock
  exact h.mailbox (fun _ h1 => h1.mailIn.serve.maybeNot fun h2 => Keeps.ite h1.mailIn.serve
    (Keeps.ite h2 h1.mailIn.update.serve))

theorem Keeps.debugLock (h : Keeps clk s₀ s) : Keeps clk s₀ (debugLock s) := h.mailbox (fun _ h1 => h1.update.serve)

theorem Keeps.readLog (h : Keeps clk s₀ s) : Keeps clk s₀ (readLog s) := h.mailbox (fun _ h1 => h1.serve)

theorem Keeps.setSvn (h : Keeps clk s₀ s) : Keeps clk s₀ (setSvn s) := h.mailbox (fun _ h1 => h1.update.serve)

theorem Keeps.treeRegenerated (h : Keeps clk s₀ s) : Keeps clk s₀ (treeRegenerated s) :=
  Keeps.ite h (Keeps.ite h.update (Keeps.ite (h.when h.update) (h.when h.update)))

theorem Keeps.glitchDetect (h : Keeps clk s₀ s) : Keeps clk s₀ (glitchDetect s) := h.update.setF.assertSrc

theorem Keeps.fireboxRequestDone (h : Keeps clk s₀ s) : Keeps clk s₀ (fireboxRequestDone s) := by
  unfold Machine.fireboxRequestDone
  dsimp only
  split
  · exact h
  · split
    · exact (h.update.setF.awWrite.setF.raise.maybe fun h1 => h1.signal).serveNext
    · split
      · exact h.update.setF.serveNext
      · exact h.update.setF.awWrite.complete.serveNext

/-! ## The Stoker's services (`Machine/StkSvc`) -/

theorem Keeps.tagRead (h : Keeps clk s₀ s) {aw n} : Keeps clk s₀ (s.tagRead aw n).1 := by
  unfold State.tagRead
  dsimp only
  split
  · exact h.awRead.fst
  · exact h.sectorsEach.fst

theorem Keeps.tagWrite (h : Keeps clk s₀ s) {aw bs n} : Keeps clk s₀ (s.tagWrite aw bs n) := by
  induction n generalizing s aw bs with
  | zero => exact h
  | succ n ih => exact ih h.awWrite

theorem Keeps.overlapFree (h : Keeps clk s₀ s) {src dst bs} : Keeps clk s₀ (s.overlapFree src dst bs).1 := by
  unfold State.overlapFree
  dsimp only
  split
  · exact h.fst
  · exact h.drawBytes.fst

theorem Keeps.copyDesc (h : Keeps clk s₀ s) {tag} : Keeps clk s₀ (copyDesc tag s) := by
  unfold Machine.copyDesc
  dsimp only
  split
  · exact h
  · exact Keeps.ite h h.tagRead.overlapFree.tagWrite.landing

theorem Keeps.fillDesc (h : Keeps clk s₀ s) {tag} : Keeps clk s₀ (fillDesc tag s) := by
  unfold Machine.fillDesc
  dsimp only
  split
  · exact h
  · exact Keeps.ite h h.tagWrite.landing

theorem Keeps.timestampEnd (h : Keeps clk s₀ s) {tag d} : Keeps clk s₀ (s.timestampEnd tag d) :=
  Keeps.ite h.complete h.awWrite.complete

theorem Keeps.timestampDesc (h : Keeps clk s₀ s) {tag} : Keeps clk s₀ (timestampDesc tag s) := by
  unfold Machine.timestampDesc
  split
  · exact h
  · exact Keeps.ite h.timestampEnd h.landing

theorem Keeps.snapshotDesc (h : Keeps clk s₀ s) {tag} : Keeps clk s₀ (snapshotDesc tag s) := by
  unfold Machine.snapshotDesc
  dsimp only
  split
  · exact h
  · exact Keeps.ite h.complete (Keeps.ite h.complete h.begin.setF.setF.snapStart)

theorem Keeps.readDigests (h : Keeps clk s₀ s) {tag} : Keeps clk s₀ (readDigests tag s) := by
  unfold Machine.readDigests
  dsimp only
  split
  · exact h
  · exact h.awWrite.landing

theorem Keeps.attestDesc (h : Keeps clk s₀ s) {tag} : Keeps clk s₀ (attestDesc tag s) := by
  unfold Machine.attestDesc
  dsimp only
  split
  · exact h
  · exact h.begin.update.serveNext

theorem Keeps.resyncCount (h : Keeps clk s₀ s) : Keeps clk s₀ s.resyncCount := h.setF

theorem Keeps.resyncDesc (h : Keeps clk s₀ s) {tag} : Keeps clk s₀ (resyncDesc tag s) := by
  unfold Machine.resyncDesc
  dsimp only
  split
  · exact h
  · exact h.resyncCount.awWrite.landing

theorem Keeps.resyncGo (h : Keeps clk s₀ s) : Keeps clk s₀ (resyncGo s) :=
  Keeps.ite h.refuse h.resyncCount.awWrite.update

theorem Keeps.dmaComplete (h : Keeps clk s₀ s) {tag} : Keeps clk s₀ (dmaComplete tag s) := by
  unfold Machine.dmaComplete
  dsimp only
  split
  · exact Keeps.ite h.update.raise h
  · split
    · exact h
    · split
      · exact h
      · exact Keeps.ite h (Keeps.ite (Keeps.ite h h.timestampEnd) h.complete)

theorem Keeps.copyTimeout (h : Keeps clk s₀ s) {f off len refused} :
    Keeps clk s₀ (s.copyTimeout f off len refused) := by
  unfold State.copyTimeout
  dsimp only
  split
  · exact h
  · exact Keeps.ite h h.drawBytes.tagWrite.setFly

theorem Keeps.runTimeout (h : Keeps clk s₀ s) {r off len refused} : Keeps clk s₀ (s.runTimeout r off len refused) :=
  Keeps.ite h (Keeps.ite (Keeps.ite h.setRun h) (Keeps.ite h h.drawBytes.setRun))

theorem Keeps.loadTimeout (h : Keeps clk s₀ s) {l refused} : Keeps clk s₀ (s.loadTimeout l refused) := by
  unfold State.loadTimeout
  dsimp only
  split
  · exact h
  split
  · exact Keeps.ite h.setLoad.complete h.setLoad.loaderDone
  split
  · split
    · exact ((Keeps.ite ((Keeps.ite h h.stageLeft).unload) ((Keeps.ite h h.stageLeft).dropShadows)).setLoad).complete
    · exact (Keeps.ite h h.stageLeft).secondFail
  · exact h

theorem Keeps.fetchTimeout (h : Keeps clk s₀ s) {q refused} : Keeps clk s₀ (s.fetchTimeout q refused) :=
  Keeps.ite h (Keeps.ite h.setSq h.drawBytes.setSq)

theorem Keeps.completionTimeout (h : Keeps clk s₀ s) {tag off len refused} :
    Keeps clk s₀ (completionTimeout tag off len refused s) := by
  unfold Machine.completionTimeout
  dsimp only
  split
  · exact (Keeps.ite h h.aer).fetchTimeout
  split
  · exact Keeps.ite h h.aer
  · split
    · exact (Keeps.ite h h.aer).copyTimeout
    split
    · split
      · exact (Keeps.ite h h.aer).runTimeout
      · exact Keeps.ite h h.aer
    split
    · split
      · exact (Keeps.ite h h.aer).maybe fun h1 => h1.update
      · exact Keeps.ite h h.aer
    split
    · split
      · exact (Keeps.ite h h.aer).maybe fun h1 => h1.loadTimeout
      · exact Keeps.ite h h.aer
    · exact Keeps.ite h h.aer

/-! ## Zhevvel frames (`Machine/ZlOps`) -/

theorem Keeps.voidContainer (h : Keeps clk s₀ s) : Keeps clk s₀ s.voidContainer.2 := h.draw.snd

theorem Keeps.linkEvent (h : Keeps clk s₀ s) {tick link cause detail arg} :
    Keeps clk s₀ (s.linkEvent tick link cause detail arg) :=
  h.routed

theorem Keeps.linkSrc (h : Keeps clk s₀ s) {n k} : Keeps clk s₀ (s.linkSrc n k) := h.assertSrc

theorem Keeps.zlControl (h : Keeps clk s₀ s) {n} : Keeps clk s₀ (s.zlControl n).2 :=
  h.draw.draw.draw.setZlink.maybe fun h1 => h1.update

theorem Keeps.crossTake (h : Keeps clk s₀ s) {x t} : Keeps clk s₀ (s.crossTake x t).2 :=
  h.setEdge.giveCredit.maybe fun h1 => h1.bump.portFault

theorem Keeps.hotTransmit (h : Keeps clk s₀ s) {n x} : Keeps clk s₀ (s.hotTransmit n x).2 := by
  unfold State.hotTransmit
  dsimp only
  split
  · exact h.voidContainer
  split
  · exact h.crossTake
  · exact h.setEdge.bump.linkSrc.snd

theorem Keeps.dataSlot (h : Keeps clk s₀ s) {n j} : Keeps clk s₀ (s.dataSlot n j).2 := by
  unfold State.dataSlot
  dsimp only
  split
  · exact h.voidContainer
  split
  · split
    · split
      · exact h.snd
      · exact h.voidContainer
    · split
      · exact h.voidContainer
      split
      · exact h.voidContainer
      · split
        · split
          · exact h.voidContainer
          · exact h.crossTake
        · exact h.voidContainer
  split
  · exact h.voidContainer
  · exact h.hotTransmit

theorem Keeps.zlPlan (h : Keeps clk s₀ s) {n} : Keeps clk s₀ (s.zlPlan n) := h.setZlink

theorem Keeps.zlLaunch (h : Keeps clk s₀ s) {n} : Keeps clk s₀ (s.zlLaunch n) := h.draw.setZlink

theorem Keeps.goBack (h : Keeps clk s₀ s) {n} : Keeps clk s₀ (s.goBack n) :=
  Keeps.ite h (h.setZlink.bump.maybeNot fun h1 => h1.setZlink.setF.linkEvent)

theorem Keeps.portCredits (h : Keeps clk s₀ s) {k n} : Keeps clk s₀ (s.portCredits k n) := by
  induction n generalizing s with
  | zero => exact h
  | succ n ih => exact ih (Keeps.ite h.setEdge h.bump.portFault)

theorem Keeps.linkCredits (h : Keeps clk s₀ s) {xs} : Keeps clk s₀ (s.linkCredits xs) := by
  induction xs generalizing s with
  | nil => exact h
  | cons x xs ih => exact ih (Keeps.ite h.portCredits h)

theorem Keeps.zlHeader (h : Keeps clk s₀ s) {n data} : Keeps clk s₀ (s.zlHeader n data) :=
  ((Keeps.ite h.setZlink h).maybe fun h1 => h1.goBack).linkCredits

theorem Keeps.zlSync (h : Keeps clk s₀ s) {n decodes t24} : Keeps clk s₀ (s.zlSync n decodes t24).2 := by
  unfold State.zlSync
  extract_lets l next good l1 l2 run l3
  clear_value l1 l2 l3
  split
  · split
    · exact h.setZlink.snd
    · exact h.setZlink.setF.bump.linkEvent.snd
  split
  · exact h.setZlink.snd
  · exact h.setZlink.setF.linkEvent.snd

theorem Keeps.syncReceive (h : Keeps clk s₀ s) {n rx c} : Keeps clk s₀ (s.syncReceive n rx c) :=
  Keeps.ite h (Keeps.ite h.raise (Keeps.ite h h.update))

theorem Keeps.echoReceive (h : Keeps clk s₀ s) {n rx w} : Keeps clk s₀ (s.echoReceive n rx w) := by
  unfold State.echoReceive
  dsimp only
  split
  · exact h.setZlink
  split
  · split
    · exact h
    · exact Keeps.ite h h.halfTrip.setZlink.setF.setF.setF
  · exact h

theorem Keeps.diverge (h : Keeps clk s₀ s) {tick cause own peer} : Keeps clk s₀ (s.diverge tick cause own peer) :=
  h.setF.setF.setF.setF.setF.assertSrc.linkEvent

theorem Keeps.twinCompare (h : Keeps clk s₀ s) {t c} : Keeps clk s₀ (s.twinCompare t c) := by
  unfold State.twinCompare
  extract_lets st peer k join s1
  have h1 : Keeps clk s₀ s1 := by
    unfold s1
    split
    · exact h.bump.ite <| h.ite <| h.bump.ite h.diverge
    · exact h.bump
  clear_value s1
  refine h.ite (h1.ite ?_)
  split
  · exact h1
  · exact h1.diverge.ite <| h1.diverge.ite <| h1.diverge.ite h1

theorem Keeps.twinReceive (h : Keeps clk s₀ s) {t c} : Keeps clk s₀ (s.twinReceive t c) :=
  ((Keeps.ite h.update.raise.assertSrc.linkEvent h).maybe fun h1 => h1.update.setF).twinCompare

theorem Keeps.heartbeat (h : Keeps clk s₀ s) {role} : Keeps clk s₀ (s.heartbeat role) := by
  unfold State.heartbeat
  dsimp only
  split
  · exact h
  · exact Keeps.ite h.setF (h.setF.bump.maybeNot fun h1 => Keeps.ite h1.update h1.raise.setF.assertSrc)

/-! ## Zhevvel links (`Machine/Zhevvel`) -/

theorem Keeps.zlFrameSend (h : Keeps clk s₀ s) {n} : Keeps clk s₀ (zlFrameSend n s) := by
  unfold Machine.zlFrameSend
  dsimp only
  split
  · exact h
  split
  · exact h.zlPlan.zlControl.setZlink
  · exact Keeps.ite (Keeps.ite h h.dataSlot.setZlink) (Keeps.ite h.zlLaunch h)

theorem Keeps.zlReliable (h : Keeps clk s₀ s) {n ok} : Keeps clk s₀ (s.zlReliable n ok) :=
  Keeps.ite h (Keeps.ite h.setZlink h.setZlink.bump)

theorem Keeps.zlFrameReceive (h : Keeps clk s₀ s) {n lanes age} :
    Keeps clk s₀ (Machine.zlFrameReceive n lanes age s) := by
  unfold Machine.zlFrameReceive
  split
  · exact h
  extract_lets x d decodes symErrs _ t0 y t1 t lz late t2 t3 ok t4 rel l conts t5 c rx t6 v t7 t8
  have h1 : Keeps clk s₀ t1 := h.setZlink.setF.setF.zlSync
  have h2 : Keeps clk s₀ t2 := h1.bump.zlHeader.ite h1.bump
  have h4 : Keeps clk s₀ t4 := (h2.bump.linkSrc.linkEvent.ite h2).zlReliable
  have h5 : Keeps clk s₀ t5 := h4.ite h4.setZlink
  have h7 : Keeps clk s₀ t7 := h5.setF.setF.syncReceive.ite h5.setF.setF
  have h8 : Keeps clk s₀ t8 := h7.echoReceive.ite h7
  exact h1.ite (h5.ite (h8.twinReceive.ite h8))

theorem Keeps.crossIn (h : Keeps clk s₀ s) {b t} : Keeps clk s₀ (s.crossIn b t) := h.crossArrive

theorem Keeps.setRxSeq (h : Keeps clk s₀ s) {n port v} : Keeps clk s₀ (s.setRxSeq n port v) := h.setZlink

theorem Keeps.releaseSlot (h : Keeps clk s₀ s) {n j c} : Keeps clk s₀ (s.releaseSlot n j c) := by
  unfold State.releaseSlot
  dsimp only
  split
  · exact h
  · split
    · exact h
    split
    · exact Keeps.ite h h.setRxSeq.crossIn
    · exact Keeps.ite h h.setRxSeq.crossIn

theorem Keeps.zlContainerRelease (h : Keeps clk s₀ s) {n j} : Keeps clk s₀ (zlContainerRelease n j s) := by
  unfold Machine.zlContainerRelease
  dsimp only
  split
  · exact h
  · exact (Keeps.ite ((Keeps.ite h.bump h).heartbeat) (Keeps.ite h h.releaseSlot)).maybe fun h1 => h1.setZlink

theorem Keeps.zlRetryTimeout (h : Keeps clk s₀ s) {n} : Keeps clk s₀ (zlRetryTimeout n s) := by
  unfold Machine.zlRetryTimeout
  dsimp only
  split
  · exact h
  · exact Keeps.ite h (Keeps.ite h.goBack h)

theorem Keeps.zlEchoGo (h : Keeps clk s₀ s) {n} : Keeps clk s₀ (zlEchoGo n s) := h.setZlink

theorem Keeps.zlEchoTimeout (h : Keeps clk s₀ s) {n} : Keeps clk s₀ (zlEchoTimeout n s) := by
  unfold Machine.zlEchoTimeout
  dsimp only
  split
  · exact h
  · exact Keeps.ite h.setZlink.raise h

theorem Keeps.zlFreeze (h : Keeps clk s₀ s) {n} : Keeps clk s₀ (zlFreeze n s) := Keeps.ite h.setF.setF h.refuse

theorem Keeps.zlLinkDisable (h : Keeps clk s₀ s) {n} : Keeps clk s₀ (zlLinkDisable n s) :=
  h.setF.setF.setF.setF.setF.setF.setF.setF.setZlink.txUpdate

theorem Keeps.twinAttach (h : Keeps clk s₀ s) : Keeps clk s₀ (twinAttach s) := Keeps.ite h.update.setF.setF h.refuse

theorem Keeps.twinInSync (h : Keeps clk s₀ s) : Keeps clk s₀ (twinInSync s) := Keeps.ite h.setF.setF.linkEvent h

theorem Keeps.twinRestart (h : Keeps clk s₀ s) : Keeps clk s₀ (twinRestart s) := h.update

theorem Keeps.twinRestartCheck (h : Keeps clk s₀ s) : Keeps clk s₀ (twinRestartCheck s) := by
  unfold Machine.twinRestartCheck
  dsimp only
  split
  · exact ((h.update.maybeNot fun h1 => Keeps.ite h1.setF.setF h1.setF.setF.setF).raise).linkEvent
  · exact h

theorem Keeps.twinDetach (h : Keeps clk s₀ s) : Keeps clk s₀ (twinDetach s) := Keeps.ite h h.update.setF

theorem Keeps.twinDetached (h : Keeps clk s₀ s) : Keeps clk s₀ (twinDetached s) := Keeps.ite h.update.setF.linkEvent h

theorem Keeps.twinPromote (h : Keeps clk s₀ s) : Keeps clk s₀ (twinPromote s) :=
  Keeps.ite h (h.update.maybeNot fun h1 => h1.setF.setF.setF.raise.assertSrc.linkEvent)

theorem Keeps.twinDemote (h : Keeps clk s₀ s) : Keeps clk s₀ (twinDemote s) := Keeps.ite h h.update.setF.setF.setF

/-! ## Register accesses (`Machine/RegAccess`) -/

theorem Keeps.w1cFields (h : Keeps clk s₀ s) {off v xs} : Keeps clk s₀ (s.w1cFields off v xs) := by
  induction xs generalizing s with
  | nil => exact h
  | cons x xs ih =>
    unfold State.w1cFields
    dsimp only
    split
    · exact ih h
    · exact ih h.setF

theorem Keeps.rwFields (h : Keeps clk s₀ s) {old off v xs} : Keeps clk s₀ (s.rwFields old off v xs) := by
  induction xs generalizing s with
  | nil => exact h
  | cons x xs ih => exact Keeps.ite (ih h.setIf) (ih h)

theorem Keeps.w1cDone (h : Keeps clk s₀ s) {off} : Keeps clk s₀ (s.w1cDone off) := Keeps.ite h.setF h

theorem Keeps.w1cWord (h : Keeps clk s₀ s) {off v} : Keeps clk s₀ (s.w1cWord off v) := h.w1cFields.w1cDone

theorem Keeps.laneAnew (h : Keeps clk s₀ s) {l} : Keeps clk s₀ (s.laneAnew l) := h.setF.setF.setF.setF.setLane

theorem Keeps.rwDone (h : Keeps clk s₀ s) {old off} (ho : Keeps clk s₀ old) : Keeps clk s₀ (s.rwDone old off) := by
  unfold State.rwDone
  extract_lets l t n r x s1
  have h1 : Keeps clk s₀ s1 := h.ite h.laneAnew
  refine (h.ite h.update).ite ?_
  refine (h1.foldl fun _ _ h => h.txUpdate).ite <| h.txUpdate.ite <| (h.foldl fun _ _ h => h.txUpdate).ite <|
    h.txUpdate.ite <|
    h.txUpdate.ite <| (h.ite h.tempThreshold).ite <| h.update.ite <| (h.setF.ite h).ite <| h.update.ite <|
      Keeps.ite ?_ <| (h.ite h.setF).ite h
  split
  · exact ho
  · exact h.setF.setF.ite h

theorem Keeps.parityAt (h : Keeps clk s₀ s) {off} : Keeps clk s₀ (s.parityAt off) := by
  unfold State.parityAt
  split
  · exact h.freshParity
  · exact h

theorem Keeps.plainWrite (h : Keeps clk s₀ s) {off v} : Keeps clk s₀ (s.plainWrite off v) :=
  Keeps.ite h.refuse (((h.rwFields.rwDone h).parityAt).w1cWord)

theorem Keeps.act (h : Keeps clk s₀ s) {bit f} (hf : ∀ s, Keeps clk s₀ s → Keeps clk s₀ (f s)) :
    Keeps clk s₀ (s.act bit f) :=
  (hf s h).ite h

theorem Keeps.secCommand (h : Keeps clk s₀ s) {code} : Keeps clk s₀ (secCommand code s) := by
  unfold Machine.secCommand
  split
  · exact h.getInfo
  split
  · exact h.mailboxAttest
  split
  · exact h.getKemCert
  split
  · exact h.enrollOwner
  split
  · exact h.fuseOffVendor
  split
  · exact h.debugChallenge
  split
  · exact h.debugUnlock
  · exact Keeps.ite h.debugLock (Keeps.ite h.readLog (Keeps.ite h.setSvn (h.mailbox (fun _ h1 => h1.serve))))

theorem Keeps.linkCfgWrite (h : Keeps clk s₀ s) {n v} : Keeps clk s₀ (linkCfgWrite n v s) := by
  unfold Machine.linkCfgWrite
  extract_lets was frozen s1 s2 s3
  have hf : Keeps clk s₀ frozen := h.zlFreeze.ite h
  have h1 : Keeps clk s₀ s1 := hf.setF
  have h2 : Keeps clk s₀ s2 := h1.ite h1.setF
  have h3 : Keeps clk s₀ s3 := h2.setF.ite (h2.zlLinkDisable.ite h2)
  exact hf.ite h3.txUpdate

theorem Keeps.timCtrlWrite (h : Keeps clk s₀ s) {v} : Keeps clk s₀ (timCtrlWrite v s) :=
  Keeps.ite h.refuse ((h.act (fun _ h1 => h1.timSet)).act (fun _ h1 => h1.timAdjGo))

theorem Keeps.sqCtrlWrite (h : Keeps clk s₀ s) {q v} : Keeps clk s₀ (sqCtrlWrite q v s) := Keeps.ite h.setF h.sqDisable

theorem Keeps.releaseHalf (h : Keeps clk s₀ s) {c high v} : Keeps clk s₀ (releaseHalf c high v s) := h.poolReleaseWrite

theorem Keeps.writeHearth (h : Keeps clk s₀ s) {off v} : Keeps clk s₀ (s.writeHearth off v) := by
  unfold State.writeHearth
  dsimp only
  split
  · exact h.act (fun _ h1 => h1.clrCntFab)
  split
  · exact Keeps.ite ((h.act (fun _ h1 => h1.grateTblWrite)).act (fun _ h1 => h1.grateTblRead)) h.plainWrite
  split
  · split
    · exact h
    split
    · exact (h.act (fun _ h1 => h1.hrtTblWrite)).act (fun _ h1 => h1.hrtTblRead)
    · exact Keeps.ite h.amxSelWrite h.plainWrite
  · exact h.plainWrite

theorem Keeps.writeEdge (h : Keeps clk s₀ s) {off v} : Keeps clk s₀ (s.writeEdge off v) := by
  unfold State.writeEdge
  extract_lets n c p
  clear_value n c p
  refine h.timCtrlWrite.ite <| h.rateWrite.ite <| h.syncSend.ite <| Keeps.ite (h.act fun _ h => h.tsqPop) <|
    Keeps.ite (h.act fun _ h => h.tsqPop) <| Keeps.ite ?_ <| h.grpEnWrite.ite <| h.replayCtrlWrite.ite <|
      h.trgCommit'.ite <|
    Keeps.ite (h.act fun _ h => h.forceHit) <| Keeps.ite ?_ <| Keeps.ite ?_ h.plainWrite
  · exact (h.plainWrite.act fun _ h => h.clrCntIng).act fun _ h => h.snapGo
  · exact h.poolCtrlWrite.ite <| h.releaseHalf.ite <| h.releaseHalf.ite h.plainWrite
  · exact Keeps.ite (h.act fun _ h => h.chmEchoGo) <| Keeps.ite (h.act fun _ h => h.txqPush) <|
      Keeps.ite (h.act fun _ h => h.rxqPop) h.plainWrite

theorem Keeps.writeLinks (h : Keeps clk s₀ s) {off v} : Keeps clk s₀ (s.writeLinks off v) := by
  unfold State.writeLinks
  dsimp only
  split
  · exact ((h.plainWrite.act fun _ h1 => h1.twinAttach).act fun _ h1 => h1.twinRestart).act fun _ h1 => h1.twinDetach
  split
  · exact Keeps.ite h.linkCfgWrite (Keeps.ite (h.act (fun _ h1 => h1.zlEchoGo)) h.plainWrite)
  split
  · exact h.stkDisable
  split
  · exact h.funcEnWrite
  split
  · exact h.act (fun _ h1 => h1.resyncGo)
  split
  · exact Keeps.ite h.sqCtrlWrite h.plainWrite
  split
  · exact Keeps.ite h.cqEnable h.plainWrite
  · exact Keeps.ite (h.act (fun _ h1 => h1.clrCntMem)) (Keeps.ite h.memInjWrite h.plainWrite)

theorem Keeps.writeSys (h : Keeps False s₀ s) {off v} : Keeps False s₀ (s.writeSys off v) := by
  unfold State.writeSys
  dsimp only
  split
  · exact (h.act (fun _ h1 => h1.haltWrite)).act (fun _ h1 => h1.runWrite)
  split
  · exact h.act (fun _ h1 => h1.chipResetWrite)
  split
  · exact h.plainWrite.act (fun _ h1 => h1.clrCntFlt)
  split
  · exact (h.parityAt.act (fun _ h1 => h1.safeEnter)).act (fun _ h1 => h1.safeExit)
  · exact Keeps.ite h.fltInjWrite (Keeps.ite h.secCommand h.plainWrite)

theorem Keeps.writeWord (h : Keeps False s₀ s) {off v} : Keeps False s₀ (s.writeWord off v) := by
  unfold State.writeWord
  split
  · exact h.writeSys
  · exact Keeps.ite h.writeEdge (Keeps.ite h.writeLinks (Keeps.ite h.plainWrite h.writeHearth))

theorem Keeps.readOf (h : Keeps clk s₀ s) {r w off} : Keeps clk s₀ (s.readOf r w off).2 := by
  unfold State.readOf
  dsimp only
  split
  · split
    · exact (Keeps.ite h.setF.update h.setF.update).snd
    split
    · exact h.update.snd
    · exact h.setWord.snd
  · split
    · exact h.update.snd
    split
    · exact h.update.snd
    · exact h.snd

theorem Keeps.readWord (h : Keeps clk s₀ s) {off} : Keeps clk s₀ (s.readWord off).2 := by
  unfold State.readWord
  dsimp only
  split
  · exact h.nowTimeRead.snd
  split
  · exact h.draw.snd
  split
  · exact h.snd
  split
  · exact h.draw.snd
  split
  · exact h.snd
  · exact h.readOf

theorem Keeps.readBoth (h : Keeps clk s₀ s) {off} : Keeps clk s₀ (s.readBoth off).2 := by
  unfold State.readBoth
  dsimp only
  split
  · split
    · exact h.readOf.readOf.snd
    · exact h.readWord.readWord.snd
  · exact h.readWord.snd

theorem Keeps.answer (h : Keeps clk s₀ s) {v ur} : Keeps clk s₀ (s.answer v ur) := h.update

theorem Keeps.unsupported (h : Keeps clk s₀ s) : Keeps clk s₀ s.unsupported := h.answer.aer

theorem Keeps.bar0Write (h : Keeps False s₀ s) {off size v} : Keeps False s₀ (s.bar0Write off size v) := by
  unfold State.bar0Write
  dsimp only
  split
  · exact h.aer
  split
  · exact h.raise
  · exact Keeps.ite h (h.writeWord.maybeNot fun h1 => Keeps.ite h.poolReleaseWrite h1.writeWord)

theorem Keeps.bar0Read (h : Keeps clk s₀ s) {off size} : Keeps clk s₀ (s.bar0Read off size) := by
  unfold State.bar0Read
  dsimp only
  split
  · exact h.unsupported
  split
  · exact h.raise.unsupported
  · exact Keeps.ite h.answer (Keeps.ite h.answer (Keeps.ite h.readWord.answer h.readBoth.answer))

theorem Keeps.msixWrite (h : Keeps clk s₀ s) {off v} : Keeps clk s₀ (s.msixWrite off v) := Keeps.ite h.update h

theorem Keeps.bar4Write (h : Keeps clk s₀ s) {off size v} : Keeps clk s₀ (s.bar4Write off size v) := by
  unfold State.bar4Write
  split
  · exact h.aer
  split
  · exact h
  split
  · exact Keeps.ite h.raise (Keeps.ite h.sqDoorbell h.cqDoorbell)
  · exact Keeps.ite h (h.msixWrite.maybeNot fun h1 => h1.msixWrite)

theorem Keeps.bar4Bytes (h : Keeps clk s₀ s) {off n} : Keeps clk s₀ (s.bar4Bytes off n).1 := by
  induction n generalizing s off with
  | zero => exact h.fst
  | succ n ih =>
    unfold State.bar4Bytes
    dsimp only
    refine Keeps.fst (ih ?_)
    split
    · exact h.draw.snd
    · exact h.snd

theorem Keeps.bar4Read (h : Keeps clk s₀ s) {off size} : Keeps clk s₀ (s.bar4Read off size) := by
  unfold State.bar4Read
  dsimp only
  split
  · exact h.unsupported
  · exact Keeps.ite h.answer (Keeps.ite h.answer (Keeps.ite h.bar4Bytes.answer (Keeps.ite h.answer h.answer)))

theorem Keeps.spaceWrite (h : Keeps False s₀ s) {space off size value} :
    Keeps False s₀ (s.spaceWrite space off size value) := by
  unfold State.spaceWrite
  split
  · exact h
  split
  · exact h.bar0Write
  · exact h.bar4Write
  · exact h.when h.cfgWrite

theorem Keeps.spaceRead (h : Keeps clk s₀ s) {space off size} : Keeps clk s₀ (s.spaceRead space off size) := by
  unfold State.spaceRead
  split
  · exact h
  split
  · exact h.bar0Read
  · exact h.bar4Read
  · exact h.when h.cfgRead

/-! ## Scans and test access (`Machine/Scan`) -/

theorem Keeps.scanContents (h : Keeps clk s₀ s) {x} : Keeps clk s₀ (s.scanContents x).1 := by
  unfold State.scanContents
  dsimp only
  split
  · split
    · exact h.draw.drawBytes.drawBytes.drawBytes.fst
    · exact h.draw.drawBytes.drawBytes.fst
  · exact h.draw.drawBytes.fst

theorem Keeps.scanBlocks (h : Keeps clk s₀ s) {x base len xs} : Keeps clk s₀ (s.scanBlocks x base len xs).1 := by
  induction xs generalizing s with
  | nil => exact h.fst
  | cons x xs ih => exact (ih (h.scanContents.maybeNot fun h1 => h1.hbmWrite)).fst

theorem Keeps.scanOut (h : Keeps clk s₀ s) {tag} : Keeps clk s₀ (scanOut tag s) := by
  unfold Machine.scanOut
  dsimp only
  split
  · exact h
  · split
    · exact h.begin.loaderDone
    split
    · exact h.begin.landing
    · exact h.begin.scanBlocks.update.landing

theorem Keeps.readBlocks (h : Keeps clk s₀ s) {base len xs} : Keeps clk s₀ (s.readBlocks base len xs).1 := by
  induction xs generalizing s with
  | nil => exact h.fst
  | cons x xs ih => exact (ih h.hbmRead.hbmRead).fst

theorem Keeps.scanEpochs (h : Keeps clk s₀ s) {xs} : Keeps clk s₀ (s.scanEpochs xs) := by
  induction xs generalizing s with
  | nil => exact h
  | cons x xs ih => exact ih h.setF.setF

theorem Keeps.restore (h : Keeps clk s₀ s) {r us} : Keeps clk s₀ (s.restore r us) := h.update

theorem Keeps.scanIn (h : Keeps clk s₀ s) {tag} : Keeps clk s₀ (scanIn tag s) := by
  unfold Machine.scanIn
  dsimp only
  split
  · exact h
  · split
    · exact h.begin.loaderDone
    split
    · exact h.begin.landing
    · split
      · exact h.begin.readBlocks.landing
      split
      · exact h.begin.readBlocks.landing
      split
      · exact h.begin.readBlocks.landing
      · exact ((h.begin.readBlocks.restore.scanEpochs.setF.maybeNot fun h1 => h1.setF).setT0).landing

/-! ## Every command, and the step -/

theorem exec_keeps (c : Instr) (s : State) : KeepsOut False s (exec c s) := by
  have h : Keeps False s s := .refl s
  cases c with
  | registerWrite => exact h.spaceWrite
  | w1cStatusWrite => exact h.when h.w1cWord
  | rcCounterRead => exact h.spaceRead
  | pairLowWordRead => exact h.when h.bar0Read
  | laneTickHeader => exact h.laneBlock
  | dataBlock => exact h.laneBlock
  | crc16Verdict => exact h.when h.crc16Verdict
  | ingestReleaseTick => exact h.ingestReleaseTick
  | grpEnWrite => exact h.grpEnWrite
  | snapGo => exact h.snapGo
  | clrCntIng => exact h.clrCntIng
  | replayCtrlWrite => exact h.replayCtrlWrite
  | replayRead => exact h.when h.replayRead
  | hotBundleIssue => exact h.hotBundleIssue
  | warmBundleIssue => exact h.warmBundleIssue
  | mac8 => exact h.slot h.macIssue
  | mac4 => exact h.slot h.macIssue
  | omac8 => exact h.slot h.macIssue
  | omac4 => exact h.slot h.macIssue
  | ldw => exact h.slot h.ldwIssue
  | ldo => exact h.slot h.ldoIssue
  | gend => exact h.slot h.gendIssue
  | vectorInstruction => exact h.slot (Keeps.ite h.vecIssue h)
  | scalarOperation => exact h.slot h.scalarIssue
  | recv => exact h.slot (Keeps.ite h.recvIssue h.stall)
  | send =>
    exact h.slot (Keeps.ite h.outCheck.sendIssue (Keeps.ite h.stall (Keeps.ite h.outCheck.stall h.outCheck.sendIssue)))
  | muRead => exact h.muRead
  | muWrite => exact h.muWrite
  | muXfer => exact h.muXfer
  | muAccessGrant => exact h.muAccessGrant
  | xferComplete => exact h.xferComplete
  | configBufferDrain => exact h.when h.configBufferDrain
  | hrtTblRead => exact h.when h.hrtTblRead
  | hrtTblWrite => exact h.when h.hrtTblWrite
  | grateTblRead => exact h.when h.grateTblRead
  | grateTblWrite => exact h.when h.grateTblWrite
  | amxSelWrite => exact h.when h.amxSelWrite
  | tokenCrossing => exact h.when h.tokenCrossing
  | steerFireHot => exact h.when h.steerFireHot
  | steerFireWarm => exact h.when h.steerFireWarm
  | creditReturn => exact h.creditReturn
  | qsampSample => exact h.qsampSample
  | qsampRecord => exact h.qsampRecord
  | clrCntFab => exact h.clrCntFab
  | cfgEmpty => exact h.cfgEmpty
  | shadowWrite => exact h.shadowWrite
  | liveWrite => exact h.liveWrite
  | scanReq => exact h.scanReq
  | scanData => exact h.scanData
  | cfgMark => exact h.cfgMark
  | shadowClear => exact h.shadowClear
  | hotWindowClose => exact h.hotWindowClose
  | warmWindowClose => exact h.warmWindowClose
  | scalePublish => exact h.scalePublish
  | loadImageFull => exact h.loadImageFull
  | loadImageStage => exact h.loadImageStage
  | swapEpoch => exact h.swapEpoch
  | hotEpochSwitch => exact h.hotEpochSwitch
  | stokerMarkEnqueue => exact h.stokerMarkEnqueue
  | warmUnitSwitch => exact h.warmUnitSwitch
  | warmGrateSwitch => exact h.warmGrateSwitch
  | creditEpochStart => exact h.when h.creditEpochStart
  | swapTimeout => exact h.swapTimeout
  | swapEpochComplete => exact h.swapEpochComplete
  | haltWrite => exact h.haltWrite
  | runWrite => exact h.runWrite
  | hearthHalt => exact h.hearthHalt
  | hearthRelease => exact h.hearthRelease
  | scanOut => exact h.scanOut
  | scanIn => exact h.scanIn
  | trgDecision => exact h.trgDecision
  | trigOutPulseEnd => exact h.when h.trigOutPulseEnd
  | triggerRecordPost => exact h.triggerRecordPost
  | scoreTake => exact h.when h.scoreTake
  | captureTake => exact h.when h.captureTake
  | acqWriteResume => exact h.when h.acqWriteResume
  | recordComplete => exact h.when h.recordComplete
  | trigInEdge => exact h.when h.trigInEdge
  | forceHit => exact h.forceHit
  | trgCommit => exact h.trgCommit'
  | commitApply => exact h.commitApply
  | poolReleaseWrite => exact h.when h.poolReleaseWrite
  | poolCtrlWrite => exact h.when h.poolCtrlWrite
  | poolStop => exact h.when h.poolStop
  | poolStart => exact h.when h.poolStart
  | chimneySlotLaunch => exact h.when h.chimneySlotLaunch
  | chimneyTriggerReceive => exact h.when h.chimneyTriggerReceive
  | echoReq => exact h.when h.echoReq
  | echoRsp => exact h.when h.echoRsp
  | chmUser => exact h.when h.chmUser
  | chmEchoGo => exact h.when h.chmEchoGo
  | chmEchoTimeout => exact h.when h.chmEchoTimeout
  | txqPush => exact h.when h.txqPush
  | rxqPop => exact h.when h.rxqPop
  | timSet => exact h.timSet
  | timAdjGo => exact h.timAdjGo
  | rateWrite => exact h.rateWrite
  | nowTimeRead => exact h.nowTimeRead
  | tpFrameTransmit => exact h.when h.tpFrameTransmit
  | tsqPop => exact h.when h.tsqPop
  | tpFrameReceive => exact h.when h.tpFrameReceive
  | syncSend => exact h.syncSend
  | frcLoad => exact h.frcLoad
  | sqDoorbell => exact h.when h.sqDoorbell
  | cqDoorbell => exact h.when h.cqDoorbell
  | descriptorFetch => exact h.when h.descriptorFetch
  | descriptorStart => exact h.descriptorStart
  | runDesc => exact h.runDesc
  | chunkAssign => exact h.chunkAssign
  | streamPortSend => exact h.when h.streamPortSend
  | streamPortDrain => exact h.when h.streamPortDrain
  | summaryEnter => exact h.summaryEnter
  | runComplete => exact h.runComplete
  | copyDesc => exact h.copyDesc
  | fillDesc => exact h.fillDesc
  | fenceDesc => exact h.fenceDesc
  | fenceComplete => exact h.fenceComplete
  | barrierDesc => exact h.barrierDesc
  | barrierComplete => exact h.barrierComplete
  | barrierTimeout => exact h.barrierTimeout
  | timestampDesc => exact h.timestampDesc
  | snapshotDesc => exact h.snapshotDesc
  | readDigests => exact h.readDigests
  | attestDesc => exact h.attestDesc
  | resyncDesc => exact h.resyncDesc
  | resyncGo => exact h.resyncGo
  | completionPost => exact h.when h.completionPost
  | cqIrqTimeout => exact h.when h.cqIrqTimeout
  | cqEnable => exact h.when h.cqEnable
  | sqDisable => exact h.when h.sqDisable
  | stkDisable => exact h.stkDisable
  | funcEnWrite => exact h.funcEnWrite
  | busMasterChange => exact h.busMasterChange
  | damperUpdate => exact h.damperUpdate
  | hotDigestWindowClose => exact h.hotDigestWindowClose
  | warmDigestWindowClose => exact h.warmDigestWindowClose
  | zlFrameSend => exact h.when h.zlFrameSend
  | zlFrameReceive => exact h.when h.zlFrameReceive
  | zlContainerRelease => exact h.when h.zlContainerRelease
  | zlRetryTimeout => exact h.when h.zlRetryTimeout
  | zlEchoGo => exact h.when h.zlEchoGo
  | zlEchoTimeout => exact h.when h.zlEchoTimeout
  | zlFreeze => exact h.when h.zlFreeze
  | zlLinkDisable => exact h.when h.zlLinkDisable
  | twinAttach => exact h.twinAttach
  | twinInSync => exact h.twinInSync
  | twinRestart => exact h.twinRestart
  | twinRestartCheck => exact h.twinRestartCheck
  | twinDetach => exact h.twinDetach
  | twinDetached => exact h.twinDetached
  | twinPromote => exact h.twinPromote
  | twinDemote => exact h.twinDemote
  | hbmSectorRead => exact h.hbmSectorRead
  | hbmSectorWrite => exact h.hbmSectorWrite
  | mergeTimeout => exact h.mergeTimeout
  | readModifyWrite => exact h.readModifyWrite
  | hbmRefresh => exact h.when h.hbmRefresh
  | hbmBucketLeak => exact h.when h.hbmBucketLeak
  | memInjWrite => exact h.memInjWrite
  | clrCntMem => exact h.clrCntMem
  | bar2Read => exact h.bar2Read
  | bar2Write => exact h.bar2Write
  | faultStatusSet => exact h.faultStatusSet
  | errPulseEnd => exact h.errPulseEnd
  | blockRestart => exact h.blockRestart
  | hceBucketLeak => exact h.hceBucketLeak
  | safeEnter => exact h.safeEnter
  | safeExit => exact h.safeExit
  | fltInjWrite => exact h.fltInjWrite
  | clrCntFlt => exact h.clrCntFlt
  | fltParityScan => exact h.when h.fltParityScan
  | getInfo => exact h.getInfo
  | mailboxAttest => exact h.mailboxAttest
  | getKemCert => exact h.getKemCert
  | enrollOwner => exact h.enrollOwner
  | fuseOffVendor => exact h.fuseOffVendor
  | debugChallenge => exact h.debugChallenge
  | debugUnlock => exact h.debugUnlock
  | debugLock => exact h.debugLock
  | readLog => exact h.readLog
  | setSvn => exact h.setSvn
  | treeRegenerated => exact h.treeRegenerated
  | glitchDetect => exact h.glitchDetect
  | perstAssert => exact h.perstAssert
  | perstDeassert => exact h.perstDeassert
  | chipReset => exact h.chipResetCmd
  | chipResetWrite => exact h.chipResetWrite
  | powerOnReset => exact h.powerOn
  | hbmFillDone => exact h.when h.hbmFillDone
  | coreRelease => exact h.coreRelease
  | ashpitRelease => exact h.ashpitRelease
  | flr => exact h.flr
  | pcieLinkDown => exact h.pcieLinkDown
  | pcieLinkUp => exact h.when h.pcieLinkUp
  | completionTimeout => exact h.when h.completionTimeout
  | msixSend => exact h.when h.msixSend
  | railOutOfTolerance => exact h.when h.railOutOfTolerance
  | pllUnlock => exact h.when h.pllUnlock
  | refclkLoss => exact h.refclkLoss
  | avsStep => exact h.avsStep
  | tempThreshold => exact h.tempThreshold
  | cdcTimeout => exact h.when h.cdcTimeout
  | cdcResync => exact h.when h.cdcResync
  | companionLoss => exact h.companionLoss
  | probePulse => exact h.when h.probePulse
  | transmitterOn => exact h.when h.transmitterOn
  | clampTrip => exact h.when h.clampTrip
  | flueFault => exact h.when h.flueFail
  | laneSignalLoss => exact h.when h.laneSignalLoss
  | chimneyBlockReceive => exact h.when h.chimneyBlockReceive
  | tpBlockLock => exact h.when h.tpBlockLock
  | prbs31Check => exact h.when h.prbs31Check
  | loaderPassEnd => exact h.loaderPassEnd
  | dmaComplete => exact h.dmaComplete
  | fireboxRequestDone => exact h.fireboxRequestDone
  | railReturn => exact h.when h.railReturn
  | pllRelock => exact h.when h.pllRelock
  | refclkReturn => exact h.refclkReturn
  | hotRefresh => exact h.when h.hotRefresh
  | companionPresent => exact h.companionPresent
  | bar2Resize => exact h.bar2Resize
  | extest => exact h.extest

/-- A step keeps everything of the state with its command taken from the queue. -/
theorem step_keeps {s t : State} (h : step s = .next t) : Keeps False { s with pending := s.pending.tail } t := by
  have hout : KeepsOut False { s with pending := s.pending.tail } (step s) := by
    unfold Machine.step
    split
    next hq =>
      have hnil : { s with pending := s.pending.tail } = s := by rw [hq, List.tail_nil, ← hq]
      rw [hnil]
      exact (Keeps.refl s).cyclePass
    next c cs hq =>
      rw [hq]
      exact exec_keeps c _
  rwa [h] at hout

/-! ## The obligations on every step -/

/-- Settles O4: `Keeps` carries the canonical form, and the queue is none of the stores. -/
theorem stepKeepsCanon : Obligations.StepKeepsCanon := by
  intro s t hc h
  exact (step_keeps h).canon hc

/-- Settles O5, by the first two parts of `Keeps`. -/
theorem stepKeepsPartAndQueue : Obligations.StepKeepsPartAndQueue := by
  intro s t h
  exact ⟨(step_keeps h).part, (step_keeps h).pending⟩

end Sys2Proof.Machine
end

section
/-!
# One core cycle

What lands in the cycle before its clocks move leaves RUNNING as it is, since its faults and counters stand in registers
of the fabric and of the Hearth; so the clocks count by what held at the cycle's start.
-/

namespace Sys2Proof.Machine

/-! ## RUNNING -/

theorem running_congr {s t : State} (hr : t.regs = s.regs) (hp : t.part = s.part) : t.running = s.running := by
  unfold State.running State.flag
  rw [getF_congr hr hp]

theorem running_bump (s : State) {f : Fld} (k : Nat) (hw : f.lsb + f.width ≤ 32) (h : glbImgState < f.off) :
    (s.bump f k).running = s.running := by
  unfold State.running State.flag
  rw [getF_bump_ne s f glbImgState_Running k hw (by decide) (Nat.ne_of_lt h)]

theorem running_raise (s : State) {f : Fld} (hw : f.lsb + f.width ≤ 32) (h : glbImgState < f.off) :
    (s.raise f).running = s.running := by
  unfold State.running State.flag
  rw [getF_raise_ne s f glbImgState_Running hw (by decide) (Nat.ne_of_lt h)]

theorem running_setWord (s : State) {off : Nat} (v : W32) (h : glbImgState < off) :
    (s.setWord off v).running = s.running := by
  have hw : (s.setWord off v).word glbImgState = s.word glbImgState := word_setWord_ne s v (Nat.ne_of_lt h)
  simp [State.running, State.flag, State.getF, State.regNat, glbImgState_Running, hw]

@[simp] theorem running_assertSrc (s : State) (n : Nat) (info : BitVec 128) (rank : Nat) :
    (s.assertSrc n info rank).running = s.running := running_congr (by simp) (by simp)

@[simp] theorem running_setGrate (s : State) (k : Nat) (x : Grate) : (s.setGrate k x).running = s.running :=
  running_congr rfl rfl

@[simp] theorem running_setUnit (s : State) (u : Nat) (x : HUnit) : (s.setUnit u x).running = s.running :=
  running_congr rfl rfl

@[simp] theorem running_setEdge (s : State) (k : Nat) (x : EdgePort) : (s.setEdge k x).running = s.running :=
  running_congr rfl rfl

@[simp] theorem running_after (s : State) (d : Nat) (a : Act) : (s.after d a).running = s.running :=
  running_congr rfl rfl

/-- Registers of the fabric and of the Hearth stand above GLB.IMG_STATE. -/
theorem glbImgState_lt (base stride i : Nat) (h : glbImgState < base) : glbImgState < base + stride * i :=
  Nat.lt_of_lt_of_le h (Nat.le_add_right _ _)

@[simp] theorem running_grFaultK (s : State) (g kind code input queue epoch bundle : Nat) :
    (s.grFaultK g kind code input queue epoch bundle).running = s.running := by
  unfold State.grFaultK
  extract_lets x t s1
  have h1 : s1.running = s.running := by
    unfold s1 t
    split
    · rw [running_setGrate, running_setWord (off := grFaultInfo1 g) _ _ (glbImgState_lt _ _ g (by decide)),
        running_setWord (off := grFaultInfo0 g) _ _ (glbImgState_lt _ _ g (by decide))]
    · rfl
  rw [running_assertSrc, running_raise _ (by simp [grStatus_Fault]) (glbImgState_lt _ _ g (by decide)), h1]

@[simp] theorem running_grFault (s : State) (g code input queue : Nat) :
    (s.grFault g code input queue).running = s.running := running_grFaultK ..

@[simp] theorem running_portFault (s : State) (k code : Nat) : (s.portFault k code).running = s.running :=
  running_grFaultK ..

@[simp] theorem running_unitFault (s : State) (u code port bank queue bundle : Nat) :
    (s.unitFault u code port bank queue bundle).running = s.running := by
  unfold State.unitFault
  extract_lets x t s1
  have h1 : s1.running = s.running := by
    unfold s1 t
    split
    · rw [running_setUnit, running_setWord (off := hrtFaultInfo1 u) _ _ (glbImgState_lt _ _ u (by decide)),
        running_setWord (off := hrtFaultInfo0 u) _ _ (glbImgState_lt _ _ u (by decide))]
    · rfl
  rw [running_assertSrc, running_raise _ (by simp [hrtUnitStatus_Fault]) (glbImgState_lt _ _ u (by decide)), h1]

@[simp] theorem running_bump_overrun (s : State) (u k : Nat) : (s.bump (hrtOverrunF u) k).running = s.running :=
  running_bump s k (by simp [hrtOverrunF]) (glbImgState_lt _ _ u (by decide))

@[simp] theorem running_bump_hotQfull (s : State) (g k : Nat) : (s.bump (grHotQfullF g) k).running = s.running :=
  running_bump s k (by simp [grHotQfullF]) (glbImgState_lt _ _ g (by decide))

@[simp] theorem running_bump_creditUnder (s : State) (g k : Nat) : (s.bump (grCreditUnderF g) k).running = s.running :=
  running_bump s k (by simp [grCreditUnderF]) (glbImgState_lt _ _ g (by decide))

@[simp] theorem running_bump_epochErr (s : State) (g k : Nat) : (s.bump (grEpochErrF g) k).running = s.running :=
  running_bump s k (by simp [grEpochErrF]) (glbImgState_lt _ _ g (by decide))

/-! ## Late entries -/

@[simp] theorem running_headFix (s : State) (site q : Nat) : (s.headFix site q).running = s.running := by
  unfold State.headFix
  extract_lets g x
  split
  · rfl
  split
  · rfl
  split
  · exact running_setGrate ..
  split
  · rfl
  · rw [running_grFaultK, running_bump_epochErr, running_setGrate]

@[simp] theorem running_push (s : State) (site q : Nat) (t : Token) : (s.push site q t).running = s.running := by
  unfold State.push
  extract_lets g x s1
  split
  · rw [running_headFix, running_setGrate]
  · exact running_setGrate ..

theorem running_landSend (s : State) (u q bundle port : Nat) (depth0 : Bool) (t : Token) (late : Bool) :
    (s.landSend u q bundle port depth0 t late).running = s.running := by
  unfold State.landSend
  extract_lets g x
  split
  · exact running_setGrate ..
  split
  · exact running_after ..
  · rw [running_unitFault, running_bump_overrun]

theorem running_arriveQ (s : State) (site q input : Nat) (depth0 : Bool) (t : Token) (late : Bool) :
    (s.arriveQ site q input depth0 t late).running = s.running := by
  unfold State.arriveQ
  split
  · exact running_push ..
  split
  · exact running_after ..
  split
  · rw [running_grFault, running_bump_hotQfull]
  · rw [running_grFault, running_bump_creditUnder]

theorem running_arriveEdge (s : State) (k input site : Nat) (t : Token) (late : Bool) :
    (s.arriveEdge k input site t late).running = s.running := by
  unfold State.arriveEdge
  extract_lets e q
  split
  · exact running_setEdge ..
  split
  · exact running_after ..
  split
  · rw [running_portFault, running_bump_hotQfull]
  · rw [running_portFault, running_bump_creditUnder]

theorem running_crossArrive (s : State) (k : Nat) (warm : Bool) (t : Token) (late : Bool) :
    (s.crossArrive k warm t late).running = s.running := by
  unfold State.crossArrive
  extract_lets e g
  split
  · exact running_setEdge ..
  split
  · exact running_after ..
  split
  · rw [running_portFault, running_bump_creditUnder]
  · rw [running_portFault, running_bump_hotQfull]

theorem running_land_late (s : State) {a : Act} (ha : a.late = true) : (s.land a).running = s.running := by
  cases a with
  | send u q bundle port depth0 t late => exact running_landSend ..
  | enqueue site q input depth0 t late => exact running_arriveQ ..
  | edgeIn k input site t late => exact running_arriveEdge ..
  | linkIn k warm t => exact running_crossArrive ..
  | _ => cases ha

theorem running_landAll_late (s : State) {as : List Act} (h : ∀ a ∈ as, a.late = true) :
    (s.landAll as).running = s.running := by
  induction as generalizing s with
  | nil => rfl
  | cons a as ih =>
    unfold State.landAll
    rw [ih _ fun b hb => h b (List.mem_cons_of_mem a hb), running_land_late s (h a List.mem_cons_self)]

theorem Act.mem_insert {a x : Act} {as : List Act} (h : x ∈ a.insert as) : x = a ∨ x ∈ as := by
  induction as with
  | nil => exact .inl (List.mem_singleton.mp h)
  | cons b bs ih =>
    unfold Act.insert at h
    split at h
    · exact List.mem_cons.mp h
    · rcases List.mem_cons.mp h with rfl | hx
      · exact .inr List.mem_cons_self
      · exact (ih hx).imp_right (List.mem_cons_of_mem b)

theorem Act.mem_sort {x : Act} {as : List Act} (h : x ∈ Act.sort as) : x ∈ as := by
  induction as with
  | nil => exact h
  | cons a as ih =>
    rcases Act.mem_insert (as := Act.sort as) h with rfl | hx
    · exact List.mem_cons_self
    · exact List.mem_cons_of_mem a (ih hx)

theorem running_landIf_late (s : State) {p : Flight → Bool} (hp : ∀ f, p f = true → f.act.late = true) :
    (s.landIf p).running = s.running := by
  refine running_landAll_late _ fun a ha => ?_
  obtain ⟨f, hf, rfl⟩ := List.mem_map.mp (Act.mem_sort ha)
  exact hp f (List.mem_filter.mp hf).2

/-! ## The clocks -/

/-- The clocks of t are those of s a core cycle later: a cycle has passed, FRC has counted it if the core is released, and
the cycles of the Hearth have if it runs (R6, R226). -/
def CycleLater (s t : State) : Prop :=
  t.cyc = s.cyc + 1 ∧ t.frc = (if s.pwr.released then s.frc + 1 else s.frc) ∧
    t.hcyc = (if s.running then s.hcyc + 1 else s.hcyc)

theorem advance_cycleLater (s : State) : CycleLater s s.advance := ⟨rfl, rfl, rfl⟩

theorem CycleLater.of_keeps {r s t u : State} (hr : Keeps True r s) (hrun : s.running = r.running) (h : CycleLater s t)
    (hu : Keeps True t u) : CycleLater r u := by
  obtain ⟨hf, hc, hh, hp⟩ := hr.clocks trivial
  obtain ⟨hf', hc', hh', -⟩ := hu.clocks trivial
  obtain ⟨h1, h2, h3⟩ := h
  refine ⟨by rw [hc', h1, hc], by rw [hf', h2, hp, hf], by rw [hh', h3, hrun, hh]⟩

theorem hearthCycle_cycleLater (s : State) : CycleLater s s.hearthCycle := by
  unfold State.hearthCycle
  split
  · refine .of_keeps (Keeps.refl s).landIf ?_ (advance_cycleLater _) (Keeps.refl _).landIf
    exact running_landIf_late s fun f hf => (Bool.and_eq_true_iff.mp hf).1
  · exact advance_cycleLater s

theorem running_damperCycle (s : State) : s.damperCycle.running = s.running := by
  have hb : (s.bump stkDamperCycF 1).running = s.running := running_bump s 1 (by decide) (by decide)
  unfold State.damperCycle
  extract_lets l s1
  have h1 : s1.running = s.running := by
    unfold s1
    split
    · rfl
    · exact hb
  clear_value s1
  rw [← h1]
  exact running_congr rfl rfl

theorem cycleWork_cycleLater (s : State) : CycleLater s s.cycleWork := by
  unfold State.cycleWork
  extract_lets s1 s2 s3 s4 s5
  have h1 : Keeps True s s1 := (Keeps.refl s).damperCycle.ite (Keeps.refl s)
  have hrun : s1.running = s.running := by
    unfold s1
    split
    · exact running_damperCycle s
    · rfl
  have h2 : Keeps True s1.hearthCycle s2 := (Keeps.refl _).safeCycle.clampCycle
  have h3 : Keeps True s1.hearthCycle s3 := h2.cuLive.drainPools
  have h5 : Keeps True s1.hearthCycle s5 := h3.refreshFirst.slotGrants
  exact .of_keeps h1 hrun (hearthCycle_cycleLater s1) h5.refreshIdle

/-- Settles O2: only `State.advance` moves the clocks, and what comes before it in the cycle leaves RUNNING alone. -/
theorem emptyQueueStepPassesOneCycle : Obligations.EmptyQueueStepPassesOneCycle := by
  intro s hq
  have hstep : step s = .next (cyclePass s) := by
    unfold Machine.step
    rw [hq]
  unfold cyclePass at hstep
  constructor
  · intro hl
    rw [hl] at hstep
    have hk : Keeps False s s.cycleWork := (Keeps.refl s).cycleWork
    exact ⟨s.cycleWork, hstep, hk.pending.trans hq, hk.part, cycleWork_cycleLater s⟩
  · intro hl
    rw [hstep, hl]
    rfl

end Sys2Proof.Machine
end

section
/-!
# Rules of register accesses

What an accepted request of the host comes to, what a read of a register word leaves, and what the field by field write of a
W1C word does to each bit.
-/

namespace Sys2Proof.Machine

/-! ## Frames -/

theorem Frame.refl (cs : List Comp) (s : State) : Frame cs s s := fun c _ => by cases c <;> rfl

theorem Frame.mono {a b : List Comp} {s t : State} (h : Frame a s t) (hab : a ⊆ b) : Frame b s t :=
  fun c hc => h c fun ha => hc (hab ha)

theorem WordsKept.refl (offs : List Nat) (s : State) : WordsKept offs s s := fun _ _ => rfl

theorem WordsKept.mono {a b : List Nat} {s t : State} (h : WordsKept a s t) (hab : a ⊆ b) : WordsKept b s t :=
  fun off hoff => h off fun ha => hoff (hab ha)

theorem WordsKept.getF {offs : List Nat} {s t : State} (h : WordsKept offs s t) {f : Fld} (hw : f.lsb + f.width ≤ 32)
    (ho : f.off ∉ offs) : t.getF f = s.getF f := by
  simp only [State.getF, State.regNat, if_pos hw, h f.off ho]

theorem frame_setF (s : State) (f : Fld) (v : Nat) : Frame [.regs] s (s.setF f v) := by
  intro c hc
  cases c <;> simp_all [Comp.same]

theorem frame_bump (s : State) (f : Fld) (k : Nat) : Frame [.regs, .incNow] s (s.bump f k) := by
  intro c hc
  cases c <;> simp_all [Comp.same]

theorem frame_raise (s : State) (f : Fld) : Frame [.regs, .setNow] s (s.raise f) := by
  intro c hc
  cases c <;> simp_all [Comp.same]

theorem frame_answer (s : State) (v : W64) (ur : Bool) : Frame [.readData, .readUr, .readRetry] s (s.answer v ur) := by
  intro c hc
  cases c <;> simp_all [Comp.same, State.answer]

theorem frame_unsupported (s : State) : Frame [.readData, .readUr, .readRetry, .pcie] s s.unsupported := by
  intro c hc
  cases c <;> simp_all [Comp.same, State.unsupported, State.aer, State.answer]

@[simp] theorem word_answer (s : State) (v : W64) (ur : Bool) (off : Nat) : (s.answer v ur).word off = s.word off := rfl

@[simp] theorem getF_answer (s : State) (v : W64) (ur : Bool) (f : Fld) : (s.answer v ur).getF f = s.getF f := rfl

/-! ## Requests that are accepted -/

theorem sizeOk_iff (off size : Nat) :
    sizeOk off size = true ↔ (size = 4 ∧ off % 4 = 0) ∨ (size = 8 ∧ off % 8 = 0) := by
  simp [sizeOk]

theorem exec_write_word {s : State} {off : Nat} (hs : HostReaches s) (hd : s.decodes off = true) (ha : off % 4 = 0)
    (v : W64) : exec (.registerWrite .bar0 off 4 v) s = .next (s.writeWord off (v.extractLsb' 0 32)) := by
  obtain ⟨hio, hsleep, hdead⟩ := hs
  have hok : sizeOk off 4 = true := (sizeOk_iff off 4).mpr (.inl ⟨rfl, ha⟩)
  simp [exec, execRegisterWrite, State.spaceWrite, State.bar0Write, hio, hsleep, hdead, hd, hok]

theorem exec_read_word {s : State} {off : Nat} (hs : HostReaches s) (hd : s.decodes off = true) (ha : off % 4 = 0) :
    exec (.rcCounterRead .bar0 off 4) s = .next ((s.readWord off).2.answer ((0 : W32) ++ (s.readWord off).1) false) := by
  obtain ⟨hio, hsleep, hdead⟩ := hs
  have hok : sizeOk off 4 = true := (sizeOk_iff off 4).mpr (.inl ⟨rfl, ha⟩)
  simp [exec, execRcCounterRead, State.spaceRead, State.bar0Read, hio, hsleep, hdead, hd, hok]

theorem exec_read_both {s : State} {off : Nat} (hs : HostReaches s) (hd : s.decodes off = true) (ha : off % 8 = 0) :
    exec (.rcCounterRead .bar0 off 8) s = .next ((s.readBoth off).2.answer (s.readBoth off).1 false) := by
  obtain ⟨hio, hsleep, hdead⟩ := hs
  have hok : sizeOk off 8 = true := (sizeOk_iff off 8).mpr (.inr ⟨rfl, ha⟩)
  simp [exec, execRcCounterRead, State.spaceRead, State.bar0Read, hio, hsleep, hdead, hd, hok]

theorem exec_read_low {s : State} {off : Nat} (hs : HostReaches s) (hd : s.decodes off = true) (ha : off % 8 = 0) :
    exec (.pairLowWordRead off) s = .next ((s.readWord off).2.answer ((0 : W32) ++ (s.readWord off).1) false) := by
  obtain ⟨hio, hsleep, hdead⟩ := hs
  have hok : sizeOk off 4 = true := (sizeOk_iff off 4).mpr (.inl ⟨rfl, by omega⟩)
  simp [exec, execPairLowWordRead, State.when, State.bar0Read, hio, hsleep, hdead, hd, hok, ha]

theorem exec_w1c_word {s : State} {off : Nat} (hs : HostReaches s) (hd : s.decodes off = true) (ha : off % 4 = 0) (v : W32) :
    exec (.w1cStatusWrite off v) s = .next (s.w1cWord off v) := by
  obtain ⟨hio, hsleep, hdead⟩ := hs
  simp [exec, execW1cStatusWrite, State.when, hio, hsleep, hdead, hd, ha]

theorem decodes_of_released {s : State} (h : s.pwr.released = true) (off : Nat) : s.decodes off = true := by
  simp [State.decodes, h]

/-! ## Reads of one word -/

/-- A read of these offsets samples the device, so that it is more than a read of the register's word. -/
def Samples (off : Nat) : Prop := off = timNowTime 0 ∨ off = pwrAvs ∨ ∃ t < 34, off = optTxPower t

theorem not_samples {off : Nat} (h : off ∉ [timNowTime 0, pwrAvs]) (ht : ∀ t, t < 34 → off ≠ optTxPower t) :
    ¬ Samples off := by
  rintro (rfl | rfl | ⟨t, hlt, rfl⟩)
  · exact h (by simp)
  · exact h (by simp)
  · exact ht t hlt rfl

/-- A read that samples nothing reads the register that the offset lies in, if there is one. -/
theorem readWord_of_not_samples (s : State) {off : Nat} (h : ¬ Samples off) :
    s.readWord off = ((findRow (regRowsAt off) off).map fun x => s.readOf x.1 x.2 off).getD (0, s) := by
  obtain ⟨hnow, havs, hpow⟩ : off ≠ timNowTime 0 ∧ off ≠ pwrAvs ∧ ∀ t < 34, off ≠ optTxPower t := by
    simpa [Samples] using h
  have hnp : ¬ (0x300100 ≤ off ∧ off < 0x300540 ∧ off = optTxPower ((off - 0x300100) / 0x20)) := fun ⟨h1, h2, h3⟩ =>
    hpow ((off - 0x300100) / 0x20) (by omega) h3
  have hdark (b : Bool) : ¬ (0x300100 ≤ off ∧ off < 0x300540 ∧
      (decide (off = optTxPower ((off - 0x300100) / 0x20)) && b) = true) := fun ⟨h1, h2, h3⟩ =>
    hnp ⟨h1, h2, of_decide_eq_true (Bool.and_elim_left h3)⟩
  simp only [State.readWord, hnow, havs, hnp, hdark, if_false]
  cases findRow (regRowsAt off) off <;> rfl

theorem readWord_none (s : State) {off : Nat} (hs : ¬ Samples off) (h : findRow (regRowsAt off) off = none) :
    s.readWord off = (0, s) := by
  rw [readWord_of_not_samples s hs, h]
  rfl

theorem readWord_some (s : State) {off w : Nat} {r : RegRow} (hs : ¬ Samples off)
    (h : findRow (regRowsAt off) off = some (r, w)) : s.readWord off = s.readOf r w off := by
  rw [readWord_of_not_samples s hs, h]
  rfl

end Sys2Proof.Machine
end

section
/-!
# RC counters and register pairs
-/

namespace Sys2Proof.Machine

/-! ## Reads of RC counters (R15) -/

/-- The state after the low word of an RC counter f at base is read: the counter holds this cycle's increments. -/
def State.rcTaken (s : State) (f : Fld) : State :=
  let c := mget (fun _ => (0, 0)) s.incNow f.off
  let t := s.setF f (satAdd f.width 0 c.2)
  { t with incNow := mput (fun _ => (0, 0)) t.incNow f.off (0, c.2) }

/-- What a read of an RC counter answers: what it held before the increments of this cycle. -/
def State.rcValue (s : State) (f : Fld) : Nat :=
  if (mget (fun _ => (0, 0)) s.incNow f.off).2 = 0 then s.getF f else (mget (fun _ => (0, 0)) s.incNow f.off).1

theorem readOf_rc_short (s : State) {r : RegRow} {f : FieldRow} (off : Nat) (hf : rcFields r = [f]) (hr : r.bytes = 4) :
    s.readOf r 0 off = (BitVec.ofNat 32 (s.rcValue ⟨off, f.lsb, f.width⟩), s.rcTaken ⟨off, f.lsb, f.width⟩) := by
  simp [State.readOf, hf, hr, State.rcValue, State.rcTaken]

/-- The high word is captured with the low one, and its read takes the captured word. -/
theorem readBoth_rc_long (s : State) {r : RegRow} {f : FieldRow} {off : Nat} (hrow : findRow (regRowsAt off) off = some (r, 0))
    (hf : rcFields r = [f]) (hr : r.bytes = 8) :
    s.readBoth off =
      (BitVec.ofNat 32 (s.rcValue ⟨off, f.lsb, f.width⟩ / 2 ^ 32) ++ BitVec.ofNat 32 (s.rcValue ⟨off, f.lsb, f.width⟩),
        { s.rcTaken ⟨off, f.lsb, f.width⟩ with
          hiCap := mput (fun _ => none) (mput (fun _ => none) s.hiCap (off + 4)
            (some (BitVec.ofNat 32 (s.rcValue ⟨off, f.lsb, f.width⟩ / 2 ^ 32)))) (off + 4) none }) := by
  simp [State.readBoth, State.readOf, hrow, hf, hr, State.rcValue, State.rcTaken, mget_mput_same]

theorem getF_rcTaken (s : State) (f : Fld) (hw : f.lsb + f.width ≤ 64) :
    (s.rcTaken f).getF f = satAdd f.width 0 (mget (fun _ => (0, 0)) s.incNow f.off).2 := by
  have h : (s.rcTaken f).getF f =
      (s.setF f (satAdd f.width 0 (mget (fun _ => (0, 0)) s.incNow f.off).2)).getF f := getF_congr rfl rfl f
  rw [h, getF_setF_same _ _ _ hw, Nat.mod_eq_of_lt (satAdd_lt _ _ _)]

theorem wordsKept_rcTaken (s : State) (f : Fld) : WordsKept [f.off, f.off + 4] s (s.rcTaken f) := by
  intro off hoff
  simp only [List.mem_cons, List.not_mem_nil, or_false, not_or] at hoff
  exact (word_congr rfl rfl off).trans (word_setF_ne s f _ hoff.1 hoff.2)

theorem wordsKept_bump_pair (s : State) (f : Fld) (k : Nat) : WordsKept [f.off, f.off + 4] s (s.bump f k) := by
  intro off hoff
  simp only [List.mem_cons, List.not_mem_nil, or_false, not_or] at hoff
  exact (word_congr rfl rfl off).trans (word_setF_ne s f _ hoff.1 hoff.2)

theorem frame_rcTaken (s : State) (f : Fld) : Frame [.regs, .incNow] s (s.rcTaken f) := by
  intro c hc
  cases c <;> simp_all [Comp.same, State.rcTaken]

theorem frame_hiCap (s : State) (m : SMap (Option W32)) : Frame [.hiCap] s { s with hiCap := m } := by
  intro c hc
  cases c <;> simp_all [Comp.same]

/-- The record of increments after the first increment of a cycle. -/
theorem incNow_bump_first (s : State) (f : Fld) (k : Nat) (h : mget (fun _ => (0, 0)) s.incNow f.off = (0, 0)) :
    mget (fun _ => (0, 0)) (s.bump f k).incNow f.off = (s.getF f, k) := by
  simp [State.bump, mget_mput_same, h]

theorem rcValue_bump_first (s : State) (f : Fld) (h : mget (fun _ => (0, 0)) s.incNow f.off = (0, 0)) :
    (s.bump f 1).rcValue f = s.getF f := by
  simp [State.rcValue, incNow_bump_first s f 1 h]

theorem getF_rcTaken_bump_first (s : State) (f : Fld) (hw : f.lsb + f.width ≤ 64) (hpos : 0 < f.width)
    (h : mget (fun _ => (0, 0)) s.incNow f.off = (0, 0)) : ((s.bump f 1).rcTaken f).getF f = 1 := by
  have hp : 2 ≤ 2 ^ f.width := Nat.le_self_pow (by omega) 2
  rw [getF_rcTaken _ _ hw, incNow_bump_first s f 1 h, satAdd]
  omega

/-- The words of a number, joined, give it back. -/
theorem append_words (n : Nat) (h : n < 2 ^ 64) :
    (BitVec.ofNat 32 (n / 2 ^ 32) ++ BitVec.ofNat 32 n : BitVec 64) = BitVec.ofNat 64 n := by
  apply BitVec.eq_of_toNat_eq
  rw [BitVec.toNat_append, BitVec.toNat_ofNat, BitVec.toNat_ofNat, BitVec.toNat_ofNat, Nat.shiftLeft_eq, Nat.mul_comm,
    ← Nat.two_pow_add_eq_or_of_lt (Nat.mod_lt _ (by decide))]
  omega

theorem zero_append_word (n : Nat) (h : n < 2 ^ 32) : ((0 : W32) ++ BitVec.ofNat 32 n : BitVec 64) = BitVec.ofNat 64 n := by
  have h0 : n / 2 ^ 32 = 0 := Nat.div_eq_of_lt h
  rw [← append_words n (by omega), h0]
  rfl

/-- Settles O9: the read takes the value from the record of increments, and leaves the increment in the counter. -/
theorem rcReadKeepsTheIncrement : Obligations.RcReadKeepsTheIncrement := by
  intro s off r f hrow hf hbytes hpos hal hsamp hpow hs hd hfirst
  let fld : Fld := ⟨off, f.lsb, f.width⟩
  have hw : fld.lsb + fld.width ≤ 64 := by
    rcases hbytes with ⟨-, h⟩ | ⟨-, h⟩
    · exact h.trans (by decide)
    · exact h
  have hwords : WordsKept [off, off + 4] s ((s.bump fld 1).rcTaken fld) :=
    (wordsKept_bump_pair s fld 1).trans (wordsKept_rcTaken _ fld) |>.mono (by simp [fld])
  have hframe : Frame [.regs, .incNow] s ((s.bump fld 1).rcTaken fld) :=
    (frame_bump s fld 1).trans (frame_rcTaken _ fld) |>.mono (by decide)
  have hval : s.getF fld < 2 ^ f.width := bitsAt_lt ..
  have hs' : HostReaches (s.bump fld 1) := by simpa [HostReaches, State.pcieDead] using hs
  have hd' : (s.bump fld 1).decodes off = true := by simpa [State.decodes] using hd
  rcases hbytes with ⟨hr, h32⟩ | ⟨hr, h64⟩
  · rw [hr] at hal ⊢
    have hread : (s.bump fld 1).readWord off = (BitVec.ofNat 32 (s.getF fld), (s.bump fld 1).rcTaken fld) := by
      rw [readWord_some _ (not_samples hsamp hpow) hrow, readOf_rc_short _ off hf hr, rcValue_bump_first s fld hfirst]
    refine ⟨_, exec_read_word hs' hd' hal, ?_⟩
    rw [hread]
    refine ⟨zero_append_word _ ?_, rfl, getF_rcTaken_bump_first s fld hw hpos hfirst, hwords, ?_⟩
    · exact hval.trans_le (Nat.pow_le_pow_right (by decide) (by omega))
    · exact (hframe.trans (frame_answer _ _ _)).mono (by decide)
  · rw [hr] at hal ⊢
    refine ⟨_, exec_read_both hs' hd' hal, ?_⟩
    rw [readBoth_rc_long _ hrow hf hr, rcValue_bump_first s fld hfirst]
    refine ⟨append_words _ ?_, rfl, getF_rcTaken_bump_first s fld hw hpos hfirst, hwords, ?_⟩
    · exact hval.trans_le (Nat.pow_le_pow_right (by decide) (by omega))
    · exact ((hframe.trans (frame_hiCap _ _)).trans (frame_answer _ _ _)).mono (by decide)

/-! ## Pairs (R12) -/

theorem readOf_low (s : State) {r : RegRow} (off : Nat) (hf : rcFields r = []) (hr : r.bytes = 8) :
    s.readOf r 0 off = (s.view off, { s with hiCap := mput (fun _ => none) s.hiCap (off + 4) (some (s.view (off + 4))) }) := by
  simp [State.readOf, hf, hr]

theorem readOf_high_captured (s : State) {r : RegRow} {off : Nat} {x : W32} (hf : rcFields r = [])
    (hx : mget (fun _ => none) s.hiCap off = some x) :
    s.readOf r 1 off = (x, { s with hiCap := mput (fun _ => none) s.hiCap off none }) := by
  simp [State.readOf, hf, hx]

theorem readOf_high_live (s : State) {r : RegRow} {off : Nat} (hf : rcFields r = [])
    (hx : mget (fun _ => none) s.hiCap off = none) : s.readOf r 1 off = (s.view off, s) := by
  simp [State.readOf, hf, hx]

/-- Settles O11, by what a read of either word leaves. -/
theorem pairReadCapturesTheHighWord : Obligations.PairReadCapturesTheHighWord := by
  intro s off r hlow hhigh hf hr hal hsamp hs hd hd4
  have hn (o : Nat) (ho : o = off ∨ o = off + 4) : ¬ Samples o := not_samples (hsamp o ho).1 (hsamp o ho).2
  constructor
  · have hread := (readWord_some s (hn off (.inl rfl)) hlow).trans (readOf_low s off hf hr)
    refine ⟨_, exec_read_low hs hd hal, ?_⟩
    rw [hread]
    exact ⟨rfl, rfl, mget_mput_same _ _ _ _, ((frame_hiCap _ _).trans (frame_answer _ _ _)).mono (by decide)⟩
  · have hword := readWord_some s (hn (off + 4) (.inr rfl)) hhigh
    refine ⟨_, exec_read_word hs hd4 (by omega), ?_⟩
    rw [hword]
    cases hx : mget (fun _ => none) s.hiCap (off + 4) with
    | some x =>
      rw [readOf_high_captured s hf hx]
      refine ⟨rfl, fun y hy => ?_, fun h => (Option.some_ne_none x h).elim,
        ((frame_hiCap _ _).trans (frame_answer _ _ _)).mono (by decide)⟩
      obtain rfl : x = y := Option.some.inj hy
      exact ⟨rfl, mget_mput_same _ _ _ _⟩
    | none =>
      rw [readOf_high_live s hf hx]
      exact ⟨rfl, fun y hy => (Option.some_ne_none y hy.symm).elim, fun _ => rfl, (frame_answer _ _ _).mono (by decide)⟩

end Sys2Proof.Machine
end

section
/-!
# Writes of W1C words, and of a field under a condition
-/

namespace Sys2Proof.Machine

/-! ## W1C words (R14) -/

/-- A bit of a word lies in one of the W1C fields of a list. -/
def inW1c (fs : List FieldRow) (i : Nat) : Bool :=
  fs.any fun f => decide (f.acc = .w1c ∧ f.lsb ≤ i ∧ i < f.lsb + f.width)

theorem inW1c_cons (f : FieldRow) (fs : List FieldRow) (i : Nat) :
    inW1c (f :: fs) i = (decide (f.acc = .w1c ∧ f.lsb ≤ i ∧ i < f.lsb + f.width) || inW1c fs i) := rfl

/-- Clearing a bit for one field and then for the others is clearing it for all of them. -/
theorem clear_clear (b m n v d : Bool) :
    (b && (!m || !v || d) && (!n || !v || d)) = (b && (!(m || n) || !v || d)) := by
  revert b m n v d
  decide

/-- A word outside SRC_STATUS has no level sources. -/
def NoLevels (off : Nat) : Prop := ¬ (fltSrcStatus 0 ≤ off ∧ off < fltSrcStatus 8)

theorem levelBits_of_noLevels (s : State) {off : Nat} (h : NoLevels off) : s.levelBits off = 0 := if_neg h

/-- A word after a field of it is written, bit by bit. -/
theorem testBit_word_setF (s : State) (f : Fld) (x i : Nat) (hw : f.lsb + f.width ≤ 32) :
    ((s.setF f x).word f.off).toNat.testBit i =
      if f.lsb ≤ i ∧ i < f.lsb + f.width then x.testBit (i - f.lsb) else (s.word f.off).toNat.testBit i := by
  rw [word_setF_same s f x hw, Nat.testBit_mod_two_pow, testBit_putBits]
  by_cases hi : i < 32
  · simp [hi]
  · have hlt : (s.word f.off).toNat.testBit i = false :=
      Nat.testBit_lt_two_pow ((s.word f.off).isLt.trans_le (Nat.pow_le_pow_right (by decide) (by omega)))
    have hout : ¬ (f.lsb ≤ i ∧ i < f.lsb + f.width) := by omega
    simp [hi, hlt, hout]

/-- A W1C write to one field of a word. -/
def State.w1cField (s : State) (off : Nat) (v : W32) (f : FieldRow) : State :=
  s.setF ⟨off, f.lsb, f.width⟩ (bitsAt (s.word off).toNat f.lsb f.width &&&
    ((2 ^ f.width - 1 - bitsAt v.toNat f.lsb f.width) |||
      bitsAt ((mget (fun _ => 0) s.setNow off).toNat ||| s.levelBits off) f.lsb f.width))

theorem w1cFields_cons (s : State) (off : Nat) (v : W32) (f : FieldRow) (fs : List FieldRow) :
    s.w1cFields off v (f :: fs) = (if f.acc = .w1c then s.w1cField off v f else s).w1cFields off v fs := by
  simp only [State.w1cFields]
  by_cases h : f.acc = .w1c
  · rw [if_pos h, if_pos h]
    rfl
  · rw [if_neg h, if_neg h]

/-- A bit of a W1C field after its write: it stays where it is not written as 1, and where the device sets it. -/
theorem testBit_w1cField (s : State) {off : Nat} (v : W32) {f : FieldRow} (hl : NoLevels off) (hf : f.lsb + f.width ≤ 32)
    (i : Nat) : ((s.w1cField off v f).word off).toNat.testBit i =
      ((s.word off).toNat.testBit i && (!decide (f.lsb ≤ i ∧ i < f.lsb + f.width) || !v.toNat.testBit i ||
        (mget (fun _ => 0) s.setNow off).toNat.testBit i)) := by
  unfold State.w1cField
  rw [testBit_word_setF s ⟨off, f.lsb, f.width⟩ _ i hf, levelBits_of_noLevels s hl]
  by_cases hi : f.lsb ≤ i ∧ i < f.lsb + f.width
  · have hk : f.lsb + (i - f.lsb) = i := by omega
    have hlt : i - f.lsb < f.width := by omega
    have hsub : 2 ^ f.width - 1 - bitsAt v.toNat f.lsb f.width = 2 ^ f.width - (bitsAt v.toNat f.lsb f.width + 1) := by omega
    rw [if_pos hi, Nat.testBit_and, Nat.testBit_or, hsub, Nat.testBit_two_pow_sub_succ (bitsAt_lt ..)]
    simp [hi, hk, hlt, testBit_bitsAt]
  · simp [hi]

theorem testBit_w1cFields (s : State) {off : Nat} (v : W32) {fs : List FieldRow} (hl : NoLevels off)
    (hfs : ∀ f ∈ fs, f.lsb + f.width ≤ 32) (i : Nat) :
    ((s.w1cFields off v fs).word off).toNat.testBit i =
      ((s.word off).toNat.testBit i &&
        (!inW1c fs i || !v.toNat.testBit i || (mget (fun _ => 0) s.setNow off).toNat.testBit i)) := by
  induction fs generalizing s with
  | nil => simp [State.w1cFields, inW1c]
  | cons f fs ih =>
    rw [w1cFields_cons, ih _ fun g hg => hfs g (List.mem_cons_of_mem f hg)]
    by_cases h : f.acc = .w1c
    · have hset : (s.w1cField off v f).setNow = s.setNow := by simp [State.w1cField]
      rw [if_pos h, hset, testBit_w1cField s v hl (hfs f List.mem_cons_self)]
      have hin : decide (f.acc = .w1c ∧ f.lsb ≤ i ∧ i < f.lsb + f.width) = decide (f.lsb ≤ i ∧ i < f.lsb + f.width) := by
        simp [h]
      rw [inW1c_cons, hin, clear_clear]
    · have hin : decide (f.acc = .w1c ∧ f.lsb ≤ i ∧ i < f.lsb + f.width) = false := by simp [h]
      rw [if_neg h, inW1c_cons, hin, Bool.false_or]

theorem wordsKept_w1cFields (s : State) (off : Nat) (v : W32) {fs : List FieldRow} (hfs : ∀ f ∈ fs, f.lsb + f.width ≤ 32) :
    WordsKept [off] s (s.w1cFields off v fs) := by
  induction fs generalizing s with
  | nil => exact .refl _ _
  | cons f fs ih =>
    rw [w1cFields_cons]
    have hstep : WordsKept [off] s (if f.acc = .w1c then s.w1cField off v f else s) := by
      split
      · exact wordsKept_setF s ⟨off, f.lsb, f.width⟩ _ (hfs f List.mem_cons_self)
      · exact .refl _ _
    exact (hstep.trans (ih _ fun g hg => hfs g (List.mem_cons_of_mem f hg))).mono (by simp)

theorem frame_w1cFields (s : State) (off : Nat) (v : W32) (fs : List FieldRow) :
    Frame [.regs] s (s.w1cFields off v fs) := by
  induction fs generalizing s with
  | nil => exact .refl _ _
  | cons f fs ih =>
    rw [w1cFields_cons]
    have hstep : Frame [.regs] s (if f.acc = .w1c then s.w1cField off v f else s) := by
      split
      · exact frame_setF _ _ _
      · exact .refl _ _
    exact (hstep.trans (ih _)).mono (by decide)

/-- What makes a W1C bit one whose write does nothing but clear it. -/
structure PlainW1c (f : Fld) : Prop where
  width : f.width = 1
  lsb : f.lsb < 32
  aligned : f.off % 4 = 0
  noLevels : NoLevels f.off
  noSource : ¬ (0x20100 ≤ f.off ∧ f.off < 0x201C0)
  row : inW1c (wordFields f.off) f.lsb = true
  inWord : ∀ g ∈ wordFields f.off, g.lsb + g.width ≤ 32

theorem w1cDone_of_plain {f : Fld} (hf : PlainW1c f) (s : State) : s.w1cDone f.off = s :=
  if_neg fun ⟨h1, h2, _⟩ => hf.noSource ⟨h1, h2⟩

theorem bitsAt_one (v lsb : Nat) : bitsAt v lsb 1 = b2n (v.testBit lsb) := by
  have h2 : v / 2 ^ lsb % 2 = 0 ∨ v / 2 ^ lsb % 2 = 1 := by omega
  rw [Nat.testBit_eq_decide_div_mod_eq, bitsAt, Nat.shiftRight_eq_div_pow, Nat.pow_one]
  rcases h2 with h | h <;> simp [h, b2n]

theorem getF_bit (s : State) {f : Fld} (hw : f.width = 1) (hl : f.lsb < 32) :
    s.getF f = b2n ((s.word f.off).toNat.testBit f.lsb) := by
  have h32 : f.lsb + f.width ≤ 32 := by omega
  rw [State.getF, State.regNat, if_pos h32, hw, bitsAt_one]

theorem getF_w1cWord {f : Fld} (hf : PlainW1c f) (s : State) (v : W32) :
    (s.w1cWord f.off v).getF f = b2n ((s.word f.off).toNat.testBit f.lsb &&
      (!v.toNat.testBit f.lsb || (mget (fun _ => 0) s.setNow f.off).toNat.testBit f.lsb)) := by
  rw [State.w1cWord, w1cDone_of_plain hf, getF_bit _ hf.width hf.lsb, testBit_w1cFields s v hf.noLevels hf.inWord, hf.row]
  rfl

/-- The W1C bits of STATUS registers that only the device sets. -/
def statusBits : List Fld :=
  [pwrStatus_WrRefused, timStatus_WrRefused, ingStatus_WrRefused, ingStatus_AlignViolation, trgStatus_WrRefused,
    chmStatus_WrRefused, zlStatus_WrRefused, memStatus_WrRefused, optStatus_WrRefused]

theorem plainW1c_statusBits : ∀ f ∈ statusBits, PlainW1c f := by
  have h : ∀ f ∈ statusBits, f.width = 1 ∧ f.lsb < 32 ∧ f.off % 4 = 0 ∧
      ¬ (fltSrcStatus 0 ≤ f.off ∧ f.off < fltSrcStatus 8) ∧ ¬ (0x20100 ≤ f.off ∧ f.off < 0x201C0) ∧
      inW1c (wordFields f.off) f.lsb = true ∧ ∀ g ∈ wordFields f.off, g.lsb + g.width ≤ 32 := by decide
  intro f hf
  obtain ⟨hwidth, hlsb, haligned, hlevels, hsource, hrow, hword⟩ := h f hf
  exact ⟨hwidth, hlsb, haligned, hlevels, hsource, hrow, hword⟩

/-- Settles O10, by what a W1C write does to each bit of its word. -/
theorem w1cBitSetInThisCycleStays : Obligations.W1cBitSetInThisCycleStays := by
  intro s v f hmem hs hrel
  have hf : PlainW1c f := plainW1c_statusBits f hmem
  refine ⟨_, exec_w1c_word hs (decodes_of_released hrel _) hf.aligned v, ?_⟩
  rw [getF_w1cWord hf, getF_bit s hf.width hf.lsb]
  refine ⟨fun hv hd => ?_, fun hv hd => ?_, fun hv => ?_, ?_, ?_⟩
  · rw [hv, hd]
    simp [b2n]
  · rw [hv, hd]
    simp
  · rw [hv]
    simp
  · rw [State.w1cWord, w1cDone_of_plain hf]
    exact wordsKept_w1cFields s f.off v hf.inWord
  · rw [State.w1cWord, w1cDone_of_plain hf]
    exact frame_w1cFields s f.off v _

/-! ## A field under a condition (R18) -/

theorem wordFields_pwrSlew : wordFields pwrSlew = [⟨0, 6, .rw, 34⟩] := by decide

/-- A write of PWR.SLEW is a write of its one field under the field's condition. -/
theorem writeWord_pwrSlew (s : State) (v : W32) : s.writeWord pwrSlew v =
    s.setIf (decide (16 ≤ bitsAt v.toNat 0 6 ∧ bitsAt v.toNat 0 6 ≤ 34)) pwrSlew_Step (bitsAt v.toNat 0 6) := by
  have hsys : s.writeWord pwrSlew v = s.writeSys pwrSlew v := if_pos (by decide)
  have hplain : s.writeSys pwrSlew v = s.plainWrite pwrSlew v := rfl
  have hok : s.writeOk pwrSlew v.toNat = true := rfl
  have hdone (t : State) : (t.rwDone s pwrSlew).parityAt pwrSlew = t := rfl
  have hw1c (t : State) : t.w1cWord pwrSlew v = t := by
    rw [State.w1cWord, wordFields_pwrSlew]
    rfl
  rw [hsys, hplain, State.plainWrite, hok, hdone, hw1c, wordFields_pwrSlew]
  rfl

/-- The three outcomes of a write under a condition. -/
theorem setIf_ok (s : State) {ok : Bool} (f : Fld) (v : Nat) (h : ok = true) : s.setIf ok f v = s.setF f v := by
  rw [State.setIf, if_pos h]

theorem setIf_same (s : State) {ok : Bool} (f : Fld) (v : Nat) (h : ok = false) (hv : s.getF f = v % 2 ^ f.width) :
    s.setIf ok f v = s := by
  rw [State.setIf, h, if_neg Bool.false_ne_true, if_pos hv]

theorem setIf_refused (s : State) {ok : Bool} (f : Fld) (v : Nat) (h : ok = false) (hv : s.getF f ≠ v % 2 ^ f.width) :
    s.setIf ok f v = s.refuse f.off := by
  rw [State.setIf, h, if_neg Bool.false_ne_true, if_neg hv]

/-- Settles O8: a case for each outcome of the write under SLEW's condition. -/
theorem slewWrite : Obligations.SlewWrite := by
  intro s v hs hrel
  have hv : bitsAt (v.extractLsb' 0 32).toNat 0 6 = bitsAt v.toNat 0 6 := by
    rw [BitVec.extractLsb'_toNat, Nat.shiftRight_zero, bitsAt_mod _ _ _ _ (by decide)]
  have hlt : bitsAt v.toNat 0 6 % 2 ^ pwrSlew_Step.width = bitsAt v.toNat 0 6 := Nat.mod_eq_of_lt (bitsAt_lt ..)
  refine ⟨_, exec_write_word hs (decodes_of_released hrel _) rfl v, ?_⟩
  rw [writeWord_pwrSlew, hv]
  by_cases hc : 16 ≤ bitsAt v.toNat 0 6 ∧ bitsAt v.toNat 0 6 ≤ 34
  · rw [setIf_ok s _ _ (decide_eq_true hc)]
    refine ⟨fun _ => ⟨?_, wordsKept_setF s pwrSlew_Step _ (by decide)⟩, fun h => absurd hc h, (frame_setF s _ _).mono (by decide)⟩
    rw [getF_setF_same _ _ _ (by decide), hlt]
  by_cases hsame : s.getF pwrSlew_Step = bitsAt v.toNat 0 6
  · rw [setIf_same s _ _ (decide_eq_false hc) (hsame.trans hlt.symm)]
    exact ⟨fun h => absurd h hc, fun _ => ⟨rfl, fun h => absurd hsame h, fun _ => .refl _ _⟩, .refl _ _⟩
  · rw [setIf_refused s _ _ (decide_eq_false hc) (hlt.symm ▸ hsame)]
    have href : s.refuse pwrSlew_Step.off = s.raise pwrStatus_WrRefused := rfl
    rw [href]
    refine ⟨fun h => absurd h hc, fun _ => ⟨?_, fun _ => ⟨?_, ?_⟩, fun h => absurd h hsame⟩, frame_raise s _⟩
    · exact getF_raise_ne s _ _ (by decide) (by decide) (by decide)
    · exact getF_raise_same s _ (by decide)
    · exact wordsKept_raise s pwrStatus_WrRefused (by decide)

end Sys2Proof.Machine
end

section
/-!
# The state at core release
-/

namespace Sys2Proof.Machine

/-- Settles O3: the three words that the reset state lists stand in rising order and differ from their reset values, and any
other word reads as its reset value. -/
theorem resetState : Obligations.ResetState := by
  have hregs : State.reset.RegsWf := by
    unfold State.RegsWf
    decide
  refine ⟨⟨hregs, reset_stores_wf⟩, rfl, rfl, by decide, by decide, rfl, by decide, fun off hoff => ?_⟩
  simp only [List.mem_cons, List.not_mem_nil, or_false, not_or] at hoff
  obtain ⟨hrails, hpll, hmem⟩ := hoff
  simp [State.word, State.reset, mget, Ne.symm hrails, Ne.symm hpll, Ne.symm hmem, State.cold]

end Sys2Proof.Machine
end

section
/-!
# Accesses that reach no register (R17, R435)

An offset that no row of the register table holds is none of the offsets at which a write acts, or a read samples, since each
of those has its row.
-/

namespace Sys2Proof.Machine

/-! ## Registers that act have rows -/

/-- Some row of the register table holds the offset. -/
def hasRow (off : Nat) : Bool := (findRow (regRowsAt off) off).isSome

/-- An offset outside every register map. -/
def Gap (off : Nat) : Prop := findRow (regRowsAt off) off = none

theorem Gap.ne {off x : Nat} (h : Gap off) (hx : hasRow x = true) : off ≠ x := by
  rintro rfl
  rw [hasRow, h] at hx
  exact Bool.false_ne_true hx

theorem hasRow_optTxPower : ∀ t < 34, hasRow (optTxPower t) = true := by decide +kernel

theorem hasRow_optTxCtrl : ∀ t < 34, hasRow (optTxCtrl t) = true := by decide +kernel

theorem hasRow_ingLaneCtrl : ∀ l < 256, hasRow (ingLaneCtrl l) = true := by decide +kernel

theorem hasRow_memStackCfg : ∀ n < 6, hasRow (memStackCfg n) = true := by decide +kernel

theorem hasRow_fltReact : ∀ r < 256, hasRow (fltReact r) = true := by decide +kernel

theorem hasRow_fltFeSource : ∀ k < 3, hasRow (fltFeSource k) = true := by decide +kernel

theorem hasRow_pool : ∀ c < 16, hasRow (trgPoolCtrl c) = true ∧ hasRow (trgPoolRelease c) = true ∧
    hasRow (trgPoolRelease c + 4) = true := by decide +kernel

theorem hasRow_chmPort : ∀ p < 4, hasRow (chmPortEcho p) = true ∧ hasRow (chmPortTxqStat p) = true ∧
    hasRow (chmPortRxqStat p) = true := by decide +kernel

theorem hasRow_zlLink : ∀ k < 24, hasRow (zlLinkCfg k) = true ∧ hasRow (zlLinkEcho k) = true := by decide +kernel

theorem hasRow_queue : ∀ q < 16, hasRow (stkSqCtrl q) = true ∧ hasRow (stkCqCfg q) = true := by decide +kernel

theorem Gap.not_samples {off : Nat} (h : Gap off) : ¬ Samples off := by
  rintro (hnow | havs | ⟨t, ht, hpow⟩)
  · exact h.ne (by decide) hnow
  · exact h.ne (by decide) havs
  · exact h.ne (hasRow_optTxPower t ht) hpow

/-- An aligned offset in the range of the REACT registers is one of them. -/
theorem Gap.not_react {off : Nat} (h : Gap off) (ha : off % 4 = 0) : ¬ (fltReact 0 ≤ off ∧ off < fltReact 256) := by
  rintro ⟨h1, h2⟩
  refine h.ne (hasRow_fltReact ((off - fltReact 0) / 4) ?_) ?_
  · simp only [fltReact] at *
    omega
  · simp only [fltReact] at *
    omega

/-! ## Writes -/

theorem rwDone_gap (s : State) {off : Nat} (h : Gap off) (ha : off % 4 = 0) : s.rwDone s off = s := by
  have hlane : ¬ (0x81000 ≤ off ∧ off < 0x85000 ∧ off = ingLaneCtrl ((off - 0x81000) / 0x40)) := fun ⟨h1, h2, h3⟩ =>
    h.ne (hasRow_ingLaneCtrl _ (by omega)) h3
  have htx : ¬ (0x300100 ≤ off ∧ off < 0x300540 ∧ off = optTxCtrl ((off - 0x300100) / 0x20)) := fun ⟨h1, h2, h3⟩ =>
    h.ne (hasRow_optTxCtrl _ (by omega)) h3
  have hstack : ¬ (0x280100 ≤ off ∧ off < 0x280280 ∧ off = memStackCfg ((off - 0x280100) / 0x40)) := fun ⟨h1, h2, h3⟩ =>
    h.ne (hasRow_memStackCfg _ (by omega)) h3
  simp only [State.rwDone, hlane, htx, hstack, h.not_react ha, h.ne (x := ingCtrl) (by decide),
    h.ne (x := chmCtrl) (by decide), h.ne (x := timTpCtrl 0) (by decide), h.ne (x := timTpCtrl 1) (by decide),
    h.ne (x := pwrTemp) (by decide), h.ne (x := fltHceCfg) (by decide), h.ne (x := fabQsampCtrl) (by decide),
    h.ne (x := zlTwinCtrl) (by decide), if_false]

theorem parityAt_gap (s : State) {off : Nat} (h : Gap off) (ha : off % 4 = 0) : s.parityAt off = s := by
  simp only [State.parityAt, parityWord, h.not_react ha, h.ne (x := fltCtrl) (by decide), h.ne (x := fltPinCtrl) (by decide),
    h.ne (x := fltSafeCtrl) (by decide), h.ne (x := fltInj) (by decide), h.ne (x := fltHceCfg) (by decide), if_false]

theorem w1cDone_gap (s : State) {off : Nat} (h : Gap off) : s.w1cDone off = s := by
  refine if_neg ?_
  rintro ⟨h1, h2, h3, -⟩
  exact h.ne (hasRow_fltFeSource ((off - 0x20100) / 0x40) (by omega)) h3

theorem plainWrite_gap (s : State) {off : Nat} (h : Gap off) (ha : off % 4 = 0) (v : W32) : s.plainWrite off v = s := by
  have hfs : wordFields off = [] := by
    unfold wordFields
    rw [h]
  have hch : s.rwChanges off v [] = false := rfl
  have hw1c : s.w1cWord off v = s := by
    rw [State.w1cWord, hfs]
    exact w1cDone_gap s h
  rw [State.plainWrite, hfs, hch, Bool.and_false, if_neg Bool.false_ne_true]
  change ((s.rwDone s off).parityAt off).w1cWord off v = s
  rw [rwDone_gap s h ha, parityAt_gap s h ha, hw1c]

theorem writeSys_gap (s : State) {off : Nat} (h : Gap off) (ha : off % 4 = 0) (v : W32) : s.writeSys off v = s := by
  simp only [State.writeSys, h.ne (x := glbHearthCtrl) (by decide), h.ne (x := pwrResetCtrl) (by decide),
    h.ne (x := fltCtrl) (by decide), h.ne (x := fltSafeCtrl) (by decide), h.ne (x := fltInj) (by decide),
    h.ne (x := secCmd) (by decide), if_false, plainWrite_gap s h ha]

theorem writeEdge_gap (s : State) {off : Nat} (h : Gap off) (ha : off % 4 = 0) (v : W32) : s.writeEdge off v = s := by
  have hplain := plainWrite_gap s h ha v
  simp only [State.writeEdge, h.ne (x := timCtrl) (by decide), h.ne (x := timRate) (by decide),
    h.ne (x := timSyncCtrl) (by decide), h.ne (x := timTpTsqPop 0) (by decide), h.ne (x := timTpTsqPop 1) (by decide),
    h.ne (x := ingCtrl) (by decide), h.ne (x := ingGrpEn) (by decide), h.ne (x := ingReplayCtrl) (by decide),
    h.ne (x := trgCommit) (by decide), h.ne (x := trgForce) (by decide), if_false]
  split
  next hr =>
    obtain ⟨hctrl, hrel, hrel4⟩ := hasRow_pool ((off - 0x102000) / 0x80) (by omega)
    rw [if_neg (h.ne hctrl), if_neg (h.ne hrel), if_neg (h.ne hrel4), hplain]
  split
  next hr =>
    obtain ⟨hecho, htxq, hrxq⟩ := hasRow_chmPort ((off - 0x140100) / 0x40) (by omega)
    rw [if_neg (h.ne hecho), if_neg (h.ne htxq), if_neg (h.ne hrxq), hplain]
  next => exact hplain

theorem writeLinks_gap (s : State) {off : Nat} (h : Gap off) (ha : off % 4 = 0) (v : W32) : s.writeLinks off v = s := by
  have hplain := plainWrite_gap s h ha v
  simp only [State.writeLinks, h.ne (x := zlTwinCtrl) (by decide), h.ne (x := stkCtrl) (by decide),
    h.ne (x := stkFuncEn) (by decide), h.ne (x := stkResyncCtrl) (by decide), h.ne (x := memCtrl) (by decide),
    h.ne (x := memInj) (by decide), if_false]
  split
  next hr =>
    obtain ⟨hcfg, hecho⟩ := hasRow_zlLink ((off - 0x180100) / 0x80) (by omega)
    rw [if_neg (h.ne hcfg), if_neg (h.ne hecho), hplain]
  split
  next hr => rw [if_neg (h.ne (hasRow_queue ((off - 0x200100) / 0x40) (by omega)).1), hplain]
  split
  next hr => rw [if_neg (h.ne (hasRow_queue ((off - 0x200600) / 0x40) (by omega)).2), hplain]
  next => exact hplain

theorem writeWord_gap (s : State) {off : Nat} (h : Gap off) (ha : off % 4 = 0) (hlt : off < 0x800000) (v : W32) :
    s.writeWord off v = s := by
  simp only [State.writeWord, writeSys_gap s h ha, writeEdge_gap s h ha, writeLinks_gap s h ha, plainWrite_gap s h ha, hlt,
    if_true, ite_self]

/-! ## Requests that are refused -/

theorem exec_read_refused {s : State} {off size : Nat} (hio : s.pwr.ioLow = false) (hsleep : s.pcie.asleep = false)
    (hok : sizeOk off size = false) :
    exec (.rcCounterRead .bar0 off size) s = .next (s.raise glbPcieStatus_BadAccess).unsupported := by
  simp [exec, execRcCounterRead, State.spaceRead, State.bar0Read, hio, hsleep, hok]

theorem exec_write_refused {s : State} {off size : Nat} (hio : s.pwr.ioLow = false) (hsleep : s.pcie.asleep = false)
    (hok : sizeOk off size = false) (v : W64) :
    exec (.registerWrite .bar0 off size v) s = .next (s.raise glbPcieStatus_BadAccess) := by
  simp [exec, execRegisterWrite, State.spaceWrite, State.bar0Write, hio, hsleep, hok]

/-- Settles O7: a size that R435 refuses sets BAD_ACCESS and no more, and an aligned gap is no offset that anything acts at. -/
theorem accessesThatReachNoRegister : Obligations.AccessesThatReachNoRegister := by
  refine ⟨fun s off size v hio hsleep hsize => ?_, fun s off v ha hs hd h => ?_⟩
  · have hok : sizeOk off size = false := Bool.eq_false_iff.mpr (mt (sizeOk_iff off size).mp hsize)
    have hbad : (s.raise glbPcieStatus_BadAccess).getF glbPcieStatus_BadAccess = 1 :=
      getF_raise_same s _ (by decide)
    have hwords : WordsKept [glbPcieStatus] s (s.raise glbPcieStatus_BadAccess) :=
      wordsKept_raise s glbPcieStatus_BadAccess (by decide)
    constructor
    · refine ⟨_, exec_read_refused hio hsleep hok, rfl, hbad, rfl, hwords, ?_⟩
      exact ((frame_raise s _).trans (frame_unsupported _)).mono (by decide)
    · exact ⟨_, exec_write_refused hio hsleep hok v, hbad, hwords, frame_raise s _⟩
  · have hgap : Gap off := h
    constructor
    · refine ⟨_, exec_read_word hs hd ha, ?_⟩
      rw [readWord_none s hgap.not_samples h]
      exact ⟨zero_append_word 0 (by decide), rfl, frame_answer s _ _⟩
    · intro hlt
      rw [exec_write_word hs hd ha, writeWord_gap s hgap ha hlt]

end Sys2Proof.Machine
end

section
/-!
# Commits of the trigger (R257)
-/

namespace Sys2Proof.Machine

/-- A sparse store after writes of the values g gives, one key after another. -/
theorem mget_foldl_mput {α : Type} [DecidableEq α] (d g : Nat → α) {k : Nat} {ks : List Nat} {m : SMap α}
    (h : mget d m k = g k ∨ k ∈ ks) : mget d (ks.foldl (fun m k => mput d m k (g k)) m) k = g k := by
  induction ks generalizing m with
  | nil => exact h.resolve_right List.not_mem_nil
  | cons k' ks ih =>
    apply ih
    by_cases hk : k = k'
    · exact .inl (hk ▸ mget_mput_same d m k (g k))
    · rw [mget_mput_ne d m _ hk]
      exact h.imp_right fun hmem => (List.mem_cons.mp hmem).resolve_left hk

/-- The active copies after those of the registers os took the pending ones. -/
def State.activeWith (s : State) (os : List Nat) : SMap W32 :=
  os.foldl (fun m o => mput (resetWord s.part) m o (s.word o)) s.trg.active

theorem takePending_eq (s : State) (os : List Nat) :
    s.takePending os = { s with trg := { s.trg with active := s.activeWith os } } := by
  induction os generalizing s with
  | nil => rfl
  | cons o os ih =>
    unfold State.takePending
    rw [ih]
    rfl

theorem frame_trg (s : State) (x : Trg) : Frame [.trg] s { s with trg := x } := by
  intro c hc
  cases c <;> simp_all [Comp.same]

/-- How many ticks ahead a COMMIT write names its tick, modulo 2^24. -/
def State.commitAhead (s : State) (v : W32) : Nat := (v.toNat % 2 ^ 24 + 2 ^ 24 - s.tick % 2 ^ 24) % 2 ^ 24

theorem trgCommit_taken {s : State} {v : W32} (hnone : s.trg.commitAt = none) (h2 : 2 ≤ s.commitAhead v)
    (h23 : s.commitAhead v < 2 ^ 23) : trgCommit' v s =
      ({ s with trg := { s.trg with commitAt := some (s.tick + s.commitAhead v) } }).setF trgStatus_CommitPending 1 := by
  have hd : ¬ (s.commitAhead v < 2 ∨ 2 ^ 23 ≤ s.commitAhead v) := by omega
  have hguard : (s.trg.commitAt.isSome || decide (s.commitAhead v < 2 ∨ 2 ^ 23 ≤ s.commitAhead v)) = false := by
    rw [hnone, decide_eq_false hd]
    rfl
  exact if_neg (Bool.not_eq_true _ ▸ hguard)

theorem trgCommit_refused {s : State} {v : W32}
    (h : s.trg.commitAt ≠ none ∨ s.commitAhead v < 2 ∨ 2 ^ 23 ≤ s.commitAhead v) :
    trgCommit' v s = s.raise trgStatus_WrRefused := by
  refine if_pos ?_
  rw [Bool.or_eq_true, decide_eq_true_eq]
  exact h.imp_left Option.isSome_iff_ne_none.mpr

theorem setF_withTrg (s : State) (f : Fld) (v : Nat) (x : Trg) :
    { s with trg := x }.setF f v = { s.setF f v with trg := x } := by
  by_cases h : f.lsb + f.width ≤ 32
  · simp only [State.setF, if_pos h]
    rfl
  · simp only [State.setF, if_neg h]
    rfl

theorem commitApply_due {s : State} {k : Nat} (hk : s.trg.commitAt = some k)
    (hdue : k ≤ s.trg.next ∨ 64 * (k - 1) + s.trgLd (k - 1) < s.frc.toNat) :
    commitApply s = ({ s with trg := { s.trg with active := s.activeWith twoCopies, commitAt := none } }).setF
      trgStatus_CommitPending 0 := by
  unfold commitApply
  rw [hk, takePending_eq]
  generalize s.activeWith twoCopies = m
  rw [setF_withTrg, setF_withTrg]
  exact if_pos hdue

/-- Settles O38: the guard of the write is that of the statement, and at the commit's tick every pending copy is taken. -/
theorem commitTakesThePendingCopies : Obligations.CommitTakesThePendingCopies := by
  refine ⟨fun s v => ⟨_, rfl, fun hnone h2 h23 => ?_, fun h => ?_⟩, fun s k hk hdue => ?_⟩
  · rw [trgCommit_taken hnone h2 h23]
    refine ⟨trg_setF _ _ _, getF_setF_same _ _ _ (by decide), ?_, ?_⟩
    · exact wordsKept_setF (f := trgStatus_CommitPending) _ _ (by decide)
    · exact ((frame_trg s _).trans (frame_setF _ _ _)).mono (by decide)
  · rw [trgCommit_refused h]
    exact ⟨getF_raise_same s _ (by decide), wordsKept_raise s trgStatus_WrRefused (by decide), frame_raise s _⟩
  · have hactive : ∀ off ∈ twoCopies, mget (resetWord s.part) (s.activeWith twoCopies) off = s.word off :=
      fun off hoff => mget_foldl_mput _ s.word (.inr hoff)
    refine ⟨_, congrArg Host.Outcome.next (commitApply_due hk hdue), ?_⟩
    generalize s.activeWith twoCopies = m at hactive ⊢
    refine ⟨by rw [trg_setF], getF_setF_same _ _ _ (by decide), by rwa [trg_setF], ?_, ?_⟩
    · exact wordsKept_setF (f := trgStatus_CommitPending) _ _ (by decide)
    · exact ((frame_trg s _).trans (frame_setF _ _ _)).mono (by decide)

end Sys2Proof.Machine
end

section
/-!
# What a write to HBM leaves alone

A write by ACQ (master 0) changes HBM, its registers, and fault records: no pool, no queue of the Stoker, nothing of the
Hearth, and no register word below the MEM block. `MemOp` says so, with one lemma per operation, as `Keeps` has.
-/

set_option autoImplicit false

namespace Sys2Proof.Machine

/-- What an operation on HBM keeps. -/
structure MemOp (s t : State) : Prop where
  pools : t.pools = s.pools
  stk : t.stk = s.stk
  hearth : t.hearth = s.hearth
  words : ∀ off < memCtrl, t.word off = s.word off

variable {s₀ s : State}

theorem MemOp.refl (s : State) : MemOp s s := ⟨rfl, rfl, rfl, fun _ _ => rfl⟩

theorem MemOp.trans {t : State} (h : MemOp s₀ s) (ht : MemOp s t) : MemOp s₀ t :=
  ⟨ht.pools.trans h.pools, ht.stk.trans h.stk, ht.hearth.trans h.hearth,
    fun off ho => (ht.words off ho).trans (h.words off ho)⟩

/-- A field of a word below the MEM block is as it was. -/
theorem MemOp.getF (h : MemOp s₀ s) {f : Fld} (hw : f.lsb + f.width ≤ 32) (ho : f.off < memCtrl) : s.getF f = s₀.getF f := by
  simp only [State.getF, State.regNat, if_pos hw, h.words f.off ho]

theorem MemOp.ite {c : Prop} [Decidable c] {a b : State} (ha : MemOp s₀ a) (hb : MemOp s₀ b) :
    MemOp s₀ (if c then a else b) := by split <;> assumption

/-! ## Registers -/

theorem MemOp.setWord (h : MemOp s₀ s) {off v} (ho : memCtrl ≤ off) : MemOp s₀ (s.setWord off v) :=
  h.trans ⟨rfl, rfl, rfl, fun _ hlt => word_setWord_ne s v (Nat.ne_of_lt (hlt.trans_le ho))⟩

theorem MemOp.setF (h : MemOp s₀ s) {f v} (ho : memCtrl ≤ f.off) : MemOp s₀ (s.setF f v) :=
  h.trans ⟨pools_setF _ _ _, stk_setF _ _ _, hearth_setF _ _ _,
    fun off hlt => word_setF_ne s f v (by omega) (by omega)⟩

theorem MemOp.bump (h : MemOp s₀ s) {f k} (ho : memCtrl ≤ f.off) : MemOp s₀ (s.bump f k) :=
  (h.setF (f := f) (v := satAdd f.width (s.getF f) k) ho).trans ⟨rfl, rfl, rfl, fun _ _ => rfl⟩

theorem MemOp.raise (h : MemOp s₀ s) {f} (ho : memCtrl ≤ f.off) : MemOp s₀ (s.raise f) :=
  (h.setF (f := f) (v := 2 ^ f.width - 1) ho).trans ⟨rfl, rfl, rfl, fun _ _ => rfl⟩

theorem MemOp.assertSrc (h : MemOp s₀ s) {n info rank} : MemOp s₀ (s.assertSrc n info rank) :=
  h.trans ⟨by simp, by simp, by simp, fun _ _ => by simp⟩

theorem MemOp.update (h : MemOp s₀ s) {mem} : MemOp s₀ { s with mem } := h.trans ⟨rfl, rfl, rfl, fun _ _ => rfl⟩

/-- The registers of a stack stand in the MEM block. -/
theorem le_stackReg (base st : Nat) (h : memCtrl ≤ base) : memCtrl ≤ base + 0x40 * st := h.trans (Nat.le_add_right _ _)

/-! ## Sectors -/

theorem MemOp.bucketLeak (h : MemOp s₀ s) {st} : MemOp s₀ (s.bucketLeak st) :=
  MemOp.ite h (h.update.setF (le_stackReg _ st (by decide)))

theorem MemOp.corrected (h : MemOp s₀ s) {st} : MemOp s₀ (s.corrected st) := by
  have h1 := h.bucketLeak (st := st) |>.bump (f := memStackCeF st) (k := 1) (le_stackReg _ st (by decide))
  have hlvl {t : State} {x : Nat} (ht : MemOp s₀ t) : MemOp s₀ (t.setF (memStackBucket_Level st) x) :=
    ht.setF (le_stackReg _ st (by decide))
  exact MemOp.ite ((hlvl h1).bump (le_stackReg _ st (by decide))).assertSrc (hlvl h1)

theorem MemOp.feCapture (h : MemOp s₀ s) {kind acc master site sec} : MemOp s₀ (s.feCapture kind acc master site sec) :=
  MemOp.ite h ((((h.raise (by decide)).setF (by decide)).setWord (by decide)).setF (by decide))

theorem MemOp.decodeError (h : MemOp s₀ s) {acc master site sec} : MemOp s₀ (s.decodeError acc master site sec) :=
  ((h.bump (by decide)).raise (by decide)).feCapture.assertSrc

theorem MemOp.countRead (h : MemOp s₀ s) {r acc master site sec} : MemOp s₀ (s.countRead r acc master site sec) := by
  cases r with
  | clean => exact h
  | corrected i e => exact h.corrected
  | uncorrectable => exact (h.bump (le_stackReg _ _ (by decide))).feCapture

theorem MemOp.storeSector (h : MemOp s₀ s) {sec bs poison} : MemOp s₀ (s.storeSector sec bs poison) := by
  unfold State.storeSector
  extract_lets st hit mode inj diff hbm check src s1 s2
  have h2 : MemOp s₀ s2 := (h.update.setF (by decide)).ite h.update
  exact (h2.bump (le_stackReg _ st (by decide))).ite h2

theorem MemOp.rmw (h : MemOp s₀ s) {sec data mask poison master site err} :
    MemOp s₀ (s.rmw sec data mask poison master site err) :=
  ((h.countRead.bump (le_stackReg _ _ (by decide))).ite h.countRead).storeSector

theorem MemOp.dropHeld (h : MemOp s₀ s) {sec} : MemOp s₀ (s.dropHeld sec) := h.update

theorem MemOp.writeBack (h : MemOp s₀ s) {e master site err} : MemOp s₀ (s.writeBack e master site err) :=
  MemOp.ite h.dropHeld.decodeError h.dropHeld.rmw

theorem MemOp.flushFor (h : MemOp s₀ s) {sec master site} : MemOp s₀ (s.flushFor sec master site) := by
  unfold State.flushFor
  split
  · exact h
  · exact (h.bump (le_stackReg _ _ (by decide))).writeBack

theorem MemOp.makeRoom (h : MemOp s₀ s) {sec master site} : MemOp s₀ (s.makeRoom sec master site) := by
  unfold State.makeRoom
  split
  · exact (h.bump (le_stackReg _ _ (by decide))).writeBack
  · exact h

theorem MemOp.addHeld (h : MemOp s₀ s) {e} : MemOp s₀ (s.addHeld e) := h.update

theorem MemOp.getSector (h : MemOp s₀ s) {master site sec err} : MemOp s₀ (s.getSector master site sec err).1 := by
  unfold State.getSector
  split
  · exact h.decodeError
  · exact h.flushFor.countRead

theorem MemOp.putSector (h : MemOp s₀ s) {master site sec data mask poison} :
    MemOp s₀ (s.putSector master site sec data mask poison) :=
  MemOp.ite h.decodeError <| h.ite <| h.dropHeld.storeSector.ite <| h.dropHeld.rmw.ite <| h.dropHeld.storeSector.ite <|
    h.update.ite h.makeRoom.addHeld

/-! ## Accesses -/

theorem MemOp.arbMove (h : MemOp s₀ s) {pc master} : MemOp s₀ (s.arbMove pc master) := MemOp.ite h.update h.update

theorem MemOp.takeSlot (h : MemOp s₀ s) {pc} : MemOp s₀ (s.takeSlot pc) := h.update

theorem MemOp.hbmServe (h : MemOp s₀ s) {r} : MemOp s₀ (s.hbmServe r) := by
  unfold State.hbmServe
  extract_lets sec mem s1 q mem'
  have h1 : MemOp s₀ s1 := h.update.arbMove
  split
  · exact h1.putSector
  · exact h1.getSector.update

theorem MemOp.hbmServeAll (h : MemOp s₀ s) {pc zero n} : MemOp s₀ (s.hbmServeAll pc zero n) := by
  induction n generalizing s with
  | zero => exact h
  | succ n ih =>
    unfold State.hbmServeAll
    split
    · exact h
    · exact h.ite (ih h.hbmServe)

/-- ACQ's own write waits for the requests of class 0 that are older, and for none of the pools. -/
theorem MemOp.hbmGrant_acq (h : MemOp s₀ s) {pc} : MemOp s₀ (s.hbmGrant pc 0) := by
  unfold State.hbmGrant
  exact h.hbmServeAll.arbMove.takeSlot

theorem MemOp.writeSector_acq (h : MemOp s₀ s) {site sec data mask poison} :
    MemOp s₀ (s.writeSector 0 site sec data mask poison) :=
  (MemOp.ite h h.hbmGrant_acq).putSector

theorem MemOp.writeSectors_acq (h : MemOp s₀ s) {site sec off bs poison n} :
    MemOp s₀ (s.writeSectors 0 site sec off bs poison n) := by
  induction n generalizing s sec off bs with
  | zero => exact h
  | succ n ih => exact ih h.writeSector_acq

theorem MemOp.hbmWrite_acq (h : MemOp s₀ s) {site a bs poison} : MemOp s₀ (s.hbmWrite 0 site a bs poison) :=
  h.writeSectors_acq

end Sys2Proof.Machine
end

section
/-!
# The pools of ACQ (R270 to R275)
-/

namespace Sys2Proof.Machine

/-! ## Pools and fields -/

@[simp] theorem pool_setPool (s : State) (c : Nat) (p : Pool) : (s.setPool c p).pool c = p := mget_mput_same _ _ _ _

theorem pool_congr {s t : State} (h : t.pools = s.pools) (c : Nat) : t.pool c = s.pool c := by
  rw [State.pool, h, State.pool]

theorem frame_setPool (s : State) (c : Nat) (p : Pool) : Frame [.pools] s (s.setPool c p) := by
  intro k hk
  cases k <;> simp_all [Comp.same]

/-- A refused write of a TRG register raises WR_REFUSED of TRG. -/
theorem refuse_trg (s : State) {off : Nat} (h1 : 0x100000 ≤ off) (h2 : off ≤ 0x13ffff) :
    s.refuse off = s.raise trgStatus_WrRefused := by
  have hw : wrRefused off = some trgStatus_WrRefused := by
    unfold wrRefused
    rw [if_neg (by omega), if_neg (by omega), if_neg (by omega), if_neg (by omega), if_neg (by omega), if_neg (by omega),
      if_pos h2]
  rw [State.refuse, hw]

/-- A wide field is left alone by a write of another register. -/
theorem getF_setF_ne_wide (s : State) (f g : Fld) (v : Nat) (h1 : g.off ≠ f.off) (h2 : g.off ≠ f.off + 4)
    (h3 : g.off + 4 ≠ f.off) : (s.setF f v).getF g = s.getF g := by
  have h4 : g.off + 4 ≠ f.off + 4 := by omega
  simp only [State.getF, State.regNat, word_setF_ne s f v h1 h2, word_setF_ne s f v h3 h4]

/-! ## RELEASE (R273) -/

theorem poolReleaseWrite_stored {s : State} {c : Nat} {v : W64} (hlo : s.getF (trgPoolRelease_Record c) ≤ v.toNat)
    (hhi : v.toNat ≤ s.getF (trgPoolNext_Record c)) (hcap : ∀ x, (s.pool c).capt = some x → v.toNat ≤ x.record) :
    poolReleaseWrite c v s = (s.setF (trgPoolRelease_Record c) v.toNat).setPool c
      { s.pool c with kept := (s.pool c).kept.filter fun k => decide (v.toNat ≤ k.1) } := by
  refine if_neg ?_
  have hrange : ¬ (v.toNat < s.getF (trgPoolRelease_Record c) ∨ s.getF (trgPoolNext_Record c) < v.toNat) := by omega
  rw [decide_eq_false hrange, Bool.false_or]
  split
  next x hx => simpa using hcap x hx
  next => exact Bool.false_ne_true

theorem poolReleaseWrite_refused {s : State} {c : Nat} {v : W64} (hc : c < 16)
    (h : v.toNat < s.getF (trgPoolRelease_Record c) ∨ s.getF (trgPoolNext_Record c) < v.toNat ∨
      ∃ x, (s.pool c).capt = some x ∧ x.record < v.toNat) :
    poolReleaseWrite c v s = s.raise trgStatus_WrRefused := by
  have href : s.refuse (trgPoolRelease c) = s.raise trgStatus_WrRefused :=
    refuse_trg s (by simp only [trgPoolRelease]; omega) (by simp only [trgPoolRelease]; omega)
  rw [← href]
  refine if_pos ?_
  rw [Bool.or_eq_true, decide_eq_true_eq]
  rcases h with h | h | ⟨x, hx, hlt⟩
  · exact .inl (.inl h)
  · exact .inl (.inr h)
  · rw [hx]
    exact .inr (decide_eq_true hlt)

theorem exec_poolReleaseWrite {c : Nat} (hc : c < 16) (v : W64) (s : State) :
    exec (.poolReleaseWrite c v) s = .next (poolReleaseWrite c v s) := by
  simp [exec, execPoolReleaseWrite, State.when, hc]

/-! ## CTRL (R275) -/

theorem exec_poolCtrlWrite {c : Nat} (hc : c < 16) (v : W32) (s : State) :
    exec (.poolCtrlWrite c v) s = .next (poolCtrlWrite c v s) := by
  simp [exec, execPoolCtrlWrite, State.when, hc]

/-- The fields of CTRL that a write with EN at 0 stores. -/
def State.ctrlStored (s : State) (c n : Nat) : State :=
  ((s.setF (trgPoolCtrl_Cq c) (bitsAt n 24 4)).setF (trgPoolCtrl_TuMask c) (bitsAt n 16 8)).setF (trgPoolCtrl_Deadband c)
    (bitsAt n 0 16)

theorem poolCtrlWrite_start {s : State} {c : Nat} {v : W32} (hv : v.toNat.testBit 31 = true)
    (hoff : s.flag (trgPoolCtrl_En c) = false) (hring : s.getF (trgPoolRingSize_Size c) ≠ 0) :
    poolCtrlWrite c v s = ((s.ctrlStored c v.toNat).setF (trgPoolCtrl_En c) 1).setPool c
      { ((s.ctrlStored c v.toNat).setF (trgPoolCtrl_En c) 1).pool c with startAt := some (s.tick + 1) } := by
  have hkeep : ((s.setIf true (trgPoolCtrl_Cq c) (bitsAt v.toNat 24 4)).setIf true (trgPoolCtrl_TuMask c)
      (bitsAt v.toNat 16 8)).setIf true (trgPoolCtrl_Deadband c) (bitsAt v.toNat 0 16) = s.ctrlStored c v.toNat := rfl
  simp only [poolCtrlWrite, hoff, hv, Bool.not_false, hkeep, if_neg hring]
  rfl

/-- The fields of CTRL after a write with EN at 1: each is refused unless it holds the value written. -/
def State.ctrlRefused (s : State) (c n : Nat) : State :=
  ((s.setIf false (trgPoolCtrl_Cq c) (bitsAt n 24 4)).setIf false (trgPoolCtrl_TuMask c) (bitsAt n 16 8)).setIf false
    (trgPoolCtrl_Deadband c) (bitsAt n 0 16)

theorem poolCtrlWrite_stop {s : State} {c : Nat} {v : W32} (hv : v.toNat.testBit 31 = false)
    (hon : s.flag (trgPoolCtrl_En c) = true) (hp : (s.pool c).on = true) :
    poolCtrlWrite c v s = ((s.ctrlRefused c v.toNat).setF (trgPoolCtrl_En c) 0).setPool c
      { ((s.ctrlRefused c v.toNat).setF (trgPoolCtrl_En c) 0).pool c with startAt := none, stopAt := some (s.tick + 1) } := by
  have hpool : (((s.ctrlRefused c v.toNat).setF (trgPoolCtrl_En c) 0).pool c).on = true := by
    rw [pool_congr (s := s) (by simp [State.ctrlRefused]), hp]
  have hkeep : ((s.setIf false (trgPoolCtrl_Cq c) (bitsAt v.toNat 24 4)).setIf false (trgPoolCtrl_TuMask c)
      (bitsAt v.toNat 16 8)).setIf false (trgPoolCtrl_Deadband c) (bitsAt v.toNat 0 16) = s.ctrlRefused c v.toNat := rfl
  simp only [poolCtrlWrite, hon, hv, Bool.not_true, hkeep, hpool, if_true]
  rfl

/-- A refused write of a TRG field changes WR_REFUSED alone. -/
theorem setIf_false_trg (s : State) {f : Fld} (v : Nat) (h1 : 0x100000 ≤ f.off) (h2 : f.off ≤ 0x13ffff) :
    s.setIf false f v = s ∨ s.setIf false f v = s.raise trgStatus_WrRefused := by
  by_cases h : s.getF f = v % 2 ^ f.width
  · exact .inl (setIf_same s f v rfl h)
  · exact .inr ((setIf_refused s f v rfl h).trans (refuse_trg s h1 h2))

theorem wordsKept_setIf_false_trg (s : State) {f : Fld} (v : Nat) (h1 : 0x100000 ≤ f.off) (h2 : f.off ≤ 0x13ffff) :
    WordsKept [trgStatus] s (s.setIf false f v) := by
  rcases setIf_false_trg s v h1 h2 with h | h <;> rw [h]
  · exact .refl _ _
  · exact wordsKept_raise s trgStatus_WrRefused (by decide)

theorem frame_setIf (s : State) (ok : Bool) (f : Fld) (v : Nat) : Frame [.regs, .setNow] s (s.setIf ok f v) := by
  intro c hc
  cases c <;> simp_all [Comp.same]

theorem wordsKept_ctrlRefused (s : State) {c : Nat} (hc : c < 16) (n : Nat) :
    WordsKept [trgStatus] s (s.ctrlRefused c n) := by
  have h1 : 0x100000 ≤ trgPoolCtrl c := by simp only [trgPoolCtrl]; omega
  have h2 : trgPoolCtrl c ≤ 0x13ffff := by simp only [trgPoolCtrl]; omega
  exact ((wordsKept_setIf_false_trg s _ h1 h2).trans ((wordsKept_setIf_false_trg _ _ h1 h2).trans
    (wordsKept_setIf_false_trg _ _ h1 h2))).mono (by simp)

theorem frame_ctrlRefused (s : State) (c n : Nat) : Frame [.regs, .setNow] s (s.ctrlRefused c n) :=
  ((frame_setIf s _ _ _).trans ((frame_setIf _ _ _ _).trans (frame_setIf _ _ _ _))).mono (by decide)

/-- The fields of CTRL below EN are left alone by a write of EN. -/
theorem getF_setEn (s : State) (c v : Nat) {f : Fld} (ho : f.off = trgPoolCtrl c) (hw : f.lsb + f.width ≤ 31) :
    (s.setF (trgPoolCtrl_En c) v).getF f = s.getF f :=
  getF_setF_ne_bits s _ f v (by simp [trgPoolCtrl_En]) (by omega) ho (.inl hw)

theorem getF_tuMask_ctrlStored (s : State) (c n : Nat) :
    (s.ctrlStored c n).getF (trgPoolCtrl_TuMask c) = bitsAt n 16 8 := by
  unfold State.ctrlStored
  rw [getF_setF_ne_bits _ (trgPoolCtrl_Deadband c) (trgPoolCtrl_TuMask c) _ (by simp [trgPoolCtrl_Deadband])
    (by simp [trgPoolCtrl_TuMask]) rfl (.inr (by simp [trgPoolCtrl_Deadband, trgPoolCtrl_TuMask])),
    getF_setF_same _ _ _ (by simp [trgPoolCtrl_TuMask])]
  exact Nat.mod_eq_of_lt (bitsAt_lt ..)

theorem getF_deadband_ctrlStored (s : State) (c n : Nat) :
    (s.ctrlStored c n).getF (trgPoolCtrl_Deadband c) = bitsAt n 0 16 := by
  unfold State.ctrlStored
  rw [getF_setF_same _ _ _ (by simp [trgPoolCtrl_Deadband])]
  exact Nat.mod_eq_of_lt (bitsAt_lt ..)

theorem frame_ctrlStored (s : State) (c n : Nat) : Frame [.regs] s (s.ctrlStored c n) :=
  ((frame_setF s _ _).trans ((frame_setF _ _ _).trans (frame_setF _ _ _))).mono (by decide)

/-! ## Starting -/

theorem started_wbuf (ring : Nat) : (Pool.started ring).wbuf = leBytes 4 (markWord 5 3) ∧ (Pool.started ring).pos = 4 := by
  constructor <;> rfl

theorem exec_poolStart_due {s : State} {c b : Nat} (hc : c < 16) (hb : (s.pool c).startAt = some b) (ht : b ≤ s.tick)
    (hstop : (s.pool c).stopAt = none) : exec (.poolStart c) s = .next
      (((s.setPool c (Pool.started (s.ringSize c))).setF (trgPoolNext_Record c) 0).setF (trgPoolRelease_Record c) 0) := by
  have hdue : ¬ (s.tick < b ∨ (s.pool c).stopAt.isSome = true) := by simp [hstop, ht]
  simp only [exec, execPoolStart, State.when, hc, decide_true, if_true, poolStart, hb, if_neg hdue]

/-! ## Stopping -/

/-- ACQ's write buffer, drained to its length, is empty; nothing else of the pool has changed. -/
theorem acqPut_empties {put : Nat → List Byte → BitVec 32 → State → State}
    (hput : ∀ sec data mask s, (put sec data mask s).pools = s.pools ∧ (put sec data mask s).hearth = s.hearth)
    (c k : Nat) (s : State) (n : Nat) (hn : n = (s.pool c).wbuf.length) (hk : n ≤ k) :
    (s.acqPut put c n k).pool c = { s.pool c with wbuf := [] } ∧ (s.acqPut put c n k).hearth = s.hearth := by
  induction k generalizing s n with
  | zero =>
    have hw : (s.pool c).wbuf = [] := List.length_eq_zero_iff.mp (by omega)
    exact ⟨by rw [← hw]; rfl, rfl⟩
  | succ k ih =>
    unfold State.acqPut
    extract_lets p a m x
    have hlen : n = p.wbuf.length := hn
    have hmin : m = min n (min (32 - a % 32) p.wbuf.length) := rfl
    clear_value x m a
    split
    next hm =>
      have hw : (s.pool c).wbuf = [] := List.length_eq_zero_iff.mp (by omega)
      exact ⟨by rw [← hw], rfl⟩
    next hm =>
      obtain ⟨hpools, hhearth⟩ := hput (a / 32) x.1 x.2 (s.setPool c { p with wbuf := p.wbuf.drop m })
      have hp : (put (a / 32) x.1 x.2 (s.setPool c { p with wbuf := p.wbuf.drop m })).pool c =
          { p with wbuf := p.wbuf.drop m } := (pool_congr hpools c).trans (pool_setPool s c _)
      have hleft : n - m = ((put (a / 32) x.1 x.2 (s.setPool c { p with wbuf := p.wbuf.drop m })).pool c).wbuf.length := by
        rw [hp, List.length_drop]
        omega
      obtain ⟨hpool, hh⟩ := ih _ (n - m) hleft (by omega)
      exact ⟨by rw [hpool, hp], hh.trans hhearth⟩

theorem acqDrain_empties (s : State) (c : Nat) :
    (s.acqDrain c (s.pool c).wbuf.length).pool c = { s.pool c with wbuf := [] } ∧
      (s.acqDrain c (s.pool c).wbuf.length).hearth = s.hearth :=
  acqPut_empties (fun _ _ _ s => ⟨(MemOp.refl s).writeSector_acq.pools, (MemOp.refl s).writeSector_acq.hearth⟩) c _ s _ rfl
    (Nat.le_refl _)

theorem pool_poolPut (s : State) (c : Nat) (p : Pool) : (s.poolPut c p).pool c = p := by
  unfold State.poolPut
  extract_lets n s1
  have h1 : s1.pool c = p := pool_setPool s c p
  split
  · exact h1
  · rw [pool_congr (s := s1) (by simp), h1]

theorem hearth_poolPut (s : State) (c : Nat) (p : Pool) : (s.poolPut c p).hearth = s.hearth := by
  unfold State.poolPut
  extract_lets n s1
  split
  · rfl
  · simp [s1]

theorem recordDone_keeps (s : State) (c : Nat) (d : DoneRec) :
    (s.recordDone c d).pools = s.pools ∧ (s.recordDone c d).hearth = s.hearth := by
  unfold State.recordDone
  extract_lets n at'
  have hm : MemOp s (s.hbmWrite 0 0x1FF at' (s.recBytes c d) false) := (MemOp.refl s).hbmWrite_acq
  rw [pools_event, hearth_event]
  exact ⟨hm.pools, hm.hearth⟩

theorem recordsDone_keeps (s : State) (c : Nat) (ds : List DoneRec) :
    (s.recordsDone c ds).pools = s.pools ∧ (s.recordsDone c ds).hearth = s.hearth := by
  induction ds generalizing s with
  | nil => exact ⟨rfl, rfl⟩
  | cons d ds ih =>
    obtain ⟨hp, hh⟩ := recordDone_keeps s c d
    obtain ⟨hp', hh'⟩ := ih (s.recordDone c d)
    rw [State.recordsDone]
    exact ⟨hp'.trans hp, hh'.trans hh⟩

theorem capt_endRec (p : Pool) (flag lost : Nat) : (p.endRec flag lost).capt = none := by
  unfold Pool.endRec
  split
  next h => exact h
  next => rfl

/-- The pool as its boundary leaves it: the record that was being captured has ended, and the stream is closed. -/
def Pool.halted (p : Pool) (ring : Nat) : Pool := { (p.closeGap ring).endRec 32 with on := false, stopAt := none }

theorem poolStop_due {s : State} {c b : Nat} (hb : (s.pool c).stopAt = some b) (ht : b ≤ s.tick) :
    (poolStop c s).pool c = { (s.pool c).halted (s.ringSize c) with wbuf := [], finished := [] } ∧
      (poolStop c s).hearth = s.hearth := by
  have hnot : ¬ s.tick < b := Nat.not_lt.mpr ht
  let q := (s.pool c).halted (s.ringSize c)
  let s1 := (s.poolPut c q).acqDrain c q.wbuf.length
  have hstop : poolStop c s = (s1.setPool c { s1.pool c with finished := [] }).recordsDone c q.finished := by
    simp only [poolStop, hb, if_neg hnot]
    rfl
  have hq : (s.poolPut c q).pool c = q := pool_poolPut s c q
  obtain ⟨hpool, hhearth⟩ := acqDrain_empties (s.poolPut c q) c
  rw [hq] at hpool hhearth
  obtain ⟨hp, hh⟩ := recordsDone_keeps (s1.setPool c { s1.pool c with finished := [] }) c q.finished
  rw [hstop]
  constructor
  · rw [pool_congr hp, pool_setPool, hpool]
  · rw [hh, hearth_setPool, hhearth, hearth_poolPut]

theorem exec_poolStop {c : Nat} (hc : c < 16) (s : State) : exec (.poolStop c) s = .next (poolStop c s) := by
  simp [exec, execPoolStop, State.when, hc]

/-! ## Resuming and completing -/

theorem exec_acqWriteResume {s : State} {c : Nat} (hc : c < 16) (hs : (s.pool c).stopped ≠ none)
    (hroom : (s.pool c).room (s.ringSize c) 12 = true) :
    exec (.acqWriteResume c) s = .next (s.setPool c { s.pool c with resume := true }) := by
  have hsome : (s.pool c).stopped.isSome = true := Option.isSome_iff_ne_none.mpr hs
  simp [exec, execAcqWriteResume, State.when, hc, acqWriteResume, hsome, hroom]

theorem exec_recordComplete {s : State} {c : Nat} {d : DoneRec} {ds : List DoneRec} (hc : c < 16)
    (hfin : (s.pool c).finished = d :: ds) (hdone : d.stop ≤ (s.pool c).pos - (s.pool c).wbuf.length) :
    exec (.recordComplete c) s = .next ((s.setPool c { s.pool c with finished := ds }).recordDone c d) := by
  simp only [exec, execRecordComplete, State.when, hc, decide_true, if_true, recordComplete, hfin, if_pos hdone]

/-- An event for a queue that has room for it is held there. -/
theorem event_held {s : State} {q ty src tick : Nat} {body : List Byte} (hen : s.flag stkCtrl_En = true)
    (hroom : (s.cq q).held.length < 256) : ((s.event q ty src tick body).cq q).held =
      (s.cq q).held ++ [⟨ty, 0x200, 0, src, tick, 0, body, false, none, 0⟩] := by
  have hhand (e : Entry) : s.hand q e = s.setCq q { s.cq q with held := (s.cq q).held ++ [e] } := if_neg (by omega)
  rw [State.event, if_pos hen, hhand]
  exact congrArg Cq.held (mget_mput_same _ _ _ _)

/-- The event of a finished record, in the queue of its pool. -/
theorem recordDone_held {s : State} {c : Nat} (d : DoneRec) (hen : s.flag stkCtrl_En = true)
    (hroom : (s.cq (s.getF (trgPoolCtrl_Cq c))).held.length < 256) :
    ∃ e, ((s.recordDone c d).cq (s.getF (trgPoolCtrl_Cq c))).held = (s.cq (s.getF (trgPoolCtrl_Cq c))).held ++ [e] ∧
      e.ty = 0x11 ∧ e.tick = d.capt.tag.tick := by
  let t := s.hbmWrite 0 0x1FF (64 * s.getF (trgPoolTblBase_Addr c) + 64 * (d.capt.record % s.getF (trgPoolTblSize_Entries c)))
    (s.recBytes c d) false
  have hm : MemOp s t := (MemOp.refl s).hbmWrite_acq
  have hcq (q : Nat) : t.cq q = s.cq q := by rw [State.cq, hm.stk, State.cq]
  have hen' : t.flag stkCtrl_En = true := by rw [State.flag, hm.getF (by decide) (by decide), ← State.flag, hen]
  have hroom' : (t.cq (s.getF (trgPoolCtrl_Cq c))).held.length < 256 := by rwa [hcq]
  exact ⟨_, (event_held hen' hroom').trans (by rw [hcq]), rfl, rfl⟩

/-- Settles O39, part by part. -/
theorem poolsStartStopAndRelease : Obligations.PoolsStartStopAndRelease := by
  refine ⟨fun s c v hc => ?_, fun s c v hc => ?_, fun s c b hc hb ht hstop => ?_, fun s c b hc hb ht => ?_,
    fun s c hc hs hroom => ?_, fun s c d ds hc hfin hdone hen hroom => ?_⟩
  · refine ⟨_, exec_poolReleaseWrite hc v s, fun hlo hhi hcap => ?_, fun h => ?_⟩
    · rw [poolReleaseWrite_stored hlo hhi hcap]
      refine ⟨?_, fun k hk => ?_, ?_, ((frame_setF s _ _).trans (frame_setPool _ _ _)).mono (by decide)⟩
      · rw [getF_setPool, getF_setF_same _ _ _ (by simp [trgPoolRelease_Record])]
        exact Nat.mod_eq_of_lt v.isLt
      · rw [pool_setPool] at hk
        exact of_decide_eq_true (List.mem_filter.mp hk).2
      · rw [pool_setPool]
    · rw [poolReleaseWrite_refused hc h]
      exact ⟨getF_raise_same s _ (by decide), wordsKept_raise s trgStatus_WrRefused (by decide), frame_raise s _⟩
  · constructor
    · intro hv hoff hring
      refine ⟨_, exec_poolCtrlWrite hc v s, ?_⟩
      rw [poolCtrlWrite_start hv hoff hring]
      refine ⟨?_, ?_, ?_, ?_, ?_⟩
      · rw [getF_setPool, getF_setF_same _ _ _ (by simp [trgPoolCtrl_En])]
        rfl
      · rw [getF_setPool, getF_setEn _ _ _ rfl (by simp [trgPoolCtrl_TuMask]), getF_tuMask_ctrlStored]
      · rw [getF_setPool, getF_setEn _ _ _ rfl (by simp [trgPoolCtrl_Deadband]), getF_deadband_ctrlStored]
      · rw [pool_setPool]
      · exact ((frame_ctrlStored s c _).trans ((frame_setF _ _ _).trans (frame_setPool _ _ _))).mono (by decide)
    · intro hv hon hp
      refine ⟨_, exec_poolCtrlWrite hc v s, ?_⟩
      rw [poolCtrlWrite_stop hv hon hp]
      refine ⟨?_, ?_, ?_, ?_⟩
      · rw [getF_setPool, getF_setF_same _ _ _ (by simp [trgPoolCtrl_En])]
        rfl
      · rw [pool_setPool]
      · rw [getF_setPool, getF_setEn _ _ _ rfl (by simp [trgPoolCtrl_TuMask]),
          (wordsKept_ctrlRefused s hc _).getF (by simp [trgPoolCtrl_TuMask]) ?_]
        simp [trgPoolCtrl_TuMask, trgPoolCtrl, trgStatus]
        omega
      · exact ((frame_ctrlRefused s c _).trans ((frame_setF _ _ _).trans (frame_setPool _ _ _))).mono (by decide)
  · refine ⟨_, exec_poolStart_due hc hb ht hstop, ?_⟩
    have hnr : (trgPoolNext_Record c).off = (trgPoolRelease_Record c).off + 8 := by
      simp only [trgPoolNext_Record, trgPoolNext, trgPoolRelease_Record, trgPoolRelease]
      omega
    have hpool : ((((s.setPool c (Pool.started (s.ringSize c))).setF (trgPoolNext_Record c) 0).setF
        (trgPoolRelease_Record c) 0)).pool c = Pool.started (s.ringSize c) := by
      rw [pool_congr (s := s.setPool c (Pool.started (s.ringSize c))) (by simp), pool_setPool]
    rw [hpool]
    refine ⟨rfl, (started_wbuf _).1, (started_wbuf _).2, ?_, ?_, ?_⟩
    · rw [getF_setF_ne_wide _ _ _ _ (by omega) (by omega) (by omega), getF_setF_same _ _ _ (by simp [trgPoolNext_Record])]
      rfl
    · rw [getF_setF_same _ _ _ (by simp [trgPoolRelease_Record])]
      rfl
    · exact ((frame_setPool s c _).trans ((frame_setF _ _ _).trans (frame_setF _ _ _))).mono (by decide)
  · obtain ⟨hpool, hhearth⟩ := poolStop_due hb ht
    refine ⟨_, exec_poolStop hc s, ?_⟩
    rw [hpool]
    exact ⟨rfl, rfl, rfl, rfl, capt_endRec _ _ _, hhearth⟩
  · exact ⟨_, exec_acqWriteResume hc hs hroom, pool_setPool _ _ _, frame_setPool _ _ _⟩
  · obtain ⟨e, hheld, hty, htick⟩ := recordDone_held (s := s.setPool c { s.pool c with finished := ds }) d hen hroom
    refine ⟨_, e, exec_recordComplete hc hfin hdone, ?_, hheld, hty, htick⟩
    rw [pool_congr (recordDone_keeps _ c d).1, pool_setPool]

end Sys2Proof.Machine
end

section
/-!
# The sector code (R376)

Every nonzero byte is a power of the generator, and a product of powers is the power of the sum. So the four syndromes of an
error in one symbol are powers whose exponents rise by the position of the symbol, and no other symbol fits them.
-/

set_option autoImplicit false

namespace Sys2Proof.Machine

/-! ## Products in GF(2^8) -/

/-- Multiplication by x is a shift and, where bit 7 falls out, an addition of the polynomial. -/
theorem gfX_eq_xor : ∀ a < 256, gfX a = 2 * a ^^^ (if a.testBit 7 then 0x11D else 0) := by decide +kernel

theorem gfX_lt : ∀ a < 256, gfX a < 256 := by decide +kernel

theorem gfX_eq_zero : ∀ a < 256, gfX a = 0 → a = 0 := by decide +kernel

theorem one_gfMul : ∀ b < 256, gfMul 1 b = b := by decide +kernel

theorem xor_byte_lt {a b : Nat} (ha : a < 256) (hb : b < 256) : a ^^^ b < 256 := Nat.xor_lt_two_pow (n := 8) ha hb

theorem gfX_xor {a b : Nat} (ha : a < 256) (hb : b < 256) : gfX (a ^^^ b) = gfX a ^^^ gfX b := by
  have hdouble : 2 * (a ^^^ b) = 2 * a ^^^ 2 * b := by
    simpa [Nat.shiftLeft_eq, Nat.mul_comm] using Nat.shiftLeft_xor_distrib (a := a) (b := b) (i := 1)
  rw [gfX_eq_xor _ (xor_byte_lt ha hb), gfX_eq_xor a ha, gfX_eq_xor b hb, Nat.testBit_xor, hdouble]
  cases a.testBit 7 <;> cases b.testBit 7 <;> simp [Nat.xor_assoc, Nat.xor_comm, Nat.xor_left_comm]

theorem gfX_inj {a b : Nat} (ha : a < 256) (hb : b < 256) (h : gfX a = gfX b) : a = b := by
  have hz : gfX (a ^^^ b) = 0 := by rw [gfX_xor ha hb, h, Nat.xor_self]
  exact Nat.xor_eq_zero_iff.mp (gfX_eq_zero _ (xor_byte_lt ha hb) hz)

theorem gfMulBits_lt {a : Nat} (n b : Nat) (ha : a < 256) : gfMulBits n a b < 256 := by
  induction n generalizing a b with
  | zero => exact Nat.zero_lt_succ _
  | succ n ih =>
    refine xor_byte_lt ?_ (ih _ (gfX_lt a ha))
    split <;> omega

theorem gfMulBits_gfX {a : Nat} (n b : Nat) (ha : a < 256) : gfMulBits n (gfX a) b = gfX (gfMulBits n a b) := by
  induction n generalizing a b with
  | zero => rfl
  | succ n ih =>
    have hbit : (if b % 2 = 1 then a else 0) < 256 := by split <;> omega
    rw [gfMulBits, gfMulBits, gfX_xor hbit (gfMulBits_lt n _ (gfX_lt a ha)), ih _ (gfX_lt a ha)]
    split <;> rfl

theorem gfMulBits_zero (n b : Nat) : gfMulBits n 0 b = 0 := by
  induction n generalizing b with
  | zero => rfl
  | succ n ih => simp [gfMulBits, show gfX 0 = 0 from rfl, ih]

@[simp] theorem zero_gfMul (b : Nat) : gfMul 0 b = 0 := gfMulBits_zero 8 b

theorem gfPow_lt (k : Nat) : gfPow k < 256 := by
  induction k with
  | zero => decide
  | succ k ih => exact gfX_lt _ ih

theorem gfPow_mul (j k : Nat) : gfMul (gfPow j) (gfPow k) = gfPow (j + k) := by
  induction j with
  | zero => rw [Nat.zero_add]; exact one_gfMul _ (gfPow_lt k)
  | succ j ih =>
    have hstep : gfMul (gfPow (j + 1)) (gfPow k) = gfX (gfMul (gfPow j) (gfPow k)) := gfMulBits_gfX 8 _ (gfPow_lt j)
    rw [hstep, ih, Nat.succ_add]
    rfl

theorem gfPow_add_inj {j p q : Nat} (h : gfPow (j + p) = gfPow (j + q)) : gfPow p = gfPow q := by
  induction j with
  | zero => simpa using h
  | succ j ih =>
    rw [Nat.succ_add, Nat.succ_add] at h
    exact ih (gfX_inj (gfPow_lt _) (gfPow_lt _) h)

theorem gfPow_eq_iterate (k : Nat) : gfPow k = gfX^[k] 1 := by
  induction k with
  | zero => rfl
  | succ k ih => rw [Function.iterate_succ_apply', ← ih, gfPow]

/-- The generator runs through every nonzero byte. -/
theorem mem_iterate_gfX : ∀ e < 256, e ≠ 0 → e ∈ List.iterate gfX 1 255 := by decide +kernel

theorem exists_gfPow {e : Nat} (he : e < 256) (h0 : e ≠ 0) : ∃ j, gfPow j = e := by
  obtain ⟨j, -, rfl⟩ := List.mem_iterate.mp (mem_iterate_gfX e he h0)
  exact ⟨j, gfPow_eq_iterate j⟩

theorem gfPow_symPos_inj : ∀ i < 36, ∀ j < 36, gfPow (symPos i) = gfPow (symPos j) → i = j := by decide +kernel

/-! ## One symbol in error -/

/-- The error pattern of a sector whose one symbol i is off by e. -/
def symbolErr (i e : Nat) : List Nat := List.replicate i 0 ++ e :: List.replicate (35 - i) 0

theorem foldl_xor_zeros {xs : List Nat} (h : ∀ x ∈ xs, x = 0) (a : Nat) : xs.foldl (· ^^^ ·) a = a := by
  induction xs generalizing a with
  | nil => rfl
  | cons x xs ih =>
    obtain ⟨rfl, hxs⟩ := List.forall_mem_cons.mp h
    rw [List.foldl_cons, Nat.xor_zero, ih hxs]

theorem syndrome_symbolErr (k i e : Nat) : syndrome k (symbolErr i e) = gfMul e (gfPow (k * symPos i)) := by
  have hzero (n m : Nat) : ∀ x ∈ ((List.replicate n 0).zipIdx m).map fun e => gfMul e.1 (gfPow (k * symPos e.2)), x = 0 := by
    intro x hx
    obtain ⟨⟨y, l⟩, hy, rfl⟩ := List.mem_map.mp hx
    have hy0 : y = 0 := List.eq_of_mem_replicate (List.fst_mem_of_mem_zipIdx hy)
    simp [hy0]
  simp only [syndrome, symbolErr, List.zipIdx_append, List.map_append, List.foldl_append, foldl_xor_zeros (hzero _ _),
    List.zipIdx_cons, List.map_cons, List.foldl_cons, List.length_replicate, Nat.zero_xor, Nat.zero_add]

/-- Any one symbol in error is found. -/
theorem rsDecode_symbolErr {i e : Nat} (hi : i < 36) (he : e < 256) (h0 : e ≠ 0) :
    rsDecode (symbolErr i e) = .corrected i e := by
  obtain ⟨j, rfl⟩ := exists_gfPow he h0
  have hs (k : Nat) : syndrome k (symbolErr i (gfPow j)) = gfPow (j + k * symPos i) := by
    rw [syndrome_symbolErr, gfPow_mul]
  have hmul (k n : Nat) : gfMul (syndrome k (symbolErr i (gfPow j))) (gfPow (symPos n)) =
      syndrome (k + 1) (symbolErr i (gfPow j)) ↔ gfPow (symPos n) = gfPow (symPos i) := by
    have hexp : j + (k + 1) * symPos i = j + k * symPos i + symPos i := by ring
    rw [hs, hs, gfPow_mul, hexp]
    exact ⟨gfPow_add_inj, fun h => by rw [← gfPow_mul, h, gfPow_mul]⟩
  have hs0 : syndrome 0 (symbolErr i (gfPow j)) = gfPow j := by rw [hs, Nat.zero_mul, Nat.add_zero]
  have hne : syndrome 0 (symbolErr i (gfPow j)) ≠ 0 := by rw [hs0]; exact h0
  have hfit (n : Nat) : (syndrome 0 (symbolErr i (gfPow j)) != 0 &&
      gfMul (syndrome 0 (symbolErr i (gfPow j))) (gfPow (symPos n)) == syndrome 1 (symbolErr i (gfPow j)) &&
      gfMul (syndrome 1 (symbolErr i (gfPow j))) (gfPow (symPos n)) == syndrome 2 (symbolErr i (gfPow j)) &&
      gfMul (syndrome 2 (symbolErr i (gfPow j))) (gfPow (symPos n)) == syndrome 3 (symbolErr i (gfPow j))) =
      decide (gfPow (symPos n) = gfPow (symPos i)) := by
    rw [Bool.eq_iff_iff]
    simp [hmul, hne]
  have hfirst : leastBelow 36 (fun n => decide (gfPow (symPos n) = gfPow (symPos i))) = some i := by
    refine List.find?_range_eq_some.mpr ⟨decide_eq_true rfl, List.mem_range.mpr hi, fun n hn => ?_⟩
    have hpos : gfPow (symPos n) ≠ gfPow (symPos i) := fun h =>
      absurd (gfPow_symPos_inj n (hn.trans hi) i hi h) (Nat.ne_of_lt hn)
    simp [hpos]
  simp only [rsDecode, hfit, hfirst, hne, false_and, if_false]
  rw [hs0]

theorem rsDecode_clean : rsDecode (List.replicate 36 0) = .clean := by decide

theorem rsDecode_poison : rsDecode (List.replicate 32 0 ++ [0xFF, 0xFF, 0, 0]) = .uncorrectable := by decide +kernel

end Sys2Proof.Machine
end

section
/-!
# Bytes of a sector

Numbers as bytes, bytes XORed with an error pattern, and the reads of a store after a write of consecutive keys.
-/

set_option autoImplicit false

namespace Sys2Proof.Machine

/-! ## Numbers as bytes (R10) -/

@[simp] theorem length_leBytes (n v : Nat) : (leBytes n v).length = n := by
  induction n generalizing v with
  | zero => rfl
  | succ n ih => simp [leBytes, ih]

theorem leBytes_zero (n : Nat) : leBytes n 0 = List.replicate n 0 := by
  induction n with
  | zero => rfl
  | succ n ih => rw [leBytes, Nat.zero_div, ih]; rfl

theorem leBytes_ofLe (bs : List Byte) : leBytes bs.length (ofLe bs) = bs := by
  induction bs with
  | nil => rfl
  | cons b bs ih =>
    have hb := b.isLt
    have hdiv : (b.toNat + 256 * ofLe bs) / 256 = ofLe bs := by omega
    have hmod : BitVec.ofNat 8 (b.toNat + 256 * ofLe bs) = b := by
      apply BitVec.eq_of_toNat_eq
      rw [BitVec.toNat_ofNat]
      omega
    rw [List.length_cons, leBytes, ofLe, hdiv, hmod, ih]

theorem ofLe_lt (bs : List Byte) : ofLe bs < 2 ^ (8 * bs.length) := by
  induction bs with
  | nil => decide
  | cons b bs ih =>
    have hb := b.isLt
    have hpow : 2 ^ (8 * (b :: bs).length) = 256 * 2 ^ (8 * bs.length) := by
      rw [List.length_cons, Nat.mul_add, Nat.pow_add, Nat.mul_comm]
    rw [ofLe, hpow]
    omega

/-- A byte at place i of a number, among zeros. -/
theorem leBytes_shift (i m : Nat) (e : Byte) :
    leBytes (i + (m + 1)) (e.toNat * 2 ^ (8 * i)) = List.replicate i 0 ++ e :: List.replicate m 0 := by
  induction i with
  | zero =>
    have hdiv : e.toNat / 256 = 0 := Nat.div_eq_of_lt e.isLt
    simp [leBytes, hdiv, leBytes_zero]
  | succ i ih =>
    have hv : e.toNat * 2 ^ (8 * (i + 1)) = 256 * (e.toNat * 2 ^ (8 * i)) := by
      rw [Nat.mul_add, Nat.pow_add]; ring
    have hlow : BitVec.ofNat 8 (256 * (e.toNat * 2 ^ (8 * i))) = 0 := by
      apply BitVec.eq_of_toNat_eq
      rw [BitVec.toNat_ofNat]
      exact Nat.mul_mod_right _ _
    rw [Nat.succ_add, leBytes, hv, hlow, Nat.mul_div_cancel_left _ (by decide), ih]
    rfl

/-! ## Bytes in error -/

theorem xorBytes_zeros (bs tail : List Byte) {n : Nat} (h : bs.length ≤ n) :
    xorBytes bs (List.replicate n 0 ++ tail) = bs := by
  induction bs generalizing n with
  | nil => rfl
  | cons b bs ih =>
    obtain ⟨n, rfl⟩ : ∃ k, n = k + 1 := ⟨n - 1, by simp at h; omega⟩
    simpa [xorBytes, List.replicate_succ] using ih (by simpa using h)

theorem zeros_xorBytes (bs : List Byte) {n : Nat} (h : bs.length = n) : xorBytes (List.replicate n 0) bs = bs := by
  subst h
  induction bs with
  | nil => rfl
  | cons b bs ih => simpa [xorBytes, List.replicate_succ] using ih

theorem xorBytes_take (bs eb : List Byte) {n : Nat} (h : bs.length = n) : xorBytes bs (eb.take n) = xorBytes bs eb := by
  subst h
  induction bs generalizing eb with
  | nil => rfl
  | cons b bs ih => cases eb with
    | nil => rfl
    | cons e eb => simpa [xorBytes] using ih eb

/-- XORing the error once more into the byte that has it restores the bytes. -/
theorem listSet_xorBytes (bs : List Byte) (e : Byte) {i m : Nat} (hi : i < bs.length) (hm : bs.length ≤ i + 1 + m) :
    let seen := xorBytes bs (List.replicate i 0 ++ e :: List.replicate m 0)
    listSet seen i (listGet 0 seen i ^^^ e) = bs := by
  induction bs generalizing i with
  | nil => exact absurd hi (Nat.not_lt_zero _)
  | cons b bs ih =>
    rw [List.length_cons] at hi hm
    cases i with
    | zero =>
      have htail : List.zipWith (· ^^^ ·) bs (List.replicate m 0) = bs := by
        simpa [xorBytes] using xorBytes_zeros bs [] (n := m) (by omega)
      simpa [xorBytes, listSet, listGet] using htail
    | succ i =>
      simpa [xorBytes, List.replicate_succ, listSet, listGet] using ih (i := i) (by omega) (by omega)

/-! ## Merging -/

theorem length_mergeBytes (old new : List Byte) (mask : BitVec 32) (h : new.length = old.length) :
    (mergeBytes old new mask).length = old.length := by
  simp [mergeBytes, h]

theorem listGet_eq_getD {α : Type} (d : α) (xs : List α) (i : Nat) : listGet d xs i = xs.getD i d := by
  induction xs generalizing i with
  | nil => rfl
  | cons x xs ih => cases i with
    | zero => rfl
    | succ i => exact ih i

theorem listGet_mergeBytes (old new : List Byte) (mask : BitVec 32) (h : new.length = old.length) {i : Nat}
    (hbit : mask.toNat.testBit i = true) (hi : i < new.length): listGet 0 (mergeBytes old new mask) i = listGet 0 new i := by
  have hi' : i < old.length := h ▸ hi
  simp [listGet_eq_getD, mergeBytes, List.getD_eq_getElem?_getD, hbit, hi, hi']

/-! ## Consecutive keys of a store -/

section
variable {α : Type} (d : Nat → α)

@[simp] theorem length_mgetRange (m : SMap α) (k n : Nat) : (mgetRange d m k n).length = n := by
  induction n generalizing k with
  | zero => rfl
  | succ n ih => simp [mgetRange, ih]

theorem mgetRange_congr {m m' : SMap α} {k n : Nat} (h : ∀ a, k ≤ a → a < k + n → mget d m' a = mget d m a) :
    mgetRange d m' k n = mgetRange d m k n := by
  induction n generalizing k with
  | zero => rfl
  | succ n ih =>
    rw [mgetRange, mgetRange, h k (Nat.le_refl k) (by omega), ih fun a hlo hhi => h a (by omega) (by omega)]

variable [DecidableEq α]

theorem mgetRange_mputRange_same (m : SMap α) (k : Nat) (vs : List α) :
    mgetRange d (mputRange d m k vs) k vs.length = vs := by
  induction vs generalizing m k with
  | nil => rfl
  | cons v vs ih =>
    rw [mputRange, List.length_cons, mgetRange, ih, mget_mputRange_out _ _ _ _ _ (.inl (Nat.lt_succ_self k)),
      mget_mput_same]

theorem mgetRange_mputRange_out (m : SMap α) (k : Nat) (vs : List α) {k' n : Nat}
    (h : k' + n ≤ k ∨ k + vs.length ≤ k') : mgetRange d (mputRange d m k vs) k' n = mgetRange d m k' n :=
  mgetRange_congr d fun a hlo hhi => mget_mputRange_out _ _ _ _ _ (by omega)

end

end Sys2Proof.Machine
end

section
/-!
# Sectors and the arbiter (R373 to R388)

What decoding finds in a sector with fresh check bits, with poison and with one symbol in error; what a stored sector holds;
and what a request comes to where nothing goes before it.
-/

set_option autoImplicit false

namespace Sys2Proof.Machine

/-! ## What an access speaks of -/

section
variable {s t : State}

theorem secBytes_congr (h : t.mem.hbm = s.mem.hbm) (sec : Nat) : t.secBytes sec = s.secBytes sec := by
  rw [State.secBytes, h, State.secBytes]

theorem secDiff_congr (h : t.mem.check = s.mem.check) (sec : Nat) : t.secDiff sec = s.secDiff sec := by
  rw [State.secDiff, h, State.secDiff]

theorem held_congr (h : t.mem.merge = s.mem.merge) (sec : Nat) : t.held sec = s.held sec := by
  rw [State.held, h, State.held]

end

variable (s : State) (sec : Nat)

@[simp] theorem length_secBytes : (s.secBytes sec).length = 32 := length_mgetRange _ _ _ _

/-- A counter of a stack, or of all, does not tell whether a sector works. -/
theorem secBad_bump {f : Fld} (k : Nat) (hw : f.lsb + f.width ≤ 32) (hstack : f.off ≠ memStackStatus (stackOf sec))
    (hpll : f.off ≠ pwrPllStatus) : (s.bump f k).secBad sec = s.secBad sec := by
  have hf : (s.bump f k).getF (memStackStatus_Failed (stackOf sec)) = s.getF (memStackStatus_Failed (stackOf sec)) :=
    getF_bump_ne s f _ k hw (by simp [memStackStatus_Failed]) hstack.symm
  have hp : (s.bump f k).getF pwrPllStatus_Hbm = s.getF pwrPllStatus_Hbm := getF_bump_ne s f _ k hw (by decide) hpll.symm
  simp [State.secBad, State.stackBad, State.stackDead, State.flag, hf, hp]

/-! ## Decoding (R376 to R378) -/

/-- The bytes of a read that meets no error bit. -/
theorem leBytes_noError (w : Nat) : leBytes 36 (0 : BitVec w).toNat = List.replicate 32 0 ++ List.replicate 4 0 := by
  rw [← List.replicate_add, ← leBytes_zero]
  simp

/-- The bytes that the error e in symbol i alone flips. -/
def symbolBytes (i : Nat) (e : Byte) : List Byte := List.replicate i 0 ++ e :: List.replicate (35 - i) 0

theorem symbol_lt (e : Byte) {i n : Nat} (h : 8 + 8 * i ≤ n) : e.toNat * 2 ^ (8 * i) < 2 ^ n :=
  calc e.toNat * 2 ^ (8 * i) < 2 ^ 8 * 2 ^ (8 * i) := Nat.mul_lt_mul_of_pos_right e.isLt (by positivity)
    _ = 2 ^ (8 + 8 * i) := (Nat.pow_add ..).symm
    _ ≤ 2 ^ n := Nat.pow_le_pow_right (by decide) h

theorem leBytes_symbolError {i w : Nat} (hi : i < 36) (hw : 288 ≤ w) (e : Byte) :
    leBytes 36 (BitVec.ofNat w (e.toNat * 2 ^ (8 * i))).toNat = symbolBytes i e := by
  have hlen : i + (35 - i + 1) = 36 := by omega
  rw [BitVec.toNat_ofNat, Nat.mod_eq_of_lt (symbol_lt e (by omega)), symbolBytes, ← leBytes_shift, hlen]

theorem length_symbolBytes {i : Nat} (hi : i < 36) (e : Byte) : (symbolBytes i e).length = 36 := by
  simp [symbolBytes]
  omega

section
variable {s sec} {err : BitVec 288}

theorem seen_noError : xorBytes (s.secBytes sec) (List.replicate 32 0) = s.secBytes sec := by
  simpa using xorBytes_zeros (s.secBytes sec) [] (n := 32) (by simp)

theorem zero_xor_faults (hf : mget (fun _ => 0) s.mem.faults sec = 0) :
    (0 : BitVec 288) ^^^ mget (fun _ => 0) s.mem.faults sec = 0 := by
  rw [hf]
  exact BitVec.xor_zero

theorem secDecode_fresh (hd : s.secDiff sec = [0, 0, 0, 0]) (hf : mget (fun _ => 0) s.mem.faults sec = 0) :
    s.secDecode sec 0 = (s.secBytes sec, .clean) := by
  have hes : (List.replicate 32 0 ++ xorBytes [0, 0, 0, 0] (List.replicate 4 0)).map BitVec.toNat = List.replicate 36 0 := by
    decide
  simp only [State.secDecode, zero_xor_faults hf, hd, leBytes_noError, List.take_left' List.length_replicate,
    List.drop_left' List.length_replicate, hes, rsDecode_clean, seen_noError]

theorem secDecode_poison (hd : s.secDiff sec = poisonDiff) (hf : mget (fun _ => 0) s.mem.faults sec = 0) :
    s.secDecode sec 0 = (s.secBytes sec, .uncorrectable) := by
  have hes : (List.replicate 32 0 ++ xorBytes poisonDiff (List.replicate 4 0)).map BitVec.toNat =
      List.replicate 32 0 ++ [0xFF, 0xFF, 0, 0] := by decide
  simp only [State.secDecode, zero_xor_faults hf, hd, leBytes_noError, List.take_left' List.length_replicate,
    List.drop_left' List.length_replicate, hes, rsDecode_poison, seen_noError]

/-- Any one symbol in error, of the data or of the check bits, is corrected. -/
theorem secDecode_symbol {i : Nat} {e : Byte} (hi : i < 36) (he : e ≠ 0) (hd : s.secDiff sec = [0, 0, 0, 0])
    (hx : err ^^^ mget (fun _ => 0) s.mem.faults sec = BitVec.ofNat 288 (e.toNat * 2 ^ (8 * i))) :
    s.secDecode sec err = (s.secBytes sec, .corrected i e.toNat) := by
  have hne : e.toNat ≠ 0 := fun h => he (BitVec.eq_of_toNat_eq h)
  have hcheck : (symbolBytes i e).take 32 ++ xorBytes [0, 0, 0, 0] ((symbolBytes i e).drop 32) = symbolBytes i e := by
    have hlen : ((symbolBytes i e).drop 32).length = 4 := by rw [List.length_drop, length_symbolBytes hi]
    exact (congrArg _ (zeros_xorBytes _ hlen)).trans (List.take_append_drop _ _)
  have hes : (symbolBytes i e).map BitVec.toNat = symbolErr i e.toNat := by simp [symbolBytes, symbolErr]
  have hseen : xorBytes (s.secBytes sec) ((symbolBytes i e).take 32) = xorBytes (s.secBytes sec) (symbolBytes i e) :=
    xorBytes_take _ _ (length_secBytes s sec)
  have hbyte : BitVec.ofNat 8 e.toNat = e := by simp
  simp only [State.secDecode, hx, hd, leBytes_symbolError hi (Nat.le_refl 288), hcheck, hes,
    rsDecode_symbolErr hi e.isLt hne, hseen, hbyte]
  split
  next h => rw [symbolBytes, listSet_xorBytes _ _ (by simpa) (by simp; omega)]
  next h => rw [symbolBytes, xorBytes_zeros _ _ (by simp; omega)]

end

/-! ## Storing (R379, R384) -/

/-- A sector with bytes and a check difference stored over it. -/
def State.stored (bs diff : List Byte) : State :=
  { s with mem := { s.mem with
      hbm := mputRange (fun _ => 0) s.mem.hbm (32 * sec) bs
      check := mputRange (fun _ => 0) s.mem.check (4 * sec) diff } }

section
variable {s sec} {bs : List Byte} {poison : Bool}

/-- A write that meets no injection. -/
theorem storeSector_eq (hinj : s.flag memInj_Armed = false) : s.storeSector sec bs poison =
    if poison then (s.stored sec bs poisonDiff).bump (memStackPoisonWrF (stackOf sec)) 1
    else s.stored sec bs [0, 0, 0, 0] := by
  simp only [State.storeSector, hinj, Bool.false_and, Bool.false_eq_true, if_false]
  cases poison <;> rfl

theorem secBytes_stored {diff : List Byte} (hl : bs.length = 32) : (s.stored sec bs diff).secBytes sec = bs := by
  have h := mgetRange_mputRange_same (fun _ => (0 : Byte)) s.mem.hbm (32 * sec) bs
  rwa [hl] at h

theorem secDiff_stored {diff : List Byte} (hl : diff.length = 4) : (s.stored sec bs diff).secDiff sec = diff := by
  have h := mgetRange_mputRange_same (fun _ => (0 : Byte)) s.mem.check (4 * sec) diff
  rwa [hl] at h

theorem secBytes_stored_ne {diff : List Byte} {x : Nat} (hl : bs.length = 32) (hx : x ≠ sec) :
    (s.stored sec bs diff).secBytes x = s.secBytes x :=
  mgetRange_mputRange_out _ _ _ _ (by omega)

theorem secDiff_stored_ne {diff : List Byte} {x : Nat} (hl : diff.length = 4) (hx : x ≠ sec) :
    (s.stored sec bs diff).secDiff x = s.secDiff x :=
  mgetRange_mputRange_out _ _ _ _ (by omega)

/-- A write that meets no injection stores its bytes with fresh check bits or with poison, and no other sector's. -/
theorem storeSector_same (hinj : s.flag memInj_Armed = false) (hl : bs.length = 32) :
    (s.storeSector sec bs poison).secBytes sec = bs ∧
      (s.storeSector sec bs poison).secDiff sec = (if poison then poisonDiff else [0, 0, 0, 0]) ∧
      ∀ x, x ≠ sec → (s.storeSector sec bs poison).secBytes x = s.secBytes x ∧
        (s.storeSector sec bs poison).secDiff x = s.secDiff x := by
  rw [storeSector_eq hinj]
  cases poison with
  | false =>
    exact ⟨secBytes_stored hl, secDiff_stored rfl, fun x hx => ⟨secBytes_stored_ne hl hx, secDiff_stored_ne rfl hx⟩⟩
  | true =>
    have hmem : ((s.stored sec bs poisonDiff).bump (memStackPoisonWrF (stackOf sec)) 1).mem =
        (s.stored sec bs poisonDiff).mem := mem_bump _ _ _
    have hbytes (x : Nat) := secBytes_congr (congrArg Mem.hbm hmem) x
    have hdiff (x : Nat) := secDiff_congr (congrArg Mem.check hmem) x
    refine ⟨(hbytes sec).trans (secBytes_stored hl), (hdiff sec).trans (secDiff_stored rfl), fun x hx => ?_⟩
    exact ⟨(hbytes x).trans (secBytes_stored_ne hl hx), (hdiff x).trans (secDiff_stored_ne rfl hx)⟩

theorem merge_storeSector (hinj : s.flag memInj_Armed = false) : (s.storeSector sec bs poison).mem.merge = s.mem.merge := by
  rw [storeSector_eq hinj]
  cases poison with
  | false => rfl
  | true =>
    have hmem := congrArg Mem.merge (mem_bump (s.stored sec bs poisonDiff) (memStackPoisonWrF (stackOf sec)) 1)
    exact hmem

/-- Of the counters, a write that meets no injection changes at most the number of poisoned writes. -/
theorem getF_storeSector (hinj : s.flag memInj_Armed = false) {f : Fld} (hw : f.lsb + f.width ≤ 32)
    (ho : f.off ≠ memStackPoisonWr (stackOf sec)) : (s.storeSector sec bs poison).getF f = s.getF f := by
  rw [storeSector_eq hinj]
  cases poison with
  | false => rfl
  | true => exact getF_bump_ne (s.stored sec bs poisonDiff) _ _ _ (by simp [memStackPoisonWrF]) hw ho

end

@[simp] theorem held_dropHeld : (s.dropHeld sec).held sec = none := by
  simp [State.held, State.dropHeld]

theorem held_addHeld {e : MergeEnt} (h : s.held e.sector = none) : (s.addHeld e).held e.sector = some e := by
  have hnone : s.mem.merge.find? (fun x => x.sector == e.sector) = none := h
  simp [State.held, State.addHeld, List.find?_append, hnone]

/-- A buffer with fewer than 64 entries has none to evict. -/
theorem evictee_none {pc : Nat} (h : (s.mem.merge.filter fun e => pcOf e.sector == pc).length < 64) : s.evictee pc = none := by
  unfold State.evictee
  split
  next e es heq =>
    rw [heq, List.length_cons] at h
    exact if_neg (by omega)
  next => rfl

/-! ## The arbiter (R373, R374) -/

/-- Two states differ at most in what the arbiter of HBM remembers. -/
def ArbOnly (s t : State) : Prop :=
  ∃ slots arb turn, t = { s with mem := { s.mem with slots := slots, arb := arb, turn := turn } }

theorem arbOnly_arbMove (pc master : Nat) : ArbOnly s (s.arbMove pc master) := by
  unfold State.arbMove
  split
  · exact ⟨_, _, _, rfl⟩
  · exact ⟨_, _, _, rfl⟩

variable {s}

theorem frame_mem (s : State) (mem : Mem) : Frame [.mem] s { s with mem } := by
  intro c hc
  cases c <;> simp_all [Comp.same]

namespace ArbOnly

variable {g : State} (h : ArbOnly s g)
include h

theorem frame : Frame [.mem] s g := by
  obtain ⟨slots, arb, turn, rfl⟩ := h
  exact frame_mem _ _

theorem hbm : g.mem.hbm = s.mem.hbm := by obtain ⟨_, _, _, rfl⟩ := h; rfl

theorem check : g.mem.check = s.mem.check := by obtain ⟨_, _, _, rfl⟩ := h; rfl

theorem merge : g.mem.merge = s.mem.merge := by obtain ⟨_, _, _, rfl⟩ := h; rfl

theorem faults : g.mem.faults = s.mem.faults := by obtain ⟨_, _, _, rfl⟩ := h; rfl

theorem getF (f : Fld) : g.getF f = s.getF f := by obtain ⟨_, _, _, rfl⟩ := h; rfl

theorem flag (f : Fld) : g.flag f = s.flag f := by obtain ⟨_, _, _, rfl⟩ := h; rfl

theorem secBad (sec : Nat) : g.secBad sec = s.secBad sec := by obtain ⟨_, _, _, rfl⟩ := h; rfl

theorem held (sec : Nat) : g.held sec = s.held sec := by obtain ⟨_, _, _, rfl⟩ := h; rfl

theorem secBytes (sec : Nat) : g.secBytes sec = s.secBytes sec := by obtain ⟨_, _, _, rfl⟩ := h; rfl

theorem secDiff (sec : Nat) : g.secDiff sec = s.secDiff sec := by obtain ⟨_, _, _, rfl⟩ := h; rfl

theorem secDecode (sec : Nat) (err : BitVec 288) : g.secDecode sec err = s.secDecode sec err := by
  obtain ⟨_, _, _, rfl⟩ := h
  rfl

end ArbOnly

/-- The pointer of class 1 comes round to every master. -/
theorem findSome_pointer (r : HbmReq) (x : Nat) (hlo : 3 ≤ r.master) (hhi : r.master ≤ 10) :
    ((List.range 8).findSome? fun i => if r.master = 3 + (x + i) % 8 then some r else none) = some r := by
  let i := (r.master + 5 - x % 8) % 8
  have hi : r.master = 3 + (x + i) % 8 := by omega
  cases hfind : (List.range 8).findSome? fun i => if r.master = 3 + (x + i) % 8 then some r else none with
  | none =>
    have h := List.findSome?_eq_none_iff.mp hfind i (List.mem_range.mpr (Nat.mod_lt _ (by decide)))
    simp [← hi] at h
  | some r' =>
    obtain ⟨j, -, hj⟩ := List.exists_of_findSome?_eq_some hfind
    split at hj
    · exact hj.symm
    · exact absurd hj (by simp)

/-- A request that waits alone is picked. -/
theorem arbPick_single {pc : Nat} {r : HbmReq} (hw : s.waitsAt pc = [r]) (hsync : s.syncing (14 + pc % 6) = false)
    (hm : r.master ≤ 10) : s.arbPick pc = some r := by
  unfold State.arbPick
  rw [hw, hsync]
  by_cases hclass : 3 ≤ r.master
  · have h0 : r.master ≠ 0 := by omega
    have h1 : r.master ≠ 1 := by omega
    have h2 : r.master ≠ 2 := by omega
    simp [findSome_pointer r _ hclass hm, h0, h1, h2]
  · have hcases : r.master = 0 ∨ r.master = 1 ∨ r.master = 2 := by omega
    rcases hcases with h | h | h
    all_goals simp [h]

end Sys2Proof.Machine
end

section
/-!
# Requests at a pseudo-channel (R28, R373, R377, R381)

A request that nothing goes before is served, and one that finds its slot taken waits; what a read then counts and delivers.
-/

set_option autoImplicit false

namespace Sys2Proof.Machine

/-! ## Requests (R28, R373) -/

/-- The access that a granted request makes; a read's bytes are delivered. -/
def State.access (s : State) (r : HbmReq) : State :=
  match r.put with
  | some (mask, data, poison) => s.putSector r.master 0x1FF (r.addr / 32) (leBytes 32 data.toNat) mask poison
  | none =>
    let q := s.getSector r.master 0x1FF (r.addr / 32) r.err
    { q.1 with mem := { q.1.mem with out := q.2.1, outPoison := q.2.2 } }

theorem hbmServe_eq (s : State) (r : HbmReq) : s.hbmServe r =
    (({ s with mem := { s.mem with waits := s.mem.waits.erase r } } : State).arbMove (pcOf (r.addr / 32)) r.master).access r :=
  rfl

section
variable {s : State} {r : HbmReq}

/-- The state with a request that waits. -/
def State.queued (s : State) (r : HbmReq) : State := { s with mem := { s.mem with waits := s.mem.waits ++ [r] } }

theorem hbmRequest_good (hb : s.secBad (r.addr / 32) = false) :
    s.hbmRequest r = (s.queued r).slotGrant (pcOf (r.addr / 32)) := by
  simp [State.hbmRequest, State.queued, hb]

theorem waitsAt_queued (hw : s.waitsAt (pcOf (r.addr / 32)) = []) : (s.queued r).waitsAt (pcOf (r.addr / 32)) = [r] := by
  have hold : s.mem.waits.filter (fun q => pcOf (q.addr / 32) == pcOf (r.addr / 32)) = [] := hw
  simp [State.waitsAt, State.queued, List.filter_append, hold]

/-- Once served, the request waits no more. -/
theorem erase_queued (hw : s.waitsAt (pcOf (r.addr / 32)) = []) : (s.mem.waits ++ [r]).erase r = s.mem.waits := by
  have hnot : r ∉ s.mem.waits := fun h => by
    have hmem : r ∈ s.waitsAt (pcOf (r.addr / 32)) := List.mem_filter.mpr ⟨h, by simp⟩
    simp [hw] at hmem
  simp [List.erase_append_right _ hnot]

/-- A request that nothing goes before is served. -/
theorem hbmRequest_idle (hb : s.secBad (r.addr / 32) = false) (hidle : s.hbmIdle (r.addr / 32) = true) (hm : r.master ≤ 10) :
    ∃ g, ArbOnly s g ∧ s.hbmRequest r = g.access r := by
  simp only [State.hbmIdle, Bool.and_eq_true, List.isEmpty_iff, bne_iff_ne, Option.isNone_iff_eq_none,
    Bool.not_eq_true'] at hidle
  obtain ⟨⟨⟨hw, hslot⟩, hacq⟩, hsync⟩ := hidle
  let pc := pcOf (r.addr / 32)
  have hpick : (s.queued r).arbPick pc = some r := arbPick_single (waitsAt_queued hw) hsync hm
  have hserve : (s.queued r).slotGrant pc = ((s.queued r).takeSlot pc).hbmServe r := by
    have hslot' : mget (fun _ => 0) (s.queued r).mem.slots pc ≠ (s.queued r).cyc + 1 := hslot
    have hacq' : (s.queued r).acqWaits pc = none := hacq
    simp [State.slotGrant, hpick, hslot', hacq']
  obtain ⟨slots, arb, turn, harb⟩ := arbOnly_arbMove (s.takeSlot pc) pc r.master
  refine ⟨(s.takeSlot pc).arbMove pc r.master, ⟨slots, arb, turn, harb⟩, ?_⟩
  rw [hbmRequest_good hb, hserve, hbmServe_eq]
  have hwaits : ((s.queued r).takeSlot pc).mem.waits.erase r = s.mem.waits := erase_queued hw
  rw [hwaits]
  rfl

/-- Where nothing is granted, the request waits. -/
theorem hbmRequest_waits (hb : s.secBad (r.addr / 32) = false)
    (h : mget (fun _ => 0) s.mem.slots (pcOf (r.addr / 32)) = s.cyc + 1 ∨
      s.syncing (14 + pcOf (r.addr / 32) % 6) = true) : s.hbmRequest r = s.queued r := by
  rw [hbmRequest_good hb]
  unfold State.slotGrant
  rcases h with h | h
  · have hslot : mget (fun _ => 0) (s.queued r).mem.slots (pcOf (r.addr / 32)) = (s.queued r).cyc + 1 := h
    split
    · rfl
    · rw [if_pos hslot]
  · have hsync : (s.queued r).syncing (14 + pcOf (r.addr / 32) % 6) = true := h
    have hnone : (s.queued r).arbPick (pcOf (r.addr / 32)) = none := by
      unfold State.arbPick
      rw [hsync]
      rfl
    rw [hnone]

end

/-! ## What reads count (R377, R381) -/

theorem mem_feCapture (s : State) (kind acc master site sec : Nat) : (s.feCapture kind acc master site sec).mem = s.mem := by
  unfold State.feCapture
  split
  · rfl
  · simp

/-- A captured error changes no counter. -/
theorem getF_feCapture (s : State) (kind acc master site sec : Nat) {f : Fld} (hw : f.lsb + f.width ≤ 32)
    (ho : memDecodeErr ≤ f.off) : (s.feCapture kind acc master site sec).getF f = s.getF f := by
  have hkept : WordsKept [memStatus, memFeAddr, memFeAddr + 4, memFeInfo, memFeFrc, memFeFrc + 4] s
      (s.feCapture kind acc master site sec) := by
    intro off hoff
    simp only [List.mem_cons, List.not_mem_nil, or_false, not_or] at hoff
    obtain ⟨hstatus, haddr, haddr', hinfo, hfrc, hfrc'⟩ := hoff
    unfold State.feCapture
    split
    · rfl
    · rw [word_setF_ne _ _ _ hfrc hfrc', word_setWord_ne _ _ hinfo, word_setF_ne _ _ _ haddr haddr',
        wordsKept_raise s memStatus_FeValid (by decide) off (by simpa [memStatus_FeValid] using hstatus)]
  refine hkept.getF hw fun h => ?_
  revert ho
  simp only [List.mem_cons, List.not_mem_nil, or_false] at h
  rcases h with h | h | h | h | h | h <;> rw [h] <;> decide

section
variable (s : State) (st : Nat)

/-- The ticks of a leak interval of a stack's bucket, and the intervals that have passed. -/
def State.leakStep : Nat := s.getF (memStackCfg_Leak st) * 1024
def State.leaksDue : Nat := (s.tick - mget (fun _ => 0) s.mem.leakFrom st) / s.leakStep st

theorem bucketLeak_none (h : s.leaksDue st = 0) : s.bucketLeak st = s := if_pos h

/-- The state whose leaks of a stack's bucket have been counted. -/
def State.leakCounted : State :=
  let due := mget (fun _ => 0) s.mem.leakFrom st + s.leakStep st * s.leaksDue st
  { s with mem := { s.mem with leakFrom := mput (fun _ => 0) s.mem.leakFrom st due } }

theorem bucketLeak_due (h : s.leaksDue st ≠ 0) : s.bucketLeak st =
    (s.leakCounted st).setF (memStackBucket_Level st) (s.getF (memStackBucket_Level st) - s.leaksDue st) := if_neg h

theorem wordsKept_bucketLeak : WordsKept [memStackBucket st] s (s.bucketLeak st) := by
  by_cases h : s.leaksDue st = 0
  · rw [bucketLeak_none s st h]
    exact .refl _ _
  · rw [bucketLeak_due s st h]
    exact wordsKept_setF _ (memStackBucket_Level st) _ (by simp [memStackBucket_Level])

theorem faults_bucketLeak : (s.bucketLeak st).mem.faults = s.mem.faults := by
  by_cases h : s.leaksDue st = 0
  · rw [bucketLeak_none s st h]
  · rw [bucketLeak_due s st h, mem_setF]
    rfl

/-- A corrected sector counts once in CE. -/
theorem getF_ce_corrected : (s.corrected st).getF (memStackCeF st) = satAdd 32 (s.getF (memStackCeF st)) 1 := by
  have hne : memStackCe st ≠ memStackBucket st ∧ memStackCe st ≠ memStackBucketOvf st := by
    simp only [memStackCe, memStackBucket, memStackBucketOvf]
    omega
  have hleak : (s.bucketLeak st).getF (memStackCeF st) = s.getF (memStackCeF st) :=
    (wordsKept_bucketLeak s st).getF (by simp [memStackCeF]) (by simpa [memStackCeF] using hne.1)
  have hce (t : State) (v : Nat) : (t.setF (memStackBucket_Level st) v).getF (memStackCeF st) = t.getF (memStackCeF st) :=
    getF_setF_ne_off _ _ _ _ (by simp [memStackBucket_Level]) (by simp [memStackCeF]) hne.1
  unfold State.corrected
  extract_lets s1 lvl
  have h1 : s1.getF (memStackCeF st) = satAdd 32 (s.getF (memStackCeF st)) 1 :=
    (getF_bump_same _ (memStackCeF st) 1 (by simp [memStackCeF])).trans (by rw [hleak]; rfl)
  split
  · rw [getF_assertSrc, getF_bump_ne _ _ _ _ (by simp [memStackBucketOvfF]) (by simp [memStackCeF]) hne.2, hce, h1]
  · rw [hce, h1]

theorem faults_corrected : (s.corrected st).mem.faults = s.mem.faults := by
  unfold State.corrected
  extract_lets s1 lvl
  have h1 : s1.mem.faults = s.mem.faults := by rw [← faults_bucketLeak s st]; exact congrArg Mem.faults (mem_bump _ _ _)
  split <;> simpa using h1

end

/-! ## Reads that are granted at once -/

/-- The state in which a read has delivered bytes. -/
def State.delivered (s : State) (bs : List Byte) (poison : Bool) : State :=
  { s with mem := { s.mem with out := bs, outPoison := poison } }

@[simp] theorem faults_delivered (s : State) (bs : List Byte) (poison : Bool) :
    (s.delivered bs poison).mem.faults = s.mem.faults := rfl

@[simp] theorem getF_delivered (s : State) (bs : List Byte) (poison : Bool) (f : Fld) :
    (s.delivered bs poison).getF f = s.getF f := rfl

/-- A read of a sector that has no held entry delivers what decoding finds, and counts the verdict. -/
theorem hbmRequest_read {s : State} {m a : Nat} {err : BitVec 288} {bs : List Byte} {v : SecRead}
    (hb : s.secBad (a / 32) = false) (hidle : s.hbmIdle (a / 32) = true) (hm : m ≤ 10) (hheld : s.held (a / 32) = none)
    (hdec : s.secDecode (a / 32) err = (bs, v)) : ∃ g, ArbOnly s g ∧ s.hbmRequest ⟨m, a, none, err⟩ =
      (g.countRead v 0 m 0x1FF (a / 32)).delivered bs (decide (v = .uncorrectable)) := by
  obtain ⟨g, hg, hreq⟩ := hbmRequest_idle (r := ⟨m, a, none, err⟩) hb hidle hm
  have hget : g.getSector m 0x1FF (a / 32) err =
      (g.countRead v 0 m 0x1FF (a / 32), bs, decide (v = .uncorrectable)) := by
    simp [State.getSector, State.flushFor, hg.secBad, hb, hg.held, hheld, hg.secDecode, hdec]
  refine ⟨g, hg, hreq.trans ?_⟩
  simp only [State.access, hget]
  rfl

end Sys2Proof.Machine
end

section
/-!
# Writes and reads of a free pseudo-channel (R376 to R383)

HBM_SECTOR_WRITE of a whole sector and of a part, and HBM_SECTOR_READ by what decoding finds.
-/

set_option autoImplicit false

namespace Sys2Proof.Machine

section
variable {s : State} {m a : Nat} (hb : s.secBad (a / 32) = false) (hidle : s.hbmIdle (a / 32) = true) (hm : m ≤ 10)
include hb hidle hm

/-! ## Writes -/

/-- What a sector holds once it is written whole. -/
theorem sectorWrite_whole (hinj : s.flag memInj_Armed = false) (data : BitVec 256) (poison : Bool) :
    ∃ t, exec (.hbmSectorWrite m a 0xFFFFFFFF data poison) s = .next t ∧
      t.secBytes (a / 32) = leBytes 32 data.toNat ∧ t.secDiff (a / 32) = (if poison then poisonDiff else [0, 0, 0, 0]) ∧
      t.held (a / 32) = none ∧ (∀ x, x ≠ a / 32 → t.secBytes x = s.secBytes x ∧ t.secDiff x = s.secDiff x) ∧
      t.getF memDecodeErrF = s.getF memDecodeErrF := by
  obtain ⟨g, hg, hreq⟩ := hbmRequest_idle (r := ⟨m, a, some (0xFFFFFFFF, data, poison), 0⟩) hb hidle hm
  have hput : g.access ⟨m, a, some (0xFFFFFFFF, data, poison), 0⟩ =
      (g.dropHeld (a / 32)).storeSector (a / 32) (leBytes 32 data.toNat) poison := by
    simp [State.access, State.putSector, hg.secBad, hb]
  refine ⟨_, congrArg Host.Outcome.next (hreq.trans hput), ?_⟩
  have hinj' : (g.dropHeld (a / 32)).flag memInj_Armed = false := (hg.flag _).trans hinj
  obtain ⟨hbytes, hdiff, hother⟩ := storeSector_same hinj' (sec := a / 32) (poison := poison) (length_leBytes 32 data.toNat)
  refine ⟨hbytes, hdiff, ?_, fun x hx => ?_, ?_⟩
  · rw [held_congr (merge_storeSector hinj'), held_dropHeld]
  · exact ⟨((hother x hx).1).trans (hg.secBytes x), ((hother x hx).2).trans (hg.secDiff x)⟩
  · have hne : memDecodeErr ≠ memStackPoisonWr (stackOf (a / 32)) := by
      simp only [memDecodeErr, memStackPoisonWr]
      omega
    exact (getF_storeSector hinj' (by decide) hne).trans (hg.getF _)

/-- A part of a sector waits in the buffer of its pseudo-channel. -/
theorem sectorWrite_part {mask : W32} (h0 : mask ≠ 0) (h1 : mask ≠ 0xFFFFFFFF) (hheld : s.held (a / 32) = none)
    (hroom : (s.mem.merge.filter fun e => pcOf e.sector == pcOf (a / 32)).length < 64) (data : BitVec 256) :
    ∃ t e, exec (.hbmSectorWrite m a mask data false) s = .next t ∧ t.held (a / 32) = some e ∧ e.mask = mask ∧
      (∀ i, i < 32 → mask.toNat.testBit i = true →
        listGet 0 (leBytes 32 e.data.toNat) i = listGet 0 (leBytes 32 data.toNat) i) ∧
      t.mem.hbm = s.mem.hbm ∧ t.mem.check = s.mem.check ∧ Frame [.mem] s t := by
  obtain ⟨g, hg, hreq⟩ := hbmRequest_idle (r := ⟨m, a, some (mask, data, false), 0⟩) hb hidle hm
  let bytes := mergeBytes (List.replicate 32 0) (leBytes 32 data.toNat) mask
  let e : MergeEnt := ⟨a / 32, BitVec.ofNat 256 (ofLe bytes), mask, g.cyc, m, 0x1FF⟩
  have hput : g.access ⟨m, a, some (mask, data, false), 0⟩ = g.addHeld e := by
    have hheld' : g.held (a / 32) = none := (hg.held _).trans hheld
    have hevict : g.evictee (pcOf (a / 32)) = none := evictee_none g (by rwa [hg.merge])
    have hroom : g.makeRoom (a / 32) m 0x1FF = g := by simp [State.makeRoom, hevict]
    have hmask : (0 : W32) ||| mask = mask := by simp
    simp only [State.access, State.putSector, hg.secBad, hb, h0, h1, hheld', hroom, hmask, e, bytes, if_false,
      Bool.false_eq_true, Option.isSome_none]
  refine ⟨_, e, congrArg Host.Outcome.next (hreq.trans hput), ?_, rfl, fun i hi hbit => ?_, hg.hbm, hg.check, ?_⟩
  · exact held_addHeld g ((hg.held _).trans hheld)
  · have hlen : bytes.length = 32 := length_mergeBytes _ _ _ (by simp)
    have hdata : leBytes 32 (BitVec.ofNat 256 (ofLe bytes)).toNat = bytes := by
      have hlt : ofLe bytes < 2 ^ 256 := by simpa [hlen] using ofLe_lt bytes
      rw [BitVec.toNat_ofNat, Nat.mod_eq_of_lt hlt, ← hlen, leBytes_ofLe]
    rw [hdata]
    exact listGet_mergeBytes _ _ _ (by simp) hbit (by simpa)
  · have hframe : Frame [.mem] g (g.addHeld e) := frame_mem _ _
    exact (hg.frame.trans hframe).mono (by decide)

/-! ## Reads -/

variable (hheld : s.held (a / 32) = none)
include hheld

theorem sectorRead_clean (hdec : s.secDecode (a / 32) 0 = (s.secBytes (a / 32), .clean)) :
    ∃ t, exec (.hbmSectorRead m a 0 none) s = .next t ∧ t.mem.out = s.secBytes (a / 32) ∧ t.mem.outPoison = false ∧
      t.mem.hbm = s.mem.hbm ∧ Frame [.mem] s t := by
  obtain ⟨g, hg, hreq⟩ := hbmRequest_read hb hidle hm hheld hdec
  have hread : s.hbmRequest ⟨m, a, none, 0⟩ = g.delivered (s.secBytes (a / 32)) false := hreq
  have hframe : Frame [.mem] g (g.delivered (s.secBytes (a / 32)) false) := frame_mem _ _
  exact ⟨_, congrArg Host.Outcome.next hread, rfl, rfl, hg.hbm, (hg.frame.trans hframe).mono (by decide)⟩

/-- What a read that corrects one symbol delivers and counts. -/
theorem hbmRequest_corrected {err : BitVec 288} {i e : Nat}
    (hdec : s.secDecode (a / 32) err = (s.secBytes (a / 32), .corrected i e)) :
    let t := s.hbmRequest ⟨m, a, none, err⟩
    t.mem.out = s.secBytes (a / 32) ∧ t.mem.outPoison = false ∧
      t.getF (memStackCeF (stackOf (a / 32))) = satAdd 32 (s.getF (memStackCeF (stackOf (a / 32)))) 1 ∧
      t.mem.faults = s.mem.faults := by
  obtain ⟨g, hg, hreq⟩ := hbmRequest_read hb hidle hm hheld hdec
  have hread : s.hbmRequest ⟨m, a, none, err⟩ = (g.corrected (stackOf (a / 32))).delivered (s.secBytes (a / 32)) false := hreq
  rw [hread]
  refine ⟨rfl, rfl, ?_, ?_⟩
  · rw [getF_delivered, getF_ce_corrected, hg.getF]
  · rw [faults_delivered, faults_corrected, hg.faults]

theorem sectorRead_poison (hdec : s.secDecode (a / 32) 0 = (s.secBytes (a / 32), .uncorrectable)) :
    ∃ t, exec (.hbmSectorRead m a 0 none) s = .next t ∧ t.mem.out = s.secBytes (a / 32) ∧ t.mem.outPoison = true ∧
      t.getF (memStackUeF (stackOf (a / 32))) = satAdd 32 (s.getF (memStackUeF (stackOf (a / 32)))) 1 := by
  obtain ⟨g, hg, hreq⟩ := hbmRequest_read hb hidle hm hheld hdec
  refine ⟨_, congrArg Host.Outcome.next hreq, rfl, rfl, ?_⟩
  have hue : memDecodeErr ≤ memStackUe (stackOf (a / 32)) := by
    simp only [memDecodeErr, memStackUe]
    omega
  rw [← hg.getF]
  exact (getF_feCapture _ _ _ _ _ _ (by simp [memStackUeF]) hue).trans (getF_bump_same g _ 1 (by simp [memStackUeF]))

end

/-- A read that meets one symbol in error, as it passes or as a hard fault from this read on. -/
theorem sectorRead_symbol {s : State} {m a : Nat} (hb : s.secBad (a / 32) = false) (hidle : s.hbmIdle (a / 32) = true)
    (hm : m ≤ 10) (hheld : s.held (a / 32) = none) (hd : s.secDiff (a / 32) = [0, 0, 0, 0])
    (hnone : mget (fun _ => 0) s.mem.faults (a / 32) = 0) {i : Nat} {e : Byte} (hi : i < 36) (he : e ≠ 0) :
    let err : BitVec 288 := BitVec.ofNat 288 (e.toNat * 2 ^ (8 * i))
    let fixed (t : State) : Prop := t.mem.out = s.secBytes (a / 32) ∧ t.mem.outPoison = false ∧
      t.getF (memStackCeF (stackOf (a / 32))) = satAdd 32 (s.getF (memStackCeF (stackOf (a / 32)))) 1
    (∃ t, exec (.hbmSectorRead m a err none) s = .next t ∧ fixed t ∧ mget (fun _ => 0) t.mem.faults (a / 32) = 0) ∧
      ∃ t, exec (.hbmSectorRead m a 0 (some err)) s = .next t ∧ fixed t ∧ mget (fun _ => 0) t.mem.faults (a / 32) = err := by
  intro err fixed
  constructor
  · obtain ⟨hout, hpoison, hce, hfaults⟩ := hbmRequest_corrected hb hidle hm hheld
      (secDecode_symbol (err := err) hi he hd (by rw [hnone]; exact BitVec.xor_zero))
    exact ⟨_, rfl, ⟨hout, hpoison, hce⟩, (congrArg (mget _ · _) hfaults).trans hnone⟩
  · let hard : State := { s with mem := { s.mem with faults := mput (fun _ => 0) s.mem.faults (a / 32) err } }
    have hfault : mget (fun _ => 0) hard.mem.faults (a / 32) = err := mget_mput_same _ _ _ _
    obtain ⟨hout, hpoison, hce, hfaults⟩ := hbmRequest_corrected (s := hard) hb hidle hm hheld
      (secDecode_symbol (err := 0) hi he hd (by rw [hfault]; exact BitVec.zero_xor))
    exact ⟨_, rfl, ⟨hout, hpoison, hce⟩, (congrArg (mget _ · _) hfaults).trans hfault⟩

end Sys2Proof.Machine
end

section
/-!
# What an access to HBM leaves alone

An access to sectors changes HBM, its registers, the fault records and the pools whose bytes it writes, and nothing else.
`HbmOp` says so of the operations on one sector, of which none touches what waits and what was delivered; whole accesses keep
the frame alone.
-/

set_option autoImplicit false

namespace Sys2Proof.Machine

/-- The components that an access to HBM can change. -/
def hbmParts : List Comp := [.regs, .setNow, .incNow, .flt, .mem, .pools]

/-- What an operation on one sector keeps. -/
structure HbmOp (s t : State) : Prop where
  frame : Frame hbmParts s t
  waits : t.mem.waits = s.mem.waits
  out : t.mem.out = s.mem.out

theorem frame_setWord (s : State) (off : Nat) (v : W32) : Frame [.regs] s (s.setWord off v) := by
  intro c hc
  cases c <;> simp_all [Comp.same]

theorem frame_assertSrc (s : State) (n : Nat) (info : BitVec 128) (rank : Nat) : Frame [.flt] s (s.assertSrc n info rank) := by
  intro c hc
  cases c <;> simp_all [Comp.same]

variable {s₀ s t : State}

theorem Frame.hbm (h : Frame hbmParts s₀ s) (ht : Frame hbmParts s t) : Frame hbmParts s₀ t := (h.trans ht).mono (by decide)

theorem HbmOp.refl (s : State) : HbmOp s s := ⟨.refl _ _, rfl, rfl⟩

/-- An update of registers, fault records and pools. -/
theorem HbmOp.frameTo (h : HbmOp s₀ s) {cs : List Comp} (ht : Frame cs s t)
    (hcs : cs ⊆ [.regs, .setNow, .incNow, .flt, .pools]) : HbmOp s₀ t := by
  have hparts : [.regs, .setNow, .incNow, .flt, .pools] ⊆ hbmParts := by decide
  have hmem : t.mem = s.mem := ht .mem fun hc => absurd (hcs hc) (by decide)
  exact ⟨h.frame.hbm (ht.mono fun c hc => hparts (hcs hc)), hmem ▸ h.waits, hmem ▸ h.out⟩

theorem HbmOp.update (h : HbmOp s₀ s) {mem : Mem} (hw : mem.waits = s.mem.waits := by rfl)
    (ho : mem.out = s.mem.out := by rfl) : HbmOp s₀ { s with mem } :=
  ⟨h.frame.hbm ((frame_mem s mem).mono (by decide)), hw.trans h.waits, ho.trans h.out⟩

theorem HbmOp.setF (h : HbmOp s₀ s) {f v} : HbmOp s₀ (s.setF f v) := h.frameTo (frame_setF _ _ _) (by decide)

theorem HbmOp.bump (h : HbmOp s₀ s) {f k} : HbmOp s₀ (s.bump f k) := h.frameTo (frame_bump _ _ _) (by decide)

theorem HbmOp.raise (h : HbmOp s₀ s) {f} : HbmOp s₀ (s.raise f) := h.frameTo (frame_raise _ _) (by decide)

theorem HbmOp.setWord (h : HbmOp s₀ s) {off v} : HbmOp s₀ (s.setWord off v) := h.frameTo (frame_setWord _ _ _) (by decide)

theorem HbmOp.assertSrc (h : HbmOp s₀ s) {n info rank} : HbmOp s₀ (s.assertSrc n info rank) :=
  h.frameTo (frame_assertSrc _ _ _ _) (by decide)

theorem HbmOp.setPool (h : HbmOp s₀ s) {c p} : HbmOp s₀ (s.setPool c p) := h.frameTo (frame_setPool _ _ _) (by decide)

theorem HbmOp.ite {c : Prop} [Decidable c] {a b : State} (ha : HbmOp s₀ a) (hb : HbmOp s₀ b) :
    HbmOp s₀ (if c then a else b) := by
  split <;> assumption

/-! ## Operations on one sector -/

theorem HbmOp.feCapture (h : HbmOp s₀ s) {kind acc master site sec} : HbmOp s₀ (s.feCapture kind acc master site sec) :=
  HbmOp.ite h h.raise.setF.setWord.setF

theorem HbmOp.decodeError (h : HbmOp s₀ s) {acc master site sec} : HbmOp s₀ (s.decodeError acc master site sec) :=
  h.bump.raise.feCapture.assertSrc

theorem HbmOp.bucketLeak (h : HbmOp s₀ s) {st} : HbmOp s₀ (s.bucketLeak st) := HbmOp.ite h h.update.setF

theorem HbmOp.corrected (h : HbmOp s₀ s) {st} : HbmOp s₀ (s.corrected st) :=
  HbmOp.ite h.bucketLeak.bump.setF.bump.assertSrc h.bucketLeak.bump.setF

theorem HbmOp.countRead (h : HbmOp s₀ s) {r acc master site sec} : HbmOp s₀ (s.countRead r acc master site sec) := by
  cases r with
  | clean => exact h
  | corrected i e => exact h.corrected
  | uncorrectable => exact h.bump.feCapture

theorem HbmOp.storeSector (h : HbmOp s₀ s) {sec bs poison} : HbmOp s₀ (s.storeSector sec bs poison) := by
  unfold State.storeSector
  extract_lets st hit mode inj diff hbm check src s1 s2
  have h1 : HbmOp s₀ s1 := h.update
  have h2 : HbmOp s₀ s2 := h1.setF.ite h1
  exact h2.bump.ite h2

theorem HbmOp.rmw (h : HbmOp s₀ s) {sec data mask poison master site err} :
    HbmOp s₀ (s.rmw sec data mask poison master site err) := (h.countRead.bump.ite h.countRead).storeSector

theorem HbmOp.dropHeld (h : HbmOp s₀ s) {sec} : HbmOp s₀ (s.dropHeld sec) := h.update

theorem HbmOp.writeBack (h : HbmOp s₀ s) {e master site err} : HbmOp s₀ (s.writeBack e master site err) :=
  HbmOp.ite h.dropHeld.decodeError h.dropHeld.rmw

theorem HbmOp.flushFor (h : HbmOp s₀ s) {sec master site} : HbmOp s₀ (s.flushFor sec master site) := by
  unfold State.flushFor
  split
  · exact h
  · exact h.bump.writeBack

theorem HbmOp.makeRoom (h : HbmOp s₀ s) {sec master site} : HbmOp s₀ (s.makeRoom sec master site) := by
  unfold State.makeRoom
  split
  · exact h.bump.writeBack
  · exact h

theorem HbmOp.getSector (h : HbmOp s₀ s) {master site sec err} : HbmOp s₀ (s.getSector master site sec err).1 := by
  unfold State.getSector
  split
  · exact h.decodeError
  · exact h.flushFor.countRead

theorem HbmOp.putSector (h : HbmOp s₀ s) {master site sec data mask poison} :
    HbmOp s₀ (s.putSector master site sec data mask poison) :=
  HbmOp.ite h.decodeError <| h.ite <| h.dropHeld.storeSector.ite <| h.dropHeld.rmw.ite <| h.dropHeld.storeSector.ite <|
    h.update.ite h.makeRoom.update

theorem HbmOp.acqPut {put : Nat → List Byte → BitVec 32 → State → State}
    (hput : ∀ sec data mask s, HbmOp s₀ s → HbmOp s₀ (put sec data mask s)) (h : HbmOp s₀ s) {c n k : Nat} :
    HbmOp s₀ (s.acqPut put c n k) := by
  induction k generalizing s n with
  | zero => exact h
  | succ k ih => exact HbmOp.ite h (ih (hput _ _ _ _ h.setPool))

/-! ## Whole accesses -/

theorem frame_arbMove (pc master : Nat) : Frame hbmParts s (s.arbMove pc master) :=
  (arbOnly_arbMove s pc master).frame.mono (by decide)

theorem frame_takeSlot (pc : Nat) : Frame hbmParts s (s.takeSlot pc) := (frame_mem s _).mono (by decide)

theorem frame_access (r : HbmReq) : Frame hbmParts s (s.access r) := by
  unfold State.access
  split
  · exact (HbmOp.refl _).putSector.frame
  · exact (HbmOp.refl _).getSector.frame.hbm ((frame_mem _ _).mono (by decide))

theorem frame_hbmServe (r : HbmReq) : Frame hbmParts s (s.hbmServe r) := by
  have herase : Frame hbmParts s { s with mem := { s.mem with waits := s.mem.waits.erase r } } :=
    (frame_mem s _).mono (by decide)
  exact (herase.hbm (frame_arbMove _ _)).hbm (frame_access r)

theorem frame_hbmServeAll (pc : Nat) (zero : Bool) (n : Nat) : Frame hbmParts s (s.hbmServeAll pc zero n) := by
  induction n generalizing s with
  | zero => exact .refl _ _
  | succ n ih =>
    unfold State.hbmServeAll
    split
    · exact .refl _ _
    · split
      · exact .refl _ _
      · exact (frame_hbmServe _).hbm ih

theorem frame_hbmServeAhead (pc master n : Nat) : Frame hbmParts s (s.hbmServeAhead pc master n) := by
  induction n generalizing s with
  | zero => exact .refl _ _
  | succ n ih =>
    unfold State.hbmServeAhead
    split
    · exact .refl _ _
    · split
      · exact (frame_hbmServe _).hbm ih
      · exact .refl _ _

theorem frame_acqTurn (pc : Nat) : Frame hbmParts s (s.acqTurn pc) := by
  unfold State.acqTurn
  split
  · exact .refl _ _
  · exact (HbmOp.acqPut (fun _ _ _ _ h => h.putSector) (.refl s)).frame.hbm (frame_arbMove _ _)

theorem frame_acqAll (pc n : Nat) : Frame hbmParts s (s.acqAll pc n) := by
  induction n generalizing s with
  | zero => exact .refl _ _
  | succ n ih =>
    unfold State.acqAll
    split
    · exact (frame_acqTurn pc).hbm ih
    · exact .refl _ _

theorem frame_hbmGrant (pc master : Nat) : Frame hbmParts s (s.hbmGrant pc master) := by
  unfold State.hbmGrant
  extract_lets n s1 s2
  have h1 : Frame hbmParts s s1 := frame_hbmServeAll _ _ _
  have h2 : Frame hbmParts s1 s2 := by
    simp only [s2]
    split
    · exact (frame_acqAll _ _).hbm (frame_hbmServeAhead _ _ _)
    · split
      · exact frame_acqTurn _
      · exact .refl _ _
  exact ((h1.hbm h2).hbm (frame_arbMove _ _)).hbm (frame_takeSlot _)

theorem frame_readSector (master site sec : Nat) (err : BitVec 288) : Frame hbmParts s (s.readSector master site sec err).1 := by
  unfold State.readSector
  split
  · exact (HbmOp.refl s).getSector.frame
  · exact (frame_hbmGrant _ _).hbm (HbmOp.refl _).getSector.frame

theorem frame_writeSector (master site sec : Nat) (data : List Byte) (mask : BitVec 32) (poison : Bool) :
    Frame hbmParts s (s.writeSector master site sec data mask poison) := by
  unfold State.writeSector
  split
  · exact (HbmOp.refl s).putSector.frame
  · exact (frame_hbmGrant _ _).hbm (HbmOp.refl _).putSector.frame

theorem frame_readSectors (master site sec k : Nat) : Frame hbmParts s (s.readSectors master site sec k).1 := by
  induction k generalizing s sec with
  | zero => exact .refl _ _
  | succ k ih => exact (frame_readSector _ _ _ _).hbm (ih _)

theorem frame_writeSectors (master site sec off : Nat) (bs : List Byte) (poison : Bool) (k : Nat) :
    Frame hbmParts s (s.writeSectors master site sec off bs poison k) := by
  induction k generalizing s sec off bs with
  | zero => exact .refl _ _
  | succ k ih => exact (frame_writeSector _ _ _ _ _ _).hbm (ih _ _ _)

/-- A read of any master. -/
theorem frame_hbmRead (master site a n : Nat) : Frame hbmParts s (s.hbmRead master site a n).1 := frame_readSectors _ _ _ _

/-- A write of any master. -/
theorem frame_hbmWrite (master site a : Nat) (bs : List Byte) (poison : Bool) :
    Frame hbmParts s (s.hbmWrite master site a bs poison) := frame_writeSectors _ _ _ _ _ _ _

end Sys2Proof.Machine
end

section
/-!
# ACQ's turn, and held entries (R28, R383, R384, R386)
-/

set_option autoImplicit false

namespace Sys2Proof.Machine

/-! ## ACQ goes first (R28) -/

section
variable {put : Nat → List Byte → BitVec 32 → State → State}
  (hput : ∀ sec data mask s, (put sec data mask s).pools = s.pools)
include hput

/-- A write buffer that is drained does not grow. -/
theorem wbuf_acqPut_le (s : State) (c n k : Nat) : ((s.acqPut put c n k).pool c).wbuf.length ≤ (s.pool c).wbuf.length := by
  induction k generalizing s n with
  | zero => exact Nat.le_refl _
  | succ k ih =>
    unfold State.acqPut
    extract_lets p a m x
    split
    · exact Nat.le_refl _
    · refine (ih _ _).trans ?_
      rw [pool_congr (hput _ _ _ _), pool_setPool, List.length_drop]
      exact Nat.sub_le _ _

/-- Of a write buffer that holds bytes, some are written. -/
theorem wbuf_acqPut_lt {s : State} {c n : Nat} (k : Nat) (hn : 0 < n) (hbuf : (s.pool c).wbuf ≠ []) :
    ((s.acqPut put c n (k + 1)).pool c).wbuf.length < (s.pool c).wbuf.length := by
  have hpos : 0 < (s.pool c).wbuf.length := List.length_pos_iff.mpr hbuf
  unfold State.acqPut
  extract_lets p a m x
  have hm : 0 < m := by
    have hmod : a % 32 < 32 := Nat.mod_lt _ (by decide)
    have hp : 0 < p.wbuf.length := hpos
    simp only [m]
    omega
  rw [if_neg (Nat.ne_of_gt hm)]
  refine (wbuf_acqPut_le hput _ _ _ _).trans_lt ?_
  rw [pool_congr (hput _ _ _ _), pool_setPool, List.length_drop]
  exact Nat.sub_lt hpos hm

end

/-- What ACQ has waiting is at least a byte. -/
theorem acqWaits_pos {s : State} {pc c n : Nat} (h : s.acqWaits pc = some (c, n)) : 0 < n := by
  obtain ⟨e, -, he⟩ := List.exists_of_findSome?_eq_some h
  obtain ⟨i, hi, hin⟩ := Option.map_eq_some_iff.mp he
  have hlt : i < e.2.wbuf.length := List.mem_range.mp (List.mem_of_find?_eq_some hi)
  obtain ⟨-, rfl⟩ := Prod.mk.inj hin
  omega

/-- A turn of ACQ writes some of the bytes that wait, and touches no request. -/
theorem acqTurn_spec {s : State} {pc c n : Nat} (hacq : s.acqWaits pc = some (c, n)) (hbuf : (s.pool c).wbuf ≠ []) :
    (s.acqTurn pc).mem.waits = s.mem.waits ∧ (s.acqTurn pc).mem.out = s.mem.out ∧
      ((s.acqTurn pc).pool c).wbuf.length < (s.pool c).wbuf.length := by
  let put (sec : Nat) (data : List Byte) (mask : BitVec 32) (s : State) : State := s.putSector 0 0x1FF sec data mask false
  have hturn : s.acqTurn pc = (s.acqPut put c n 2049).arbMove pc 0 := by
    simp only [State.acqTurn, hacq]
    rfl
  have hkept : HbmOp s (s.acqPut put c n 2049) := HbmOp.acqPut (fun _ _ _ _ h => h.putSector) (.refl s)
  have hless := wbuf_acqPut_lt (put := put) (fun _ _ _ s => (MemOp.refl s).putSector.pools) 2048 (acqWaits_pos hacq) hbuf
  rw [hturn]
  exact ⟨hkept.waits, hkept.out, hless⟩

/-- A request of class 1 waits while ACQ has bytes for its pseudo-channel. -/
theorem hbmRequest_yields {s : State} {r : HbmReq} {c n : Nat} (hb : s.secBad (r.addr / 32) = false)
    (hsync : s.syncing (14 + pcOf (r.addr / 32) % 6) = false) (hw : s.waitsAt (pcOf (r.addr / 32)) = [])
    (hslot : mget (fun _ => 0) s.mem.slots (pcOf (r.addr / 32)) ≠ s.cyc + 1) (hlo : 3 ≤ r.master) (hhi : r.master ≤ 10)
    (hacq : s.acqWaits (pcOf (r.addr / 32)) = some (c, n)) :
    s.hbmRequest r = ((s.queued r).takeSlot (pcOf (r.addr / 32))).acqTurn (pcOf (r.addr / 32)) := by
  have hpick : (s.queued r).arbPick (pcOf (r.addr / 32)) = some r := arbPick_single (waitsAt_queued hw) hsync hhi
  have hslot' : mget (fun _ => 0) (s.queued r).mem.slots (pcOf (r.addr / 32)) ≠ (s.queued r).cyc + 1 := hslot
  have hacq' : (s.queued r).acqWaits (pcOf (r.addr / 32)) = some (c, n) := hacq
  simp [hbmRequest_good hb, State.slotGrant, hpick, hslot', hacq', hlo]

/-! ## Held entries (R383, R384) -/

theorem sector_of_held {s : State} {sec : Nat} {e : MergeEnt} (h : s.held sec = some e) : e.sector = sec := by
  simpa using List.find?_some h

/-- An entry has been merged into its sector, with fresh check bits. -/
def Merged (s : State) (sec : Nat) (e : MergeEnt) (t : State) : Prop :=
  t.held sec = none ∧ t.secDiff sec = [0, 0, 0, 0] ∧
    t.secBytes sec = mergeBytes (s.secBytes sec) (leBytes 32 e.data.toNat) e.mask

section
variable {s : State} {sec : Nat} {e : MergeEnt}

/-- A read-modify-write whose read finds no error stores the merged bytes. -/
theorem rmw_clean {err : BitVec 288} {bs data : List Byte} {mask : BitVec 32} {poison : Bool} {master site : Nat}
    (hdec : s.secDecode sec err = (bs, .clean)) :
    s.rmw sec data mask poison master site err = s.storeSector sec (mergeBytes bs data mask) poison := by
  simp only [State.rmw, hdec, State.countRead, reduceCtorEq, decide_false, Bool.or_false, Bool.false_eq_true, if_false]

/-- An entry that leaves the buffer of a working sector. -/
theorem writeBack_merges (hsec : e.sector = sec) (hb : s.secBad sec = false) (hinj : s.flag memInj_Armed = false)
    (hd : s.secDiff sec = [0, 0, 0, 0]) (hf : mget (fun _ => 0) s.mem.faults sec = 0) (master site : Nat) :
    Merged s sec e (s.writeBack e master site 0) ∧
      ∀ f : Fld, f.lsb + f.width ≤ 32 → f.off ≠ memStackPoisonWr (stackOf sec) → (s.writeBack e master site 0).getF f = s.getF f := by
  subst hsec
  let g := s.dropHeld e.sector
  have hdec : g.secDecode e.sector 0 = (g.secBytes e.sector, .clean) :=
    secDecode_fresh hd hf
  have hbg : g.secBad e.sector = false := hb
  have hwrite : s.writeBack e master site 0 =
      g.storeSector e.sector (mergeBytes (g.secBytes e.sector) (leBytes 32 e.data.toNat) e.mask) false :=
    (if_neg (hbg ▸ Bool.false_ne_true)).trans (rmw_clean hdec)
  have hlen : (mergeBytes (g.secBytes e.sector) (leBytes 32 e.data.toNat) e.mask).length = 32 := by
    rw [length_mergeBytes _ _ _ (by simp), length_secBytes]
  have hinj' : g.flag memInj_Armed = false := hinj
  obtain ⟨hbytes, hdiff, -⟩ := storeSector_same hinj' (sec := e.sector) (poison := false) hlen
  rw [hwrite]
  refine ⟨⟨?_, hdiff, hbytes⟩, fun f hw ho => getF_storeSector hinj' hw ho⟩
  rw [held_congr (merge_storeSector hinj'), held_dropHeld]

/-- The registers that tell how a held entry is merged. -/
def mergeRegs (sec : Nat) : List Nat := [memStackStatus (stackOf sec), pwrPllStatus, memInj, memStackPoisonWr (stackOf sec)]

theorem mergeRmw_notMem (sec : Nat) : memStackMergeRmw (stackOf sec) ∉ mergeRegs sec := by
  simp only [mergeRegs, List.mem_cons, List.not_mem_nil, or_false, memStackMergeRmw, memStackStatus, pwrPllStatus, memInj,
    memStackPoisonWr]
  omega

theorem mergeEvict_notMem (sec : Nat) : memStackMergeEvict (stackOf sec) ∉ mergeRegs sec := by
  simp only [mergeRegs, List.mem_cons, List.not_mem_nil, or_false, memStackMergeEvict, memStackStatus, pwrPllStatus, memInj,
    memStackPoisonWr]
  omega

/-- An entry that leaves its buffer is counted and merged. -/
theorem counted_writeBack_merges (hheld : s.held sec = some e) (hb : s.secBad sec = false) (hinj : s.flag memInj_Armed = false)
    (hd : s.secDiff sec = [0, 0, 0, 0]) (hf : mget (fun _ => 0) s.mem.faults sec = 0) {off : Nat} (hoff : off ∉ mergeRegs sec) :
    let t := (s.bump ⟨off, 0, 32⟩ 1).writeBack e e.master e.site 0
    Merged s sec e t ∧ t.getF ⟨off, 0, 32⟩ = satAdd 32 (s.getF ⟨off, 0, 32⟩) 1 := by
  simp only [mergeRegs, List.mem_cons, List.not_mem_nil, or_false, not_or] at hoff
  obtain ⟨hstatus, hpll, hreg, hpoison⟩ := hoff
  let s1 := s.bump ⟨off, 0, 32⟩ 1
  have hmem : s1.mem = s.mem := mem_bump s ⟨off, 0, 32⟩ 1
  have hb1 : s1.secBad sec = false := (secBad_bump s sec 1 (by simp) hstatus hpll).trans hb
  have hinj1 : s1.flag memInj_Armed = false := by
    rw [State.flag, getF_bump_ne s _ _ 1 (by simp) (by decide) (Ne.symm hreg), ← State.flag, hinj]
  have hd1 : s1.secDiff sec = [0, 0, 0, 0] := (secDiff_congr (congrArg Mem.check hmem) sec).trans hd
  obtain ⟨⟨hnone, hdiff, hbytes⟩, hfields⟩ :=
    writeBack_merges (sector_of_held hheld) hb1 hinj1 hd1 (hmem ▸ hf) e.master e.site
  refine ⟨⟨hnone, hdiff, hbytes.trans ?_⟩, ?_⟩
  · rw [secBytes_congr (congrArg Mem.hbm hmem)]
  · rw [hfields _ (by simp) hpoison]
    exact getF_bump_same s ⟨off, 0, 32⟩ 1 (by simp)

/-! ## Entries of a stack that has failed (R384, R386) -/

theorem mem_decodeError (s : State) (acc master site sec : Nat) : (s.decodeError acc master site sec).mem = s.mem := by
  simp [State.decodeError, mem_feCapture]

/-- A decode error counts once. -/
theorem getF_decodeError (s : State) (acc master site sec : Nat) :
    (s.decodeError acc master site sec).getF memDecodeErrF = satAdd 32 (s.getF memDecodeErrF) 1 := by
  rw [State.decodeError, getF_assertSrc, getF_feCapture _ _ _ _ _ _ (by decide) (by decide),
    getF_raise_ne _ _ _ (by decide) (by decide) (by decide)]
  exact getF_bump_same s memDecodeErrF 1 (by decide)

theorem counted_writeBack_bad (hheld : s.held sec = some e) (hb : s.secBad sec = true) :
    let t := (s.bump (memStackMergeRmwF (stackOf sec)) 1).writeBack e e.master e.site 0
    t.held sec = none ∧ t.mem.hbm = s.mem.hbm ∧ t.mem.check = s.mem.check ∧
      t.getF memDecodeErrF = satAdd 32 (s.getF memDecodeErrF) 1 := by
  have hsec := sector_of_held hheld
  subst hsec
  have hoff := mergeRmw_notMem e.sector
  simp only [mergeRegs, List.mem_cons, List.not_mem_nil, or_false, not_or] at hoff
  obtain ⟨hstatus, hpll, -, -⟩ := hoff
  let f := memStackMergeRmwF (stackOf e.sector)
  let g := (s.bump f 1).dropHeld e.sector
  have hbg : g.secBad e.sector = true := (secBad_bump s e.sector (f := f) 1 (by simp [f, memStackMergeRmwF]) hstatus hpll).trans hb
  have hwrite : (s.bump f 1).writeBack e e.master e.site 0 = g.decodeError 1 e.master e.site e.sector := if_pos hbg
  have hmem : (s.bump f 1).mem = s.mem := mem_bump s f 1
  have hcount : g.getF memDecodeErrF = s.getF memDecodeErrF := by
    have hne : memDecodeErr ≠ memStackMergeRmw (stackOf e.sector) := by
      simp only [memDecodeErr, memStackMergeRmw]
      omega
    exact getF_bump_ne s f memDecodeErrF 1 (by simp [f, memStackMergeRmwF]) (by decide) hne
  intro t
  have ht : t = g.decodeError 1 e.master e.site e.sector := hwrite
  rw [ht, getF_decodeError, hcount, mem_decodeError, held_congr (congrArg Mem.merge (mem_decodeError ..)), held_dropHeld]
  have hhbm : (s.bump f 1).mem.hbm = s.mem.hbm := congrArg Mem.hbm hmem
  have hcheck : (s.bump f 1).mem.check = s.mem.check := congrArg Mem.check hmem
  exact ⟨rfl, hhbm, hcheck, rfl⟩

end

end Sys2Proof.Machine
end

section
/-!
# The commands of HBM and of BAR2 (R372 to R388)
-/

set_option autoImplicit false

namespace Sys2Proof.Machine

/-! ## Held entries -/

section
variable {s : State} {sec : Nat} {e : MergeEnt} (hheld : s.held sec = some e)
include hheld

theorem exec_mergeTimeout_due (hdue : s.getF memMergeCfg_Timeout ≤ s.cyc - e.born) : exec (.mergeTimeout sec) s =
    .next ((s.bump (memStackMergeRmwF (stackOf sec)) 1).writeBack e e.master e.site 0) := by
  simp [exec, execMergeTimeout, mergeTimeout, hheld, hdue]

theorem exec_rmw_due (hdue : s.getF memMergeCfg_Timeout ≤ s.cyc - e.born) (err : BitVec 288) :
    exec (.readModifyWrite sec 0 err) s =
      .next ((s.bump (memStackMergeRmwF (stackOf sec)) 1).writeBack e e.master e.site err) := by
  simp [exec, execReadModifyWrite, readModifyWrite, hheld, hdue]

theorem exec_rmw_read (hread : s.readWaits sec = true) (err : BitVec 288) : exec (.readModifyWrite sec 2 err) s =
    .next ((s.bump (memStackMergeRmwF (stackOf sec)) 1).writeBack e e.master e.site err) := by
  simp [exec, execReadModifyWrite, readModifyWrite, hheld, hread]

theorem exec_rmw_evict (hneed : s.entryNeeded (pcOf sec) = true) (hold : s.evictee (pcOf sec) = some e) (err : BitVec 288) :
    exec (.readModifyWrite sec 1 err) s =
      .next ((s.bump (memStackMergeEvictF (stackOf sec)) 1).writeBack e e.master e.site err) := by
  simp [exec, execReadModifyWrite, readModifyWrite, hheld, hneed, hold]

/-- No read of the sector waits: the entry stays. -/
theorem exec_rmw_unread (h : s.readWaits sec = false) (err : BitVec 288) : exec (.readModifyWrite sec 2 err) s = .next s := by
  simp [exec, execReadModifyWrite, readModifyWrite, hheld, h]

/-- No write needs an entry, or another one is the oldest of a full buffer: the entry stays. -/
theorem exec_rmw_unneeded (h : s.entryNeeded (pcOf sec) = false ∨ s.evictee (pcOf sec) ≠ some e) (err : BitVec 288) :
    exec (.readModifyWrite sec 1 err) s = .next s := by
  have hnot : ¬ (s.entryNeeded (pcOf sec) = true ∧ s.evictee (pcOf sec) = some e) := by
    rcases h with h | h <;> simp [h]
  simp [exec, execReadModifyWrite, readModifyWrite, hheld, hnot]

/-- Before its timeout the entry stays. -/
theorem exec_early (h : ¬ s.getF memMergeCfg_Timeout ≤ s.cyc - e.born) :
    exec (.mergeTimeout sec) s = .next s ∧ ∀ err, exec (.readModifyWrite sec 0 err) s = .next s := by
  constructor
  · simp [exec, execMergeTimeout, mergeTimeout, hheld, h]
  · intro err
    simp [exec, execReadModifyWrite, readModifyWrite, hheld, h]

end

/-! ## Refreshes (R373, R375) -/

theorem exec_hbmRefresh {pc : Nat} (hpc : pc < 384) (b : Nat) (s : State) :
    exec (.hbmRefresh pc b) s = .next (s.refreshDue pc) := by
  simp [exec, execHbmRefresh, hbmRefresh, State.when, hpc]

/-- A refresh of a pseudo-channel with nothing to grant takes the slot. -/
theorem refreshDue_idle {s : State} {pc : Nat} (h : s.channelIdle pc = true) : s.refreshDue pc = s.takeSlot pc := if_pos h

/-- One of a pseudo-channel that has something to grant takes the slot, or is remembered. -/
theorem refreshDue_busy {s : State} {pc : Nat} (h : s.channelIdle pc = false) :
    s.refreshDue pc = (s.draw 1).2.takeSlot pc ∨
      ∃ limit, s.refreshDue pc = { (s.draw 1).2 with mem := { s.mem with due := s.mem.due ++ [(pc, limit)] } } := by
  unfold State.refreshDue
  rw [if_neg (by simp [h])]
  extract_lets r s1
  split
  · exact .inl rfl
  · exact .inr ⟨_, rfl⟩

theorem slot_takeSlot (s : State) (pc : Nat) : mget (fun _ => 0) (s.takeSlot pc).mem.slots pc = s.cyc + 1 := mget_mput_same ..

theorem frame_draw (s : State) (w : Nat) : Frame [.freeIx] s (s.draw w).2 := by
  intro c hc
  cases c <;> simp_all [Comp.same, State.draw]

/-- What a refresh takes and what it leaves. -/
theorem refresh_spec (s : State) (pc b : Nat) (hpc : pc < 384) : ∃ t, exec (.hbmRefresh pc b) s = .next t ∧
    (s.channelIdle pc = true → mget (fun _ => 0) t.mem.slots pc = s.cyc + 1 ∧ t.mem.due = s.mem.due ∧ Frame [.mem] s t) ∧
    (s.channelIdle pc = false → mget (fun _ => 0) t.mem.slots pc = s.cyc + 1 ∧ t.mem.due = s.mem.due ∨
      t.mem.slots = s.mem.slots ∧ ∃ limit, t.mem.due = s.mem.due ++ [(pc, limit)]) ∧
    t.mem.hbm = s.mem.hbm ∧ t.mem.check = s.mem.check ∧ t.mem.waits = s.mem.waits ∧ t.mem.merge = s.mem.merge ∧
    Frame [.mem, .freeIx] s t := by
  refine ⟨_, exec_hbmRefresh hpc b s, ?_⟩
  by_cases hidle : s.channelIdle pc = true
  · rw [refreshDue_idle hidle]
    have hframe : Frame [.mem] s (s.takeSlot pc) := frame_mem _ _
    exact ⟨fun _ => ⟨slot_takeSlot s pc, rfl, hframe⟩, fun h => absurd hidle (by simp [h]), rfl, rfl, rfl, rfl,
      hframe.mono (by decide)⟩
  · have hbusy : s.channelIdle pc = false := by simpa using hidle
    have hdraw := frame_draw s 1
    rcases refreshDue_busy hbusy with h | ⟨limit, h⟩
    · rw [h]
      exact ⟨fun h => absurd h hidle, fun _ => .inl ⟨slot_takeSlot (s.draw 1).2 pc, rfl⟩, rfl, rfl, rfl, rfl,
        (hdraw.trans (frame_mem _ _)).mono (by decide)⟩
    · rw [h]
      exact ⟨fun h => absurd h hidle, fun _ => .inr ⟨rfl, limit, rfl⟩, rfl, rfl, rfl, rfl,
        (hdraw.trans (frame_mem _ _)).mono (by decide)⟩

/-! ## Temperature and buckets (R375, R381) -/

section
variable {st : Nat} (s : State)

theorem hotRefresh_spec (hst : st < 6) (c : Nat) : ∃ t, exec (.hotRefresh st c) s = .next t ∧
    t.getF (memStackStatus_HotRefresh st) = b2n (decide (85 < c)) ∧ WordsKept [memStackStatus st] s t ∧ Frame [.regs] s t := by
  have hexec : exec (.hotRefresh st c) s = .next (hotRefresh st c s) := by
    simp [exec, execHotRefresh, State.when, hst]
  have htemp := wordsKept_setF s (memStackStatus_Temp st) c (by simp [memStackStatus_Temp])
  have hhot := wordsKept_setF (s.setF (memStackStatus_Temp st) c) (memStackStatus_HotRefresh st) (b2n (decide (85 < c)))
    (by simp [memStackStatus_HotRefresh])
  refine ⟨_, hexec, ?_, (htemp.trans hhot).mono ?_, ((frame_setF _ _ _).trans (frame_setF _ _ _)).mono (by decide)⟩
  · rw [hotRefresh, getF_setF_same _ _ _ (by simp [memStackStatus_HotRefresh])]
    cases decide (85 < c) <;> rfl
  · simp [memStackStatus_Temp, memStackStatus_HotRefresh]

theorem exec_hbmBucketLeak (hst : st < 6) : exec (.hbmBucketLeak st) s = .next (s.bucketLeak st) := by
  simp [exec, execHbmBucketLeak, hbmBucketLeak, State.when, hst]

/-- A bucket falls by the intervals that have passed. -/
theorem bucketLeak_spec (hst : st < 6) (hdue : 0 < s.leaksDue st) : ∃ t, exec (.hbmBucketLeak st) s = .next t ∧
    t.getF (memStackBucket_Level st) = s.getF (memStackBucket_Level st) - s.leaksDue st ∧
    mget (fun _ => 0) t.mem.leakFrom st = mget (fun _ => 0) s.mem.leakFrom st + s.leakStep st * s.leaksDue st ∧
    t.mem.hbm = s.mem.hbm ∧ WordsKept [memStackBucket st] s t ∧ Frame [.regs, .mem] s t := by
  have hleak := bucketLeak_due s st (Nat.ne_of_gt hdue)
  have hframe : Frame [.mem] s (s.leakCounted st) := frame_mem _ _
  refine ⟨_, exec_hbmBucketLeak s hst, ?_, ?_, ?_, wordsKept_bucketLeak s st, ?_⟩
  · have hlt : s.getF (memStackBucket_Level st) < 2 ^ 16 := bitsAt_lt _ _ _
    rw [hleak, getF_setF_same _ _ _ (by simp [memStackBucket_Level])]
    exact Nat.mod_eq_of_lt ((Nat.sub_le _ _).trans_lt hlt)
  · rw [hleak, mem_setF]
    exact mget_mput_same ..
  · rw [hleak, mem_setF]
    rfl
  · rw [hleak]
    exact (hframe.trans (frame_setF _ _ _)).mono (by decide)

end

/-! ## Injection (R388) -/

/-- A refused write of a MEM register raises WR_REFUSED of MEM. -/
theorem refuse_memInj (s : State) : s.refuse memInj = s.raise memStatus_WrRefused := rfl

theorem memInj_refused {s : State} (harmed : s.flag memInj_Armed = true) (v : W32) : ∃ t, exec (.memInjWrite v) s = .next t ∧
    t.getF memStatus_WrRefused = 1 ∧ WordsKept [memStatus] s t ∧ Frame [.regs, .setNow] s t := by
  have hexec : exec (.memInjWrite v) s = .next (s.raise memStatus_WrRefused) := by
    simp [exec, execMemInjWrite, memInjWrite, harmed, refuse_memInj]
  exact ⟨_, hexec, getF_raise_same s _ (by decide), wordsKept_raise s memStatus_WrRefused (by decide), frame_raise s _⟩

/-- INJ with its stack and mode replaced. -/
def State.injStored (s : State) (v : Nat) : State := (s.setF memInj_Stack (bitsAt v 3 3)).setF memInj_Mode (bitsAt v 0 2)

theorem memInjWrite_stored {s : State} (hidle : s.flag memInj_Armed = false) {v : W32} (hstack : bitsAt v.toNat 3 3 < 6)
    (hmode : bitsAt v.toNat 0 2 < 3) : memInjWrite v s =
      if bitsAt v.toNat 0 2 = 0 then s.injStored v.toNat else (s.injStored v.toNat).setF memInj_Armed 1 := by
  have hiff : (bitsAt v.toNat 0 2 = 1 ∨ bitsAt v.toNat 0 2 = 2) ↔ ¬ bitsAt v.toNat 0 2 = 0 := by omega
  simp only [memInjWrite, hidle, Bool.false_eq_true, if_false, setIf_ok _ _ _ (decide_eq_true hstack),
    setIf_ok _ _ _ (decide_eq_true hmode), hiff, ite_not]
  rfl

theorem wordsKept_injStored (s : State) (v : Nat) : WordsKept [memInj] s (s.injStored v) :=
  ((wordsKept_setF s memInj_Stack _ (by decide)).trans (wordsKept_setF _ memInj_Mode _ (by decide))).mono (by decide)

theorem getF_injStored (s : State) (v : Nat) : (s.injStored v).getF memInj_Stack = bitsAt v 3 3 ∧
    (s.injStored v).getF memInj_Mode = bitsAt v 0 2 ∧ (s.injStored v).getF memInj_Armed = s.getF memInj_Armed := by
  unfold State.injStored
  refine ⟨?_, ?_, ?_⟩
  · rw [getF_setF_ne_bits _ memInj_Mode memInj_Stack _ (by decide) (by decide) rfl (by decide),
      getF_setF_same _ _ _ (by decide)]
    exact Nat.mod_eq_of_lt (bitsAt_lt ..)
  · rw [getF_setF_same _ _ _ (by decide)]
    exact Nat.mod_eq_of_lt (bitsAt_lt ..)
  · rw [getF_setF_ne_bits _ memInj_Mode memInj_Armed _ (by decide) (by decide) rfl (by decide),
      getF_setF_ne_bits _ memInj_Stack memInj_Armed _ (by decide) (by decide) rfl (by decide)]

/-- A write of values that INJ has is stored, and arms where it names a mode. -/
theorem memInj_stored {s : State} (hidle : s.flag memInj_Armed = false) {v : W32} (hstack : bitsAt v.toNat 3 3 < 6)
    (hmode : bitsAt v.toNat 0 2 < 3) : ∃ t, exec (.memInjWrite v) s = .next t ∧ t.getF memInj_Stack = bitsAt v.toNat 3 3 ∧
      t.getF memInj_Mode = bitsAt v.toNat 0 2 ∧ t.getF memInj_Armed = b2n (bitsAt v.toNat 0 2 != 0) ∧ WordsKept [memInj] s t ∧
      Frame [.regs] s t := by
  have hexec : exec (.memInjWrite v) s = .next (memInjWrite v s) := rfl
  have hframe : Frame [.regs] s (s.injStored v.toNat) := ((frame_setF _ _ _).trans (frame_setF _ _ _)).mono (by decide)
  have hkept := wordsKept_injStored s v.toNat
  obtain ⟨hst, hmd, har⟩ := getF_injStored s v.toNat
  rw [hexec, memInjWrite_stored hidle hstack hmode]
  by_cases h0 : bitsAt v.toNat 0 2 = 0
  · rw [if_pos h0]
    have hzero : s.getF memInj_Armed = 0 := by simpa [State.flag] using hidle
    exact ⟨_, rfl, hst, hmd, by rw [har, hzero, h0]; rfl, hkept, hframe⟩
  · rw [if_neg h0]
    have hother {f : Fld} (hf : f.lsb + f.width ≤ 32) (ho : f.off = memInj)
        (hbits : f.lsb + f.width ≤ memInj_Armed.lsb ∨ memInj_Armed.lsb + memInj_Armed.width ≤ f.lsb) :
        ((s.injStored v.toNat).setF memInj_Armed 1).getF f = (s.injStored v.toNat).getF f :=
      getF_setF_ne_bits _ _ _ _ (by decide) hf ho hbits
    refine ⟨_, rfl, ?_, ?_, ?_, ?_, (hframe.trans (frame_setF _ _ _)).mono (by decide)⟩
    · rw [hother (by decide) rfl (by decide), hst]
    · rw [hother (by decide) rfl (by decide), hmd]
    · rw [getF_setF_same _ _ _ (by decide), bne_iff_ne.mpr h0]
      rfl
    · exact (hkept.trans (wordsKept_setF _ memInj_Armed 1 (by decide))).mono (by decide)

/-! ## Counters -/

/-- A key that a filter drops reads as unlisted, and any other as before. -/
theorem mget_filter {α : Type} (d : Nat → α) (m : SMap α) (p : Nat → Bool) (k : Nat) :
    mget d (m.filter fun e => p e.1) k = if p k then mget d m k else d k := by
  induction m with
  | nil => simp
  | cons e m ih =>
    obtain ⟨k', v⟩ := e
    by_cases hk : k' = k
    · subst hk
      by_cases hp : p k' = true
      · simp [hp, mget]
      · simpa [hp] using ih
    · by_cases hp : p k' = true <;> simpa [hp, mget, hk] using ih

theorem word_clearCounters (s : State) (p : Nat → Bool) (off : Nat) :
    (s.clearCounters p).word off = if p off then resetWord s.part off else s.word off := by
  refine (mget_filter (resetWord s.part) s.regs (fun k => !p k) off).trans ?_
  cases p off <;> rfl

theorem frame_clearCounters (s : State) (p : Nat → Bool) : Frame [.regs, .incNow] s (s.clearCounters p) := by
  intro c hc
  cases c <;> simp_all [Comp.same]

theorem clrCntMem_spec (s : State) : ∃ t, exec .clrCntMem s = .next t ∧
    (∀ off ∈ memCounters, t.word off = resetWord s.part off) ∧ WordsKept memCounters s t ∧ Frame [.regs, .incNow] s t := by
  refine ⟨_, rfl, fun off hoff => ?_, fun off hoff => ?_, frame_clearCounters s _⟩
  · rw [clrCntMem, word_clearCounters, if_pos (decide_eq_true hoff)]
  · rw [clrCntMem, word_clearCounters, if_neg (by simpa using hoff)]

/-! ## BAR2 (R372, R427, R436) -/

theorem bar2_asleep {s : State} (hio : s.pwr.ioLow = false) (hsleep : s.pcie.asleep = true) (off n : Nat) :
    exec (.bar2Read off n) s = .next (State.aer { s with bar2Data := [], bar2Ep := false } 20) ∧
      ∀ bs poi, exec (.bar2Write off bs poi) s = .next (s.aer 20) := by
  simp [exec, execBar2Read, execBar2Write, bar2Read, bar2Write, hio, hsleep]

section
variable {s : State} {off n : Nat} (hin : off + n ≤ s.bar2Size) (hon : s.barOn = true)
include hin hon

/-- A read through the window delivers what its access reads. -/
theorem bar2Read_spec (hn : n ≤ s.pcie.maxRead) :
    let r := s.hbmRead 7 0x1FF (s.getF memBar2Base_Addr * 2 ^ 30 + off) n
    ∃ t, exec (.bar2Read off n) s = .next t ∧ t.bar2Data = r.2.1 ∧ t.bar2Ep = r.2.2 ∧ t.mem = r.1.mem ∧
      t.hearth = s.hearth := by
  intro r
  have hframe : Frame hbmParts s r.1 := frame_hbmRead _ _ _ _
  have hparts := hon
  simp only [State.barOn, Bool.and_eq_true, Bool.not_eq_true'] at hparts
  obtain ⟨⟨⟨-, hio⟩, -⟩, hsleep⟩ := hparts
  have hexec : exec (.bar2Read off n) s = .next { r.1 with bar2Data := r.2.1, bar2Ep := r.2.2 } := by
    have hsize : ¬ s.bar2Size < off + n := Nat.not_lt.mpr hin
    have hmax : ¬ s.pcie.maxRead < n := Nat.not_lt.mpr hn
    simp only [exec, execBar2Read, bar2Read, hio, hsleep, hsize, hmax, hon, decide_false, Bool.or_false, Bool.false_eq_true,
      Bool.not_true, if_false]
    rfl
  exact ⟨_, hexec, rfl, rfl, rfl, hframe .hearth (by decide)⟩

/-- A write through the window is an access, which AER reports where it is poisoned. -/
theorem bar2Write_spec {bs : List Byte} (poi : Bool) (hl : bs.length = n) (hn : n ≤ s.pcie.maxPayload) :
    ∃ t, exec (.bar2Write off bs poi) s = .next t ∧
      t.mem = ((if poi then s.aer 12 else s).hbmWrite 7 0x1FF (s.getF memBar2Base_Addr * 2 ^ 30 + off) bs poi).mem ∧
      t.hearth = s.hearth ∧ t.hostMem = s.hostMem := by
  subst hl
  let s1 : State := if poi then s.aer 12 else s
  have hframe : Frame hbmParts s1 (s1.hbmWrite 7 0x1FF (s.bar2Addr off) bs poi) := frame_hbmWrite _ _ _ _ _
  have hs1 : s1.hearth = s.hearth ∧ s1.hostMem = s.hostMem := by
    simp only [s1]
    split <;> exact ⟨rfl, rfl⟩
  have hparts := hon
  simp only [State.barOn, Bool.and_eq_true, Bool.not_eq_true'] at hparts
  obtain ⟨⟨⟨-, hio⟩, -⟩, hsleep⟩ := hparts
  have hexec : exec (.bar2Write off bs poi) s = .next (s1.hbmWrite 7 0x1FF (s.bar2Addr off) bs poi) := by
    have hsize : ¬ s.bar2Size < off + bs.length := Nat.not_lt.mpr hin
    have hmax : ¬ s.pcie.maxPayload < bs.length := Nat.not_lt.mpr hn
    simp only [exec, execBar2Write, bar2Write, hio, hsleep, hsize, hmax, hon, decide_false, Bool.or_false, Bool.false_eq_true,
      Bool.not_true, if_false]
    rfl
  exact ⟨_, hexec, rfl, (hframe .hearth (by decide)).trans hs1.1, (hframe .hostMem (by decide)).trans hs1.2⟩

end

end Sys2Proof.Machine
end

section
/-!
# HBM stores and delivers
-/

set_option autoImplicit false

namespace Sys2Proof.Machine

/-- Settles O52, part by part. -/
theorem hbmStoresAndDelivers : Obligations.HbmStoresAndDelivers := by
  refine ⟨fun s m a hb hinj hidle hm => ⟨?whole, ?part, ?fresh, ?poison⟩, fun s m a err hb => ⟨?taken, ?syncing, ?acq⟩,
    fun s sec e hheld => ⟨?merge, ?failed, ?unread, ?unneeded, ?early⟩, fun s pc b => ⟨refresh_spec s pc b, ?noChannel⟩,
    fun s st c hst => ⟨hotRefresh_spec s hst c, ?leak, ?noLeak⟩,
    fun s v => ⟨fun h => memInj_refused h v, fun h hs hmode => memInj_stored h hs hmode⟩, clrCntMem_spec,
    fun s off n hio hsleep => bar2_asleep hio hsleep off n,
    fun s off n hin hon => ⟨bar2Read_spec hin hon, fun bs poi hl => bar2Write_spec hin hon poi hl⟩⟩
  case whole => exact sectorWrite_whole hb hidle hm hinj
  case part => exact fun data mask h0 h1 hheld hroom => sectorWrite_part hb hidle hm h0 h1 hheld hroom data
  case fresh =>
    exact fun hheld hd hf => ⟨sectorRead_clean hb hidle hm hheld (secDecode_fresh hd hf),
      fun i e hi he => sectorRead_symbol hb hidle hm hheld hd hf hi he⟩
  case poison => exact fun hheld hd hf => sectorRead_poison hb hidle hm hheld (secDecode_poison hd hf)
  case taken => exact fun h => congrArg Host.Outcome.next (hbmRequest_waits (r := ⟨m, a, none, err⟩) hb (.inl h))
  case syncing => exact fun h => congrArg Host.Outcome.next (hbmRequest_waits (r := ⟨m, a, none, err⟩) hb (.inr h))
  case acq =>
    intro c n hsync hw hslot hlo hhi hacq hbuf
    have hyield := hbmRequest_yields (r := ⟨m, a, none, err⟩) hb hsync hw hslot hlo hhi hacq
    exact ⟨_, congrArg Host.Outcome.next hyield, acqTurn_spec hacq hbuf⟩
  case merge =>
    intro hb hinj hd hf
    have hrmw := counted_writeBack_merges hheld hb hinj hd hf (mergeRmw_notMem sec)
    have hevict := counted_writeBack_merges hheld hb hinj hd hf (mergeEvict_notMem sec)
    exact ⟨fun h => ⟨_, exec_rmw_read hheld h 0, hrmw⟩, fun hn ho => ⟨_, exec_rmw_evict hheld hn ho 0, hevict⟩,
      fun h => ⟨⟨_, exec_rmw_due hheld h 0, hrmw⟩, _, exec_mergeTimeout_due hheld h, hrmw⟩⟩
  case failed => exact fun hb hdue => ⟨_, exec_mergeTimeout_due hheld hdue, counted_writeBack_bad hheld hb⟩
  case unread => exact exec_rmw_unread hheld
  case unneeded => exact exec_rmw_unneeded hheld
  case early => exact exec_early hheld
  case noChannel =>
    intro hpc
    simp [exec, execHbmRefresh, State.when, Nat.not_lt.mpr hpc]
  case leak => exact fun _ hn => bucketLeak_spec s hst hn
  case noLeak =>
    intro h
    have hnone : s.leaksDue st = 0 := h.elim (fun h0 => (congrArg _ h0).trans (Nat.div_zero _)) id
    rw [exec_hbmBucketLeak s hst, bucketLeak_none s st hnone]

end Sys2Proof.Machine
end

section
/-!
# Rules of the ingest lanes (R39 to R45, R53)

What a field reads after a write of another field of the same register pair, what the updates of a lane leave alone, and what the
arrival of a block brings before the block is looked at.
-/

set_option autoImplicit false

namespace Sys2Proof.Machine

/-! ## Fields of a register pair (R12) -/

/-- Two neighbouring register words as one number, the low word first. -/
def State.pairNat (s : State) (off : Nat) : Nat := 2 ^ 32 * (s.word (off + 4)).toNat + (s.word off).toNat

theorem getF_eq_bitsAt_pairNat (s : State) (f : Fld) : s.getF f =
    if f.lsb + f.width ≤ 32 then bitsAt (s.pairNat f.off % 2 ^ 32) f.lsb f.width else bitsAt (s.pairNat f.off) f.lsb f.width := by
  simp only [State.getF, State.regNat, State.pairNat]
  split
  · rw [Nat.mul_add_mod, Nat.mod_eq_of_lt (s.word f.off).isLt]
  · rw [Nat.add_comm]

/-- A bit of a field is a bit of its pair. -/
theorem testBit_getF (s : State) (f : Fld) (i : Nat) :
    (s.getF f).testBit i = (decide (i < f.width) && (s.pairNat f.off).testBit (f.lsb + i)) := by
  rw [getF_eq_bitsAt_pairNat]
  split
  next h => rw [bitsAt_mod _ _ _ _ h, testBit_bitsAt]
  next => rw [testBit_bitsAt]

theorem testBit_pairNat (s : State) (off i : Nat) :
    (s.pairNat off).testBit i = if i < 32 then (s.word off).toNat.testBit i else (s.word (off + 4)).toNat.testBit (i - 32) :=
  Nat.testBit_two_pow_mul_add _ (s.word off).isLt i

/-- A write of a field changes no bit of its pair that lies outside the field. -/
theorem testBit_pairNat_setF (s : State) (f : Fld) (v : Nat) {i : Nat} (hi : i < 64) (hout : ¬ (f.lsb ≤ i ∧ i < f.lsb + f.width)) :
    ((s.setF f v).pairNat f.off).testBit i = (s.pairNat f.off).testBit i := by
  by_cases hw : f.lsb + f.width ≤ 32
  · rw [testBit_pairNat, testBit_pairNat, testBit_word_setF s f v i hw, if_neg hout,
      word_setF_ne32 s f v hw (Nat.ne_of_gt (Nat.lt_add_of_pos_right (by decide)))]
  · have hpair : (s.setF f v).pairNat f.off = putBits (s.pairNat f.off) f.lsb f.width v % 2 ^ 64 := by
      have hne : f.off ≠ f.off + 4 := by omega
      simp only [State.setF, State.regNat, if_neg hw, State.pairNat, word_setWord_ne _ _ hne, word_setWord_same, BitVec.toNat_ofNat]
      rw [Nat.add_comm (s.word f.off).toNat]
      omega
    rw [hpair, Nat.testBit_mod_two_pow, testBit_putBits, if_neg hout, decide_eq_true hi, Bool.true_and]

/-- A field is left alone by a write of a field of the same register that shares no bit with it. -/
theorem getF_setF_disjoint (s : State) (f g : Fld) (v : Nat) (hg : g.lsb + g.width ≤ 64) (ho : g.off = f.off)
    (hb : g.lsb + g.width ≤ f.lsb ∨ f.lsb + f.width ≤ g.lsb) : (s.setF f v).getF g = s.getF g := by
  refine Nat.eq_of_testBit_eq fun i => ?_
  rw [testBit_getF, testBit_getF, ho]
  by_cases hi : i < g.width
  · rw [testBit_pairNat_setF s f v (by omega) (by omega)]
  · rw [decide_eq_false hi, Bool.false_and, Bool.false_and]

theorem wordsKept_setF_pair (s : State) (f : Fld) (v : Nat) : WordsKept [f.off, f.off + 4] s (s.setF f v) := by
  intro off hoff
  simp only [List.mem_cons, List.not_mem_nil, or_false, not_or] at hoff
  exact word_setF_ne s f v hoff.1 hoff.2

/-- A field of up to 64 bits whose words are kept. -/
theorem WordsKept.getF_pair {offs : List Nat} {s t : State} (h : WordsKept offs s t) (f : Fld) (ho : f.off ∉ offs)
    (ho' : f.off + 4 ∉ offs) : t.getF f = s.getF f := by
  simp only [State.getF, State.regNat, h f.off ho, h _ ho']

theorem flag_eq_false {s : State} {f : Fld} : s.flag f = false ↔ s.getF f = 0 := by simp [State.flag]

theorem flag_congr {s t : State} {f : Fld} (h : t.getF f = s.getF f) : t.flag f = s.flag f := by rw [State.flag, State.flag, h]

/-! ## Lanes -/

theorem lane_congr {s t : State} (h : t.ing.lanes = s.ing.lanes) (l : Nat) : t.lane l = s.lane l := by
  rw [State.lane, State.lane, h]

@[simp] theorem lane_setLane (s : State) (l : Nat) (x : Lane) : (s.setLane l x).lane l = x := mget_mput_same _ _ _ _

@[simp] theorem lane_setF (s : State) (f : Fld) (v l : Nat) : (s.setF f v).lane l = s.lane l := lane_congr (by simp) l

theorem frame_ing (s : State) (x : Ing) : Frame [.ing] s { s with ing := x } := by
  intro c hc
  cases c <;> simp_all [Comp.same]

theorem frame_setLane (s : State) (l : Nat) (x : Lane) : Frame [.ing] s (s.setLane l x) := frame_ing s _

theorem wordsKept_ing (s : State) (x : Ing) : WordsKept [] s { s with ing := x } := fun _ _ => rfl

theorem getF_ing (s : State) (x : Ing) (f : Fld) : State.getF { s with ing := x } f = s.getF f := getF_congr rfl rfl f

theorem wordsKept_setLane (s : State) (l : Nat) (x : Lane) : WordsKept [] s (s.setLane l x) := wordsKept_ing s _

theorem laneCount_off {s : State} {l : Nat} (h : s.flag (ingLaneCtrl_En l) = false) (f : Fld) (k : Nat) :
    s.laneCount l f k = s := by
  rw [State.laneCount, h, State.when, if_neg Bool.false_ne_true]

theorem laneCount_on {s : State} {l : Nat} (h : s.flag (ingLaneCtrl_En l) = true) (f : Fld) (k : Nat) :
    s.laneCount l f k = s.bump f k := by
  rw [State.laneCount, h, State.when, if_pos rfl]

/-- A lane counter changes its own register and the record of increments. -/
theorem laneCount_keeps (s : State) (l : Nat) {f : Fld} (k : Nat) (hw : f.lsb + f.width ≤ 32) :
    WordsKept [f.off] s (s.laneCount l f k) ∧ Frame [.regs, .incNow] s (s.laneCount l f k) := by
  cases h : s.flag (ingLaneCtrl_En l) with
  | false =>
    rw [laneCount_off h]
    exact ⟨.refl _ _, .refl _ _⟩
  | true =>
    rw [laneCount_on h]
    exact ⟨wordsKept_bump s f k hw, frame_bump s f k⟩

/-! ## A block that arrives (R39, R40) -/

/-- The state when a block has arrived by light: SIGNAL is set, and in the far-end loop the block goes out on the monitor fibre. -/
def State.lit (s : State) (l : Nat) (sync : BitVec 2) (raw : W64) : State :=
  let s1 := s.setF (ingLaneStatus_Signal l) 1
  if s.getF (ingLaneCtrl_Loop l) = 3 then
    { s1 with ing := { s1.ing with monBlock := mput (fun _ => 0) s1.ing.monBlock (l % 32) (sync ++ raw) } }
  else s1

/-- A lane after the descrambler and the block-lock machine have taken a block, in block lock. -/
def Lane.taking (x : Lane) (sync : BitVec 2) (raw : W64) : Lane :=
  let k := blockLock true (syncValid sync) x.good x.winCnt x.winBad
  { x with hist := (descramble x.hist (bitsLsb 64 raw.toNat)).2, good := k.1, winCnt := k.2.1, winBad := k.2.2.1 }

/-- The state in which a block in block lock meets tick lock. -/
def State.reached (s : State) (l : Nat) (sync : BitVec 2) (raw : W64) : State :=
  (s.lit l sync raw).setLane l ((s.lane l).taking sync raw)

section
variable (s : State) (l : Nat) (sync : BitVec 2) (raw : W64)

theorem lit_keeps : (s.lit l sync raw).lane l = s.lane l ∧ Frame [.regs, .ing] s (s.lit l sync raw) ∧
    (s.lit l sync raw).regs = (s.setF (ingLaneStatus_Signal l) 1).regs := by
  have hset : Frame [.regs, .ing] s (s.setF (ingLaneStatus_Signal l) 1) := (frame_setF s _ _).mono (by decide)
  unfold State.lit
  extract_lets s1
  split
  · exact ⟨lane_setF _ _ _ _, (hset.trans (frame_ing _ _)).mono (by decide), rfl⟩
  · exact ⟨lane_setF _ _ _ _, hset, rfl⟩

theorem word_lit (off : Nat) : (s.lit l sync raw).word off = (s.setF (ingLaneStatus_Signal l) 1).word off := by
  obtain ⟨-, hframe, hregs⟩ := lit_keeps s l sync raw
  exact word_congr hregs ((hframe .part (by decide)).trans (part_setF _ _ _).symm) off

theorem getF_lit (f : Fld) : (s.lit l sync raw).getF f = (s.setF (ingLaneStatus_Signal l) 1).getF f := by
  simp only [State.getF, State.regNat, word_lit]

theorem wordsKept_lit : WordsKept [ingLaneStatus l] s (s.lit l sync raw) := fun off hoff =>
  (word_lit s l sync raw off).trans (wordsKept_setF s (ingLaneStatus_Signal l) 1 (by simp [ingLaneStatus_Signal]) off hoff)

/-- SIGNAL is bit 0 of STATUS. -/
theorem getF_setSignal (v : Nat) {f : Fld} (hoff : f.off = ingLaneStatus l) (hlsb : 1 ≤ f.lsb) (hw : f.lsb + f.width ≤ 32) :
    (s.setF (ingLaneStatus_Signal l) v).getF f = s.getF f :=
  getF_setF_ne_bits s _ _ v (by simp [ingLaneStatus_Signal]) hw hoff (.inr hlsb)

@[simp] theorem lane_reached : (s.reached l sync raw).lane l = (s.lane l).taking sync raw := lane_setLane _ _ _

theorem frame_reached : Frame [.regs, .ing] s (s.reached l sync raw) :=
  ((lit_keeps s l sync raw).2.1.trans (frame_setLane _ _ _)).mono (by decide)

theorem wordsKept_reached : WordsKept [ingLaneStatus l] s (s.reached l sync raw) :=
  (wordsKept_lit s l sync raw).trans (wordsKept_setLane _ _ _)

end

/-- The payload of a block of a lane. -/
def Lane.payload (x : Lane) (raw : W64) : Nat := ofBitsLsb (descramble x.hist (bitsLsb 64 raw.toNat)).1

/-- Under both locks a block that keeps block lock goes to its place in the lane tick. -/
theorem laneBlock_locked {s : State} {l : Nat} {sync : BitVec 2} (raw : W64) (hlisten : s.laneListens l = true)
    (hloop : s.getF (ingLaneCtrl_Loop l) ≠ 1) (hblock : s.flag (ingLaneStatus_BlockLock l) = true)
    (htick : s.flag (ingLaneStatus_TickLock l) = true)
    (hkeep : (blockLock true (syncValid sync) (s.lane l).good (s.lane l).winCnt (s.lane l).winBad).2.2.2 = true) :
    s.laneBlock l sync raw =
      if (s.lane l).pos = 0 then (s.reached l sync raw).headerLocked l sync ((s.lane l).payload raw)
      else (s.reached l sync raw).dataLocked l sync ((s.lane l).payload raw) := by
  have hlit : s.laneBlock l sync raw = (s.lit l sync raw).lineBlock l sync raw := by
    rw [State.laneBlock, hlisten, if_neg hloop]
    rfl
  have hblock' : (s.lit l sync raw).flag (ingLaneStatus_BlockLock l) = true := by
    rw [State.flag, getF_lit, getF_setSignal s l 1 rfl (Nat.le_refl 1) (by simp [ingLaneStatus_BlockLock])]
    exact hblock
  have htick' : (s.lit l sync raw).flag (ingLaneStatus_TickLock l) = true := by
    rw [State.flag, getF_lit, getF_setSignal s l 1 rfl (by simp [ingLaneStatus_TickLock]) (by simp [ingLaneStatus_TickLock])]
    exact htick
  rw [hlit, State.lineBlock]
  simp only [(lit_keeps s l sync raw).1, hblock', htick', hkeep]
  rfl

end Sys2Proof.Machine
end

section
/-!
# Blocks of a lane under tick lock (R42 to R44, R53, R61)
-/

set_option autoImplicit false

namespace Sys2Proof.Machine

/-! ## Data blocks (R61) -/

/-- A lane tick with the payload of one of its data blocks. -/
def LaneTick.put (t : LaneTick) (pos p : Nat) : LaneTick :=
  { t with data := BitVec.ofNat 2496 (putBits t.data.toNat (64 * (pos - 1)) 64 p) }

/-- A data block with a data sync header goes into the newest lane tick and through the CRC16. -/
theorem dataLocked_data (s : State) (l p : Nat) {h : LaneTick} {b : List LaneTick} (hbuf : (s.lane l).buf = h :: b) :
    s.dataLocked l 1 p = s.setLane l { s.lane l with
      buf := h.put (s.lane l).pos p :: b
      crc := crcBits 16 0x1021 (s.lane l).crc (bitsLsb 64 p)
      pos := ((s.lane l).pos + 1) % 40 } := by
  rw [State.dataLocked, hbuf]
  rfl

/-! ## The device tick of a header (R52, R53) -/

theorem leastBelow_lt {n i : Nat} {p : Nat → Bool} (h : leastBelow n p = some i) : i < n :=
  List.mem_range.mp (List.mem_of_find?_eq_some h)

/-- The words of channels lie in front of those of lanes. -/
theorem chan_notMem_ingLaneStatus {off : Nat} (h : off < 0x81000) (l : Nat) : off ∉ [ingLaneStatus l] := by
  simp only [List.mem_singleton, ingLaneStatus]
  omega

theorem laneOffset_of_wordsKept {s t : State} {l : Nat} (h : WordsKept [ingLaneStatus l] s t) :
    t.laneOffset l = s.laneOffset l := by
  have hcfg (c : Nat) : t.word (ingChCfg c) = s.word (ingChCfg c) :=
    h _ (by simp only [List.mem_singleton, ingChCfg, ingLaneStatus]; omega)
  have hen (c : Nat) : t.flag (ingChCfg_En c) = s.flag (ingChCfg_En c) := by
    simp [State.flag, State.getF, State.regNat, ingChCfg_En, hcfg]
  have hcovers (c f : Nat) : t.chCovers c f = s.chCovers c f := by
    simp [State.chCovers, State.chFibres, State.getF, State.regNat, ingChCfg_FirstFibre, ingChCfg_Fibres, hcfg]
  have hoff (c : Nat) (hc : c < 16) : t.getF (ingChTickOffset_Offset c) = s.getF (ingChTickOffset_Offset c) :=
    h.getF (by simp [ingChTickOffset_Offset])
      (chan_notMem_ingLaneStatus (by simp only [ingChTickOffset_Offset, ingChTickOffset]; omega) l)
  have hchan : t.chanOf l = s.chanOf l := by simp only [State.chanOf, hen, hcovers]
  unfold State.laneOffset
  simp only [hchan, hcovers]
  split
  next c hc => exact hoff c (leastBelow_lt hc)
  next =>
    split
    next c hc => exact hoff c (leastBelow_lt hc)
    next => rfl

theorem devTick_congr {s t : State} (h : t.frc = s.frc) (off k : Nat) : t.devTick off k = s.devTick off k := by
  simp only [State.devTick, State.tick, h]

/-- The device tick of the block in position 0 whose header bears TICK k (R53). -/
def State.hdrDev (s : State) (l k : Nat) : Nat := s.devTick (s.laneOffset l) k

theorem hdrDev_reached (s : State) (l : Nat) (sync : BitVec 2) (raw : W64) (k : Nat) :
    (s.reached l sync raw).hdrDev l k = s.hdrDev l k := by
  rw [State.hdrDev, laneOffset_of_wordsKept (wordsKept_reached s l sync raw),
    devTick_congr (frame_reached s l sync raw .frc (by decide)), State.hdrDev]

/-! ## A passing header (R42, R53, R55) -/

/-- ARRIVAL of a header whose lane tick is of a device tick: the saturated number of cycles from that tick's start (R53). -/
def State.arrivalOf (s : State) (dev : Nat) : Nat :=
  unsint 10 (clampInt (-512) 511 (sint 64 (s.frc.toNat + 2 ^ 64 - 64 * dev)))

/-- The state when a passing header is measured and observed, and nothing is counted yet. -/
def State.hdrSeen (s : State) (l p : Nat) : State :=
  let s1 := s.setF (ingLaneStatus_Arrival l) (s.arrivalOf (s.hdrDev l (hdrTick p)))
  let s2 := s1.setLane l { s.lane l with measured := true, offset := s.laneOffset l }
  (((s2.setF (ingLaneHdrObs_Status l) (hdrStatus p)).setF (ingLaneHdrObs_Tick l) (hdrTick p)).setF
    (ingLaneHdrObs_Cycle l) s.cycle).setF (ingLaneHdrObs_DevTick l) (s.tick % 2 ^ 24)

section
variable (s : State) (l p : Nat)

/-- What a passing header counts and raises stands in SRC_ERR and ING.STATUS. -/
theorem hdrPass_keeps : WordsKept [ingLaneSrcErr l, ingStatus] (s.hdrSeen l p) (s.hdrPass l p) ∧
    Frame [.regs, .setNow, .incNow] (s.hdrSeen l p) (s.hdrPass l p) := by
  have hseen : s.hdrPass l p =
      let s3 := s.hdrSeen l p
      let s4 := if (hdrStatus p).testBit 0 || (hdrStatus p).testBit 2 then s3.laneCount l (ingLaneSrcErrF l) 1 else s3
      if s4.laneMisaligned l then s4.raise ingStatus_AlignViolation else s4 := by
    rw [State.hdrPass]
    simp only [lane_setF]
    rfl
  rw [hseen]
  extract_lets s3 s4
  have h4 : WordsKept [ingLaneSrcErr l] s3 s4 ∧ Frame [.regs, .incNow] s3 s4 := by
    unfold s4
    split
    · exact laneCount_keeps s3 l (f := ingLaneSrcErrF l) 1 (by simp [ingLaneSrcErrF])
    · exact ⟨.refl _ _, .refl _ _⟩
  obtain ⟨hwords, hframe⟩ := h4
  split
  · exact ⟨hwords.trans (wordsKept_raise s4 ingStatus_AlignViolation (by decide)),
      (hframe.trans (frame_raise s4 _)).mono (by decide)⟩
  · exact ⟨hwords.mono (by simp), hframe.mono (by decide)⟩

theorem lane_hdrPass : (s.hdrPass l p).lane l = { s.lane l with measured := true, offset := s.laneOffset l } := by
  have hing : (s.hdrPass l p).ing = (s.hdrSeen l p).ing := (hdrPass_keeps s l p).2 .ing (by decide)
  rw [lane_congr (congrArg Ing.lanes hing)]
  simp [State.hdrSeen]

theorem frame_hdrPass : Frame [.regs, .setNow, .incNow, .ing] s (s.hdrPass l p) := by
  have hseen : Frame [.regs, .ing] s (s.hdrSeen l p) :=
    ((((((frame_setF s _ _).trans (frame_setLane _ _ _)).trans (frame_setF _ _ _)).trans (frame_setF _ _ _)).trans
      (frame_setF _ _ _)).trans (frame_setF _ _ _)).mono (by decide)
  exact (hseen.trans (hdrPass_keeps s l p).2).mono (by decide)

/-- A field of STATUS or HDR_OBS after a passing header is as it was observed. -/
theorem getF_hdrPass {f : Fld} (h : f.off = ingLaneStatus l ∨ f.off = ingLaneHdrObs l) :
    (s.hdrPass l p).getF f = (s.hdrSeen l p).getF f := by
  refine (hdrPass_keeps s l p).1.getF_pair f ?_ ?_ <;>
    simp only [List.mem_cons, List.not_mem_nil, or_false, not_or, ingLaneStatus, ingLaneHdrObs, ingLaneSrcErr, ingStatus] at h ⊢ <;>
    omega

theorem getF_arrival_hdrPass :
    (s.hdrPass l p).getF (ingLaneStatus_Arrival l) = s.arrivalOf (s.hdrDev l (hdrTick p)) := by
  have hne {t : State} {f : Fld} {v : Nat} (hoff : f.off = ingLaneHdrObs l) :
      (t.setF f v).getF (ingLaneStatus_Arrival l) = t.getF (ingLaneStatus_Arrival l) := by
    refine (wordsKept_setF_pair t f v).getF (by simp [ingLaneStatus_Arrival]) ?_
    simp only [hoff, List.mem_cons, List.not_mem_nil, or_false, not_or, ingLaneStatus_Arrival, ingLaneStatus, ingLaneHdrObs]
    omega
  have hlt : s.arrivalOf (s.hdrDev l (hdrTick p)) < 2 ^ 10 := by
    unfold State.arrivalOf unsint
    omega
  rw [getF_hdrPass s l p (.inl rfl), State.hdrSeen, hne rfl, hne rfl, hne rfl, hne rfl, getF_setLane,
    getF_setF_same _ _ _ (by simp [ingLaneStatus_Arrival])]
  exact Nat.mod_eq_of_lt hlt

theorem getF_hdrTick_hdrPass : (s.hdrPass l p).getF (ingLaneHdrObs_Tick l) = hdrTick p := by
  have habove (t : State) (f : Fld) (v : Nat) (hoff : f.off = ingLaneHdrObs l) (hlow : f.lsb + f.width ≤ 32) :
      (t.setF f v).getF (ingLaneHdrObs_Tick l) = t.getF (ingLaneHdrObs_Tick l) :=
    getF_setF_disjoint t f _ v (by simp [ingLaneHdrObs_Tick]) hoff.symm (.inr hlow)
  rw [getF_hdrPass s l p (.inr rfl), State.hdrSeen, habove _ _ _ rfl (by simp [ingLaneHdrObs_DevTick]),
    habove _ _ _ rfl (by simp [ingLaneHdrObs_Cycle]), getF_setF_same _ _ _ (by simp [ingLaneHdrObs_Tick])]
  exact Nat.mod_eq_of_lt (bitsAt_lt ..)

theorem getF_hdrStatus_hdrPass : (s.hdrPass l p).getF (ingLaneHdrObs_Status l) = hdrStatus p := by
  have habove (t : State) (f : Fld) (v : Nat) (hoff : f.off = ingLaneHdrObs l) (hlow : f.lsb + f.width ≤ 56) :
      (t.setF f v).getF (ingLaneHdrObs_Status l) = t.getF (ingLaneHdrObs_Status l) :=
    getF_setF_disjoint t f _ v (by simp [ingLaneHdrObs_Status]) hoff.symm (.inr hlow)
  rw [getF_hdrPass s l p (.inr rfl), State.hdrSeen, habove _ _ _ rfl (by simp [ingLaneHdrObs_DevTick]),
    habove _ _ _ rfl (by simp [ingLaneHdrObs_Cycle]), habove _ _ _ rfl (by simp [ingLaneHdrObs_Tick]),
    getF_setF_same _ _ _ (by simp [ingLaneHdrObs_Status])]
  exact Nat.mod_eq_of_lt (bitsAt_lt ..)

end

/-! ## Position 0 under tick lock (R44) -/

/-- A lane after a header whose TICK was due has passed, before it is measured. -/
def Lane.passing (x : Lane) (due : Nat) (verdict : Option (Nat × Bool × Nat)) : Lane :=
  { x with lastTick := due, since := 0, fails := 0, verdict := verdict }

/-- A qualifying header whose TICK is due passes: it is measured, and a lane tick of its device tick begins. -/
theorem headerLocked_passes (s : State) (l p : Nat) (sync : BitVec 2) (hq : s.hdrQualifies l sync p = true)
    (hdue : hdrTick p = ((s.lane l).lastTick + (s.lane l).since + 1) % 2 ^ 24) :
    ∃ verdict, s.headerLocked l sync p =
      ((s.setLane l ((s.lane l).passing (hdrTick p) verdict)).hdrPass l p).beginLaneTick l (s.hdrDev l (hdrTick p)) (statusGood p)
        ((hdrStatus p).testBit 1) := by
  have hpass : (s.hdrQualifies l sync p && hdrTick p == ((s.lane l).lastTick + (s.lane l).since + 1) % 2 ^ 24) = true := by
    rw [hq, Bool.true_and, beq_iff_eq, hdue]
  rw [hdue]
  exact ⟨_, if_pos hpass⟩

theorem hdrQualifies_of_wordsKept {s t : State} {l : Nat} (h : WordsKept [ingLaneStatus l] s t) (sync : BitVec 2) (p : Nat) :
    t.hdrQualifies l sync p = s.hdrQualifies l sync p := by
  have hid : t.getF (ingLaneCtrl_ExpId l) = s.getF (ingLaneCtrl_ExpId l) :=
    h.getF (by simp [ingLaneCtrl_ExpId]) (by simp only [List.mem_singleton, ingLaneCtrl_ExpId, ingLaneCtrl, ingLaneStatus]; omega)
  rw [State.hdrQualifies, State.hdrQualifies, hid]

/-- The newest lane tick is the one that begins. -/
theorem lane_beginLaneTick (s : State) (l dev : Nat) (ok ovr : Bool) : ∃ b g, (s.beginLaneTick l dev ok ovr).lane l =
    { s.lane l with buf := ⟨dev, 0, 0, ok, ovr, true, (s.lane l).losses, none⟩ :: b, crc := 0xFFFF, pos := 1, cleanGen := g } :=
  ⟨_, _, lane_setLane _ _ _⟩

/-- What a passing header leaves: the lane with a new lane tick, ARRIVAL, and the header as observed. -/
theorem headerLocked_spec {s : State} {l p : Nat} {sync : BitVec 2} (hq : s.hdrQualifies l sync p = true)
    (hdue : hdrTick p = ((s.lane l).lastTick + (s.lane l).since + 1) % 2 ^ 24) :
    let t := s.headerLocked l sync p
    let dev := s.hdrDev l (hdrTick p)
    ((t.lane l).fails = 0 ∧ (t.lane l).since = 0 ∧ (t.lane l).lastTick = hdrTick p ∧ (t.lane l).pos = 1 ∧
      (t.lane l).buf.head?.map LaneTick.dev = some dev ∧ (t.lane l).offset = s.laneOffset l) ∧
    t.getF (ingLaneStatus_Arrival l) = s.arrivalOf dev ∧ t.getF (ingLaneHdrObs_Tick l) = hdrTick p ∧
    t.getF (ingLaneHdrObs_Status l) = hdrStatus p ∧ Frame [.regs, .setNow, .incNow, .ing] s t := by
  intro t dev
  obtain ⟨verdict, hpass⟩ := headerLocked_passes s l p sync hq hdue
  generalize hv : s.setLane l ((s.lane l).passing (hdrTick p) verdict) = v at hpass
  obtain ⟨b, g, hlane⟩ := lane_beginLaneTick (v.hdrPass l p) l dev (statusGood p) ((hdrStatus p).testBit 1)
  have ht : t = (v.hdrPass l p).beginLaneTick l dev (statusGood p) ((hdrStatus p).testBit 1) := hpass
  have hget (f : Fld) : t.getF f = (v.hdrPass l p).getF f := by
    rw [ht]
    exact getF_setLane _ _ _ _
  rw [← ht, lane_hdrPass] at hlane
  subst hv
  refine ⟨?_, (hget _).trans (getF_arrival_hdrPass _ l p), (hget _).trans (getF_hdrTick_hdrPass _ l p),
    (hget _).trans (getF_hdrStatus_hdrPass _ l p), ?_⟩
  · rw [hlane, lane_setLane]
    exact ⟨rfl, rfl, rfl, rfl, rfl, rfl⟩
  · rw [ht]
    exact (((frame_setLane s _ _).trans (frame_hdrPass _ l p)).trans (frame_setLane _ _ _)).mono (by decide)

/-- Settles O12: the block reaches tick lock with both locks held, and there its position decides. -/
theorem laneBlocksUnderTickLock : Obligations.LaneBlocksUnderTickLock := by
  intro s l raw hlisten hloop hblock htick x p hkeep
  refine ⟨fun hpos h b hbuf => ?data, fun hpos hq hdue => ?header⟩
  case data =>
    have hreach := laneBlock_locked (sync := 1) raw hlisten hloop hblock htick hkeep
    rw [if_neg hpos, dataLocked_data _ l _ (by rw [lane_reached]; exact hbuf), lane_reached] at hreach
    refine ⟨_, congrArg Host.Outcome.next hreach, ?_, ?_, ?_, (wordsKept_reached s l 1 raw).trans (wordsKept_setLane _ _ _),
      ((frame_reached s l 1 raw).trans (frame_setLane _ _ _)).mono (by decide)⟩ <;>
    · rw [lane_setLane]
      rfl
  case header =>
    have hreach := laneBlock_locked (sync := 2) raw hlisten hloop hblock htick hkeep
    have hwords := wordsKept_reached s l 2 raw
    have hframe := frame_reached s l 2 raw
    rw [if_pos hpos] at hreach
    obtain ⟨⟨hfails, hsince, hlast, hpos', hdev, hoff⟩, harr, hobs, hstatus, hframe'⟩ :=
      headerLocked_spec (s := s.reached l 2 raw) ((hdrQualifies_of_wordsKept hwords 2 p).trans hq)
        (by rw [lane_reached]; exact hdue)
    rw [hdrDev_reached] at hdev harr
    rw [laneOffset_of_wordsKept hwords] at hoff
    rw [State.arrivalOf, hframe .frc (by decide)] at harr
    exact ⟨_, congrArg Host.Outcome.next hreach, hfails, hsince, hlast, hpos', hdev, hoff, harr, hobs, hstatus,
      (hframe.trans hframe').mono (by decide)⟩

end Sys2Proof.Machine
end

section
/-!
# Verdicts, loss of light, and the PRBS31 checker of a lane (R43, R45, R60, R70)
-/

set_option autoImplicit false

namespace Sys2Proof.Machine

/-- A command that names a lane of the device runs. -/
theorem when_lane {l : Nat} (hl : l < 256) (s t : State) : s.when (decide (l < 256)) t = t := if_pos (decide_eq_true hl)

/-! ## The CRC verdict (R43, R60) -/

/-- The state when a lane tick has its verdict and nothing is counted yet. -/
def State.judged (s : State) (l dev : Nat) (ok : Bool) : State := s.setLane l { (s.lane l).judge dev ok with verdict := none }

theorem crc16Verdict_due {s : State} {l dev due : Nat} {ok : Bool} (hv : (s.lane l).verdict = some (dev, ok, due))
    (hdue : due ≤ s.cyc) :
    crc16Verdict l s = if ok then s.judged l dev ok else (s.judged l dev ok).laneCount l (ingLaneCrcErrF l) 1 := by
  simp only [crc16Verdict, hv, if_neg (Nat.not_lt.mpr hdue)]
  rfl

theorem crc16Verdict_spec {s : State} {l dev due : Nat} {ok : Bool} (hv : (s.lane l).verdict = some (dev, ok, due))
    (hdue : due ≤ s.cyc) :
    let t := crc16Verdict l s
    (t.lane l).verdict = none ∧ (t.lane l).buf = ((s.lane l).judge dev ok).buf ∧
      (ok = false → s.flag (ingLaneCtrl_En l) = true →
        t.getF (ingLaneCrcErrF l) = satAdd (ingLaneCrcErrF l).width (s.getF (ingLaneCrcErrF l)) 1) ∧
      (ok = true → Frame [.ing] s t) ∧ Frame [.regs, .incNow, .ing] s t ∧ WordsKept [(ingLaneCrcErrF l).off] s t := by
  intro t
  have ht : t = _ := crc16Verdict_due hv hdue
  have hjudged : Frame [.ing] s (s.judged l dev ok) := frame_setLane _ _ _
  have hwords : WordsKept [] s (s.judged l dev ok) := wordsKept_setLane _ _ _
  have hlane : (s.judged l dev ok).lane l = { (s.lane l).judge dev ok with verdict := none } := lane_setLane _ _ _
  have hflag : (s.judged l dev ok).flag (ingLaneCtrl_En l) = s.flag (ingLaneCtrl_En l) := flag_congr (getF_setLane _ _ _ _)
  have hget : (s.judged l dev ok).getF (ingLaneCrcErrF l) = s.getF (ingLaneCrcErrF l) := getF_setLane _ _ _ _
  generalize s.judged l dev ok = u at *
  cases ok with
  | true =>
    rw [ht, if_pos rfl, hlane]
    exact ⟨rfl, rfl, by simp, fun _ => hjudged, hjudged.mono (by decide), hwords.mono (by simp)⟩
  | false =>
    have hcount := laneCount_keeps u l (f := ingLaneCrcErrF l) 1 (by simp [ingLaneCrcErrF])
    have hlane' : (u.laneCount l (ingLaneCrcErrF l) 1).lane l = u.lane l :=
      lane_congr (congrArg Ing.lanes (hcount.2 .ing (by decide))) l
    rw [ht, if_neg Bool.false_ne_true, hlane', hlane]
    refine ⟨rfl, rfl, fun _ hen => ?_, by simp, (hjudged.trans hcount.2).mono (by decide), hwords.trans hcount.1⟩
    rw [laneCount_on (hflag.trans hen), getF_bump_same _ _ _ (by simp [ingLaneCrcErrF]), hget]

/-! ## Loss of light (R45) -/

/-- A lane that loses block lock has lost both locks, and the loss is counted. -/
theorem loseLock_block_spec (s : State) (l dev : Nat) :
    let t := s.loseLock l true dev
    t.getF (ingLaneStatus_Signal l) = s.getF (ingLaneStatus_Signal l) ∧ t.getF (ingLaneStatus_BlockLock l) = 0 ∧
      t.getF (ingLaneStatus_TickLock l) = 0 ∧ (t.lane l).losses = (s.lane l).losses + 1 ∧
      WordsKept [ingLaneStatus l, ingLaneLockLoss l] s t ∧ Frame [.regs, .incNow, .ing] s t := by
  have hcount := laneCount_keeps (s.setF (ingLaneStatus_TickLock l) 0) l (f := ingLaneLockLossF l) 1 (by simp [ingLaneLockLossF])
  have hkeep {f : Fld} (hoff : f.off = ingLaneStatus l) (hw : f.lsb + f.width ≤ 32) :=
    hcount.1.getF hw (by simp only [hoff, List.mem_singleton, ingLaneStatus, ingLaneLockLossF, ingLaneLockLoss]; omega)
  have hother {t : State} {f g : Fld} (hf : f.lsb + f.width ≤ 32) (hg : g.lsb + g.width ≤ 32) (ho : g.off = f.off)
      (hb : g.lsb + g.width ≤ f.lsb ∨ f.lsb + f.width ≤ g.lsb) : (t.setF f 0).getF g = t.getF g :=
    getF_setF_ne_bits t f g 0 hf hg ho hb
  have hcleared {t : State} {f : Fld} (hw : f.lsb + f.width ≤ 64) : (t.setF f 0).getF f = 0 :=
    (getF_setF_same t f 0 hw).trans (Nat.zero_mod _)
  unfold State.loseLock
  simp only [if_true, getF_setLane, lane_setLane]
  generalize (s.setF (ingLaneStatus_TickLock l) 0).laneCount l (ingLaneLockLossF l) 1 = u at *
  refine ⟨?_, hcleared (by simp [ingLaneStatus_BlockLock]), ?_, trivial, ?_, ?_⟩
  · rw [hother, hkeep, hother] <;> simp [ingLaneStatus_Signal, ingLaneStatus_BlockLock, ingLaneStatus_TickLock]
  · rw [hother, hkeep, hcleared] <;> simp [ingLaneStatus_BlockLock, ingLaneStatus_TickLock]
  · exact (((wordsKept_setF s (ingLaneStatus_TickLock l) 0 (by simp [ingLaneStatus_TickLock])).trans hcount.1).trans
      ((wordsKept_setF u (ingLaneStatus_BlockLock l) 0 (by simp [ingLaneStatus_BlockLock])).trans
        (wordsKept_setLane _ _ _))).mono (by simp [ingLaneStatus_TickLock, ingLaneStatus_BlockLock, ingLaneLockLossF])
  · exact (((frame_setF s _ 0).trans hcount.2).trans ((frame_setF u _ 0).trans (frame_setLane _ _ _))).mono (by decide)

theorem laneSignalLoss_spec (s : State) (l : Nat) :
    let t := laneSignalLoss l s
    t.getF (ingLaneStatus_Signal l) = 0 ∧
      (s.getF (ingLaneCtrl_Loop l) = 1 → t.ing = s.ing ∧ t.flag (ingLaneStatus_BlockLock l) = s.flag (ingLaneStatus_BlockLock l) ∧
        t.flag (ingLaneStatus_TickLock l) = s.flag (ingLaneStatus_TickLock l)) ∧
      (s.getF (ingLaneCtrl_Loop l) ≠ 1 → t.getF (ingLaneStatus_BlockLock l) = 0 ∧ t.getF (ingLaneStatus_TickLock l) = 0 ∧
        (s.flag (ingLaneStatus_BlockLock l) = true ∨ s.flag (ingLaneStatus_TickLock l) = true →
          (t.lane l).losses = (s.lane l).losses + 1)) ∧
      WordsKept [ingLaneStatus l, (ingLaneLockLossF l).off] s t ∧ Frame [.regs, .incNow, .ing] s t := by
  intro t
  have hsignal : (s.setF (ingLaneStatus_Signal l) 0).getF (ingLaneStatus_Signal l) = 0 :=
    getF_setF_same s _ 0 (by simp [ingLaneStatus_Signal])
  have hblock : (s.setF (ingLaneStatus_Signal l) 0).getF (ingLaneStatus_BlockLock l) = s.getF (ingLaneStatus_BlockLock l) :=
    getF_setSignal s l 0 rfl (by simp [ingLaneStatus_BlockLock]) (by simp [ingLaneStatus_BlockLock])
  have htick : (s.setF (ingLaneStatus_Signal l) 0).getF (ingLaneStatus_TickLock l) = s.getF (ingLaneStatus_TickLock l) :=
    getF_setSignal s l 0 rfl (by simp [ingLaneStatus_TickLock]) (by simp [ingLaneStatus_TickLock])
  have hwords : WordsKept [ingLaneStatus l] s (s.setF (ingLaneStatus_Signal l) 0) :=
    wordsKept_setF s (ingLaneStatus_Signal l) 0 (by simp [ingLaneStatus_Signal])
  have hframe : Frame [.regs] s (s.setF (ingLaneStatus_Signal l) 0) := frame_setF s _ 0
  have hing : (s.setF (ingLaneStatus_Signal l) 0).ing = s.ing := ing_setF _ _ _
  have hlane : (s.setF (ingLaneStatus_Signal l) 0).lane l = s.lane l := lane_setF _ _ _ _
  by_cases hlose : s.getF (ingLaneCtrl_Loop l) ≠ 1 ∧
      (s.flag (ingLaneStatus_BlockLock l) || s.flag (ingLaneStatus_TickLock l)) = true
  · have ht : t = (s.setF (ingLaneStatus_Signal l) 0).loseLock l true (s.lossTick l) := if_pos hlose
    obtain ⟨hsig, hb, htk, hloss, hwords', hframe'⟩ := loseLock_block_spec (s.setF (ingLaneStatus_Signal l) 0) l (s.lossTick l)
    rw [ht]
    exact ⟨hsig.trans hsignal, fun hloop => absurd hloop hlose.1, fun _ => ⟨hb, htk, fun _ => by rw [hloss, hlane]⟩,
      (hwords.trans hwords').mono (by simp [ingLaneLockLossF]), (hframe.trans hframe').mono (by decide)⟩
  · have ht : t = s.setF (ingLaneStatus_Signal l) 0 := if_neg hlose
    rw [ht]
    refine ⟨hsignal, fun _ => ⟨hing, flag_congr hblock, flag_congr htick⟩, fun hloop => ?_, hwords.mono (by simp),
      hframe.mono (by decide)⟩
    have hnone : ¬ (s.flag (ingLaneStatus_BlockLock l) = true ∨ s.flag (ingLaneStatus_TickLock l) = true) := fun h =>
      hlose ⟨hloop, Bool.or_eq_true _ _ ▸ h⟩
    rw [not_or, Bool.not_eq_true, Bool.not_eq_true, flag_eq_false, flag_eq_false] at hnone
    exact ⟨hblock.trans hnone.1, htick.trans hnone.2, fun h => absurd h (by simpa [flag_eq_false] using hnone)⟩

/-! ## PRBS31 (R70) -/

/-- What a lane's checker leaves when it has taken bits: its state, its lock, and the counts of errors and bits. -/
def State.prbsEntered (s : State) (l : Nat) (r : Prbs × Bool × Nat × Nat) : State :=
  (((s.setLane l { s.lane l with prbs := r.1 }).setF (ingLaneStatus_PrbsLock l) (b2n r.2.1)).bump
    (ingLanePrbsErr_Count l) r.2.2.1).bump (ingLanePrbsBits_Count l) r.2.2.2

theorem prbsEntered_spec (s : State) (l : Nat) (r : Prbs × Bool × Nat × Nat) :
    let t := s.prbsEntered l r
    (t.lane l).prbs = r.1 ∧ t.getF (ingLaneStatus_PrbsLock l) = b2n r.2.1 ∧
      t.getF (ingLanePrbsErr_Count l) = satAdd 48 (s.getF (ingLanePrbsErr_Count l)) r.2.2.1 ∧
      t.getF (ingLanePrbsBits_Count l) = satAdd 48 (s.getF (ingLanePrbsBits_Count l)) r.2.2.2 ∧
      t.ing.gens = s.ing.gens ∧ Frame [.regs, .incNow, .ing] s t := by
  unfold State.prbsEntered
  have hlane : Frame [.ing] s (s.setLane l { s.lane l with prbs := r.1 }) := frame_setLane _ _ _
  have hgens : (s.setLane l { s.lane l with prbs := r.1 }).ing.gens = s.ing.gens := rfl
  have hprbs : ((s.setLane l { s.lane l with prbs := r.1 }).lane l).prbs = r.1 := congrArg Lane.prbs (lane_setLane _ _ _)
  have hget (f : Fld) : (s.setLane l { s.lane l with prbs := r.1 }).getF f = s.getF f := getF_setLane _ _ _ _
  generalize s.setLane l { s.lane l with prbs := r.1 } = u at *
  have hlock : WordsKept [ingLaneStatus l] u (u.setF (ingLaneStatus_PrbsLock l) (b2n r.2.1)) :=
    wordsKept_setF u (ingLaneStatus_PrbsLock l) _ (by simp [ingLaneStatus_PrbsLock])
  have hlock' : (u.setF (ingLaneStatus_PrbsLock l) (b2n r.2.1)).getF (ingLaneStatus_PrbsLock l) = b2n r.2.1 :=
    (getF_setF_same u _ _ (by simp [ingLaneStatus_PrbsLock])).trans (by cases r.2.1 <;> rfl)
  have hing : (u.setF (ingLaneStatus_PrbsLock l) (b2n r.2.1)).ing = u.ing := ing_setF _ _ _
  have hframe : Frame [.regs] u (u.setF (ingLaneStatus_PrbsLock l) (b2n r.2.1)) := frame_setF _ _ _
  generalize u.setF (ingLaneStatus_PrbsLock l) (b2n r.2.1) = v at *
  have herr : WordsKept [ingLanePrbsErr l, ingLanePrbsErr l + 4] v (v.bump (ingLanePrbsErr_Count l) r.2.2.1) :=
    wordsKept_bump_pair v (ingLanePrbsErr_Count l) _
  have hbits (w : State) : WordsKept [ingLanePrbsBits l, ingLanePrbsBits l + 4] w (w.bump (ingLanePrbsBits_Count l) r.2.2.2) :=
    wordsKept_bump_pair w (ingLanePrbsBits_Count l) _
  have hlow : ingLaneStatus l < ingLanePrbsErr l ∧ ingLanePrbsErr l + 4 < ingLanePrbsBits l := by
    simp only [ingLaneStatus, ingLanePrbsErr, ingLanePrbsBits]
    omega
  refine ⟨?_, ?_, ?_, ?_, ?_, ?_⟩
  · rw [lane_congr (t := State.bump _ _ _) (s := u) (by simp [hing]), hprbs]
  · refine ((herr.trans (hbits _)).getF (by simp [ingLaneStatus_PrbsLock]) ?_).trans hlock'
    simp only [ingLaneStatus_PrbsLock, List.mem_append, List.mem_cons, List.not_mem_nil, or_false]
    omega
  · rw [(hbits _).getF_pair, getF_bump_same _ _ _ (by simp [ingLanePrbsErr_Count]), hlock.getF_pair, hget] <;>
      simp only [ingLanePrbsErr_Count, List.mem_cons, List.not_mem_nil, or_false] <;> omega
  · rw [getF_bump_same _ _ _ (by simp [ingLanePrbsBits_Count]), herr.getF_pair, hlock.getF_pair, hget] <;>
      simp only [ingLanePrbsBits_Count, List.mem_cons, List.not_mem_nil, or_false] <;> omega
  · simp [hing, hgens]
  · exact ((hlane.trans hframe).trans ((frame_bump v _ _).trans (frame_bump _ _ _))).mono (by decide)

/-- A running generator drives the near-end loops. -/
theorem loopBits_running {s : State} {l : Nat} (n : Nat) (hgen : s.flag (ingLaneCtrl_PrbsGen l) = true)
    (hg : mget (fun _ => 0) s.ing.gens l ≠ 0) :
    s.loopBits l n = ((prbsGen n (mget (fun _ => 0) s.ing.gens l)).1, { s with ing := { s.ing with
      gens := mput (fun _ => 0) s.ing.gens l (prbsGen n (mget (fun _ => 0) s.ing.gens l)).2 } }) := by
  have hs : s.gen l = (mget (fun _ => 0) s.ing.gens l, s) := if_pos hg
  rw [State.loopBits, if_pos hgen, hs]

/-- In a near-end loop the checker of a lane takes what the generator sends. -/
theorem prbs31Check_near {s : State} {l : Nat} (bs : List Bool) (hchk : s.flag (ingLaneCtrl_PrbsChk l) = true)
    (hen : s.flag (ingLaneCtrl_En l) = true) (hnear : s.getF (ingLaneCtrl_Loop l) = 1 ∨ s.getF (ingLaneCtrl_Loop l) = 2)
    (hgen : s.flag (ingLaneCtrl_PrbsGen l) = true) (hg : mget (fun _ => 0) s.ing.gens l ≠ 0) :
    prbs31Check l bs s = State.prbsEntered { s with ing := { s.ing with
        gens := mput (fun _ => 0) s.ing.gens l (prbsGen bs.length (mget (fun _ => 0) s.ing.gens l)).2 } } l
      (prbsBits (s.lane l).prbs (s.flag (ingLaneStatus_PrbsLock l)) (prbsGen bs.length (mget (fun _ => 0) s.ing.gens l)).1) := by
  have hfar : s.getF (ingLaneCtrl_Loop l) ≠ 3 := by omega
  simp only [prbs31Check, hchk, hen, if_pos hnear, if_neg hfar, loopBits_running bs.length hgen hg]
  rfl

/-- Elsewhere it takes the received bits, which in the far-end loop also go out on the monitor fibre. -/
theorem prbs31Check_line {s : State} {l : Nat} (bs : List Bool) (hchk : s.flag (ingLaneCtrl_PrbsChk l) = true)
    (hen : s.flag (ingLaneCtrl_En l) = true) (hline : ¬ (s.getF (ingLaneCtrl_Loop l) = 1 ∨ s.getF (ingLaneCtrl_Loop l) = 2)) :
    ∃ m, prbs31Check l bs s = State.prbsEntered { s with ing := { s.ing with monBits := m } } l
      (prbsBits (s.lane l).prbs (s.flag (ingLaneStatus_PrbsLock l)) bs) := by
  by_cases hfar : s.getF (ingLaneCtrl_Loop l) = 3
  · refine ⟨mput (fun _ => []) s.ing.monBits (l % 32) bs, ?_⟩
    simp only [prbs31Check, hchk, hen, if_neg hline, if_pos hfar]
    rfl
  · refine ⟨s.ing.monBits, ?_⟩
    simp only [prbs31Check, hchk, hen, if_neg hline, if_neg hfar]
    rfl

/-- Settles O13, command by command. -/
theorem laneVerdictsAndSignalLoss : Obligations.LaneVerdictsAndSignalLoss := by
  refine ⟨fun s l dev due ok hl hv hdue => ?verdict, fun s l hl => ?light, fun s l bs hl hchk hen => ?prbs⟩
  case verdict => exact ⟨_, congrArg Host.Outcome.next (when_lane hl s _), crc16Verdict_spec hv hdue⟩
  case light => exact ⟨_, congrArg Host.Outcome.next (when_lane hl s _), laneSignalLoss_spec s l⟩
  case prbs =>
    intro near g hrun r
    have hexec : exec (.prbs31Check l bs) s = .next (prbs31Check l bs s) := congrArg Host.Outcome.next (when_lane hl s _)
    by_cases hnear : near
    · obtain ⟨hgen, hg⟩ := hrun hnear
      have hr : r = prbsBits (s.lane l).prbs (s.flag (ingLaneStatus_PrbsLock l)) (prbsGen bs.length g).1 := by
        simp only [r, if_pos hnear]
      rw [prbs31Check_near bs hchk hen hnear hgen hg, ← hr] at hexec
      obtain ⟨hprbs, hlock, herr, hbits, hgens, hframe⟩ := prbsEntered_spec _ l r
      exact ⟨_, hexec, hprbs, hlock, herr, hbits, fun _ => by rw [hgens]; exact mget_mput_same _ _ _ _,
        ((frame_ing s _).trans hframe).mono (by decide)⟩
    · have hr : r = prbsBits (s.lane l).prbs (s.flag (ingLaneStatus_PrbsLock l)) bs := by
        simp only [r, if_neg hnear]
      obtain ⟨m, hm⟩ := prbs31Check_line bs hchk hen hnear
      rw [hm, ← hr] at hexec
      obtain ⟨hprbs, hlock, herr, hbits, -, hframe⟩ := prbsEntered_spec _ l r
      exact ⟨_, hexec, hprbs, hlock, herr, hbits, fun h => absurd h hnear, ((frame_ing s _).trans hframe).mono (by decide)⟩

end Sys2Proof.Machine
end

section
/-!
# Writes of ING registers and replay reads (R67, R73 to R75)
-/

set_option autoImplicit false

namespace Sys2Proof.Machine

/-! ## GRP_EN (R67) -/

theorem grpEnWrite_spec (s : State) (v : W32) : ∃ t, exec (.grpEnWrite v) s = .next t ∧ t.getF ingGrpEn_FibEn = v.toNat ∧
    t.ing = { s.ing with grpPending := s.ing.grp != v } ∧ WordsKept [ingGrpEn] s t ∧ Frame [.regs, .ing] s t := by
  have hstored : (s.setF ingGrpEn_FibEn v.toNat).getF ingGrpEn_FibEn = v.toNat :=
    (getF_setF_same s ingGrpEn_FibEn v.toNat (by decide)).trans (Nat.mod_eq_of_lt v.isLt)
  refine ⟨_, rfl, (getF_ing _ _ _).trans hstored, ?_, ?_, ?_⟩
  · simp only [grpEnWrite, ing_setF]
  · exact (wordsKept_setF s ingGrpEn_FibEn v.toNat (by decide)).trans (wordsKept_ing _ _)
  · exact ((frame_setF s ingGrpEn_FibEn v.toNat).trans (frame_ing _ _)).mono (by decide)

/-! ## REPLAY_CTRL (R73, R74) -/

/-- A write of REPLAY_CTRL that the device refuses: EN with no ticks or, where EN was 0, with a START that is too near or a FIRST beyond
the ticks. -/
def State.replayBad (s : State) (v : W32) : Prop :=
  v.toNat.testBit 31 = true ∧ (bitsAt v.toNat 0 24 = 0 ∨ (s.flag ingReplayCtrl_En = false ∧
    (s.getF ingReplayStart_Start < s.tick + 16 ∨ bitsAt v.toNat 0 24 ≤ s.getF ingReplayFirst_First)))

/-- The fields that a write of REPLAY_CTRL stores. -/
def State.replayStored (s : State) (v : W32) : State :=
  ((s.setF ingReplayCtrl_En (b2n (v.toNat.testBit 31))).setF ingReplayCtrl_Loop (b2n (v.toNat.testBit 30))).setF
    ingReplayCtrl_Ticks (bitsAt v.toNat 0 24)

theorem refuse_ingReplayCtrl (s : State) : s.refuse ingReplayCtrl = s.raise ingStatus_WrRefused := rfl

theorem replayCtrlWrite_refused {s : State} {v : W32} (h : s.replayBad v) : replayCtrlWrite v s = s.raise ingStatus_WrRefused := by
  rw [← refuse_ingReplayCtrl]
  refine if_pos ?_
  simpa [State.replayBad] using h

theorem replayCtrlWrite_stored {s : State} {v : W32} (h : ¬ s.replayBad v) :
    ∃ x, replayCtrlWrite v s = { s.replayStored v with ing := x } := by
  refine ⟨_, if_neg fun hbad => h ?_⟩
  simpa [State.replayBad] using hbad

theorem replayStored_spec (s : State) (v : W32) :
    let t := s.replayStored v
    t.getF ingReplayCtrl_En = b2n (v.toNat.testBit 31) ∧ t.getF ingReplayCtrl_Loop = b2n (v.toNat.testBit 30) ∧
      t.getF ingReplayCtrl_Ticks = bitsAt v.toNat 0 24 ∧ WordsKept [ingReplayCtrl] s t ∧ Frame [.regs] s t := by
  have hbit (b : Bool) : b2n b % 2 ^ 1 = b2n b := by cases b <;> rfl
  unfold State.replayStored
  refine ⟨?_, ?_, ?_, ?_, ?_⟩
  · rw [getF_setF_ne_bits _ ingReplayCtrl_Ticks ingReplayCtrl_En _ (by decide) (by decide) rfl (by decide),
      getF_setF_ne_bits _ ingReplayCtrl_Loop ingReplayCtrl_En _ (by decide) (by decide) rfl (by decide),
      getF_setF_same _ _ _ (by decide)]
    exact hbit _
  · rw [getF_setF_ne_bits _ ingReplayCtrl_Ticks ingReplayCtrl_Loop _ (by decide) (by decide) rfl (by decide),
      getF_setF_same _ _ _ (by decide)]
    exact hbit _
  · rw [getF_setF_same _ _ _ (by decide)]
    exact Nat.mod_eq_of_lt (bitsAt_lt ..)
  · exact ((wordsKept_setF s ingReplayCtrl_En _ (by decide)).trans ((wordsKept_setF _ ingReplayCtrl_Loop _ (by decide)).trans
      (wordsKept_setF _ ingReplayCtrl_Ticks _ (by decide)))).mono (by decide)
  · exact ((frame_setF s _ _).trans ((frame_setF _ _ _).trans (frame_setF _ _ _))).mono (by decide)

/-! ## Snapshots and counters (R75) -/

theorem snapGo_spec {s : State} (hidle : s.flag ingStatus_SnapBusy = false) (hn : 0 < s.getF ingSnapCtrl_Ticks) :
    ∃ t, exec .snapGo s = .next t ∧
      t.ing = { s.ing with snapLeft := s.getF ingSnapCtrl_Ticks, snapIdx := 0, snapFrom := 0, snapCyc := s.cyc + 1, snapTag := none } ∧
      t.getF ingStatus_SnapBusy = 1 ∧ t.getF ingSnapStat_Written = 0 ∧ Frame [.regs, .ing] s t := by
  have hgo : snapGo s = s.snapStart 0 none := if_neg (by rw [hidle]; exact Bool.false_ne_true)
  have hstart := hgo.trans (if_neg (Nat.ne_of_gt hn))
  refine ⟨_, congrArg Host.Outcome.next hstart, ?_, ?_, ?_, ?_⟩
  · rw [ing_setF, ing_setF]
  · rw [getF_setF_same _ _ _ (by decide)]
    rfl
  · rw [getF_setF_ne_off _ _ _ _ (by decide) (by decide) (by decide), getF_setF_same _ _ _ (by decide)]
    rfl
  · exact ((frame_ing s _).trans ((frame_setF _ _ _).trans (frame_setF _ _ _))).mono (by decide)

theorem clrCntIng_spec (s : State) : ∃ t, exec .clrCntIng s = .next t ∧ WordsKept ingCounters s t ∧
    (∀ off, off ∈ ingCounters → t.word off = resetWord s.part off) ∧ Frame [.regs, .incNow] s t := by
  refine ⟨_, rfl, fun off hoff => ?_, fun off hoff => ?_, frame_clearCounters s _⟩
  · rw [clrCntIng, word_clearCounters, if_neg (by simpa using hoff)]
  · rw [clrCntIng, word_clearCounters, if_pos (decide_eq_true hoff)]

/-! ## Replay reads (R72, R74) -/

theorem frame_sectorsEach (s : State) (master a n : Nat) : Frame hbmParts s (s.sectorsEach master a n).1 := by
  induction n generalizing s a with
  | zero => exact .refl _ _
  | succ n ih => exact (frame_hbmRead _ _ _ _).hbm (ih _ _)

/-- The release tick that a record is read for is at most 8 ticks ahead and carries the record. -/
theorem replayNext_spec {s : State} {rec l r : Nat} (h : s.replayNext rec l = some r) : r ≤ s.tick + 8 ∧ s.replayAt r = some rec := by
  have hcond := List.find?_some h
  obtain ⟨i, hi, rfl⟩ := List.mem_map.mp (List.mem_of_find?_eq_some h)
  have hi' : i < 9 := List.mem_range.mp hi
  simp only [Bool.and_eq_true, beq_iff_eq] at hcond
  exact ⟨by omega, hcond.1⟩

theorem replayRead_spec {s : State} {rec l r : Nat} (h : s.replayNext rec l = some r) :
    (∃ x ∈ (replayRead rec l s).ing.replay, x.tick = r ∧ x.record = rec ∧ x.lane = l) ∧
      Frame [.regs, .setNow, .incNow, .mem, .pools, .ing, .flt] s (replayRead rec l s) := by
  simp only [replayRead, h]
  exact ⟨⟨_, List.mem_append_right _ (List.mem_singleton_self _), rfl, rfl, rfl⟩,
    ((frame_sectorsEach s _ _ _).trans (frame_ing _ _)).mono (by decide)⟩

/-- Settles O14, command by command. -/
theorem ingestRegisterCommands : Obligations.IngestRegisterCommands := by
  refine ⟨grpEnWrite_spec, fun s v => ⟨_, rfl, fun hbad => ?refused, fun hok => ?stored⟩, fun s hidle hn => snapGo_spec hidle hn,
    clrCntIng_spec, fun s rec l r hl h => ?read⟩
  case refused =>
    rw [replayCtrlWrite_refused hbad]
    exact ⟨getF_raise_same s _ (by decide), wordsKept_raise s ingStatus_WrRefused (by decide), frame_raise s _⟩
  case stored =>
    obtain ⟨x, hx⟩ := replayCtrlWrite_stored hok
    obtain ⟨hen, hloop, hticks, hwords, hframe⟩ := replayStored_spec s v
    rw [hx]
    exact ⟨(getF_ing _ x _).trans hen, (getF_ing _ x _).trans hloop, (getF_ing _ x _).trans hticks,
      hwords.trans (wordsKept_ing _ x), (hframe.trans (frame_ing _ x)).mono (by decide)⟩
  case read =>
    obtain ⟨hahead, hat⟩ := replayNext_spec h
    exact ⟨hahead, hat, _, congrArg Host.Outcome.next (when_lane hl s _), replayRead_spec h⟩

end Sys2Proof.Machine
end

section
/-!
# The release tick (R50, R54, R64)

`State.presented` is what a release tick hands on, beside the Hearth. What follows the forming of the words in the same tick (the
counters, the events, the snapshot and the settling of the lanes) leaves it alone.
-/

set_option autoImplicit false

namespace Sys2Proof.Machine

/-- The release tick last recorded, its stream and the maps, and the Hearth. -/
def State.presented (s : State) : (Nat × Nat × List (BitVec 512 × Bool) × List (Nat × BitVec 16 × BitVec 16)) × Hearth :=
  ((s.ing.relTick, s.ing.relCyc, s.ing.stream, s.ing.maps), s.hearth)

variable (s : State)

/-! ## What leaves it alone -/

theorem presented_congr {t : State} (hi : t.ing = s.ing) (hh : t.hearth = s.hearth) : t.presented = s.presented := by
  simp only [State.presented, hi, hh]

theorem presented_of_frame {t : State} {cs : List Comp} (h : Frame cs s t) (hi : Comp.ing ∉ cs) (hh : Comp.hearth ∉ cs) :
    t.presented = s.presented := presented_congr s (h .ing hi) (h .hearth hh)

theorem presented_withSnap (left idx : Nat) (tag : Option Nat) :
    State.presented { s with ing := { s.ing with snapLeft := left, snapIdx := idx, snapTag := tag } } = s.presented := rfl

@[simp] theorem presented_setF (f : Fld) (v : Nat) : (s.setF f v).presented = s.presented := presented_congr s (by simp) (by simp)

@[simp] theorem presented_bump (f : Fld) (k : Nat) : (s.bump f k).presented = s.presented := presented_congr s (by simp) (by simp)

@[simp] theorem presented_raise (f : Fld) : (s.raise f).presented = s.presented := presented_congr s (by simp) (by simp)

@[simp] theorem presented_assertSrc (n : Nat) (info : BitVec 128) (rank : Nat) :
    (s.assertSrc n info rank).presented = s.presented := presented_congr s (by simp) (by simp)

@[simp] theorem presented_draw (w : Nat) : (s.draw w).2.presented = s.presented := rfl

@[simp] theorem presented_setLane (l : Nat) (x : Lane) : (s.setLane l x).presented = s.presented := rfl

@[simp] theorem presented_laneEvent (tick lane cause : Nat) : (s.laneEvent tick lane cause).presented = s.presented :=
  presented_congr s (ing_routed ..) (hearth_routed ..)

@[simp] theorem presented_hbmWrite (master site a : Nat) (bs : List Byte) (poison : Bool) :
    (s.hbmWrite master site a bs poison).presented = s.presented :=
  presented_of_frame s (frame_hbmWrite _ _ _ _ _) (by decide) (by decide)

@[simp] theorem presented_complete (tag status result : Nat) : (s.complete tag status result).presented = s.presented := by
  unfold State.complete
  split
  · rfl
  · split
    · rfl
    split
    · rfl
    · exact presented_congr s (by simp) (by simp)

@[simp] theorem presented_countSuspect (m : Nat) (cs : List Nat) : (s.countSuspect m cs).presented = s.presented := by
  induction cs generalizing s with
  | nil => rfl
  | cons c cs ih =>
    unfold State.countSuspect
    rw [ih]
    split
    · exact presented_bump ..
    · rfl

@[simp] theorem presented_replayEdge (now : Bool) : (s.replayEdge now).presented = s.presented := by
  unfold State.replayEdge
  extract_lets was s1
  have h1 : s1.presented = s.presented := presented_setF ..
  split
  · rw [presented_laneEvent, h1]
  split
  · rw [presented_laneEvent, h1]
  · exact h1

@[simp] theorem presented_snapEnd (status : Nat) : (s.snapEnd status).presented = s.presented := by
  unfold State.snapEnd
  extract_lets i s1
  have h1 : s1.presented = s.presented := (presented_setF ..).trans (presented_withSnap s _ _ _)
  split
  · exact h1
  · rw [presented_complete, h1]

@[simp] theorem presented_snapTick (outs : Nat → LaneOut) : (s.snapTick outs).presented = s.presented := by
  unfold State.snapTick
  extract_lets r at' s1 i s2
  have h1 : s1.presented = s.presented := presented_hbmWrite ..
  clear_value s1
  have h2 : s2.presented = s.presented := by
    unfold s2
    rw [presented_setF]
    exact (presented_withSnap s1 _ _ _).trans h1
  split
  · rfl
  split
  · rw [presented_snapEnd, presented_raise, presented_draw]
  split
  · rw [presented_snapEnd, h2]
  · exact h2

@[simp] theorem presented_settleLane (dev l : Nat) : (s.settleLane dev l).presented = s.presented := by
  unfold State.settleLane
  extract_lets x ok gen known s1
  rw [presented_setLane]
  unfold s1
  split
  · exact presented_laneEvent ..
  split
  · exact presented_laneEvent ..
  split
  · exact presented_laneEvent ..
  · rfl

@[simp] theorem presented_settleLanes (dev : Nat) (ls : List Nat) : (s.settleLanes dev ls).presented = s.presented := by
  induction ls generalizing s with
  | nil => rfl
  | cons l ls ih =>
    unfold State.settleLanes
    rw [ih, presented_settleLane]

/-! ## The words of a live release tick -/

variable {s}

/-- A release tick without a pending change of fibres, a replay record and zeroed ticks carries the live words of its channels. -/
theorem presented_releaseTick (hgrp : s.ing.grpPending = false) (hrep : s.replayAt s.tick = none)
    (hzero : ¬ (s.ing.zeroFrom ≤ s.tick ∧ s.tick < s.ing.zeroTo)) :
    ∃ m : Nat × BitVec 16 × BitVec 16, m.1 = s.tick ∧ s.releaseTick.presented = ((s.tick, s.cyc + 1,
      s.streamChans.flatMap (fun c => s.chanWords c ((s.chanLanes c).map (fun l => s.liveOut l s.relDev))),
      (m :: s.ing.maps).take 16), s.hearth) := by
  have happly : s.applyGrp = s := if_neg (by rw [hgrp]; exact Bool.false_ne_true)
  unfold State.releaseTick
  rw [happly]
  extract_lets s0 r dev rep out zero chans outs words sus ovr missing i s1 s2 s3 released
  have hlive : out = fun l => s.liveOut l s.relDev := by
    funext l
    have hnone : rep = none := hrep
    exact if_neg (by rw [hnone]; exact Bool.false_ne_true)
  have hwords : words = fun c => s.chanWords c ((s.chanLanes c).map fun l => s.liveOut l s.relDev) := by
    funext c
    have hlit : ¬ zero = true := by simpa [zero] using hzero
    rw [← hlive]
    exact if_neg hlit
  have h3 : s3.presented = s1.presented := by
    have h2 : s2.presented = s1.presented := presented_countSuspect ..
    unfold s3
    split
    · rw [presented_assertSrc, presented_bump, h2]
    · exact h2
  refine ⟨(r, BitVec.ofNat 16 sus, BitVec.ofNat 16 ovr), rfl, ?_⟩
  rw [presented_settleLanes, presented_snapTick, presented_replayEdge, h3, ← hwords]
  rfl

/-- Settles O15: what the release tick does after it has formed its words leaves what it presents alone. -/
theorem releaseTickRunsOncePerTick : Obligations.ReleaseTickRunsOncePerTick := by
  intro s hen hfrom hnew hcycle hgrp hrep hzero
  have hrun : ingestReleaseTick s = s.releaseTick := if_pos (by simp [hen, hfrom, hnew, hcycle])
  obtain ⟨m, hm, hpres⟩ := presented_releaseTick hgrp hrep hzero
  simp only [State.presented, Prod.mk.injEq] at hpres
  obtain ⟨⟨htick, hcyc, hstream, hmaps⟩, hhearth⟩ := hpres
  exact ⟨_, congrArg Host.Outcome.next hrun, htick, hcyc, hstream, ⟨m, hmaps, hm⟩, hhearth⟩

end Sys2Proof.Machine
end

section
/-!
# What checks and faults of the Hearth record (R93, R94, R111, R143, R144, R237 to R239)

A check that meets an error and a fault that is recorded change registers of their own site, the Ashpit's records, and FAULT_INFO's
record of their unit or grate. `Notes` says so, with one lemma per operation, as `Keeps` has.
-/

set_option autoImplicit false

namespace Sys2Proof.Machine

/-- The components that a check or a fault of the Hearth can change. -/
def noteParts : List Comp := [.regs, .setNow, .incNow, .flt, .hearth]

/-- The Hearth but for its units, and but for its grates and the credits on their way. -/
def Hearth.sansUnits (h : Hearth) : Hearth := { h with units := [] }
def Hearth.sansGrates (h : Hearth) : Hearth := { h with grates := [], credits := [] }

/-- The registers in which the checks and faults of unit u are recorded. -/
def unitRegs (u : Nat) : List Nat :=
  [hrtFaultInfo0 u, hrtFaultInfo1 u, hrtUnitStatus u, hrtMemCe u, hrtMemUe u, fltInj, fltStatus, fltHceBucket]

/-- The registers in which the faults of grate g are recorded, and those of its checks as well. -/
def grFaultRegs (g : Nat) : List Nat := [grFaultInfo0 g, grFaultInfo1 g, grStatus g]
def grateRegs (g : Nat) : List Nat := grFaultRegs g ++ [grTblCe g, grTblUe g, grEpochErr g, fltStatus, fltHceBucket]

/-- Between s and t registers of a list have changed, the records of assertions, what `rest` hides of the Hearth, and of a unit at
most the cycle of its FAULT_INFO. -/
structure Notes (rest : Hearth → Hearth) (regs : List Nat) (s t : State) : Prop where
  frame : Frame noteParts s t
  words : WordsKept regs s t
  rest : rest t.hearth = rest s.hearth
  unit : ∀ v, ∃ n, t.unit v = { s.unit v with faultCyc := n }

variable {rest : Hearth → Hearth} {regs : List Nat} {s₀ s t : State}

theorem Frame.note (h : Frame noteParts s₀ s) (ht : Frame noteParts s t) : Frame noteParts s₀ t :=
  (h.trans ht).mono (by decide)

theorem WordsKept.again (h : WordsKept regs s₀ s) (ht : WordsKept regs s t) : WordsKept regs s₀ t :=
  (h.trans ht).mono (by simp)

theorem unit_congr (h : t.hearth.units = s.hearth.units) (v : Nat) : t.unit v = s.unit v := by simp only [State.unit, h]

theorem grate_congr (h : t.hearth.grates = s.hearth.grates) (g : Nat) : t.grate g = s.grate g := by simp only [State.grate, h]

@[simp] theorem unit_setUnit (s : State) (u : Nat) (x : HUnit) : (s.setUnit u x).unit u = x := mget_mput_same ..

theorem unit_setUnit_ne (s : State) {u v : Nat} (x : HUnit) (h : v ≠ u) : (s.setUnit u x).unit v = s.unit v := mget_mput_ne _ _ _ h

@[simp] theorem grate_setGrate (s : State) (g : Nat) (x : Grate) : (s.setGrate g x).grate g = x := mget_mput_same ..

@[simp] theorem unit_setGrate (s : State) (g v : Nat) (x : Grate) : (s.setGrate g x).unit v = s.unit v := rfl

theorem frame_hearth (s : State) (h : Hearth) : Frame [.hearth] s { s with hearth := h } := by
  intro c hc
  cases c <;> simp_all [Comp.same]

theorem frame_setUnit (s : State) (u : Nat) (x : HUnit) : Frame [.hearth] s (s.setUnit u x) := frame_hearth s _

theorem frame_setGrate (s : State) (g : Nat) (x : Grate) : Frame [.hearth] s (s.setGrate g x) := frame_hearth s _

theorem frame_after (s : State) (d : Nat) (a : Act) : Frame [.hearth] s (s.after d a) := frame_hearth s _

/-! ## Composition -/

theorem Notes.refl (s : State) : Notes rest regs s s := ⟨.refl _ _, .refl _ _, rfl, fun _ => ⟨_, rfl⟩⟩

theorem Notes.trans (h : Notes rest regs s₀ s) (ht : Notes rest regs s t) : Notes rest regs s₀ t := by
  refine ⟨h.frame.note ht.frame, h.words.again ht.words, ht.rest.trans h.rest, fun v => ?_⟩
  obtain ⟨_, hn⟩ := h.unit v
  obtain ⟨m, hm⟩ := ht.unit v
  exact ⟨m, hm.trans (by rw [hn])⟩

theorem Notes.ite {c : Prop} [Decidable c] {a b : State} (ha : Notes rest regs s₀ a) (hb : Notes rest regs s₀ b) :
    Notes rest regs s₀ (if c then a else b) := by
  split <;> assumption

/-- An update that leaves the Hearth alone. -/
theorem Notes.outside (h : Notes rest regs s₀ s) {cs : List Comp} (hf : Frame cs s t) (hw : WordsKept regs s t)
    (hcs : cs ⊆ [.regs, .setNow, .incNow, .flt]) : Notes rest regs s₀ t := by
  have hparts : [.regs, .setNow, .incNow, .flt] ⊆ noteParts := by decide
  have hh : t.hearth = s.hearth := hf .hearth fun hc => absurd (hcs hc) (by decide)
  exact h.trans ⟨hf.mono fun c hc => hparts (hcs hc), hw, by rw [hh], fun v => ⟨_, unit_congr (by rw [hh]) v⟩⟩

theorem Notes.setF (h : Notes rest regs s₀ s) {f : Fld} {v : Nat} (hw : f.lsb + f.width ≤ 32) (ho : f.off ∈ regs) :
    Notes rest regs s₀ (s.setF f v) :=
  h.outside (frame_setF s f v) ((wordsKept_setF s f v hw).mono (by simpa using ho)) (by decide)

theorem Notes.bump (h : Notes rest regs s₀ s) {f : Fld} {k : Nat} (hw : f.lsb + f.width ≤ 32) (ho : f.off ∈ regs) :
    Notes rest regs s₀ (s.bump f k) :=
  h.outside (frame_bump s f k) ((wordsKept_bump s f k hw).mono (by simpa using ho)) (by decide)

theorem Notes.raise (h : Notes rest regs s₀ s) {f : Fld} (hw : f.lsb + f.width ≤ 32) (ho : f.off ∈ regs) :
    Notes rest regs s₀ (s.raise f) :=
  h.outside (frame_raise s f) ((wordsKept_raise s f hw).mono (by simpa using ho)) (by decide)

theorem Notes.setWord (h : Notes rest regs s₀ s) {off : Nat} {v : W32} (ho : off ∈ regs) :
    Notes rest regs s₀ (s.setWord off v) :=
  h.outside (frame_setWord s off v) (fun _ hne => word_setWord_ne s v fun he => hne (he ▸ ho)) (by decide)

theorem Notes.assertSrc (h : Notes rest regs s₀ s) {n info rank} : Notes rest regs s₀ (s.assertSrc n info rank) :=
  h.outside (frame_assertSrc s n info rank) (fun _ _ => by simp) (by decide)

/-! ## Checks and faults of any site -/

theorem Notes.selfFault (h : Notes rest regs s₀ s) (hs : fltStatus ∈ regs) : Notes rest regs s₀ s.selfFault :=
  (h.setF (by decide) hs).assertSrc

/-- The use of a configuration word but CTRL. -/
theorem Notes.useWord (h : Notes rest regs s₀ s) {w : Nat} (hw : w ≠ 0) (hs : fltStatus ∈ regs) :
    Notes rest regs s₀ (s.useWord w) := by
  have hw : (w == 0) = false := by simpa using hw
  simp only [State.useWord, hw, Bool.false_and, Bool.false_or]
  exact Notes.ite (h.selfFault hs) h

theorem Notes.hearthCe (h : Notes rest regs s₀ s) {k : Nat} (hs : fltStatus ∈ regs) (hb : fltHceBucket ∈ regs) :
    Notes rest regs s₀ (s.hearthCe k) :=
  have h1 := h.useWord (w := 4) (by decide) hs
  Notes.ite h (Notes.ite (h1.setF (by decide) hb).assertSrc (h1.setF (by decide) hb))

theorem Notes.takeInj (h : Notes rest regs s₀ s) {n site : Nat} (hi : fltInj ∈ regs) (hs : fltStatus ∈ regs) :
    Notes rest regs s₀ (s.takeInj n site).2 := by
  unfold State.takeInj
  split
  · exact (h.useWord (w := 3) (by decide) hs).setF (f := fltInj_Armed) (by decide) hi
  · exact h

/-! ## Units -/

section
variable {u : Nat}

/-- FAULT_INFO's cycle noted in a unit. -/
theorem Notes.setFaultCyc (h : Notes .sansUnits regs s₀ s) (u n : Nat) :
    Notes .sansUnits regs s₀ (s.setUnit u { s.unit u with faultCyc := n }) := by
  have hf : Frame noteParts s (s.setUnit u { s.unit u with faultCyc := n }) := (frame_setUnit s u _).mono (by decide)
  refine h.trans ⟨hf, fun _ _ => by simp, rfl, fun v => ?_⟩
  by_cases hv : v = u
  · subst hv
    exact ⟨n, unit_setUnit ..⟩
  · exact ⟨_, unit_setUnit_ne s _ hv⟩

theorem Notes.unitFault (h : Notes .sansUnits (unitRegs u) s₀ s) {code port bank queue bundle : Nat} :
    Notes .sansUnits (unitRegs u) s₀ (s.unitFault u code port bank queue bundle) := by
  unfold State.unitFault
  extract_lets x info s1
  have hinfo : Notes .sansUnits (unitRegs u) s₀ info := (h.setWord (by simp [unitRegs])).setWord (by simp [unitRegs])
  have h1 : Notes .sansUnits (unitRegs u) s₀ s1 := Notes.ite (hinfo.setFaultCyc u _) h
  exact (h1.raise (by simp [hrtUnitStatus_Fault]) (by simp [unitRegs, hrtUnitStatus_Fault])).assertSrc

theorem Notes.wordFaults (h : Notes .sansUnits (unitRegs u) s₀ s) {code bundle n : Nat} :
    Notes .sansUnits (unitRegs u) s₀ (s.wordFaults u code bundle n) := by
  induction n generalizing s with
  | zero => exact h
  | succ n ih => exact ih h.unitFault

theorem Notes.checkedWords (h : Notes .sansUnits (unitRegs u) s₀ s) {code : Nat} {e : WordErrs} :
    Notes .sansUnits (unitRegs u) s₀ (s.checkedWords code u e).2 := by
  have ht := h.takeInj (n := 32 + code) (site := u) (by simp [unitRegs]) (by simp [unitRegs])
  unfold State.checkedWords
  dsimp only
  split
  · exact ht
  split
  · exact ht
  · exact ht

theorem Notes.vrfCheck (h : Notes .sansUnits (unitRegs u) s₀ s) {e : WordErrs} :
    Notes .sansUnits (unitRegs u) s₀ (s.vrfCheck u e).1 := by
  have hc := h.checkedWords (code := 0x05) (e := e)
  unfold State.vrfCheck
  extract_lets c s1
  have h1 : Notes .sansUnits (unitRegs u) s₀ s1 :=
    Notes.ite hc ((hc.bump (by simp [hrtMemCeF]) (by simp [unitRegs, hrtMemCeF])).hearthCe (by simp [unitRegs]) (by simp [unitRegs]))
  split
  · exact h1
  · exact (h1.bump (by simp [hrtMemUeF]) (by simp [unitRegs, hrtMemUeF])).wordFaults

theorem Notes.consumed (h : Notes .sansUnits (unitRegs u) s₀ s) {t : Tags} :
    Notes .sansUnits (unitRegs u) s₀ (s.consumed u t) := Notes.ite h.unitFault h

end

/-! ## Grates -/

section
variable {g : Nat}

/-- A grate is replaced. -/
theorem Notes.setGrate (h : Notes .sansGrates regs s₀ s) {g : Nat} {x : Grate} : Notes .sansGrates regs s₀ (s.setGrate g x) :=
  h.trans ⟨(frame_setGrate s g x).mono (by decide), fun _ _ => by simp, rfl, fun _ => ⟨_, rfl⟩⟩

theorem Notes.grFaultK (h : Notes .sansGrates regs s₀ s) (hr : grFaultRegs g ⊆ regs) {kind code input queue epoch bundle : Nat} :
    Notes .sansGrates regs s₀ (s.grFaultK g kind code input queue epoch bundle) := by
  unfold State.grFaultK
  extract_lets x info s1
  have hinfo : Notes .sansGrates regs s₀ info := (h.setWord (hr (by simp [grFaultRegs]))).setWord (hr (by simp [grFaultRegs]))
  have h1 : Notes .sansGrates regs s₀ s1 := Notes.ite hinfo.setGrate h
  exact (h1.raise (by simp [grStatus_Fault]) (hr (by simp [grFaultRegs, grStatus_Fault]))).assertSrc

theorem grFaultRegs_subset (g : Nat) : grFaultRegs g ⊆ grateRegs g := by simp [grateRegs]

theorem Notes.tblCheck (h : Notes .sansGrates (grateRegs g) s₀ s) {e : Ecc} {input queue : Nat} :
    Notes .sansGrates (grateRegs g) s₀ (s.tblCheck g e input queue) := by
  unfold State.tblCheck
  cases e with
  | clean => exact h
  | corrected =>
    exact (h.bump (by simp [grTblCeF]) (by simp [grateRegs, grTblCeF])).hearthCe (by simp [grateRegs]) (by simp [grateRegs])
  | uncorrectable =>
    exact (h.bump (by simp [grTblUeF]) (by simp [grateRegs, grTblUeF])).grFaultK (grFaultRegs_subset g)

theorem Notes.outCheck (h : Notes .sansGrates (grateRegs g) s₀ s) {q : Nat} {e : Ecc} :
    Notes .sansGrates (grateRegs g) s₀ (s.outCheck g q e).2 := h.tblCheck

theorem Notes.giveCredit (h : Notes .sansGrates regs s₀ s) {site word : Nat} {t : Token} :
    Notes .sansGrates regs s₀ (s.giveCredit site word t) := by
  have hback (sender : Nat) : Notes .sansGrates regs s₀ (s.creditBack site sender) :=
    h.trans ⟨(frame_hearth s _).mono (by decide), fun _ _ => rfl, rfl, fun _ => ⟨_, rfl⟩⟩
  unfold State.giveCredit
  split
  · exact h
  split
  · split
    · exact hback _
    · exact h
  · exact hback _

theorem Notes.headFix (h : Notes .sansGrates (grateRegs g) s₀ s) {q : Nat} :
    Notes .sansGrates (grateRegs g) s₀ (s.headFix g q) := by
  unfold State.headFix
  dsimp only
  split
  · exact h
  · refine Notes.ite h (Notes.ite h.setGrate (Notes.ite h ?_))
    exact (h.setGrate.bump (by simp [grEpochErrF]) (by simp [grateRegs, grEpochErrF])).grFaultK (grFaultRegs_subset g)

theorem Notes.takeHead (h : Notes .sansGrates (grateRegs g) s₀ s) {q : Nat} :
    Notes .sansGrates (grateRegs g) s₀ (s.takeHead g q).1 := by
  unfold State.takeHead
  split
  · exact h
  · exact h.setGrate.headFix.giveCredit

end

/-! ## What stays of the site -/

theorem Notes.hcyc (h : Notes rest regs s t) : t.hcyc = s.hcyc := h.frame .hcyc (by decide)

theorem Notes.getF (h : Notes rest regs s t) {f : Fld} (hw : f.lsb + f.width ≤ 32) (ho : f.off ∉ regs) : t.getF f = s.getF f :=
  h.words.getF hw ho

/-- What the two views of the Hearth show is kept. -/
theorem Hearth.kept_of_sansUnits {a b : Hearth} (h : a.sansUnits = b.sansUnits) :
    a.flights = b.flights ∧ a.grates = b.grates ∧ a.edges = b.edges ∧ a.t0s = b.t0s := by
  simp only [Hearth.sansUnits, Hearth.mk.injEq] at h
  simp [h]

theorem Hearth.kept_of_sansGrates {a b : Hearth} (h : a.sansGrates = b.sansGrates) :
    a.flights = b.flights ∧ a.units = b.units ∧ a.t0s = b.t0s := by
  simp only [Hearth.sansGrates, Hearth.mk.injEq] at h
  simp [h]

theorem Notes.flights (h : Notes .sansGrates regs s t) : t.hearth.flights = s.hearth.flights := by
  obtain ⟨hflights, -⟩ := Hearth.kept_of_sansGrates h.rest
  exact hflights

theorem Notes.units (h : Notes .sansGrates regs s t) : t.hearth.units = s.hearth.units := by
  obtain ⟨-, hunits, -⟩ := Hearth.kept_of_sansGrates h.rest
  exact hunits

/-- A register of a unit's window, by its offset in the window of unit 0, that checks and faults do not write. -/
theorem notMem_unitRegs (u : Nat) {base : Nat} (h : 0x1000000 ≤ base) (hbase : base ∉ unitRegs 0) : base + 0x8000 * u ∉ unitRegs u := by
  simp [unitRegs, hrtFaultInfo0, hrtFaultInfo1, hrtUnitStatus, hrtMemCe, hrtMemUe, fltInj, fltStatus, fltHceBucket] at hbase ⊢
  omega

/-- The registers of a grate stand below those of the units. -/
theorem notMem_grateRegs {g off : Nat} (hg : g < 300) (hoff : 0x1000000 ≤ off) : off ∉ grateRegs g := by
  simp [grateRegs, grFaultRegs, grFaultInfo0, grFaultInfo1, grStatus, grTblCe, grTblUe, grEpochErr, fltStatus, fltHceBucket]
  omega

theorem bundleNow_congr {u : Nat} (hw : t.word (hrtUnitCfg u) = s.word (hrtUnitCfg u)) (hf : t.frc = s.frc)
    (ht : t.hearth.t0s = s.hearth.t0s) (hb : (t.unit u).bundle = (s.unit u).bundle) : t.bundleNow u = s.bundleNow u := by
  have hfld {f : Fld} (ho : f.off = hrtUnitCfg u) (hl : f.lsb + f.width ≤ 32) : t.getF f = s.getF f := by
    simp only [State.getF, State.regNat, if_pos hl, ho, hw]
  have hmode : t.unitMode u = s.unitMode u := hfld rfl (by simp [hrtUnitCfg_Mode])
  have hepoch : t.getF (hrtUnitCfg_Epoch u) = s.getF (hrtUnitCfg_Epoch u) := hfld rfl (by simp [hrtUnitCfg_Epoch])
  have hplog : t.getF (hrtUnitCfg_Plog u) = s.getF (hrtUnitCfg_Plog u) := hfld rfl (by simp [hrtUnitCfg_Plog])
  simp only [State.bundleNow, hmode, hepoch, hplog, hb, State.phaseAt, ht, State.tick, State.cycle, hf]

/-- What a grate records leaves the unit's place in its program alone. -/
theorem Notes.bundleNow {u : Nat} (h : Notes .sansGrates (grateRegs u) s t) (hu : u < 300) : t.bundleNow u = s.bundleNow u := by
  have hoff : hrtUnitCfg u ∉ grateRegs u := notMem_grateRegs hu (by simp [hrtUnitCfg]; omega)
  obtain ⟨-, hunits, ht0s⟩ := Hearth.kept_of_sansGrates h.rest
  exact bundleNow_congr (h.words _ hoff) (h.frame .frc (by decide)) ht0s (by rw [unit_congr hunits])

end Sys2Proof.Machine
end

section
/-!
# Slots of a compute unit (R79 to R86, R92, R94, R95)

The operands of a slot are read through one check of the register file; what they meet is recorded, and the slot's result is put on
its way.
-/

set_option autoImplicit false

namespace Sys2Proof.Machine

variable {s : State} {u : Nat}

theorem takeInj_idle (hinj : s.flag fltInj_Armed = false) (n site : Nat) : s.takeInj n site = (0, s) := by
  simp [State.takeInj, hinj]

theorem checkedWords_idle (hinj : s.flag fltInj_Armed = false) (code : Nat) (e : WordErrs) : s.checkedWords code u e = (e, s) := by
  simp [State.checkedWords, takeInj_idle hinj]

theorem checked_idle (hinj : s.flag fltInj_Armed = false) (code : Nat) (e : Ecc) : s.checked code u e = (e, s) := by
  simp [State.checked, takeInj_idle hinj]

/-- The tags that the check of the register file gives an operand: poison where a lane word is uncorrectable (R94). -/
theorem vrfCheck_tags (hinj : s.flag fltInj_Armed = false) (e : WordErrs) : (s.vrfCheck u e).2 = ⟨false, decide (0 < e.ue)⟩ := by
  simp only [State.vrfCheck, checkedWords_idle hinj]
  by_cases h : e.ue = 0
  · simp [h, Tags.clear]
  · simp [h, Nat.pos_of_ne_zero h]

theorem vrfCheck_clean (hinj : s.flag fltInj_Armed = false) : (s.vrfCheck u .clean).1 = s := by
  simp [State.vrfCheck, checkedWords_idle hinj, WordErrs.clean]

theorem Tags.clear_or (t : Tags) : Tags.clear.or t = t := by simp [Tags.or, Tags.clear]

/-- The state when a slot's operands, of tags t, have been read and consumed. -/
def State.operandsRead (s : State) (u : Nat) (e : WordErrs) (t : Tags) : State := (s.vrfCheck u e).1.consumed u t

theorem operandsRead_notes (e : WordErrs) (t : Tags) : Notes .sansUnits (unitRegs u) s (s.operandsRead u e t) :=
  (Notes.refl s).vrfCheck.consumed

/-- A hot unit reads clean operands without a trace. -/
theorem operandsRead_hot (hinj : s.flag fltInj_Armed = false) (hmode : s.unitMode u = 1) (t : Tags) :
    s.operandsRead u .clean t = s := by
  simp [State.operandsRead, State.consumed, vrfCheck_clean hinj, hmode]

/-- What the issue of a slot without an input or output queue comes to: its result is on its way, and nothing else of the Hearth
changes but FAULT_INFO's record. -/
theorem after_operandsRead (hinj : s.flag fltInj_Armed = false) (e : WordErrs) (tg : Tags) (d : Nat) (a : Act) :
    let t := (s.operandsRead u e tg).after d a
    t.hearth.flights = s.hearth.flights ++ [⟨s.hcyc + d, a⟩] ∧ t.hearth.grates = s.hearth.grates ∧
      t.hearth.edges = s.hearth.edges ∧ Frame noteParts s t ∧ (s.unitMode u = 1 → e = .clean →
        t = { s with hearth := { s.hearth with flights := s.hearth.flights ++ [⟨s.hcyc + d, a⟩] } }) := by
  have hn := operandsRead_notes (s := s) (u := u) e tg
  obtain ⟨hflights, hgrates, hedges, -⟩ := Hearth.kept_of_sansUnits hn.rest
  refine ⟨?_, hgrates, hedges, hn.frame.note ((frame_after _ d a).mono (by decide)), fun hmode he => ?_⟩
  · simp only [State.after, hflights, hn.hcyc]
  · rw [he, operandsRead_hot hinj hmode, State.after]

/-- An active unit takes a listed slot, and counts an unlisted one (R86). -/
theorem slot_listed (hon : s.cuOn u = true) (t : State) : s.slot u true t = t := by simp [State.slot, hon]

theorem slot_unlisted (hon : s.cuOn u = true) (t : State) : s.slot u false t = s.bump (hrtIllegalF u) 1 := by
  simp [State.slot, hon, State.illegal]

/-! ## The MAC slot (R79 to R84) -/

theorem macIssue_eq (hinj : s.flag fltInj_Armed = false) (a g : Nat) (wsel : Bool) (c : Nat) (w4 omac : Bool) (e : WordErrs) :
    let x := s.unit u
    let act := ((x.vrBytes (a % 512)).drop (32 * (g % 16))).take 32
    let tile := if wsel then x.tile1 else x.tile0
    let tg := ((⟨false, decide (0 < e.ue)⟩ : Tags).or (x.blkTags (a % 512) (g % 16 / 2))).or (if wsel then x.tileTags1 else x.tileTags0)
    let tgs := if omac then (tg.or (x.blkTags (a % 512) ((g % 16 + 1) % 16 / 2))).or x.sideTags else tg
    s.macIssue u a g wsel c w4 omac e = (s.operandsRead u e tgs).after 5 (.mac u (c % 4) w4 omac (passCols act tile w4)
      (((act.map BitVec.toNat).sum : Nat) : Int)
      (if omac then passSide (((x.vrBytes (a % 512)).drop (32 * ((g % 16 + 1) % 16))).take 16) x.side else List.replicate 64 0) tgs) := by
  simp only [State.macIssue, vrfCheck_tags hinj, State.operandsRead]

theorem ldwIssue_eq (hinj : s.flag fltInj_Armed = false) (a : Nat) (wsel : Bool) (e : WordErrs) :
    let x := s.unit u
    let tg := ((⟨false, decide (0 < e.ue)⟩ : Tags).or (x.vrTags (a % 512))).or (x.vrTags ((a + 1) % 512))
    s.ldwIssue u a wsel e = (s.operandsRead u e tg).after 1
      (.tile u wsel (BitVec.ofNat 8192 (x.vrNat (a % 512) + 2 ^ 4096 * x.vrNat ((a + 1) % 512))) tg) := by
  simp only [State.ldwIssue, vrfCheck_tags hinj, State.operandsRead]

theorem ldoIssue_eq (hinj : s.flag fltInj_Armed = false) (a : Nat) (e : WordErrs) :
    let x := s.unit u
    let tg := (⟨false, decide (0 < e.ue)⟩ : Tags).or (x.vrTags (a % 512))
    s.ldoIssue u a e = (s.operandsRead u e tg).after 1 (.sideBuf u (BitVec.ofNat 4096 (x.vrNat (a % 512))) tg) := by
  simp only [State.ldoIssue, vrfCheck_tags hinj, State.operandsRead]

theorem gendIssue_eq (hinj : s.flag fltInj_Armed = false) (a g c z d : Nat) (e : WordErrs) :
    let x := s.unit u
    let tg := ((⟨false, decide (0 < e.ue)⟩ : Tags).or (x.vrTags (a % 512))).or (x.vrTags ((a + 1) % 512))
    s.gendIssue u a g c z d e = (s.operandsRead u e tg).after 5 (.take u (g % 4) (c % 4) (z % 4) (d % 512) (s.bundleNow u)
      (BitVec.ofNat 4096 (x.vrNat (a % 512))) (BitVec.ofNat 4096 (x.vrNat ((a + 1) % 512))) tg) := by
  simp only [State.gendIssue, vrfCheck_tags hinj, State.operandsRead]

/-- Settles O16: each listed form reads its operands through one check of the register file and puts one result on its way. -/
theorem macSlotsIssue : Obligations.MacSlotsIssue := by
  intro s u a g c wsel e hon hinj x bad act sid tile row tg tgo does
  have issued {i : Instr} {listed : Bool} {tags : Tags} {d : Nat} {r : Act} {t : State}
      (h : exec i s = .next (s.slot u listed t)) (hl : listed = true) (ht : t = (s.operandsRead u e tags).after d r) :
      does i ⟨s.hcyc + d, r⟩ := by
    rw [hl, slot_listed hon, ht] at h
    exact ⟨_, h, after_operandsRead hinj e tags d r⟩
  refine ⟨issued rfl rfl (macIssue_eq hinj ..), issued rfl rfl (macIssue_eq hinj ..), issued rfl rfl (macIssue_eq hinj ..),
    issued rfl rfl (macIssue_eq hinj ..), fun heven => issued rfl (by simp [heven]) (ldwIssue_eq hinj ..), fun hodd => ?_,
    issued rfl rfl (ldoIssue_eq hinj ..)⟩
  have hlisted : (a % 2 == 0) = false := by simp [hodd]
  rw [← slot_unlisted hon (s.ldwIssue u a wsel e), ← hlisted]
  rfl

/-! ## GEND, the vector slot and the scalar slots (R82 to R95) -/

theorem exec_gend (a g c z d : Nat) (e : WordErrs) : exec (.gend u a g c z d e) s =
    .next (s.slot u (decide (a ≠ 511 ∧ g ≤ 3)) (s.gendIssue u a g c z d e)) := rfl

theorem exec_vectorInstruction (vec : BitVec 80) (ctrl : BitVec 16) (e : WordErrs) : exec (.vectorInstruction u vec ctrl e) s =
    .next (s.slot u (vecListed vec && bitsAt ctrl.toNat 0 10 == 0) (if vec.toNat.testBit 79 then s.vecIssue u vec ctrl e else s)) := rfl

theorem exec_scalarOperation (sl : BitVec 24) : exec (.scalarOperation u sl) s =
    .next (s.slot u (scalarListed sl.toNat) (s.scalarIssue u sl.toNat)) := rfl

/-- The tags of a vector instruction's operands (R92). -/
def State.vecTags (s : State) (u : Nat) (f : Vec) (e : WordErrs) : Tags :=
  let x := s.unit u
  (((⟨false, decide (0 < e.ue)⟩ : Tags).or (x.vrTags f.srcA)).or (if f.usesB then x.vrTags f.srcB else Tags.clear)).or
    (if f.usesC then x.vrTags f.srcC else Tags.clear)

theorem vecTags_poisoned (f : Vec) {e : WordErrs} (he : 0 < e.ue) : (s.vecTags u f e).poi = true := by
  simp [State.vecTags, Tags.or, he]

/-- What the front stages V0 to V4 form: the lanes, and the mask of a comparison. -/
def HUnit.front (x : HUnit) (f : Vec) : Lanes × Option (BitVec 128) :=
  vecFront f (x.lanes f.srcA) (x.lanes f.srcB) (x.lanes f.srcC) x.scalar (x.permAt f.perm) (x.maskReg f.mask)

/-- The state when a vector instruction's operands have been read; a warm unit enters its statistics at once (R184, R185). -/
def State.vecRead (s : State) (u : Nat) (f : Vec) (ctrl : BitVec 16) (e : WordErrs) : State :=
  let x := s.unit u
  let s1 := s.operandsRead u e (s.vecTags u f e)
  if s.unitMode u == 2 then
    s1.setUnit u ((s1.unit u).v5Stats f ctrl (Rq.ofBits (x.entry 2 f.qp)) (x.front f).1 (x.maskReg f.mask) (s.vecTags u f e) x.step)
  else s1

theorem vecIssue_eq (hinj : s.flag fltInj_Armed = false) (vec : BitVec 80) (ctrl : BitVec 16) (e : WordErrs) :
    let x := s.unit u
    let f := Vec.ofBits vec
    s.vecIssue u vec ctrl e = (s.vecRead u f ctrl e).after (s.v5Delay u + 1) (.vfive u vec ctrl (x.front f).1 (x.maskReg f.mask)
      (x.front f).2 (s.vecTags u f e) (if s.unitMode u == 2 then some (x.entry 2 f.qp) else none)) := by
  simp only [State.vecIssue, vrfCheck_tags hinj]
  rfl

theorem vecRead_spec (f : Vec) (ctrl : BitVec 16) (e : WordErrs) : let t := s.vecRead u f ctrl e
    t.hearth.sansUnits = s.hearth.sansUnits ∧ Frame noteParts s t := by
  have hn := operandsRead_notes (s := s) (u := u) e (s.vecTags u f e)
  unfold State.vecRead
  dsimp only
  split
  · exact ⟨hn.rest, hn.frame.note ((frame_setUnit _ u _).mono (by decide))⟩
  · exact ⟨hn.rest, hn.frame⟩

/-- A hot unit leaves no trace of clean operands. -/
theorem vecRead_hot (hinj : s.flag fltInj_Armed = false) (hmode : s.unitMode u = 1) (f : Vec) (ctrl : BitVec 16) :
    s.vecRead u f ctrl .clean = s := by
  simp [State.vecRead, hmode, operandsRead_hot hinj hmode]

theorem scalarIssue_some {sl r : Nat} {v : W32} (h : s.scalarValue u sl = some (r, v)) :
    s.scalarIssue u sl = s.after 1 (.scal u r v) := by
  simp [State.scalarIssue, h]

theorem scalarIssue_nop {sl : Nat} (h : bitsAt sl 20 4 = 0) : s.scalarIssue u sl = s := by
  simp [State.scalarIssue, State.scalarValue, h]

theorem scalarListed_iff (sl : Nat) : scalarListed sl = true ↔ bitsAt sl 20 4 ≤ 13 := by simp [scalarListed]

theorem gend_listed (hon : s.cuOn u = true) (hinj : s.flag fltInj_Armed = false) {a g : Nat} (hl : a ≠ 511 ∧ g ≤ 3) (c z d : Nat)
    (e : WordErrs) :
    let x := s.unit u
    let tg := ((⟨false, decide (0 < e.ue)⟩ : Tags).or (x.vrTags (a % 512))).or (x.vrTags ((a + 1) % 512))
    let t := s.slot u (decide (a ≠ 511 ∧ g ≤ 3)) (s.gendIssue u a g c z d e)
    t.hearth.flights = s.hearth.flights ++ [⟨s.hcyc + 5, .take u (g % 4) (c % 4) (z % 4) (d % 512) (s.bundleNow u)
      (BitVec.ofNat 4096 (x.vrNat (a % 512))) (BitVec.ofNat 4096 (x.vrNat ((a + 1) % 512))) tg⟩] ∧ Frame noteParts s t := by
  intro x tg t
  obtain ⟨hflights, -, -, hframe, -⟩ := after_operandsRead (u := u) hinj e tg 5 (.take u (g % 4) (c % 4) (z % 4) (d % 512)
    (s.bundleNow u) (BitVec.ofNat 4096 (x.vrNat (a % 512))) (BitVec.ofNat 4096 (x.vrNat ((a + 1) % 512))) tg)
  have ht : t = _ := (congrArg (s.slot u · _) (decide_eq_true hl)).trans ((slot_listed hon _).trans (gendIssue_eq hinj ..))
  rw [ht]
  exact ⟨hflights, hframe⟩

theorem vecIssue_spec (hinj : s.flag fltInj_Armed = false) (vec : BitVec 80) (ctrl : BitVec 16) (e : WordErrs) :
    let x := s.unit u
    let f := Vec.ofBits vec
    let t := s.vecIssue u vec ctrl e
    ∃ tg rq, (0 < e.ue → tg.poi = true) ∧ t.hearth.flights = s.hearth.flights ++
      [⟨s.hcyc + (s.v5Delay u + 1), .vfive u vec ctrl (x.front f).1 (x.maskReg f.mask) (x.front f).2 tg rq⟩] ∧
      Frame noteParts s t ∧ (s.unitMode u = 1 → e = .clean → Frame [.hearth] s t) := by
  intro x f t
  obtain ⟨hrest, hframe⟩ := vecRead_spec (s := s) (u := u) f ctrl e
  have hcyc : (s.vecRead u f ctrl e).hcyc = s.hcyc := hframe .hcyc (by decide)
  obtain ⟨hflights, -⟩ := Hearth.kept_of_sansUnits hrest
  have ht : t = _ := vecIssue_eq hinj vec ctrl e
  refine ⟨s.vecTags u f e, if s.unitMode u == 2 then some (x.entry 2 f.qp) else none, vecTags_poisoned f, ?_, ?_, fun hmode he => ?_⟩
  · rw [ht, State.after, hflights, hcyc]
  · rw [ht]
    exact hframe.note ((frame_after _ _ _).mono (by decide))
  · rw [ht, he, vecRead_hot hinj hmode]
    exact frame_after _ _ _

/-- Settles O17, slot by slot. -/
theorem gendVectorScalarIssue : Obligations.GendVectorScalarIssue := by
  intro s u hon hinj x
  refine ⟨fun a g c z d e => ⟨_, exec_gend a g c z d e, ?gendListed, ?gendUnlisted⟩, ?vecListed, ?vecUnlisted, ?scalar⟩
  case gendListed => exact fun hl => gend_listed hon hinj hl c z d e
  case gendUnlisted =>
    intro hl
    rw [decide_eq_false hl, slot_unlisted hon]
  case vecListed =>
    intro vec ctrl e hvec hctrl f r
    have hlisted : (vecListed vec && bitsAt ctrl.toNat 0 10 == 0) = true := by simp [hvec, hctrl]
    refine ⟨_, exec_vectorInstruction vec ctrl e, fun hven => ?_, fun hven => ?_⟩
    · rw [hlisted, slot_listed hon, if_pos hven]
      exact vecIssue_spec hinj vec ctrl e
    · rw [hlisted, slot_listed hon, hven, if_neg Bool.false_ne_true]
  case vecUnlisted =>
    intro vec ctrl e hl
    rw [exec_vectorInstruction, hl, slot_unlisted hon]
  case scalar =>
    intro sl
    refine ⟨_, exec_scalarOperation sl, fun hop r v hv => ?_, fun hop => ?_, fun hop => ?_⟩
    · rw [(scalarListed_iff _).mpr hop, slot_listed hon, scalarIssue_some hv, State.after]
    · rw [(scalarListed_iff _).mpr (by omega), slot_listed hon, scalarIssue_nop hop]
    · rw [Bool.eq_false_iff.mpr fun hl => absurd ((scalarListed_iff _).mp hl) (by omega), slot_unlisted hon]

end Sys2Proof.Machine
end

section
/-!
# RECV and SEND (R97 to R99, R119, R129, R137, R144)

What taking a head leaves of its queue, and what the check of a queue word counts.
-/

set_option autoImplicit false

namespace Sys2Proof.Machine

variable {s : State} {u q : Nat}

/-! ## Queues -/

@[simp] theorem queue_setQueue (g : Grate) (q : Nat) (x : Queue) : (g.setQueue q x).queue q = x := mget_mput_same ..

@[simp] theorem grates_giveCredit (s : State) (site word : Nat) (t : Token) :
    (s.giveCredit site word t).hearth.grates = s.hearth.grates := by
  unfold State.giveCredit
  split
  · rfl
  split
  · split <;> rfl
  · rfl

@[simp] theorem grate_bump (s : State) (f : Fld) (k g : Nat) : (s.bump f k).grate g = s.grate g := grate_congr (by simp) g

@[simp] theorem unit_bump (s : State) (f : Fld) (k v : Nat) : (s.bump f k).unit v = s.unit v := unit_congr (by simp) v

/-- A fault of a grate leaves its queues alone. -/
theorem queue_grFaultK (s : State) (g kind code input queue epoch bundle q : Nat) :
    ((s.grFaultK g kind code input queue epoch bundle).grate g).queue q = (s.grate g).queue q := by
  unfold State.grFaultK
  extract_lets x info s1
  have h1 : (s1.grate g).queue q = (s.grate g).queue q := by
    unfold s1
    split
    · unfold info
      rw [grate_setGrate]
      rfl
    · rfl
  rw [grate_congr (s := s1) (by simp), h1]

/-- A token that reaches the head is poisoned at most: none is lost. -/
theorem length_headFix (s : State) (site q : Nat) :
    (((s.headFix site q).grate site).queue q).toks.length = ((s.grate site).queue q).toks.length := by
  unfold State.headFix
  extract_lets g x
  split
  · rfl
  next t ts hx =>
    have hlen : ((s.grate site).queue q).toks.length = ts.length + 1 := congrArg List.length hx
    split
    · rfl
    split
    · simp [x, g]
    split
    · rfl
    · rw [queue_grFaultK, grate_bump]
      simp [hlen]

/-- The head of a queue is taken: the rest stays. -/
theorem takeHead_cons {k : Token} {ks : List Token} (h : ((s.grate u).queue q).toks = k :: ks) :
    (s.takeHead u q).2 = some k ∧ (((s.takeHead u q).1.grate u).queue q).toks.length = ks.length := by
  have htake : s.takeHead u q = ((s.pop u q).giveCredit u ((s.grate u).qWord q) k, some k) := by
    unfold State.takeHead
    rw [h]
  rw [htake, grate_congr (grates_giveCredit ..), State.pop, length_headFix]
  simp [h]

theorem headOf_cons {k : Token} {ks : List Token} (h : ((s.grate u).queue q).toks = k :: ks) : s.headOf u q = some k := by
  simp [State.headOf, h]

theorem headOf_nil (h : ((s.grate u).queue q).toks = []) : s.headOf u q = none := by simp [State.headOf, h]

/-! ## RECV -/

/-- A hot unit issues RECV whatever its queue holds (R98). -/
theorem exec_recv_hot (hon : s.cuOn u = true) (hmode : s.unitMode u = 1) (hq : q < 2) (v b : Nat) :
    exec (.recv u q v b) s = .next (s.recvIssue u q v b) := by
  have h : exec (.recv u q v b) s = .next (s.slot u true (if s.unitMode u = 1 || s.writeHead u (q % 2) then
    s.recvIssue u (q % 2) v b else s.stall u false)) := rfl
  rw [h, slot_listed hon, Nat.mod_eq_of_lt hq, hmode]
  rfl

theorem recvIssue_head {k : Token} {ks : List Token} (h : ((s.grate u).queue q).toks = k :: ks) (hk : k.mark = false) (v b : Nat) :
    let t := s.recvIssue u q v b
    ((t.grate u).queue q).toks.length = ks.length ∧ t.hearth.flights = s.hearth.flights ++ [⟨s.hcyc + 2,
      if k.void then .recv u (v % 512) (b % 8) 0 Tags.clear else .recv u (v % 512) (b % 8) k.data ⟨k.suspect, k.poison⟩⟩] ∧
    t.hearth.units = s.hearth.units := by
  have hn : Notes .sansGrates (grateRegs u) s (s.takeHead u q).1 := (Notes.refl s).takeHead
  have ht : s.recvIssue u q v b = (s.takeHead u q).1.after 2 (if k.void then .recv u (v % 512) (b % 8) 0 Tags.clear
      else .recv u (v % 512) (b % 8) k.data ⟨k.suspect, k.poison⟩) := by
    simp only [State.recvIssue, headOf_cons h, hk, Bool.false_eq_true, if_false]
  rw [ht]
  refine ⟨(takeHead_cons h).2, ?_, hn.units⟩
  rw [State.after, hn.flights, hn.hcyc]

theorem recvIssue_empty (hmode : s.unitMode u = 1) (h : ((s.grate u).queue q).toks = []) (v b : Nat) :
    let t := s.recvIssue u q v b
    t.getF (hrtOverrunF u) = satAdd (hrtOverrunF u).width (s.getF (hrtOverrunF u)) 1 ∧
    t.hearth.flights = s.hearth.flights ++ [⟨s.hcyc + 2, .recv u (v % 512) (b % 8) 0 ⟨false, true⟩⟩] := by
  let s1 := s.bump (hrtOverrunF u) 1
  have hn : Notes .sansUnits (unitRegs u) s1 (s1.unitFault u 0x01 q 0 q (s.bundleNow u)) := (Notes.refl s1).unitFault
  have ht : s.recvIssue u q v b = (s1.unitFault u 0x01 q 0 q (s.bundleNow u)).after 2 (.recv u (v % 512) (b % 8) 0 ⟨false, true⟩) := by
    simp only [State.recvIssue, headOf_nil h, hmode, if_true, s1]
  obtain ⟨hflights, -⟩ := Hearth.kept_of_sansUnits hn.rest
  rw [ht]
  constructor
  · exact (hn.getF (by simp [hrtOverrunF]) (notMem_unitRegs u (base := hrtOverrun 0) (by decide) (by decide))).trans (getF_bump_same s _ 1 (by simp [hrtOverrunF]))
  · rw [State.after, hflights, hn.hcyc]
    simp [s1]

/-! ## SEND -/

theorem exec_send_hot (hon : s.cuOn u = true) (hmode : s.unitMode u = 1) (hq : q < 2) (v b : Nat) (e : WordErrs) (oq : Ecc) :
    exec (.send u q v b e oq) s =
      .next ((s.outCheck u (4 + q) oq).2.sendIssue u q v b e (oq == .uncorrectable)) := by
  have h : exec (.send u q v b e oq) s = .next (s.slot u true (if s.unitMode u = 1 then
    (s.outCheck u (4 + q % 2) oq).2.sendIssue u (q % 2) v b e (s.outCheck u (4 + q % 2) oq).1
    else if !s.sendRoom u (q % 2) then s.stall u false
    else if (s.outCheck u (4 + q % 2) oq).1 then (s.outCheck u (4 + q % 2) oq).2.stall u false
    else (s.outCheck u (4 + q % 2) oq).2.sendIssue u (q % 2) v b e false)) := rfl
  rw [h, slot_listed hon, Nat.mod_eq_of_lt hq, if_pos hmode]
  rfl

/-- The token of a block of a register. -/
def State.blkToken (s : State) (u v b : Nat) : Token :=
  let x := s.unit u
  ⟨BitVec.ofNat 512 ((x.entry 1 (16 * (v % 512) + 2 * (b % 8))).toNat + 2 ^ 256 * (x.entry 1 (16 * (v % 512) + 2 * (b % 8) + 1)).toNat),
    s.getF (hrtUnitCfg_Epoch u), 0, (x.blkTags (v % 512) (b % 8)).poi, (x.blkTags (v % 512) (b % 8)).sus, false, false, none⟩

/-- A block that reads clean goes out as it stands. -/
theorem sendIssue_clean (hinj : s.flag fltInj_Armed = false) (v b : Nat) (depth0 : Bool) :
    s.sendIssue u q v b .clean depth0 = s.after 2 (.send u (4 + q) (s.bundleNow u) q depth0 (s.blkToken u v b) false) := by
  have htags : (s.vrfCheck u .clean).2 = Tags.clear := vrfCheck_tags hinj _
  simp only [State.sendIssue, vrfCheck_clean hinj, htags, Tags.clear_or, State.blkToken]

/-- An uncorrectable word of an output queue counts TBL_UE (R144). -/
theorem getF_outCheck_uncorrectable (s : State) (u q : Nat) : (s.outCheck u q .uncorrectable).2.getF (grTblUeF u) =
    satAdd (grTblUeF u).width (s.getF (grTblUeF u)) 1 := by
  let s1 := s.bump (grTblUeF u) 1
  have hn : Notes .sansGrates (grFaultRegs u) s1 (s1.grFault u 0x19 0xF q) := (Notes.refl s1).grFaultK (List.Subset.refl _)
  have hoff : (grTblUeF u).off ∉ grFaultRegs u := by
    simp [grFaultRegs, grTblUeF, grTblUe, grFaultInfo0, grFaultInfo1, grStatus]
  exact (hn.getF (by simp [grTblUeF]) hoff).trans (getF_bump_same s _ 1 (by simp [grTblUeF]))

theorem siteOn_lt (h : s.siteOn u = true) : u < 300 := by
  simp only [State.siteOn, Bool.and_eq_true, decide_eq_true_eq] at h
  exact h.left

theorem cuOn_lt (h : s.cuOn u = true) : u < 300 := by
  simp only [State.cuOn, Bool.and_eq_true] at h
  obtain ⟨⟨⟨-, hsite⟩, -⟩, -⟩ := h
  exact siteOn_lt hsite

theorem fltInj_notMem_grateRegs (g : Nat) : fltInj ∉ grateRegs g := by
  simp [grateRegs, grFaultRegs, grFaultInfo0, grFaultInfo1, grStatus, grTblCe, grTblUe, grEpochErr, fltInj, fltStatus, fltHceBucket]
  omega

/-- A SEND to a queue whose word is uncorrectable. -/
theorem sendIssue_uncorrectable (hu : u < 300) (hinj : s.flag fltInj_Armed = false) (v b : Nat) :
    let t := (s.outCheck u (4 + q) .uncorrectable).2.sendIssue u q v b .clean true
    t.getF (grTblUeF u) = satAdd (grTblUeF u).width (s.getF (grTblUeF u)) 1 ∧
    ∃ k, t.hearth.flights = s.hearth.flights ++ [⟨s.hcyc + 2, .send u (4 + q) (s.bundleNow u) q true k false⟩] := by
  have hn : Notes .sansGrates (grateRegs u) s (s.outCheck u (4 + q) .uncorrectable).2 := (Notes.refl s).outCheck
  have hue := getF_outCheck_uncorrectable s u (4 + q)
  generalize (s.outCheck u (4 + q) .uncorrectable).2 = s1 at hn hue ⊢
  have hinj1 : s1.flag fltInj_Armed = false := (flag_congr (hn.getF (by decide) (fltInj_notMem_grateRegs u))).trans hinj
  intro t
  have ht : t = _ := sendIssue_clean hinj1 v b true
  rw [ht]
  refine ⟨hue, s1.blkToken u v b, ?_⟩
  rw [hn.bundleNow hu, State.after, hn.flights, hn.hcyc]

/-- Settles O18: RECV by what its queue holds, SEND by the word of its queue. -/
theorem recvAndSendIssue : Obligations.RecvAndSendIssue := by
  intro s u q v b hon hmode hinj hq
  refine ⟨fun k ks hk hmark => ⟨_, exec_recv_hot hon hmode hq v b, recvIssue_head hk hmark v b⟩,
    fun hnil => ⟨_, exec_recv_hot hon hmode hq v b, recvIssue_empty hmode hnil v b⟩,
    ⟨_, exec_send_hot hon hmode hq v b .clean .uncorrectable, sendIssue_uncorrectable (cuOn_lt hon) hinj v b⟩,
    ⟨_, exec_send_hot hon hmode hq v b .clean .clean, sendIssue_clean hinj v b false⟩⟩

end Sys2Proof.Machine
end

section
/-!
# Accumulator sets (R80 to R84)
-/

set_option autoImplicit false

namespace Sys2Proof.Machine

variable (x : HUnit)

@[simp] theorem acc_setAcc (a : Nat) (y : Acc) : (x.setAcc a y).acc a = y := mget_mput_same ..

theorem acc_setAcc_ne {a b : Nat} (y : Acc) (h : b ≠ a) : (x.setAcc a y).acc b = x.acc b := mget_mput_ne _ _ _ h

theorem listGet_map_range {α : Type} (d : α) (f : Nat → α) {n i : Nat} (h : i < n) : listGet d ((List.range n).map f) i = f i := by
  rw [listGet_eq_getD]
  simp [h]

theorem add_cols (a : Acc) (w4 omac : Bool) (cols : List Int) (row : Int) (side : List Int) (t : Tags) {c : Nat} (h : c < 64) :
    listGet 0 (a.add w4 omac cols row side t).cols c = listGet 0 a.cols c + listGet 0 cols c := listGet_map_range 0 _ h

/-- A fault of the unit leaves its accumulator sets alone. -/
theorem acc_unitFault (s : State) (u code port bank queue bundle b : Nat) :
    ((s.unitFault u code port bank queue bundle).unit u).acc b = (s.unit u).acc b := by
  have hn : Notes .sansUnits (unitRegs u) s (s.unitFault u code port bank queue bundle) := (Notes.refl s).unitFault
  obtain ⟨_, h⟩ := hn.unit u
  rw [h]
  rfl

/-- The state when GEND has taken a set: it is zero, and a wrong number of passes or a mix of modes is recorded (R82). -/
def State.setEmptied (s : State) (u acc gsz bundle : Nat) : State :=
  let a := (s.unit u).acc acc
  let s1 := s.setUnit u ((s.unit u).setAcc acc Acc.init)
  if decide (a.passes ≠ gsz + 1) || a.mixed then s1.unitFault u 0x04 0 0 0xF bundle else s1

/-- GEND's group results are on their way when its set has been taken (R82, R83). -/
theorem landTake_eq (s : State) (u g a z d n : Nat) (p0 p1 : BitVec 4096) (tg : Tags) :
    let x := (s.unit u).acc a
    let bad := decide (x.passes ≠ z + 1) || x.mixed
    s.land (.take u g a z d n p0 p1 tg) = (s.setEmptied u a z n).after 7 (.results u g d
      ((List.range (if x.mode4 = some true then 64 else 32)).map fun c =>
        BitVec.ofNat 32 (groupResult x (leBytes 512 p0.toNat) (leBytes 512 p1.toNat) c))
      { tg.or x.tags with poi := (tg.or x.tags).poi || bad }) := rfl

theorem acc_setEmptied (s : State) (u a z n : Nat) (b : Nat) :
    ((s.setEmptied u a z n).unit u).acc b = ((s.unit u).setAcc a Acc.init).acc b := by
  unfold State.setEmptied
  dsimp only
  split
  · rw [acc_unitFault, unit_setUnit]
  · rw [unit_setUnit]

theorem setEmptied_keeps (s : State) (u a z n : Nat) :
    (s.setEmptied u a z n).hearth.flights = s.hearth.flights ∧ (s.setEmptied u a z n).hcyc = s.hcyc := by
  let s1 := s.setUnit u ((s.unit u).setAcc a Acc.init)
  have hn : Notes .sansUnits (unitRegs u) s1 (s1.unitFault u 0x04 0 0 0xF n) := (Notes.refl s1).unitFault
  unfold State.setEmptied
  dsimp only
  split
  · exact ⟨(Hearth.kept_of_sansUnits hn.rest).1, hn.hcyc⟩
  · exact ⟨rfl, rfl⟩

/-- Settles O19: a pass replaces one set by its sum, and GEND one set by zeros. -/
theorem passLandsAndGendZeroes : Obligations.PassLandsAndGendZeroes := by
  refine ⟨fun s u a c w4 omac cols row side tg hc => ?_, fun s u g a z d n p0 p1 tg => ?_⟩
  · intro t
    have hunit : t.unit u = (s.unit u).setAcc a (((s.unit u).acc a).add w4 omac cols row side tg) := unit_setUnit ..
    rw [hunit]
    refine ⟨?_, ?_, ?_, fun b hb => acc_setAcc_ne _ _ hb, frame_setUnit s u _⟩
    · rw [acc_setAcc, add_cols _ _ _ _ _ _ _ hc]
    · rw [acc_setAcc, Acc.add]
    · rw [acc_setAcc, Acc.add]
  · have hacc (b : Nat) : ((s.land (.take u g a z d n p0 p1 tg)).unit u).acc b = ((s.unit u).setAcc a Acc.init).acc b :=
      acc_setEmptied s u a z n b
    obtain ⟨hflights, hcyc⟩ := setEmptied_keeps s u a z n
    refine ⟨(hacc a).trans (acc_setAcc ..), fun b hb => (hacc b).trans (acc_setAcc_ne _ _ hb), ?_⟩
    rw [landTake_eq, State.after, hflights, hcyc]

end Sys2Proof.Machine
end

section
/-!
# Bundles of compute units (R86, R94, R96, R97)

A warm unit moves on by its own bundle and step counters and by UNIT_CFG.PLEN. `KeepsPlace` says that an operation leaves these
alone, with one lemma for each part of a bundle's issue, as `Keeps` has.
-/

set_option autoImplicit false

namespace Sys2Proof.Machine

variable {u : Nat} {s₀ s t : State}

/-- The unit's configuration and its place in its program are as they were. -/
structure KeepsPlace (u : Nat) (s t : State) : Prop where
  cfg : t.word (hrtUnitCfg u) = s.word (hrtUnitCfg u)
  bundle : (t.unit u).bundle = (s.unit u).bundle
  step : (t.unit u).step = (s.unit u).step

/-! ## Composition -/

theorem KeepsPlace.refl (s : State) : KeepsPlace u s s := ⟨rfl, rfl, rfl⟩

theorem KeepsPlace.trans (h : KeepsPlace u s₀ s) (ht : KeepsPlace u s t) : KeepsPlace u s₀ t :=
  ⟨ht.cfg.trans h.cfg, ht.bundle.trans h.bundle, ht.step.trans h.step⟩

theorem KeepsPlace.ite {c : Prop} [Decidable c] {a b : State} (ha : KeepsPlace u s₀ a) (hb : KeepsPlace u s₀ b) :
    KeepsPlace u s₀ (if c then a else b) := by
  split <;> assumption

theorem KeepsPlace.foldl {α : Type} {f : State → α → State} {xs : List α} (h : KeepsPlace u s₀ s)
    (hf : ∀ s x, KeepsPlace u s₀ s → KeepsPlace u s₀ (f s x)) : KeepsPlace u s₀ (xs.foldl f s) := by
  induction xs generalizing s with
  | nil => exact h
  | cons x xs ih => exact ih (hf _ _ h)

/-- What checks and faults record is no part of it. -/
theorem KeepsPlace.notes {rest : Hearth → Hearth} {regs : List Nat} (h : KeepsPlace u s₀ s) (hn : Notes rest regs s t)
    (ho : hrtUnitCfg u ∉ regs) : KeepsPlace u s₀ t := by
  obtain ⟨_, hu⟩ := hn.unit u
  exact h.trans ⟨hn.words _ ho, by rw [hu], by rw [hu]⟩

theorem KeepsPlace.unitNotes (h : KeepsPlace u s₀ s) (hn : Notes .sansUnits (unitRegs u) s t) : KeepsPlace u s₀ t :=
  h.notes hn (notMem_unitRegs u (base := hrtUnitCfg 0) (by decide) (by decide))

theorem KeepsPlace.grateNotes (hu : u < 300) (h : KeepsPlace u s₀ s) (hn : Notes .sansGrates (grateRegs u) s t) :
    KeepsPlace u s₀ t :=
  h.notes hn (notMem_grateRegs hu (by simp [hrtUnitCfg]; omega))

theorem KeepsPlace.after (h : KeepsPlace u s₀ s) {d : Nat} {a : Act} : KeepsPlace u s₀ (s.after d a) := h.trans ⟨rfl, rfl, rfl⟩

theorem KeepsPlace.bump (h : KeepsPlace u s₀ s) {f : Fld} {k : Nat} (hw : f.lsb + f.width ≤ 32) (ho : hrtUnitCfg u ≠ f.off) :
    KeepsPlace u s₀ (s.bump f k) :=
  h.trans ⟨wordsKept_bump s f k hw _ (by simpa using ho), by simp, by simp⟩

/-! ## The slots of a bundle -/

theorem KeepsPlace.operandsRead (h : KeepsPlace u s₀ s) {e : WordErrs} {t : Tags} : KeepsPlace u s₀ ((s.vrfCheck u e).1.consumed u t) :=
  h.unitNotes (operandsRead_notes e t)

theorem KeepsPlace.macSlot (h : KeepsPlace u s₀ s) {m : Nat} {e : WordErrs} : KeepsPlace u s₀ (s.macSlot u m e) := by
  have pass {a g : Nat} {w : Bool} {c : Nat} {w4 omac : Bool} : KeepsPlace u s₀ (s.macIssue u a g w c w4 omac e) := h.operandsRead.after
  unfold State.macSlot
  refine KeepsPlace.ite pass (KeepsPlace.ite pass (KeepsPlace.ite pass (KeepsPlace.ite pass (KeepsPlace.ite ?ldw
    (KeepsPlace.ite ?ldo (KeepsPlace.ite ?gend h))))))
  all_goals exact h.operandsRead.after

/-- Statistics and digest shares are no part of the place. -/
theorem v5Stats_place (x : HUnit) (f : Vec) (ctrl : BitVec 16) (e : Rq) (l : Lanes) (m : BitVec 128) (t : Tags) (w : Nat) :
    (x.v5Stats f ctrl e l m t w).bundle = x.bundle ∧ (x.v5Stats f ctrl e l m t w).step = x.step := by
  unfold HUnit.v5Stats
  dsimp only
  split <;> exact ⟨rfl, rfl⟩

theorem KeepsPlace.vecIssue (h : KeepsPlace u s₀ s) {vec : BitVec 80} {ctrl : BitVec 16} {e : WordErrs} :
    KeepsPlace u s₀ (s.vecIssue u vec ctrl e) := by
  unfold State.vecIssue
  extract_lets f x v t mask r s1 warm rq s2
  have h1 : KeepsPlace u s₀ s1 := h.operandsRead
  have h2 : KeepsPlace u s₀ s2 := by
    obtain ⟨hb, hs⟩ := v5Stats_place (s1.unit u) f ctrl (Rq.ofBits rq) r.1 mask t x.step
    exact KeepsPlace.ite (h1.trans ⟨by simp, by rw [unit_setUnit, hb], by rw [unit_setUnit, hs]⟩) h1
  exact h2.after

theorem KeepsPlace.scalarIssue (h : KeepsPlace u s₀ s) {slot : Nat} : KeepsPlace u s₀ (s.scalarIssue u slot) := by
  unfold State.scalarIssue
  split
  · exact h
  · exact h.after

theorem KeepsPlace.recvIssue (hu : u < 300) (h : KeepsPlace u s₀ s) {q v b : Nat} : KeepsPlace u s₀ (s.recvIssue u q v b) := by
  unfold State.recvIssue
  split
  · exact KeepsPlace.ite h (h.grateNotes hu (Notes.refl s).takeHead).after
  · refine KeepsPlace.ite (KeepsPlace.after ?_) h
    exact (h.bump (by simp [hrtOverrunF]) (by simp [hrtUnitCfg, hrtOverrunF, hrtOverrun])).unitNotes (Notes.refl _).unitFault

theorem KeepsPlace.sendIssue (h : KeepsPlace u s₀ s) {q v b : Nat} {e : WordErrs} {depth0 : Bool} :
    KeepsPlace u s₀ (s.sendIssue u q v b e depth0) :=
  (h.unitNotes (Notes.refl s).vrfCheck).after

theorem KeepsPlace.sendCheck (hu : u < 300) (h : KeepsPlace u s₀ s) {b : BitVec 256} {c : Checks} :
    KeepsPlace u s₀ (s.sendCheck u b c).2 := by
  unfold State.sendCheck
  dsimp only
  split
  · exact h.grateNotes hu (Notes.refl s).outCheck
  · exact h

theorem KeepsPlace.cuIssue (hu : u < 300) (h : KeepsPlace u s₀ s) {b : BitVec 256} {c : Checks} {depth0 : Bool} :
    KeepsPlace u s₀ (s.cuIssue u b c depth0) := by
  unfold State.cuIssue
  extract_lets n p s1 s2 s3 s4
  have h1 : KeepsPlace u s₀ s1 := h.macSlot
  have h2 : KeepsPlace u s₀ s2 := KeepsPlace.ite h1.vecIssue h1
  have h3 : KeepsPlace u s₀ s3 := h2.foldl fun _ _ h => h.scalarIssue
  have h4 : KeepsPlace u s₀ s4 := KeepsPlace.ite (h3.recvIssue hu) h3
  exact KeepsPlace.ite h4.sendIssue h4

/-! ## The tick program (R94) -/

theorem tpCheck_clean (hinj : s.flag fltInj_Armed = false) : s.tpCheck u .clean = (true, s) := by
  simp [State.tpCheck, checked_idle hinj]

theorem tpCheck_uncorrectable (hinj : s.flag fltInj_Armed = false) : s.tpCheck u .uncorrectable =
    (false, (s.bump (hrtTpUeF u) 1).unitFault u 0x06 0 0 0xF (s.bundleNow u)) := by
  simp [State.tpCheck, checked_idle hinj]

/-- An entry that is uncorrectable counts TP_UE, and nothing is on its way. -/
theorem tpFault_spec (s : State) (u b : Nat) :
    let t := (s.bump (hrtTpUeF u) 1).unitFault u 0x06 0 0 0xF b
    t.getF (hrtTpUeF u) = satAdd (hrtTpUeF u).width (s.getF (hrtTpUeF u)) 1 ∧ t.hearth.flights = s.hearth.flights ∧
    Frame noteParts s t := by
  intro t
  have hn : Notes .sansUnits (unitRegs u) (s.bump (hrtTpUeF u) 1) t := (Notes.refl _).unitFault
  obtain ⟨hflights, -⟩ := Hearth.kept_of_sansUnits hn.rest
  exact ⟨(hn.getF (by simp [hrtTpUeF]) (notMem_unitRegs u (base := hrtTpUe 0) (by decide) (by decide))).trans (getF_bump_same s _ 1 (by simp [hrtTpUeF])),
    hflights.trans (by simp), ((frame_bump s (hrtTpUeF u) 1).mono (by decide)).note hn.frame⟩

/-! ## Steps of a warm unit (R97) -/

theorem warmStep_spec (s : State) (u : Nat) :
    let last := s.getF (hrtUnitCfg_Plen u) ≤ (s.unit u).bundle
    ((s.warmStep u).unit u).bundle = (if last then 0 else (s.unit u).bundle + 1) ∧
    ((s.warmStep u).unit u).step = (if last then (s.unit u).step + 1 else (s.unit u).step) ∧
    (s.warmStep u).hearth.flights = s.hearth.flights := by
  unfold State.warmStep
  dsimp only
  split <;> simp [State.setUnit, State.unit, mget_mput_same]

/-! ## Hot and warm bundles -/

section
variable (hrun : s.running = true) (hsite : s.siteOn u = true)
include hrun hsite

/-- An entry that may not run is a NOP in a hot unit. -/
theorem hotBundleIssue_bad (hmode : s.unitMode u = 1) {chk : Checks} (htp : s.tpCheck u chk.tp = (false, t)) :
    hotBundleIssue u chk s = t := by
  simp [hotBundleIssue, hrun, hsite, hmode, htp]

/-- An entry that may run is judged by its values. -/
theorem hotBundleIssue_good (hmu : isMu u = false) (hmode : s.unitMode u = 1) {chk : Checks}
    (htp : s.tpCheck u chk.tp = (true, t)) :
    let b := (s.unit u).entry 0 (s.bundleNow u)
    hotBundleIssue u chk s =
      if cuListed b then (t.sendCheck u b chk).2.cuIssue u b chk (t.sendCheck u b chk).1 else t.illegal u := by
  cases h : cuListed ((s.unit u).entry 0 (s.bundleNow u)) <;>
    simp [hotBundleIssue, hrun, hsite, hmode, htp, hmu, HUnit.bundleAt, bundleListed, h]

/-- The Damper is judged first in a warm unit whose bursts have ended. -/
theorem warmBundleIssue_held (hmode : s.unitMode u = 2) (hgraph : (s.unit u).graphOn = true) (hxfers : (s.unit u).xfers = [])
    (hdamper : s.damperHolds u = true) (chk : Checks) : warmBundleIssue u chk s = s.stall u true := by
  simp [warmBundleIssue, hrun, hsite, hmode, hgraph, hxfers, hdamper]

/-- A bundle whose queues are ready issues, and the unit moves on. -/
theorem warmBundleIssue_ready (hmu : isMu u = false) (hmode : s.unitMode u = 2) (hgraph : (s.unit u).graphOn = true)
    (hxfers : (s.unit u).xfers = []) (hdamper : s.damperHolds u = false) {chk : Checks} (htp : s.tpCheck u chk.tp = (true, s)) :
    let b := (s.unit u).entry 0 (s.unit u).bundle
    cuListed b = true → s.portsReady u b = true → (s.sendCheck u b chk).1 = false →
      warmBundleIssue u chk s = ((s.sendCheck u b chk).2.cuIssue u b chk false).warmStep u := by
  intro b hl hready hword
  simp [warmBundleIssue, hrun, hsite, hmode, hgraph, hxfers, hdamper, htp, hmu, HUnit.bundleAt, bundleListed, b, hl, hready, hword]

end

/-- A held cycle counts, and nothing else of the Hearth moves (R97). -/
theorem stall_spec (s : State) (u : Nat) (damper : Bool) :
    (s.stall u damper).getF (hrtStallCycF u) = satAdd (hrtStallCycF u).width (s.getF (hrtStallCycF u)) 1 ∧
    (s.stall u damper).hearth = s.hearth := by
  have hne : (hrtStallCycF u).off ≠ hrtUnitStatus u := by simp [hrtStallCycF, hrtStallCyc, hrtUnitStatus]
  have hset {t : State} {f : Fld} (v : Nat) (ho : f.off = hrtUnitStatus u) (hw : f.lsb + f.width ≤ 32) :
      (t.setF f v).getF (hrtStallCycF u) = t.getF (hrtStallCycF u) :=
    getF_setF_ne_off t f _ v hw (by simp [hrtStallCycF]) (ho ▸ hne)
  constructor
  · rw [State.stall, hset _ rfl (by simp [hrtUnitStatus_DamperHold]), hset _ rfl (by simp [hrtUnitStatus_Stalled]),
      getF_bump_same _ _ _ (by simp [hrtStallCycF])]
  · simp [State.stall]

/-- Settles O20: the outcomes of the tick-program check and of the tests that hold a unit, and for a warm unit that issuing leaves
its place alone until it moves on. -/
theorem bundlesIssue : Obligations.BundlesIssue := by
  intro s u chk hrun hsite hmu hinj b o
  have hot {t : State} (h : hotBundleIssue u chk s = t) : exec (.hotBundleIssue u chk) s = .next t := h ▸ rfl
  have warm {t : State} (h : warmBundleIssue u chk s = t) : exec (.warmBundleIssue u chk) s = .next t := h ▸ rfl
  have clean (htp : chk.tp = .clean) : s.tpCheck u chk.tp = (true, s) := htp ▸ tpCheck_clean hinj
  refine ⟨fun hmode htp hl => hot ?listed, fun hmode htp hl => hot ?unlisted, fun hmode htp =>
    ⟨_, hot (hotBundleIssue_bad hrun hsite hmode (htp ▸ tpCheck_uncorrectable hinj)), tpFault_spec s u (s.bundleNow u)⟩,
    ?issues, fun hmode hgraph hxfers hdamper =>
    ⟨_, warm (warmBundleIssue_held hrun hsite hmode hgraph hxfers hdamper chk), stall_spec s u true⟩⟩
  case listed => rw [hotBundleIssue_good hrun hsite hmu hmode (clean htp), if_pos hl]
  case unlisted =>
    rw [hotBundleIssue_good hrun hsite hmu hmode (clean htp), if_neg (Bool.not_eq_true _ ▸ hl)]
    rfl
  case issues =>
    intro hmode hgraph hxfers hdamper htp hl hready hword
    have hb : b = (s.unit u).entry 0 (s.unit u).bundle := by simp [b, State.bundleNow, hmode]
    have hplace : KeepsPlace u s (o.2.cuIssue u b chk false) :=
      have hu := siteOn_lt hsite
      ((KeepsPlace.refl s).sendCheck hu).cuIssue hu
    have hplen : (o.2.cuIssue u b chk false).getF (hrtUnitCfg_Plen u) = s.getF (hrtUnitCfg_Plen u) := by
      simp only [State.getF, State.regNat, hrtUnitCfg_Plen, hplace.cfg]
      simp
    obtain ⟨hbundle, hstep, hflights⟩ := warmStep_spec (o.2.cuIssue u b chk false) u
    rw [hplace.bundle, hplen] at hbundle hstep
    rw [hplace.step] at hstep
    refine ⟨_, warm ?_, hbundle, hstep, hflights⟩
    rw [hb] at hl hready
    simp only [o, hb] at hword ⊢
    exact warmBundleIssue_ready hrun hsite hmu hmode hgraph hxfers hdamper (clean htp) hl hready hword

end Sys2Proof.Machine
end

section
/-!
# Accesses of a hot memory unit (R98, R103, R106, R144)
-/

set_option autoImplicit false

namespace Sys2Proof.Machine

variable {s : State} {u ag k : Nat}

theorem muOn_lt {mode : Nat} (h : s.muOn u mode = true) : u < 300 := by
  simp only [State.muOn, Bool.and_eq_true] at h
  obtain ⟨⟨⟨-, hsite⟩, -⟩, -⟩ := h
  exact siteOn_lt hsite

/-- The unit after an access through a pattern. -/
def HUnit.accessed (x : HUnit) (ag k : Nat) (step : Bool) : HUnit := if step then x.stepPat ag k (x.ctrsOf ag k) else x

/-- The state after the counters of a pattern have moved on, where they do. -/
def State.patMoved (s : State) (u ag k : Nat) (step : Bool) : State :=
  if step then s.setUnit u ((s.unit u).stepPat ag k ((s.unit u).ctrsOf ag k)) else s

theorem unit_patMoved (s : State) (u ag k : Nat) (step : Bool) : (s.patMoved u ag k step).unit u = (s.unit u).accessed ag k step := by
  cases step
  · rfl
  · exact unit_setUnit ..

theorem patMoved_keeps (s : State) (u ag k : Nat) (step : Bool) : (s.patMoved u ag k step).hearth.sansUnits = s.hearth.sansUnits ∧
    Frame [.hearth] s (s.patMoved u ag k step) := by
  cases step
  · exact ⟨rfl, .refl _ _⟩
  · exact ⟨rfl, frame_setUnit s u _⟩

/-! ## Reads -/

theorem exec_muRead_hot (hon : s.muOn u 1 = true) (hag : ag < 4) (hk : k < 8) (step : Bool) (e : WordErrs) (tb : Bool) (oq : Ecc) :
    exec (.muRead u ag k step e tb oq) s =
      .next ((s.outCheck u (4 + ag) oq).2.readIssue u ag k step e tb (oq == .uncorrectable)) := by
  have h : exec (.muRead u ag k step e tb oq) s = .next (muRead u ag k step e tb oq s) := rfl
  rw [h, muRead, Nat.mod_eq_of_lt hag, Nat.mod_eq_of_lt hk, if_pos hon]
  rfl

theorem readIssue_listed (hl : ((s.unit u).pat ag k).listed = true) (step : Bool) (e : WordErrs) (tb depth0 : Bool) :
    s.readIssue u ag k step e tb depth0 = (s.patMoved u ag k step).after 1
      (.muRead u ag (((s.unit u).pat ag k).line ((s.unit u).ctrsOf ag k)) (s.bundleNow u) s.hcyc e tb depth0) := by
  simp [State.readIssue, hl, State.patMoved]

theorem readIssue_unlisted (hl : ((s.unit u).pat ag k).listed = false) (step : Bool) (e : WordErrs) (tb depth0 : Bool) :
    s.readIssue u ag k step e tb depth0 = (s.bump (hrtIllegalF u) 1).readNothing u ag (s.bundleNow u) 6 depth0 := by
  simp [State.readIssue, hl, State.illegal]

/-- A read through a listed pattern, issued when the word of its output queue has been used. -/
theorem readIssue_listed_spec {t : State} (hu : u < 300) (hn : Notes .sansGrates (grateRegs u) s t)
    (hl : ((s.unit u).pat ag k).listed = true) (step : Bool) (e : WordErrs) (tb depth0 : Bool) :
    let x := s.unit u
    let r := t.readIssue u ag k step e tb depth0
    r.hearth.flights = s.hearth.flights ++
      [⟨s.hcyc + 1, .muRead u ag ((x.pat ag k).line (x.ctrsOf ag k)) (s.bundleNow u) s.hcyc e tb depth0⟩] ∧
    r.unit u = x.accessed ag k step := by
  intro x r
  have hunit : t.unit u = x := unit_congr hn.units u
  have hr : r = _ := readIssue_listed (hunit ▸ hl) step e tb depth0
  obtain ⟨hrest, hframe⟩ := patMoved_keeps t u ag k step
  have hcyc : (t.patMoved u ag k step).hcyc = t.hcyc := hframe .hcyc (by decide)
  rw [hr]
  refine ⟨?_, (unit_patMoved ..).trans (by rw [hunit])⟩
  rw [State.after, (Hearth.kept_of_sansUnits hrest).1, hcyc, hn.flights, hn.hcyc, hn.bundleNow hu, hunit]

/-- A read through an unlisted pattern. -/
theorem readIssue_unlisted_spec {t : State} (hu : u < 300) (hn : Notes .sansGrates (grateRegs u) s t)
    (hl : ((s.unit u).pat ag k).listed = false) (step : Bool) (e : WordErrs) (tb depth0 : Bool) :
    let r := t.readIssue u ag k step e tb depth0
    r.getF (hrtIllegalF u) = satAdd (hrtIllegalF u).width (s.getF (hrtIllegalF u)) 1 ∧
    (∃ tok, tok.poison = true ∧ r.hearth.flights = s.hearth.flights ++
      [⟨s.hcyc + 6, .send u (4 + ag) (s.bundleNow u) ag depth0 tok false⟩]) ∧ r.hearth.units = s.hearth.units := by
  intro r
  have hunit : t.unit u = s.unit u := unit_congr hn.units u
  have hr : r = _ := readIssue_unlisted (hunit ▸ hl) step e tb depth0
  have hill : (hrtIllegalF u).off ∉ grateRegs u := notMem_grateRegs hu (by simp [hrtIllegalF, hrtIllegal]; omega)
  have hw : (hrtIllegalF u).lsb + (hrtIllegalF u).width ≤ 32 := by simp [hrtIllegalF]
  rw [hr]
  refine ⟨?_, ⟨{ Token.bad with epoch := (t.bump (hrtIllegalF u) 1).getF (hrtUnitCfg_Epoch u) }, rfl, ?_⟩, ?_⟩
  · rw [← hn.getF hw hill]
    exact getF_bump_same t _ 1 (hw.trans (by decide))
  · rw [State.readNothing, State.after, hearth_bump, hcyc_bump, hn.flights, hn.hcyc, hn.bundleNow hu]
  · exact (congrArg Hearth.units (hearth_bump ..)).trans hn.units

/-! ## Writes -/

theorem exec_muWrite_hot (hon : s.muOn u 1 = true) (hag : ag < 4) (hk : k < 8) (step : Bool) :
    exec (.muWrite u ag k step) s = .next (s.writeIssue u ag k step) := by
  have h : exec (.muWrite u ag k step) s = .next (muWrite u ag k step s) := rfl
  rw [h, muWrite, Nat.mod_eq_of_lt hag, Nat.mod_eq_of_lt hk, hon]
  rfl

/-- A write takes its token now, and reaches its banks two cycles later. -/
theorem writeIssue_listed {h : Token} {hs : List Token} (hq : ((s.grate u).queue ag).toks = h :: hs) (hmark : h.mark = false)
    (hl : ((s.unit u).pat ag k).listed = true) (step : Bool) :
    let s1 := (s.takeHead u ag).1
    s.writeIssue u ag k step = (s1.patMoved u ag k step).after 2
      (.muWrite u ag (((s1.unit u).pat ag k).line ((s1.unit u).ctrsOf ag k)) (s1.bundleNow u) s1.hcyc h) := by
  intro s1
  have hn : Notes .sansGrates (grateRegs u) s s1 := (Notes.refl s).takeHead
  have htake : s.writeTake u ag = (s1, some h) := by
    simp only [State.writeTake, headOf_cons hq, hmark, Bool.false_eq_true, if_false]
    rw [← (takeHead_cons hq).1]
  have hl1 : ((s1.unit u).pat ag k).listed = true := unit_congr hn.units u ▸ hl
  simp [State.writeIssue, htake, hl1, State.patMoved]

theorem writeIssue_listed_spec {h : Token} {hs : List Token} (hq : ((s.grate u).queue ag).toks = h :: hs) (hmark : h.mark = false)
    (hl : ((s.unit u).pat ag k).listed = true) (step : Bool) :
    let x := s.unit u
    let t := s.writeIssue u ag k step
    ((t.grate u).queue ag).toks.length = hs.length ∧
    (∃ n, t.hearth.flights = s.hearth.flights ++ [⟨s.hcyc + 2, .muWrite u ag ((x.pat ag k).line (x.ctrsOf ag k)) n s.hcyc h⟩]) ∧
    t.unit u = x.accessed ag k step := by
  intro x t
  have hn : Notes .sansGrates (grateRegs u) s (s.takeHead u ag).1 := (Notes.refl s).takeHead
  have hlen := (takeHead_cons hq).2
  have ht : t = _ := writeIssue_listed hq hmark hl step
  generalize (s.takeHead u ag).1 = s1 at hn hlen ht
  have hunit : s1.unit u = x := unit_congr hn.units u
  obtain ⟨hrest, hframe⟩ := patMoved_keeps s1 u ag k step
  obtain ⟨hflights, hgrates, -⟩ := Hearth.kept_of_sansUnits hrest
  have hcyc : (s1.patMoved u ag k step).hcyc = s1.hcyc := hframe .hcyc (by decide)
  rw [ht]
  refine ⟨(congrArg (fun g : Grate => (g.queue ag).toks.length) (grate_congr hgrates u)).trans hlen, ⟨s1.bundleNow u, ?_⟩,
    (unit_patMoved ..).trans (by rw [hunit])⟩
  rw [State.after, hflights, hcyc, hn.flights, hn.hcyc, hunit]

/-- Settles O21: a read after the check of its output queue's word, a write after its head has been taken. -/
theorem hotMemoryAccessesIssue : Obligations.HotMemoryAccessesIssue := by
  intro s u ag k step hon hag hk x p
  have hu := muOn_lt hon
  have hn (oq : Ecc) : Notes .sansGrates (grateRegs u) s (s.outCheck u (4 + ag) oq).2 := (Notes.refl s).outCheck
  refine ⟨fun hl e tb oq => ⟨_, exec_muRead_hot hon hag hk step e tb oq, ?_⟩,
    fun hl e tb oq => ⟨_, exec_muRead_hot hon hag hk step e tb oq, readIssue_unlisted_spec hu (hn oq) hl step e tb _⟩,
    fun hl h hs hq hmark => ⟨_, exec_muWrite_hot hon hag hk step, writeIssue_listed_spec hq hmark hl step⟩⟩
  obtain ⟨hflights, hunit⟩ := readIssue_listed_spec hu (hn oq) hl step e tb (oq == .uncorrectable)
  refine ⟨hflights, hunit, fun hoq => ?_⟩
  obtain ⟨hrest, hframe⟩ := patMoved_keeps s u ag k step
  obtain ⟨-, hgrates, -⟩ := Hearth.kept_of_sansUnits hrest
  have hclean : (s.outCheck u (4 + ag) oq).2 = s := by rw [hoq]; rfl
  rw [hclean, readIssue_listed hl]
  exact ⟨hgrates, (hframe.trans (frame_after _ 1 _)).mono (by decide)⟩

end Sys2Proof.Machine
end

section
/-!
# Bursts, grants and buffered writes of a memory unit (R86, R97, R109, R110, R483)
-/

set_option autoImplicit false

namespace Sys2Proof.Machine

variable {s t : State} {u ag k : Nat}

/-- The arbiter's grants and the bursts are no part of an address pattern. -/
theorem stepPat_keeps (x : HUnit) (ag k : Nat) (i : List Nat) :
    (x.stepPat ag k i).granted = x.granted ∧ (x.stepPat ag k i).xfers = x.xfers := by
  have hmove (y : HUnit) (n : Nat) (d : BitVec 256) : (y.moveEntry n d).granted = y.granted ∧ (y.moveEntry n d).xfers = y.xfers := by
    unfold HUnit.moveEntry
    dsimp only
    split <;> exact ⟨rfl, rfl⟩
  unfold HUnit.stepPat
  dsimp only
  split
  · exact hmove _ _ _
  · exact ⟨rfl, rfl⟩

/-! ## Bursts (R483) -/

theorem muOn_hot_of_warm (h : s.muOn u 2 = true) : s.muOn u 1 = false := by
  simp only [State.muOn, Bool.and_eq_true, beq_iff_eq] at h
  simp [State.muOn, h.2]

theorem exec_muXfer_warm (hon : s.muOn u 2 = true) (hag : ag < 4) (hk : k < 8) (hfree : (s.unit u).xferFree ag = true)
    (step store : Bool) : exec (.muXfer u ag k step store) s = .next (s.xferIssue u ag k step store) := by
  have h : exec (.muXfer u ag k step store) s = .next (muXfer u ag k step store s) := rfl
  rw [h, muXfer, Nat.mod_eq_of_lt hag, Nat.mod_eq_of_lt hk, muOn_hot_of_warm hon, hon, hfree]
  rfl

theorem xferIssue_listed (hl : ((s.unit u).pat ag k).listed = true) (step store : Bool) :
    let x := s.unit u
    let t := s.xferIssue u ag k step store
    (t.unit u).xfers = x.xfers ++ [⟨ag, store, x.step, x.bundle, x.burst ag k⟩] ∧ t.hearth.flights = s.hearth.flights ∧
    Frame [.hearth] s t := by
  intro x t
  let y : HUnit := { x with xfers := x.xfers ++ [⟨ag, store, x.step, x.bundle, x.burst ag k⟩] }
  have ht : t = s.setUnit u (if step then y.stepPat ag k ((listGet 0 (x.pat ag k).counts 0 - 1) :: (x.ctrsOf ag k).drop 1) else y) := by
    simp [t, State.xferIssue, hl, y, x]
  rw [ht]
  refine ⟨?_, rfl, frame_setUnit s u _⟩
  rw [unit_setUnit]
  cases step
  · rfl
  · exact (stepPat_keeps y _ _ _).2

/-! ## The arbiter (R97, R109) -/

theorem unit_takeHead (s : State) (u ag : Nat) : (s.takeHead u ag).1.unit u = s.unit u :=
  unit_congr (Notes.units (regs := grateRegs u) (Notes.refl s).takeHead) u

theorem unit_outCheck (s : State) (u q : Nat) (e : Ecc) : (s.outCheck u q e).2.unit u = s.unit u :=
  unit_congr (Notes.units (regs := grateRegs u) (Notes.refl s).outCheck) u

theorem granted_patMoved (s : State) (u ag k : Nat) (step : Bool) : ((s.patMoved u ag k step).unit u).granted = (s.unit u).granted := by
  rw [unit_patMoved]
  cases step
  · rfl
  · exact (stepPat_keeps ..).1

theorem granted_readIssue (s : State) (u ag k : Nat) (step : Bool) (e : WordErrs) (tb depth0 : Bool) :
    ((s.readIssue u ag k step e tb depth0).unit u).granted = (s.unit u).granted := by
  cases hl : ((s.unit u).pat ag k).listed
  · rw [readIssue_unlisted hl]
    exact congrArg HUnit.granted (unit_bump s _ 1 u)
  · rw [readIssue_listed hl]
    exact granted_patMoved s u ag k step

theorem granted_writeTake (s : State) (u ag : Nat) : ((s.writeTake u ag).1.unit u).granted = (s.unit u).granted := by
  unfold State.writeTake
  split
  · split
    · rfl
    · rw [unit_takeHead]
  · split
    · have hn : Notes .sansUnits (unitRegs u) _ ((s.bump (hrtOverrunF u) 1).unitFault u 0x01 ag 0 ag (s.bundleNow u)) :=
        (Notes.refl _).unitFault
      obtain ⟨_, h⟩ := hn.unit u
      rw [h, unit_bump]
    · rfl

theorem granted_writeIssue (s : State) (u ag k : Nat) (step : Bool) :
    ((s.writeIssue u ag k step).unit u).granted = (s.unit u).granted := by
  have htake := granted_writeTake s u ag
  unfold State.writeIssue
  split <;> (rename_i heq; rw [heq] at htake)
  · exact htake
  · dsimp only
    split
    · exact (congrArg HUnit.granted (unit_bump _ _ 1 u)).trans htake
    · exact (granted_patMoved _ u ag k step).trans htake

theorem granted_grantBlock (s : State) (u ag : Nat) (store : Bool) (line addr : Nat) (c : WordErrs × Bool) :
    ((s.grantBlock u ag store line addr c).unit u).granted = (s.unit u).granted := by
  unfold State.grantBlock
  extract_lets x bundle s1 r
  have h1 : (s1.unit u).granted = (s.unit u).granted := by
    unfold s1
    rw [unit_setUnit]
  split
  · exact h1
  · have hr : r.1.hearth = s1.hearth := (frame_hbmRead (s := s1) 3 u addr 64) .hearth (by decide)
    exact (congrArg HUnit.granted (unit_congr (congrArg Hearth.units hr) u)).trans h1

/-- The AG's access of the bundle has been granted. -/
def State.grantedTo (s : State) (u ag : Nat) : State := s.setUnit u { s.unit u with granted := (s.unit u).granted ||| 2 ^ ag }

/-- An AG's access of the bundle stands as granted. -/
def HasGrant (u ag : Nat) (s : State) : Prop := (s.unit u).granted.testBit ag = true

theorem hasGrant_grantedTo (s : State) (u ag : Nat) : HasGrant u ag (s.grantedTo u ag) := by
  simp [HasGrant, State.grantedTo, Nat.testBit_or, Nat.testBit_two_pow_self]

theorem HasGrant.grantedTo {a : Nat} (h : HasGrant u a s) (ag : Nat) : HasGrant u a (s.grantedTo u ag) := by
  have h : (s.unit u).granted.testBit a = true := h
  simp [HasGrant, State.grantedTo, Nat.testBit_or, h]

theorem HasGrant.of_granted {a : Nat} (h : HasGrant u a s) (ht : (t.unit u).granted = (s.unit u).granted) : HasGrant u a t := by
  rw [HasGrant, ht]
  exact h

/-- A test chooses between two answers with a state. -/
theorem fst_ite {α : Type} {p : State → Prop} {c : Prop} [Decidable c] {a b : State × α} (ha : p a.1) (hb : p b.1) :
    p (if c then a else b).1 := by
  split <;> assumption

/-- A grant is not taken back while the arbiter decides. -/
theorem HasGrant.decide1 {a : Nat} (h : HasGrant u a s) (b ag : Nat) (cs : List (WordErrs × Bool)) (oq : List (Nat × Ecc)) :
    HasGrant u a (s.decide1 u b ag cs oq).1 := by
  unfold State.decide1
  extract_lets ask c wait mark o
  have hmark {t : State} (ht : (t.unit u).granted = (s.unit u).granted) : HasGrant u a (mark t) := (h.of_granted ht).grantedTo ag
  have ho : o.2.unit u = s.unit u := unit_outCheck s u _ _
  clear_value wait ask o mark
  refine fst_ite h (fst_ite (h.of_granted ?_) ?_)
  · rw [unit_bump]
  · cases ask with
    | none => exact h
    | read k step =>
      dsimp only
      split
      · exact h.of_granted (by rw [ho])
      · exact hmark ((granted_readIssue ..).trans (by rw [ho]))
    | write k step => exact hmark (granted_writeIssue ..)
    | block store l addr => exact h.of_granted (granted_grantBlock ..)

theorem HasGrant.decideAll {a : Nat} (h : HasGrant u a s) (b : Nat) (cs : List (WordErrs × Bool)) (oq : List (Nat × Ecc))
    (ags : List Nat) : HasGrant u a (s.decideAll u b cs oq ags).1 := by
  induction ags generalizing s with
  | nil => exact h
  | cons ag ags ih => exact ih (h.decide1 b ag cs oq)

/-- A read with room in its queue, a clean queue word and free banks is granted. -/
theorem decide1_read {b : Nat} {step : Bool} {oq : List (Nat × Ecc)} (hask : s.ask u b ag = .read k step)
    (hroom : s.readRoom u ag = true) (hclean : errAt oq ag = .clean) (hgrant : s.grantable u ag (.read k step) = true)
    (cs : List (WordErrs × Bool)) : HasGrant u ag (s.decide1 u b ag cs oq).1 := by
  have hread : s.decide1 u b ag cs oq =
      ((s.readIssue u ag k step (agCheck cs ag).1 (agCheck cs ag).2 false).grantedTo u ag, false) := by
    cases hb : s.askBanks u ag (.read k step) with
    | none => simp [State.decide1, hask, hroom, hclean, hb, State.outCheck, State.tblCheck, State.grantedTo]
    | some x =>
      have hfree : s.taken u x.1 x.2 = false := by simpa [State.grantable, hroom, hb] using hgrant
      simp [State.decide1, hask, hroom, hclean, hb, hfree, State.outCheck, State.tblCheck, State.grantedTo]
  rw [hread]
  exact hasGrant_grantedTo ..

/-- A grant of the first request stays when the arbiter has decided. -/
theorem arbitrate_granted {b : Nat} (hcyc : (s.unit u).arbCyc ≠ s.cyc + 1) (hptr : (s.unit u).ptr < 4) (cs : List (WordErrs × Bool))
    (oq : List (Nat × Ecc)) (h : HasGrant u (s.unit u).ptr (s.decide1 u b (s.unit u).ptr cs oq).1) :
    ((s.arbitrate u b cs oq).unit u).arbCyc = s.cyc + 1 ∧
    HasGrant u (s.unit u).ptr (s.arbitrate u b cs oq) := by
  have hags : ∃ ags, (List.range 4).map (fun k => ((s.unit u).ptr + k) % 4) = (s.unit u).ptr :: ags :=
    ⟨(List.range' 1 3).map fun k => ((s.unit u).ptr + k) % 4, by
      simp [List.range_eq_range', List.range'_succ, Nat.mod_eq_of_lt hptr]⟩
  obtain ⟨ags, hags⟩ := hags
  rw [HasGrant, State.arbitrate, if_neg hcyc, hags, unit_setUnit]
  exact ⟨rfl, h.decideAll b cs oq ags⟩

theorem exec_muAccessGrant (hon : s.muOn u 2 = true) (hgraph : (s.unit u).graphOn = true) (hxfers : (s.unit u).xfers = [])
    (hdamper : s.damperHolds u = false) (hl : muListed false ((s.unit u).bundleAt true (s.unit u).bundle).toNat = true)
    (ags : List (WordErrs × Bool)) (oq : List (Nat × Ecc)) : exec (.muAccessGrant u ags oq) s =
      .next (s.arbitrate u ((s.unit u).bundleAt true (s.unit u).bundle).toNat ags oq) := by
  have h : exec (.muAccessGrant u ags oq) s = .next (muAccessGrant u ags oq s) := rfl
  simp only [h, muAccessGrant, hon, hgraph, hxfers, hdamper, hl]
  rfl

/-! ## The end of a burst, and buffered writes (R110, R483) -/

theorem exec_xferComplete (h : s.xferEnded u ag = true) : exec (.xferComplete u ag) s =
    .next (s.setUnit u { s.unit u with xfers := (s.unit u).xfers.filter fun x => x.ag != ag }) := by
  have hx : exec (.xferComplete u ag) s = .next (xferComplete u ag s) := rfl
  rw [hx, xferComplete, if_pos h]

/-- An entry of SRAM written: it reads as written, and the buffer is as it was. -/
theorem tblWrite_sram (x : HUnit) (i : Nat) (d : BitVec 256) :
    (x.tblWrite true 1 i d).entry 1 i = d ∧ (x.tblWrite true 1 i d).cfgBuf = x.cfgBuf := by
  simp [HUnit.tblWrite, HUnit.setLineTags, HUnit.setEntry, HUnit.entry, mget_mput_same]

theorem configBufferDrain_spec {i : Nat} {d : BitVec 256} (hsite : s.siteOn u = true) (hmu : isMu u = true)
    (h : (s.unit u).cfgBuf.find? (fun e => s.pairFree u e.1) = some (i, d)) : ∃ t, exec (.configBufferDrain u) s = .next t ∧
      (t.unit u).cfgBuf = dropFirst (fun e => s.pairFree u e.1) (s.unit u).cfgBuf ∧ (t.unit u).entry 1 i = d ∧
      (t.grate u).cfgOut = (s.grate u).cfgOut - 1 ∧ Frame [.hearth] s t := by
  let y : HUnit := { s.unit u with cfgBuf := dropFirst (fun f => s.pairFree u f.1) (s.unit u).cfgBuf }
  have hdrain : configBufferDrain u s =
      (s.setUnit u (y.tblWrite true 1 i d)).setGrate u { s.grate u with cfgOut := (s.grate u).cfgOut - 1 } := by
    simp [configBufferDrain, h, y]
  have hexec : exec (.configBufferDrain u) s = .next (s.when (s.siteOn u && isMu u) (configBufferDrain u s)) := rfl
  obtain ⟨hentry, hbuf⟩ := tblWrite_sram y i d
  refine ⟨_, by rw [hexec, hsite, hmu, State.when, Bool.and_self, if_pos rfl, hdrain], ?_, ?_, ?_, ?_⟩
  · rw [unit_setGrate, unit_setUnit, hbuf]
  · rw [unit_setGrate, unit_setUnit, hentry]
  · rw [grate_setGrate]
  · exact ((frame_setUnit s u _).trans (frame_setGrate _ u _)).mono (by decide)

theorem exec_muXfer_hot (hon : s.muOn u 1 = true) (step store : Bool) :
    exec (.muXfer u ag k step store) s = .next (s.bump (hrtIllegalF u) 1) := by
  have h : exec (.muXfer u ag k step store) s = .next (muXfer u ag k step store s) := rfl
  rw [h, muXfer, if_pos hon, State.illegal]

/-- Settles O22, command by command. -/
theorem warmBurstsAndGrants : Obligations.WarmBurstsAndGrants := by
  refine ⟨?xfer, fun s u ag k step store hon => exec_muXfer_hot hon step store, ?grant,
    fun s u ag h => ⟨_, exec_xferComplete h, by rw [unit_setUnit], rfl, frame_setUnit s u _⟩,
    fun s u i d hsite hmu h => configBufferDrain_spec hsite hmu h⟩
  case xfer =>
    intro s u ag k step store hon hag hk hfree hl
    exact ⟨_, exec_muXfer_warm hon hag hk hfree step store, xferIssue_listed hl step store⟩
  case grant =>
    intro s u k step ags oq hon hgraph hxfers hdamper b ag hl hcyc hag hask hroom hclean hgrant
    exact ⟨_, exec_muAccessGrant hon hgraph hxfers hdamper hl ags oq,
      arbitrate_granted hcyc hag ags oq (decide1_read hask hroom hclean hgrant ags)⟩

end Sys2Proof.Machine
end

section
/-!
# Indirect access to the tables of units and grates (R112, R113, R145, R191, R192, R488)
-/

set_option autoImplicit false

namespace Sys2Proof.Machine

variable {s : State} {u : Nat}

/-! ## Runs of register words -/

@[simp] theorem hearth_setWords (s : State) (off : Nat) (ws : List W32) : (s.setWords off ws).hearth = s.hearth := by
  induction ws generalizing s off with
  | nil => rfl
  | cons w ws ih => exact (ih _ _).trans (hearth_setWord ..)

theorem word_setWords_lt (s : State) {off a : Nat} (ws : List W32) (h : a < off) : (s.setWords off ws).word a = s.word a := by
  induction ws generalizing s off with
  | nil => rfl
  | cons w ws ih => exact (ih _ (by omega)).trans (word_setWord_ne s w (by omega))

/-- Each word of the run is where it was put. -/
theorem word_setWords (s : State) (off : Nat) (ws : List W32) {i : Nat} (h : i < ws.length) :
    (s.setWords off ws).word (off + 4 * i) = ws[i] := by
  induction ws generalizing s off i with
  | nil => exact absurd h (by simp)
  | cons w ws ih =>
    cases i with
    | zero => exact (word_setWords_lt _ ws (by omega)).trans (word_setWord_same s off w)
    | succ i =>
      rw [show off + 4 * (i + 1) = off + 4 + 4 * i by omega]
      exact ih (s.setWord off w) (off + 4) (Nat.lt_of_succ_lt_succ h)

/-- The eight data words of a window hold an entry. -/
theorem word_setWords_words8 (s : State) (off : Nat) (d : BitVec 256) {i : Nat} (h : i < 8) :
    (s.setWords off (words8 d)).word (off + 4 * i) = BitVec.ofNat 32 (bitsAt d.toNat (32 * i) 32) := by
  rw [word_setWords s off (words8 d) (by simpa [words8] using h)]
  simp [words8]

/-! ## Refusals (R18) -/

theorem wrRefused_hrt {off : Nat} (h : 0x1000000 ≤ off) (h' : off ≤ 0x3ffffff) :
    wrRefused off = some (hrtUnitStatus_WrRefused ((off - 0x1000000) / 0x8000)) := by
  simp (disch := omega) only [wrRefused, if_neg, if_pos]

theorem wrRefused_fab {off : Nat} (h : 0x800000 ≤ off) (h' : off ≤ 0xefffff) :
    wrRefused off = some (grStatus_WrRefused ((off - 0x800000) / 0x4000)) := by
  simp (disch := omega) only [wrRefused, if_neg, if_pos]

theorem refuse_hrtTblCmd (s : State) (hu : u < 300) : s.refuse (hrtTblCmd u) = s.raise (hrtUnitStatus_WrRefused u) := by
  have hn : (hrtTblCmd u - 0x1000000) / 0x8000 = u := by simp only [hrtTblCmd]; omega
  rw [State.refuse, wrRefused_hrt (by simp only [hrtTblCmd]; omega) (by simp only [hrtTblCmd]; omega), hn]

theorem refuse_grTblCmd (s : State) (hu : u < 300) : s.refuse (grTblCmd u) = s.raise (grStatus_WrRefused u) := by
  have hn : (grTblCmd u - 0x800000) / 0x4000 = u := by simp only [grTblCmd]; omega
  rw [State.refuse, wrRefused_fab (by simp only [grTblCmd]; omega) (by simp only [grTblCmd]; omega), hn]

/-- What the refusal of a unit's command, and of a grate's, leaves. -/
theorem unitRefused_spec (s : State) (u : Nat) :
    let t := s.raise (hrtUnitStatus_WrRefused u)
    t.hearth = s.hearth ∧ t.getF (hrtUnitStatus_WrRefused u) = 1 ∧ WordsKept [hrtUnitStatus u] s t ∧ Frame [.regs, .setNow] s t :=
  ⟨hearth_raise .., getF_raise_same s (hrtUnitStatus_WrRefused u) (by simp [hrtUnitStatus_WrRefused]),
    wordsKept_raise s (hrtUnitStatus_WrRefused u) (by simp [hrtUnitStatus_WrRefused]), frame_raise s _⟩

theorem grateRefused_spec (s : State) (g : Nat) :
    let t := s.raise (grStatus_WrRefused g)
    t.hearth = s.hearth ∧ t.getF (grStatus_WrRefused g) = 1 ∧ WordsKept [grStatus g] s t ∧ Frame [.regs, .setNow] s t :=
  ⟨hearth_raise .., getF_raise_same s (grStatus_WrRefused g) (by simp [grStatus_WrRefused]),
    wordsKept_raise s (grStatus_WrRefused g) (by simp [grStatus_WrRefused]), frame_raise s _⟩

/-! ## The commands -/

section
variable (hsite : s.siteOn u = true)
include hsite

theorem exec_hrtTblRead (e : WordErrs) : exec (.hrtTblRead u e) s = .next (hrtTblRead u e s) := by
  have h : exec (.hrtTblRead u e) s = .next (s.when (s.siteOn u) (hrtTblRead u e s)) := rfl
  rw [h, State.when, if_pos hsite]

theorem exec_hrtTblWrite : exec (.hrtTblWrite u) s = .next (hrtTblWrite u s) := by
  have h : exec (.hrtTblWrite u) s = .next (s.when (s.siteOn u) (hrtTblWrite u s)) := rfl
  rw [h, State.when, if_pos hsite]

theorem exec_grateTblRead (e : Ecc) : exec (.grateTblRead u e) s = .next (grateTblRead u e s) := by
  have h : exec (.grateTblRead u e) s = .next (s.when (decide (u < 300)) (grateTblRead u e s)) := rfl
  rw [h, State.when, if_pos (decide_eq_true (siteOn_lt hsite))]

theorem exec_grateTblWrite : exec (.grateTblWrite u) s = .next (grateTblWrite u s) := by
  have h : exec (.grateTblWrite u) s = .next (s.when (decide (u < 300)) (grateTblWrite u s)) := rfl
  rw [h, State.when, if_pos (decide_eq_true (siteOn_lt hsite))]

end

/-- A clean read of a unit's entry counts at most a word that is stored poisoned, and puts the entry into TBL_DATA. -/
theorem hrtTblRead_clean (hok : s.hrtTblOk u = true) : ∃ s1 : State, s1.hearth = s.hearth ∧ hrtTblRead u .clean s =
    s1.setWords (hrtTblData u 0) (words8 ((s.unit u).tblRead (isMu u) (s.getF (hrtTblSel_Table u)) (s.getF (hrtTblAddr_Index u)))) := by
  unfold hrtTblRead
  extract_lets t i x poi some1 ce ue s1 s2
  have hce : ce = 0 := by simp [ce, some1, WordErrs.clean]
  have h1 : s1 = s := if_pos hce
  refine ⟨s2, ?_, by rw [hok]; rfl⟩
  unfold s2
  split
  · rw [h1]
  · rw [hearth_bump, h1]

/-- An entry reads as written. -/
theorem entry_tblWrite (x : HUnit) (mu : Bool) (table index : Nat) (d : BitVec 256) :
    (x.tblWrite mu table index d).entry table index = d := by
  have hset : (x.setEntry table index d).entry table index = d := mget_mput_same ..
  unfold HUnit.tblWrite
  dsimp only
  split
  · split <;> exact hset
  · split <;> exact hset

/-- The refusal of a unit's write that R191 or R192 does not allow. -/
def State.tblWriteBad (s : State) (u : Nat) : Prop :=
  let tb := s.getF (hrtTblSel_Table u)
  let d := s.data8 (hrtTblData u 0)
  let x := (s.unit u).tblWrite (isMu u) tb (s.getF (hrtTblAddr_Index u)) d
  isMu u = false ∧ (tb = 2 ∧ rqBad d = true ∨
    (tb = 0 ∨ tb = 2) ∧ x.rqtOk (s.unitMode u == 2) (s.getF (hrtUnitCfg_Plen u)) = false)

theorem hrtTblWrite_stored (hok : s.hrtTblOk u = true) (hbad : ¬ s.tblWriteBad u) : hrtTblWrite u s =
    s.setUnit u ((s.unit u).tblWrite (isMu u) (s.getF (hrtTblSel_Table u)) (s.getF (hrtTblAddr_Index u)) (s.data8 (hrtTblData u 0))) := by
  unfold hrtTblWrite
  extract_lets t i d v
  rw [hok, if_neg (by simp), if_neg]
  intro h
  apply hbad
  simpa [State.tblWriteBad, t, i, d, v] using h

theorem hrtTblWrite_bad (hu : u < 300) (hok : s.hrtTblOk u = true) (hbad : s.tblWriteBad u) :
    hrtTblWrite u s = s.raise (hrtUnitStatus_WrRefused u) := by
  unfold hrtTblWrite
  extract_lets t i d v
  rw [hok, if_neg (by simp), if_pos, refuse_hrtTblCmd s hu]
  simpa [State.tblWriteBad, t, i, d, v] using hbad

/-- The refusal of a write that sets port bits in a CU's slot table (R113). -/
def State.grWriteBad (s : State) (g : Nat) : Prop :=
  s.getF ⟨grTblSel g, 0, 2⟩ = 0 ∧ isMu g = false ∧ slotSetsPorts (s.data8 (grTblData g 0)) = true

theorem grateTblRead_clean (hok : s.grTblOk u = true) : grateTblRead u .clean s =
    s.setWords (grTblData u 0) (words8 (mget (fun _ => 0) (s.grate u).tab (s.grTblKey u))) := by
  rw [grateTblRead, hok]
  rfl

theorem grateTblWrite_stored (hok : s.grTblOk u = true) (hbad : ¬ s.grWriteBad u) : grateTblWrite u s =
    s.setGrate u { s.grate u with tab := mput (fun _ => 0) (s.grate u).tab (s.grTblKey u) (s.data8 (grTblData u 0)) } := by
  unfold grateTblWrite
  dsimp only
  rw [hok, if_neg]
  intro h
  apply hbad
  simpa [State.grWriteBad, and_assoc] using h

theorem grateTblWrite_bad (hu : u < 300) (hok : s.grTblOk u = true) (hbad : s.grWriteBad u) :
    grateTblWrite u s = s.raise (grStatus_WrRefused u) := by
  unfold grateTblWrite
  dsimp only
  rw [hok, if_pos, refuse_grTblCmd s hu]
  simpa [State.grWriteBad, and_assoc] using hbad

/-- Settles O23: the four commands where the tables are open, and their refusals. -/
theorem tablesReadAndWrite : Obligations.TablesReadAndWrite := by
  intro s u hsite tb ix
  have hu := siteOn_lt hsite
  refine ⟨fun hok => ⟨⟨_, exec_hrtTblRead hsite .clean, ?unitRead⟩, ?unitWrite⟩,
    fun hok => ⟨⟨_, exec_grateTblRead hsite .clean, ?grateRead⟩, ?grateWrite⟩, ?unitClosed, ?grateClosed, ?running⟩
  case unitRead =>
    obtain ⟨s1, hhearth, hread⟩ := hrtTblRead_clean hok
    rw [hread]
    exact ⟨fun _ i hi => word_setWords_words8 _ _ _ hi, (hearth_setWords ..).trans hhearth⟩
  case unitWrite =>
    refine ⟨_, exec_hrtTblWrite hsite, fun hgood => ?_, fun hbad => ?_⟩
    · rw [hrtTblWrite_stored hok hgood, unit_setUnit]
      exact ⟨entry_tblWrite .., rfl, frame_setUnit s u _⟩
    · obtain ⟨hhearth, hflag, -, hframe⟩ := unitRefused_spec s u
      rw [hrtTblWrite_bad hu hok hbad]
      exact ⟨hflag, hhearth, hframe⟩
  case grateRead =>
    rw [grateTblRead_clean hok]
    exact ⟨fun i hi => word_setWords_words8 _ _ _ hi, hearth_setWords ..⟩
  case grateWrite =>
    refine ⟨_, exec_grateTblWrite hsite, fun hgood => ?_, fun hbad => ?_⟩
    · rw [grateTblWrite_stored hok hgood, grate_setGrate]
      exact ⟨mget_mput_same .., rfl, frame_setGrate s u _⟩
    · obtain ⟨hhearth, hflag, -, hframe⟩ := grateRefused_spec s u
      rw [grateTblWrite_bad hu hok hbad]
      exact ⟨hflag, hhearth, hframe⟩
  case unitClosed =>
    intro hclosed i hi
    refine ⟨s.raise (hrtUnitStatus_WrRefused u), ?_, unitRefused_spec s u⟩
    rw [List.mem_pair] at hi
    rcases hi with rfl | rfl
    · rw [exec_hrtTblRead hsite, hrtTblRead, hclosed, Bool.not_false, if_pos rfl, refuse_hrtTblCmd s hu]
    · rw [exec_hrtTblWrite hsite, hrtTblWrite, hclosed, Bool.not_false, if_pos rfl, refuse_hrtTblCmd s hu]
  case grateClosed =>
    intro hclosed i hi
    refine ⟨s.raise (grStatus_WrRefused u), ?_, grateRefused_spec s u⟩
    rw [List.mem_pair] at hi
    rcases hi with rfl | rfl
    · rw [exec_grateTblRead hsite, grateTblRead, hclosed, Bool.not_false, if_pos rfl, refuse_grTblCmd s hu]
    · rw [exec_grateTblWrite hsite, grateTblWrite, hclosed, Bool.not_false, Bool.true_or, if_pos rfl, refuse_grTblCmd s hu]
  case running =>
    intro hrun
    simp [State.hrtTblOk, State.grTblOk, hrun]

end Sys2Proof.Machine
end

section
/-!
# Configuration tokens of an unlisted TARGET (R139, R222)
-/

set_option autoImplicit false

namespace Sys2Proof.Machine

/-- A site of an enabled course that can take a token in this cycle: the network brings it there, and it has a credit (R139, R140). -/
def State.tokenArrives (s : State) (course : Nat) (t : CfgTok) : Prop :=
  course < 25 ∧ t.column < 12 ∧ s.courseOff course = false ∧ s.cfgSlot = true ∧ (s.grate (12 * course + t.column)).cfgOut < 16

/-- A token whose TARGET is not listed is discarded and counted, whatever its OP (R222). -/
theorem cfgToken_unlistedTarget {s : State} {course : Nat} {token : BitVec 512} (h : s.tokenArrives course (CfgTok.ofBits token))
    (htarget : (CfgTok.ofBits token).target = 3) (op : Nat) (act : CfgTok → Nat → State) :
    s.cfgToken course token op act = s.bump (hrtIllegalF (12 * course + (CfgTok.ofBits token).column)) 1 := by
  obtain ⟨hcourse, hcolumn, hon, hslot, hcredit⟩ := h
  simp [State.cfgToken, hcourse, hcolumn, hon, hslot, Nat.not_le.mpr hcredit, htarget, State.illegal]

/-- An EMPTY token for site 0, of epoch 0, whose TARGET is 3. -/
def emptyOfTarget3 : BitVec 512 := BitVec.ofNat 512 (3 * 2 ^ 502)

theorem emptyOfTarget3_fields : CfgTok.ofBits emptyOfTarget3 = ⟨0, 0, 3, 0, 0, 0, 0⟩ := by decide +kernel

/-- Refutes O29: its clause on an EMPTY token without scan data says that nothing changes, and leaves out that the token's TARGET is
listed. In the reset state an EMPTY token for site 0 with TARGET 3 counts ILLEGAL there. -/
theorem not_configurationTokensAct : ¬ Obligations.ConfigurationTokensAct := by
  intro h
  have hfields := emptyOfTarget3_fields
  have harrives : State.reset.tokenArrives 0 (CfgTok.ofBits emptyOfTarget3) := by
    rw [hfields]
    unfold State.tokenArrives
    decide +kernel
  have hcounts : exec (.cfgEmpty 0 emptyOfTarget3) State.reset = .next (State.reset.bump (hrtIllegalF 0) 1) := by
    have hexec : exec (.cfgEmpty 0 emptyOfTarget3) State.reset = .next (cfgEmpty 0 emptyOfTarget3 State.reset) := rfl
    rw [hexec, cfgEmpty, cfgToken_unlistedTarget harrives (by rw [hfields]), hfields]
    rfl
  obtain ⟨hcourse, hcolumn, hon, hslot, hcredit⟩ := harrives
  obtain ⟨hacts, -⟩ := h State.reset 0 emptyOfTarget3 hcourse hon hcolumn hslot hcredit
  obtain ⟨-, -, -, -, -, -, hempty, -⟩ := hacts (by rw [hfields]; decide +kernel)
  have hclaim := hempty (by rw [hfields]) (by decide +kernel)
  have hsame : State.reset.bump (hrtIllegalF 0) 1 = State.reset := Host.Outcome.next.inj (hcounts.symm.trans hclaim)
  have hcount : State.reset.getF (hrtIllegalF 0) = satAdd 32 (State.reset.getF (hrtIllegalF 0)) 1 :=
    (congrArg (State.getF · (hrtIllegalF 0)) hsame).symm.trans (getF_bump_same _ _ 1 (by decide))
  exact absurd hcount (by decide +kernel)

end Sys2Proof.Machine
end

section
/-!
# Credits that return (R133, R136)

A fault of a grate changes the cycle of its FAULT_INFO, and so a grate, but nothing else of the Hearth and no queue.
-/

set_option autoImplicit false

namespace Sys2Proof.Machine

variable {s : State} {k : Nat}

/-- Of the Hearth, a fault of a grate changes grates alone. -/
theorem grFaultK_hearth (s : State) (g kind code input queue epoch bundle : Nat) :
    ∃ gs, (s.grFaultK g kind code input queue epoch bundle).hearth = { s.hearth with grates := gs } := by
  unfold State.grFaultK
  dsimp only
  rw [hearth_assertSrc, hearth_raise]
  split
  · exact ⟨_, rfl⟩
  · exact ⟨_, rfl⟩

theorem edge_grFaultK (s : State) (g kind code input queue epoch bundle k : Nat) :
    (s.grFaultK g kind code input queue epoch bundle).edge k = s.edge k := by
  obtain ⟨_, h⟩ := grFaultK_hearth s g kind code input queue epoch bundle
  simp only [State.edge, h]

theorem credits_grFaultK (s : State) (g kind code input queue epoch bundle : Nat) :
    (s.grFaultK g kind code input queue epoch bundle).hearth.credits = s.hearth.credits := by
  obtain ⟨_, h⟩ := grFaultK_hearth s g kind code input queue epoch bundle
  rw [h]

theorem flights_grFaultK (s : State) (g kind code input queue epoch bundle : Nat) :
    (s.grFaultK g kind code input queue epoch bundle).hearth.flights = s.hearth.flights := by
  obtain ⟨_, h⟩ := grFaultK_hearth s g kind code input queue epoch bundle
  rw [h]

/-- The fault of an event that a counter of the grate counts leaves the count. -/
theorem getF_bump_grFaultK (s : State) {g : Nat} {f : Fld} (hw : f.lsb + f.width ≤ 32) (ho : f.off ∉ grFaultRegs g)
    (kind code input queue epoch bundle : Nat) :
    ((s.bump f 1).grFaultK g kind code input queue epoch bundle).getF f = satAdd f.width (s.getF f) 1 := by
  have hn : Notes .sansGrates (grFaultRegs g) (s.bump f 1) _ :=
    (Notes.refl _).grFaultK (List.Subset.refl _) (kind := kind) (code := code) (input := input) (queue := queue)
      (epoch := epoch) (bundle := bundle)
  exact (hn.getF hw ho).trans (getF_bump_same s f 1 (by omega))

/-- A counter of a grate is none of the registers in which its faults are recorded. -/
theorem grCounter_notMem_grFaultRegs (g : Nat) {base : Nat} (h : 0x800020 ≤ base) (h' : base ≤ 0x80004c) :
    base + 0x4000 * g ∉ grFaultRegs g := by
  simp only [grFaultRegs, grFaultInfo0, grFaultInfo1, grStatus, List.mem_cons, List.not_mem_nil, or_false]
  omega

@[simp] theorem edge_bump (s : State) (f : Fld) (n k : Nat) : (s.bump f n).edge k = s.edge k := by
  simp only [State.edge, hearth_bump]

@[simp] theorem edge_setEdge (s : State) (k : Nat) (x : EdgePort) : (s.setEdge k x).edge k = x := mget_mput_same ..

/-! ## A sender's queue -/

theorem senderQ_setSenderQ (s : State) (k : Nat) (x : Queue) : ((s.setSenderQ k x).senderQ k).1 = x := by
  unfold State.setSenderQ State.senderQ
  by_cases hk : k < 4800
  · simp [hk]
  · by_cases hx : (k - 4800) / 32 = 4 <;> simp [hk, hx]

theorem setSenderQ_hearth (s : State) (k : Nat) (x : Queue) :
    Frame [.hearth] s (s.setSenderQ k x) ∧ (s.setSenderQ k x).hearth.credits = s.hearth.credits := by
  unfold State.setSenderQ
  split
  · exact ⟨frame_hearth s _, rfl⟩
  · exact ⟨frame_hearth s _, rfl⟩

/-- The fault that a credit above the limit raises, at the grate or the edge port of its sender (R136). -/
def State.creditFault (s : State) (k : Nat) : State :=
  let g := senderSite k
  if k < 4800 then (s.bump (grCreditOverF g) 1).grFault g 0x15 (k % 16) (inputQueue (k % 16))
  else (s.bump (grCreditOverF g) 1).portFault (k - 4800) 0x15

theorem addCredit_eq (hhold : (s.senderQ k).1.hold = none) : s.addCredit k =
    if (s.senderQ k).1.credits < qwInit (s.senderQ k).2 then
      s.setSenderQ k { (s.senderQ k).1 with credits := (s.senderQ k).1.credits + 1 }
    else s.creditFault k := by
  simp only [State.addCredit, hhold, State.creditFault]

theorem creditFault_spec (s : State) (k : Nat) : let t := s.creditFault k
    t.hearth.credits = s.hearth.credits ∧ (t.senderQ k).1 = (s.senderQ k).1 ∧
    t.getF (grCreditOverF (senderSite k)) = satAdd (grCreditOverF (senderSite k)).width (s.getF (grCreditOverF (senderSite k))) 1 := by
  have hoff : (grCreditOverF (senderSite k)).off ∉ grFaultRegs (senderSite k) :=
    grCounter_notMem_grFaultRegs _ (base := 0x800034) (by decide) (by decide)
  have hwidth : (grCreditOverF (senderSite k)).lsb + (grCreditOverF (senderSite k)).width ≤ 32 := by simp [grCreditOverF]
  intro t
  by_cases hk : k < 4800
  · have ht : t = (s.bump (grCreditOverF (senderSite k)) 1).grFault (senderSite k) 0x15 (k % 16) (inputQueue (k % 16)) := if_pos hk
    have hsite : senderSite k = k / 16 := if_pos hk
    rw [ht]
    refine ⟨(credits_grFaultK ..).trans (by simp), ?_, getF_bump_grFaultK s hwidth hoff ..⟩
    simp only [State.senderQ, if_pos hk, ← hsite]
    exact (queue_grFaultK ..).trans (by rw [grate_bump])
  · have ht : t = (s.bump (grCreditOverF (senderSite k)) 1).portFault (k - 4800) 0x15 := if_neg hk
    have hsite : senderSite k = edgeSite (k - 4800) := if_neg hk
    rw [ht, State.portFault, ← hsite]
    refine ⟨(credits_grFaultK ..).trans (by simp), ?_, getF_bump_grFaultK s hwidth hoff ..⟩
    simp only [State.senderQ, if_neg hk, edge_grFaultK, edge_bump]

/-! ## The command -/

theorem exec_creditReturn_due (hrun : s.running = true) (hdue : s.hearth.credits.any (creditDue k s.hcyc) = true) :
    exec (.creditReturn k) s = .next
      (({ s with hearth := { s.hearth with credits := dropFirst (creditDue k s.hcyc) s.hearth.credits } } : State).addCredit k) := by
  have h : exec (.creditReturn k) s = .next (creditReturn k s) := rfl
  simp [h, creditReturn, hrun, hdue]

theorem exec_creditReturn_none (hdue : s.hearth.credits.any (creditDue k s.hcyc) = false) : exec (.creditReturn k) s = .next s := by
  have h : exec (.creditReturn k) s = .next (creditReturn k s) := rfl
  rw [h, creditReturn, hdue, Bool.and_false, if_neg Bool.false_ne_true]

/-- Settles O27, by whether the sender's counter stands below its limit. -/
theorem creditsReturn : Obligations.CreditsReturn := by
  refine ⟨fun s k hrun hdue hhold => ?_, fun s k hdue => exec_creditReturn_none hdue⟩
  let s1 : State := { s with hearth := { s.hearth with credits := dropFirst (creditDue k s.hcyc) s.hearth.credits } }
  have hq : s1.senderQ k = s.senderQ k := rfl
  have hadd : s1.addCredit k = _ := addCredit_eq hhold
  refine ⟨_, exec_creditReturn_due hrun hdue, ?_⟩
  change (s1.addCredit k).hearth.credits = _ ∧ _
  rw [hadd, hq]
  by_cases hlt : (s.senderQ k).1.credits < qwInit (s.senderQ k).2
  · obtain ⟨hframe, hcredits⟩ := setSenderQ_hearth s1 k { (s.senderQ k).1 with credits := (s.senderQ k).1.credits + 1 }
    rw [if_pos hlt]
    exact ⟨hcredits, fun _ => ⟨by rw [senderQ_setSenderQ], ((frame_hearth s _).trans hframe).mono (by decide)⟩,
      fun hge => absurd hlt hge⟩
  · obtain ⟨hcredits, hsender, hcount⟩ := creditFault_spec s1 k
    rw [if_neg hlt]
    exact ⟨hcredits, fun h => absurd h hlt, fun _ => ⟨by rw [hsender, hq], hcount⟩⟩

end Sys2Proof.Machine
end

section
/-!
# The steering unit (R125 to R128, R144)

A firing takes three heads, of which each take leaves the other queues and the tokens on their way alone, and puts one token on its
way.
-/

set_option autoImplicit false

namespace Sys2Proof.Machine

variable {s : State} {g q : Nat}

/-! ## Taking heads -/

theorem queue_setQueue_ne (x : Grate) {q r : Nat} (y : Queue) (h : r ≠ q) : (x.setQueue q y).queue r = x.queue r := mget_mput_ne _ _ _ h

/-- What becomes of a head leaves every other queue alone. -/
theorem queue_headFix_ne (s : State) (g : Nat) {q r : Nat} (h : r ≠ q) :
    ((s.headFix g q).grate g).queue r = ((s.grate g).queue r) := by
  unfold State.headFix
  extract_lets x y
  split
  · rfl
  · split
    · rfl
    split
    · rw [grate_setGrate, queue_setQueue_ne _ _ h]
    split
    · rfl
    · rw [queue_grFaultK, grate_bump, grate_setGrate, queue_setQueue_ne _ _ h]

theorem queue_takeHead_ne (s : State) (g : Nat) {q r : Nat} (h : r ≠ q) :
    ((s.takeHead g q).1.grate g).queue r = (s.grate g).queue r := by
  unfold State.takeHead
  split
  · rfl
  · rw [grate_congr (grates_giveCredit ..), State.pop, queue_headFix_ne _ _ h, grate_setGrate, queue_setQueue_ne _ _ h]

/-- A steering queue that holds a token gives it. -/
theorem steerTake_cons {k : Token} {ks : List Token} (h : ((s.grate g).queue q).toks = k :: ks) (c : Token) :
    s.steerTake g q c = ((s.takeHead g q).1, k) := by
  have htok : (s.takeHead g q).2 = some k := (takeHead_cons h).1
  unfold State.steerTake
  split <;> rename_i heq <;> rw [heq] at htok ⊢ <;> simp_all

@[simp] theorem grate_after (s : State) (d : Nat) (a : Act) (g : Nat) : (s.after d a).grate g = s.grate g := rfl

theorem outCheck_clean (s : State) (g q : Nat) : s.outCheck g q .clean = (false, s) := rfl

/-! ## A firing of SELECT -/

/-- The token that SELECT puts out (R126). -/
def selected (a b c : Token) : Token :=
  let pick := if c.data.toNat.testBit 0 then b else a
  { pick with suspect := pick.suspect || c.suspect, poison := pick.poison || c.poison, port := none }

theorem steerOuts_select (a b c : Token) : steerOuts 1 a b c = ([selected a b c], []) := rfl

/-- Between two states a firing has put the selected token on its way to SO0 and taken the heads of SD0, SD1 and SC. -/
def SteeringFired (g : Nat) (a b c : Token) (as bs cs : List Token) (s t : State) : Prop :=
  t.hearth.flights = s.hearth.flights ++ [⟨s.hcyc + 2, .enqueue g 11 8 false (selected a b c) false⟩] ∧
  ((t.grate g).queue 8).toks.length = as.length ∧ ((t.grate g).queue 9).toks.length = bs.length ∧
  ((t.grate g).queue 10).toks.length = cs.length

theorem steerFire_select {a b c : Token} {as bs cs : List Token} {so : List (Nat × Ecc)} (hop : (s.grate g).steerOp = 1)
    (ha : ((s.grate g).queue 8).toks = a :: as) (hb : ((s.grate g).queue 9).toks = b :: bs)
    (hc : ((s.grate g).queue 10).toks = c :: cs) (hac : a.seq = c.seq) (hbc : b.seq = c.seq) (hso : errAt so 0 = .clean) :
    SteeringFired g a b c as bs cs s (s.steerFire g so) := by
  let s1 := (s.takeHead g 10).1
  let s2 := (s1.takeHead g 8).1
  let s3 := (s2.takeHead g 9).1
  have hn : Notes .sansGrates (grateRegs g) s s3 := (Notes.refl s).takeHead.takeHead.takeHead
  have hc1 : ((s1.grate g).queue 10).toks.length = cs.length := (takeHead_cons hc).2
  have ha1 : ((s1.grate g).queue 8).toks = a :: as := by rw [queue_takeHead_ne s g (by decide), ha]
  have hb2 : ((s2.grate g).queue 9).toks = b :: bs := by
    rw [queue_takeHead_ne s1 g (by decide), queue_takeHead_ne s g (by decide), hb]
  have ht : s.steerFire g so = s3.after 2 (.enqueue g 11 8 false (selected a b c) false) := by
    simp [State.steerFire, hop, steerTake_cons hc, steerTake_cons ha1, steerTake_cons hb2, hac, hbc, steerOuts_select,
      State.soCheck, hso, outCheck_clean, State.steerPut, s1, s2, s3]
  rw [ht]
  refine ⟨?_, ?_, by rw [grate_after, (takeHead_cons hb2).2], ?_⟩
  · rw [State.after, hn.flights, hn.hcyc]
  · rw [grate_after, queue_takeHead_ne s2 g (by decide), (takeHead_cons ha1).2]
  · rw [grate_after, queue_takeHead_ne s2 g (by decide), queue_takeHead_ne s1 g (by decide), hc1]

/-! ## The commands -/

theorem exec_steerFireHot (hg : g < 300) (so : List (Nat × Ecc)) :
    exec (.steerFireHot g .clean so) s = .next (steerFireHot g .clean so s) := by
  have h : exec (.steerFireHot g .clean so) s = .next (s.when (decide (g < 300)) (steerFireHot g .clean so s)) := rfl
  rw [h, State.when, if_pos (decide_eq_true hg)]

theorem exec_steerFireWarm (hg : g < 300) (so : List (Nat × Ecc)) :
    exec (.steerFireWarm g so) s = .next (steerFireWarm g so s) := by
  have h : exec (.steerFireWarm g so) s = .next (s.when (decide (g < 300)) (steerFireWarm g so s)) := rfl
  rw [h, State.when, if_pos (decide_eq_true hg)]

/-- A hot unit whose table word reads clean fires by its bit of this cycle. -/
theorem steerFireHot_clean (hinj : s.flag fltInj_Armed = false) (hrun : s.running = true) (hrelay : s.relay g = false)
    (hmode : s.grMode g = 1) (hop : (s.grate g).steerOp = 1) (hbit : (s.grate g).fires (s.grEntry g 0) = true)
    (so : List (Nat × Ecc)) : steerFireHot g .clean so s = s.steerFire g so := by
  simp [steerFireHot, hrun, hrelay, hmode, checked_idle hinj, State.tblCheck, hbit, hop]

theorem steerFireHot_noBit (hinj : s.flag fltInj_Armed = false) (hbit : (s.grate g).fires (s.grEntry g 0) = false)
    (so : List (Nat × Ecc)) : steerFireHot g .clean so s = s := by
  simp [steerFireHot, checked_idle hinj, State.tblCheck, hbit]

/-- A ready warm unit looks at the word of SO0 alone under SELECT. -/
theorem steerFireWarm_select (hready : s.steerReady g = true) (hop : (s.grate g).steerOp = 1) (so : List (Nat × Ecc)) :
    steerFireWarm g so s =
      if errAt so 0 = .uncorrectable then (s.outCheck g 11 (errAt so 0)).2 else (s.outCheck g 11 (errAt so 0)).2.steerFire g [] := by
  simp [steerFireWarm, hready, hop, steerNeeds, State.outCheck]

/-- Settles O26: SELECT under a hot and a warm schedule, and what keeps a unit from firing. -/
theorem steeringFires : Obligations.SteeringFires := by
  refine ⟨fun s g a b c as bs cs hg hop ha hb hc hac hbc hinj => ?_, fun s g so hinj hbit => ?_⟩
  · intro pick out fired
    have hfired : fired (s.steerFire g []) := steerFire_select hop ha hb hc hac hbc rfl
    refine ⟨fun hrun hrelay hmode hbit => ⟨_, exec_steerFireHot hg [], ?_⟩, fun hready => ⟨_, exec_steerFireWarm hg [], ?_⟩,
      fun hready => ⟨_, exec_steerFireWarm hg _, ?_⟩⟩
    · rwa [steerFireHot_clean hinj hrun hrelay hmode hop hbit]
    · rw [steerFireWarm_select hready hop]
      exact hfired
    · have hn : Notes .sansGrates (grateRegs g) s (s.outCheck g 11 .uncorrectable).2 := (Notes.refl s).outCheck
      rw [steerFireWarm_select hready hop]
      exact ⟨getF_outCheck_uncorrectable s g 11, hn.flights⟩
  · have h : exec (.steerFireHot g .clean so) s = .next (s.when (decide (g < 300)) (steerFireHot g .clean so s)) := rfl
    rw [h, steerFireHot_noBit hinj hbit, State.when, ite_self]

end Sys2Proof.Machine
end

section
/-!
# Crossing a grate (R113, R116, R120, R121, R124)

In a grate where one token is present and every queue is empty, one input presents it, and the outputs of its mask are granted.
-/

set_option autoImplicit false

namespace Sys2Proof.Machine

variable {s t : State} {g i : Nat} {k : Token}

/-! ## Tokens on mesh inputs -/

/-- The state when the tokens of the mesh inputs are taken. -/
def State.takePresent (s : State) : State := { s with hearth := { s.hearth with present := [] } }

theorem meshTok_single (h : s.hearth.present = [(g, i, k)]) : s.meshTok g i = (some k, s.takePresent) := by
  simp [State.meshTok, h, State.takePresent]

/-- A grate off the first column and the outer courses has tokens on its mesh inputs from other grates alone. -/
theorem meshTok_none (hlow : 12 ≤ g) (hhigh : g < 288) {j : Nat} (hin : j = 0 → columnOf g ≠ 0)
    (h : ∀ p ∈ s.hearth.present, ¬ (p.1 = g ∧ p.2.1 = j)) : s.meshTok g j = (none, s) := by
  have hfind : s.hearth.present.find? (fun p => p.1 == g && p.2.1 == j) = none := by
    simpa [List.find?_eq_none] using h
  have hingest : s.ingestHead g j = none := by
    unfold State.ingestHead
    rw [if_pos]
    by_cases hj : j = 0
    · exact .inr (.inl (hin hj))
    · exact .inl hj
  have hcross : s.crossHead g j = none := by
    have hat : crossAt g j = none := by
      unfold crossAt
      rw [if_neg (by omega), if_neg (by omega)]
    simp [State.crossHead, hat]
  simp [State.meshTok, hfind, hingest, hcross]

/-! ## Relay grates (R116) -/

theorem exec_tokenCrossing (hg : g < 300) (le : List (Nat × LinkErr)) (te : List (Nat × Ecc)) :
    exec (.tokenCrossing g le te) s = .next (s.crossGrate g le te) := by
  have h : exec (.tokenCrossing g le te) s = .next (s.when (decide (g < 300)) (s.crossGrate g le te)) := rfl
  rw [h, State.when, if_pos (decide_eq_true hg)]

theorem exec_tokenCrossing_halted (hrun : s.running = false) (le : List (Nat × LinkErr)) (te : List (Nat × Ecc)) :
    exec (.tokenCrossing g le te) s = .next s := by
  have h : exec (.tokenCrossing g le te) s = .next (s.when (decide (g < 300)) (s.crossGrate g le te)) := rfl
  simp [h, State.crossGrate, hrun, State.when]

theorem dest_north (hhigh : g < 288) : s.dest g 3 = .mesh (g + 12) 2 := by
  have hc : courseOf g < 24 := by unfold courseOf; omega
  simp [State.dest, hc]

theorem relayCross_south (hlow : 12 ≤ g) (hhigh : g < 288) (h : s.hearth.present = [(g, 2, k)]) :
    s.relayCross g = s.takePresent.after 2 (.arrive (g + 12) 2 k) := by
  have hnone : (s.takePresent.after 2 (.arrive (g + 12) 2 k)).meshTok g 3 = (none, _) :=
    meshTok_none hlow hhigh (fun h => absurd h (by decide)) (by simp [State.takePresent, State.after])
  simp [State.relayCross, meshTok_single h, State.deliver, dest_north hhigh, hnone]

/-! ## What an input presents -/

/-- No injection is armed, and the queues of a grate are empty. -/
def Quiet (g : Nat) (s : State) : Prop :=
  s.flag fltInj_Armed = false ∧ ∀ q, 4 ≤ q → q < 13 → ((s.grate g).queue q).toks = []

/-- An input with nothing to present. -/
theorem present_none (hquiet : Quiet g s) (le : List (Nat × LinkErr)) {j : Nat} (hj : j < 10)
    (hmesh : j < 4 → s.meshTok g j = (none, s)) : s.present g le [] j = (none, s) := by
  obtain ⟨hinj, hqueues⟩ := hquiet
  by_cases h4 : j < 4
  · simp [State.present, checked_idle hinj, errAt, State.tblCheck, h4, hmesh h4]
  · have hq : ((s.grate g).queue (inputQueue j)).toks = [] := by
      unfold inputQueue
      split <;> exact hqueues _ (by omega) (by omega)
    simp [State.present, checked_idle hinj, errAt, State.tblCheck, h4, hq]

theorem presents_none (le : List (Nat × LinkErr)) {is : List Nat} (h : ∀ j ∈ is, s.present g le [] j = (none, s)) :
    s.presents g le [] is = ([], s) := by
  induction is with
  | nil => rfl
  | cons j js ih =>
    have ih := ih fun j hj => h j (List.mem_cons_of_mem _ hj)
    simp [State.presents, h j List.mem_cons_self, ih]

/-- Of a list of inputs one presents, and the others have nothing before and after. -/
theorem presents_one (le : List (Nat × LinkErr)) {is js : List Nat} (his : ∀ j ∈ is, s.present g le [] j = (none, s))
    (hjs : ∀ j ∈ js, (s.present g le [] i).2.present g le [] j = (none, (s.present g le [] i).2)) :
    s.presents g le [] (is ++ i :: js) = ((s.present g le [] i).1.toList, (s.present g le [] i).2) := by
  induction is with
  | nil =>
    rw [List.nil_append, State.presents, presents_none le hjs]
    cases (s.present g le [] i).1 <;> rfl
  | cons j is ih =>
    have ih := ih fun j hj => his j (List.mem_cons_of_mem _ hj)
    simp [State.presents, his j List.mem_cons_self, ih]

theorem nodup_inputsOf (g : Nat) : (inputsOf g).Nodup := by
  unfold inputsOf
  split <;> decide

theorem mem_inputsOf_mesh (g : Nat) (hi : i < 4) : i ∈ inputsOf g := by
  unfold inputsOf
  split <;> simp <;> omega

theorem lt_of_mem_inputsOf (h : i ∈ inputsOf g) : i < 10 := by
  unfold inputsOf at h
  split at h <;> simp at h <;> omega

/-- An inner, programmed grate at work, with a token on mesh input i and nothing else to present. -/
structure LoneToken (g i : Nat) (k : Token) (s : State) : Prop where
  run : s.running = true
  low : 12 ≤ g
  high : g < 288
  col : columnOf g ≠ 0
  relay : s.relay g = false
  mode : s.grMode g ≠ 0
  quiet : Quiet g s
  present : s.hearth.present = [(g, i, k)]
  mesh : i < 4

/-- The crossing of a grate in which mesh input i has the one token. -/
theorem crossGrate_single (h : LoneToken g i k s) (le : List (Nat × LinkErr)) (hafter : Quiet g (s.present g le [] i).2)
    (hgone : (s.present g le [] i).2.hearth.present = []) :
    s.crossGrate g le [] = (s.present g le [] i).2.grant g [] (s.present g le [] i).1.toList 0 := by
  obtain ⟨is, js, hsplit⟩ := List.append_of_mem (mem_inputsOf_mesh g h.mesh)
  have hnodup := nodup_inputsOf g
  rw [hsplit, List.nodup_middle, List.nodup_cons, List.mem_append, not_or] at hnodup
  obtain ⟨⟨hnis, hnjs⟩, -⟩ := hnodup
  have hlt {j : Nat} (hj : j ∈ is ∨ j = i ∨ j ∈ js) : j < 10 := lt_of_mem_inputsOf (g := g) (by simpa [hsplit] using hj)
  have hpresents := presents_one (s := s) (g := g) (i := i) le (is := is) (js := js)
    (fun j hj => present_none h.quiet le (hlt (.inl hj)) fun _ => meshTok_none h.low h.high (fun _ => h.col) (by
      simp only [h.present, List.mem_singleton, forall_eq]
      rintro ⟨-, rfl⟩
      exact hnis hj))
    (fun j hj => present_none hafter le (hlt (.inr (.inr hj))) fun _ => meshTok_none h.low h.high (fun _ => h.col) (by simp [hgone]))
  simp [State.crossGrate, h.run, h.relay, h.mode, hsplit, hpresents]

/-! ## The check and the mask of a token -/

theorem queue_noteMark (s : State) (g i m : Nat) (k : Token) (q : Nat) :
    ((s.noteMark g i m k).grate g).queue q = (s.grate g).queue q := by
  unfold State.noteMark
  dsimp only
  split
  · rw [grate_setGrate]
    rfl
  · rfl

theorem Notes.noteMark {regs : List Nat} {s₀ : State} (h : Notes .sansGrates regs s₀ s) {m : Nat} :
    Notes .sansGrates regs s₀ (s.noteMark g i m k) := Notes.ite h.setGrate h

/-- The registers in which the check of a token and a grate's faults are recorded. -/
def linkRegs (g : Nat) : List Nat := grLinkUe g :: grFaultRegs g

/-- Between two states a token has been taken from the mesh inputs and checked. -/
structure Presented (g : Nat) (s t : State) : Prop where
  notes : Notes .sansGrates (linkRegs g) s.takePresent t
  queues : ∀ q, ((t.grate g).queue q) = (s.grate g).queue q

theorem Notes.present {regs : List Nat} (h : Notes .sansGrates regs s t) : t.hearth.present = s.hearth.present := by
  have hrest := h.rest
  simp only [Hearth.sansGrates, Hearth.mk.injEq] at hrest
  simp [hrest]

theorem Presented.gone (h : Presented g s t) : t.hearth.present = [] := h.notes.present

theorem Presented.flights (h : Presented g s t) : t.hearth.flights = s.hearth.flights := h.notes.flights

theorem fltInj_notMem_linkRegs (g : Nat) : fltInj ∉ linkRegs g := by
  simp only [linkRegs, grFaultRegs, grLinkUe, grFaultInfo0, grFaultInfo1, grStatus, fltInj, List.mem_cons, List.not_mem_nil, or_false]
  omega

theorem Presented.quiet (h : Presented g s t) (hquiet : Quiet g s) : Quiet g t :=
  ⟨(flag_congr (h.notes.getF (f := fltInj_Armed) (by decide) (fltInj_notMem_linkRegs g))).trans hquiet.1,
    fun q hlo hhi => by rw [h.queues, hquiet.2 q hlo hhi]⟩

/-- A token as it goes on from a check of its word 0 that is uncorrectable (R120). -/
def Token.struck (k : Token) (f : BitVec 528) : Token :=
  { tokenOf (k.container ^^^ wrongBits [.uncorrectable] f) with poison := true, port := k.port }

theorem linkCheck_clean (hinj : s.flag fltInj_Armed = false) : s.linkCheck g i k .clean = (k, s) := by
  simp [State.linkCheck, LinkErr.clean, checked_idle hinj, listGet]

theorem linkCheck_struck (hinj : s.flag fltInj_Armed = false) (f : BitVec 528) : s.linkCheck g i k ⟨[.uncorrectable], f⟩ =
    (k.struck f, (s.bump (grLinkUeF g) 1).grFault g 0x18 i 0xF) := by
  simp [State.linkCheck, checked_idle hinj, listGet, State.linkUes, Token.struck]

/-- What mesh input i presents under its mask, after a check that answers token x and state s1. -/
theorem present_masked (hinj : s.flag fltInj_Armed = false) (hpres : s.hearth.present = [(g, i, k)]) (hi : i < 4)
    {le : List (Nat × LinkErr)} {x : Token} {s1 : State}
    (hcheck : s.takePresent.linkCheck g i k (linkErrAt le i) = (x, s1)) :
    let m := slotMask (s.grate g) g i (s.grEntry g 0)
    (m ≠ 0 → s.present g le [] i = (some ⟨i, m, x⟩, s1.noteMark g i m x)) ∧
    (m = 0 → s.present g le [] i = (none, (s1.bump (grStrayF g) 1).grFault g 0x11 i 0xF)) := by
  intro m
  constructor <;> intro hm <;>
    simp [State.present, checked_idle hinj, errAt, State.tblCheck, hi, meshTok_single hpres, hcheck, m, hm]

/-! ## Outputs -/

/-- What the grants of outputs leave: tokens on their way stay, and no link error is counted. -/
structure Granted (g : Nat) (s t : State) : Prop where
  hcyc : t.hcyc = s.hcyc
  present : t.hearth.present = s.hearth.present
  flights : s.hearth.flights ⊆ t.hearth.flights
  linkUe : t.getF (grLinkUeF g) = s.getF (grLinkUeF g)

theorem Granted.refl (s : State) : Granted g s s := ⟨rfl, rfl, List.Subset.refl _, rfl⟩

theorem Granted.trans {u : State} (h : Granted g s t) (hu : Granted g t u) : Granted g s u :=
  ⟨hu.hcyc.trans h.hcyc, hu.present.trans h.present, List.Subset.trans h.flights hu.flights, hu.linkUe.trans h.linkUe⟩

theorem granted_after (s : State) (d : Nat) (a : Act) : Granted g s (s.after d a) :=
  ⟨rfl, rfl, List.subset_append_left .., rfl⟩

theorem stray_notes (s : State) (g input : Nat) :
    Notes .sansGrates (grStray g :: grFaultRegs g) s ((s.bump (grStrayF g) 1).grFault g 0x11 input 0xF) :=
  ((Notes.refl s).bump (by simp [grStrayF]) (by simp [grStrayF])).grFaultK (List.subset_cons_self ..)

theorem fltInj_notMem_strayRegs (g : Nat) : fltInj ∉ grStray g :: grFaultRegs g := by
  simp only [grStray, grFaultRegs, grFaultInfo0, grFaultInfo1, grStatus, fltInj, List.mem_cons, List.not_mem_nil, or_false]
  omega

theorem granted_stray (s : State) (g input : Nat) : Granted g s ((s.bump (grStrayF g) 1).grFault g 0x11 input 0xF) := by
  have hn := stray_notes s g input
  have hoff : (grLinkUeF g).off ∉ grStray g :: grFaultRegs g := by
    have hfault : grLinkUe g ∉ grFaultRegs g := grCounter_notMem_grFaultRegs g (base := 0x800044) (by decide) (by decide)
    simp only [List.mem_cons, not_or]
    exact ⟨by simp [grLinkUeF, grLinkUe, grStray], hfault⟩
  exact ⟨hn.hcyc, hn.present, by rw [hn.flights]; exact List.Subset.refl _, hn.getF (by simp [grLinkUeF]) hoff⟩

theorem granted_deliver (s : State) (g input out : Nat) (k : Token) : Granted g s (s.deliver g input out k []) := by
  unfold State.deliver
  split
  · exact granted_after ..
  · exact granted_after ..
  · exact granted_stray ..
  · exact granted_after ..

/-- Where a mesh output leads hangs on the place of the grate alone. -/
theorem dest_mesh {o n j : Nat} (h : s.dest g o = .mesh n j) (t : State) : t.dest g o = .mesh n j := by
  unfold State.dest at h ⊢
  dsimp only at h ⊢
  split_ifs at h ⊢ <;> exact h

theorem deliver_mesh {o n j : Nat} (h : s.dest g o = .mesh n j) (input : Nat) (t : State) :
    (⟨t.hcyc + 2, .arrive n j k⟩ : Flight) ∈ (t.deliver g input o k []).hearth.flights := by
  simp [State.deliver, dest_mesh h t, State.after]

/-- One output of the mask of the only input that presents. -/
def State.grantOut (g : Nat) (p : Present) (s : State) (o : Nat) : State :=
  if p.mask.testBit o then s.deliver g p.input o p.tok [] else s

theorem grant_one (s : State) (g : Nat) (p : Present) : s.grant g [] [p] 0 = (List.range 11).foldl (State.grantOut g p) s := by
  have hstep : (fun (s : State) (o : Nat) => if (!p.mask.testBit o) = true then s
      else if Nat.testBit 0 o = true then (s.bump (grCollideF g) 1).grFault g 0x10 p.input 0xF
      else s.deliver g p.input o p.tok []) = State.grantOut g p := by
    funext s o
    cases h : p.mask.testBit o <;> simp [State.grantOut, h]
  exact congrArg (fun f => (List.range 11).foldl f s) hstep

theorem granted_grantOut (g : Nat) (p : Present) (s : State) (o : Nat) : Granted g s (s.grantOut g p o) := by
  unfold State.grantOut
  split
  · exact granted_deliver ..
  · exact Granted.refl s

theorem granted_foldl (g : Nat) (p : Present) (s : State) (os : List Nat) : Granted g s (os.foldl (State.grantOut g p) s) := by
  induction os generalizing s with
  | nil => exact Granted.refl s
  | cons o os ih => exact (granted_grantOut g p s o).trans (ih _)

/-- Each mesh output of the mask has the token on its way. -/
theorem mem_flights_foldl {p : Present} {o n j : Nat} (hdest : s.dest g o = .mesh n j) (hbit : p.mask.testBit o = true)
    {os : List Nat} (ho : o ∈ os) (t : State) :
    (⟨t.hcyc + 2, .arrive n j p.tok⟩ : Flight) ∈ (os.foldl (State.grantOut g p) t).hearth.flights := by
  induction os generalizing t with
  | nil => exact absurd ho (by simp)
  | cons q os ih =>
    rcases List.mem_cons.mp ho with rfl | ho
    · have hout : t.grantOut g p o = t.deliver g p.input o p.tok [] := if_pos hbit
      exact (granted_foldl g p _ os).flights (hout ▸ deliver_mesh hdest p.input t)
    · have hcyc := (granted_grantOut g p t q).hcyc
      exact hcyc ▸ ih ho (t.grantOut g p q)

/-- The crossing of a token that its checks have left as x: each mesh output of its mask has it on the way. -/
theorem crossGrate_masked (h : LoneToken g i k s) {le : List (Nat × LinkErr)} {x : Token} {s1 : State}
    (hcheck : s.takePresent.linkCheck g i k (linkErrAt le i) = (x, s1))
    (h1 : Presented g s s1) (hm : slotMask (s.grate g) g i (s.grEntry g 0) ≠ 0) :
    let t := s.crossGrate g le []
    t.hearth.present = [] ∧ t.getF (grLinkUeF g) = s1.getF (grLinkUeF g) ∧
    ∀ o n j, o < 11 → (slotMask (s.grate g) g i (s.grEntry g 0)).testBit o = true → s.dest g o = .mesh n j →
      (⟨s.hcyc + 2, .arrive n j x⟩ : Flight) ∈ t.hearth.flights := by
  intro t
  let m := slotMask (s.grate g) g i (s.grEntry g 0)
  let s2 := s1.noteMark g i m x
  have h2 : Presented g s s2 := ⟨h1.notes.noteMark, fun q => (queue_noteMark ..).trans (h1.queues q)⟩
  have hpresent : s.present g le [] i = (some ⟨i, m, x⟩, s2) := (present_masked h.quiet.1 h.present h.mesh hcheck).1 hm
  have ht : t = (List.range 11).foldl (State.grantOut g ⟨i, m, x⟩) s2 := by
    have hcross := crossGrate_single h le (by rw [hpresent]; exact h2.quiet h.quiet)
      (by rw [hpresent]; exact h2.gone)
    rw [hpresent] at hcross
    exact hcross.trans (grant_one ..)
  have hgrant : Granted g s2 t := ht ▸ granted_foldl ..
  have hue : s2.getF (grLinkUeF g) = s1.getF (grLinkUeF g) := by
    have hn : Notes .sansGrates [] s1 s2 := (Notes.refl s1).noteMark
    exact hn.getF (by simp [grLinkUeF]) (by simp)
  refine ⟨hgrant.present.trans h2.gone, hgrant.linkUe.trans hue, fun o n j ho hbit hdest => ?_⟩
  have hcyc : s2.hcyc = s.hcyc := h2.notes.hcyc
  rw [ht, ← hcyc]
  exact mem_flights_foldl (p := ⟨i, m, x⟩) hdest hbit (List.mem_range.mpr ho) s2

theorem presented_clean : Presented g s s.takePresent := ⟨.refl _, fun _ => rfl⟩

theorem presented_struck : Presented g s ((s.takePresent.bump (grLinkUeF g) 1).grFault g 0x18 i 0xF) :=
  ⟨((Notes.refl _).bump (by simp [grLinkUeF]) (by simp [linkRegs, grLinkUeF])).grFaultK (by simp [linkRegs]),
    fun _ => (queue_grFaultK ..).trans (by rw [grate_bump]; rfl)⟩

/-- A token that meets no output: it is dropped, and STRAY counts. -/
theorem crossGrate_stray (h : LoneToken g i k s) (hm : slotMask (s.grate g) g i (s.grEntry g 0) = 0) :
    let t := s.crossGrate g [] []
    t.hearth.present = [] ∧ t.hearth.flights = s.hearth.flights ∧
      t.getF (grStrayF g) = satAdd (grStrayF g).width (s.getF (grStrayF g)) 1 := by
  intro t
  let s2 := (s.takePresent.bump (grStrayF g) 1).grFault g 0x11 i 0xF
  have hcheck : s.takePresent.linkCheck g i k (linkErrAt [] i) = (k, s.takePresent) := linkCheck_clean h.quiet.1
  have hpresent : s.present g [] [] i = (none, s2) := (present_masked h.quiet.1 h.present h.mesh hcheck).2 hm
  have hgranted : Granted g s.takePresent s2 := granted_stray ..
  have hflights : s2.hearth.flights = s.hearth.flights := (flights_grFaultK ..).trans (by rw [hearth_bump]; rfl)
  have hinj : s2.flag fltInj_Armed = false :=
    (flag_congr ((stray_notes ..).getF (f := fltInj_Armed) (by decide) (fltInj_notMem_strayRegs g))).trans h.quiet.1
  have hqueues (q : Nat) : (s2.grate g).queue q = (s.grate g).queue q := (queue_grFaultK ..).trans (by rw [grate_bump]; rfl)
  have ht : t = s2 := by
    have hcross := crossGrate_single h []
      (by rw [hpresent]; exact ⟨hinj, fun q hlo hhi => by rw [hqueues, h.quiet.2 q hlo hhi]⟩)
      (by rw [hpresent]; exact hgranted.present)
    rw [hpresent] at hcross
    exact hcross
  rw [ht]
  exact ⟨hgranted.present, hflights, getF_bump_grFaultK s.takePresent (by simp [grStrayF])
    (grCounter_notMem_grFaultRegs g (base := 0x800024) (by decide) (by decide)) ..⟩

/-- Settles O25, by the kind of grate and the mask of the token. -/
theorem tokensCrossGrates : Obligations.TokensCrossGrates := by
  refine ⟨fun s g le te hrun => exec_tokenCrossing_halted hrun le te, ?relay, ?cross⟩
  case relay =>
    intro s g k le te hrun hg hrelay hpres hlow
    have ht : s.crossGrate g le te = s.takePresent.after 2 (.arrive (g + 12) 2 k) := by
      simp [State.crossGrate, hrun, hrelay, relayCross_south hlow hg hpres]
    refine ⟨_, exec_tokenCrossing (by omega) le te, ?_⟩
    rw [ht]
    exact ⟨rfl, rfl, frame_hearth s _⟩
  case cross =>
    intro s g i k hrun hlow hhigh hcol hrelay hmode hinj hpres hi hmark hqueues m
    have hlone : LoneToken g i k s := ⟨hrun, hlow, hhigh, hcol, hrelay, hmode, ⟨hinj, hqueues⟩, hpres, hi⟩
    have hg : g < 300 := by omega
    refine ⟨fun hm f => ⟨_, exec_tokenCrossing hg _ [], ?_⟩, ⟨_, exec_tokenCrossing hg [] [], ?_⟩⟩
    · have hcheck : s.takePresent.linkCheck g i k (linkErrAt [(i, ⟨[.uncorrectable], f⟩)] i) =
          (k.struck f, (s.takePresent.bump (grLinkUeF g) 1).grFault g 0x18 i 0xF) := by
        rw [linkErrAt, if_pos rfl, linkCheck_struck (s := s.takePresent) hinj]
      obtain ⟨-, hue, hmesh⟩ := crossGrate_masked hlone hcheck presented_struck hm
      refine ⟨hue.trans ?_, hmesh⟩
      exact getF_bump_grFaultK s.takePresent (by simp [grLinkUeF])
        (grCounter_notMem_grFaultRegs g (base := 0x800044) (by decide) (by decide)) ..
    · by_cases hm : m = 0
      · obtain ⟨hgone, hflights, hstray⟩ := crossGrate_stray hlone hm
        exact ⟨hgone, fun hne => absurd hm hne, fun _ => ⟨hflights, hstray⟩⟩
      · obtain ⟨hgone, -, hmesh⟩ := crossGrate_masked hlone
          (linkCheck_clean hinj) presented_clean hm (le := [])
        exact ⟨hgone, fun _ => hmesh, fun h => absurd h hm⟩

end Sys2Proof.Machine
end

section
/-!
# Queue-depth sampling (R141, R142)
-/

set_option autoImplicit false

namespace Sys2Proof.Machine

variable {s : State}

/-! ## Lists of rows of one length -/

/-- In rows of w elements laid end to end, a window that lies within row k shows that row. -/
theorem window_flatMap {α β : Type} (f : α → List β) {w d m : Nat} (hdm : d + m ≤ w) {xs : List α} (hf : ∀ x ∈ xs, (f x).length = w)
    (rest : List β) {k : Nat} {x : α} (hk : xs[k]? = some x) :
    ((xs.flatMap f ++ rest).drop (w * k + d)).take m = ((f x).drop d).take m := by
  induction xs generalizing k with
  | nil => simp at hk
  | cons y ys ih =>
    have hy : (f y).length = w := hf y List.mem_cons_self
    rw [List.flatMap_cons, List.append_assoc]
    cases k with
    | zero =>
      obtain rfl : y = x := by simpa using hk
      rw [Nat.mul_zero, Nat.zero_add, List.drop_append_of_le_length (by omega), List.take_append_of_le_length (by simp; omega)]
    | succ k =>
      have hrow : w * (k + 1) + d = (f y).length + (w * k + d) := by rw [hy]; ring
      rw [hrow, List.drop_length_add_append]
      exact ih (fun x hx => hf x (List.mem_cons_of_mem _ hx)) (by simpa using hk)

theorem length_flatMap_const {α β : Type} (f : α → List β) {w : Nat} {xs : List α} (hf : ∀ x ∈ xs, (f x).length = w) :
    (xs.flatMap f).length = w * xs.length := by
  rw [List.length_flatMap, List.map_congr_left hf, List.map_const', List.sum_replicate, smul_eq_mul, Nat.mul_comm]

/-! ## The record -/

/-- The 32 bytes of a queue in the record. -/
def binBytes (x : List Nat) : List Byte := ((x ++ List.replicate 16 0).take 16).flatMap (leBytes 2)

theorem length_binBytes (x : List Nat) : (binBytes x).length = 32 := by
  rw [binBytes, length_flatMap_const (leBytes 2) fun _ _ => length_leBytes 2 _]
  simp

theorem binBytes_bin {h : List Nat} (hlen : h.length = 16) {j : Nat} (hj : j < 16) :
    ((binBytes h).drop (2 * j)).take 2 = leBytes 2 (listGet 0 h j) := by
  have hrow : (h ++ List.replicate 16 0).take 16 = h := List.take_left' hlen
  have hget : h[j]? = some (listGet 0 h j) := by
    rw [listGet_eq_getD, List.getD_eq_getElem _ _ (by omega), List.getElem?_eq_getElem]
  have hwin := window_flatMap (leBytes 2) (d := 0) (m := 2) (Nat.le_refl 2) (fun _ _ => length_leBytes 2 _) [] hget
  rw [List.append_nil, Nat.add_zero, List.drop_zero] at hwin
  rw [binBytes, hrow, hwin, List.take_of_length_le (by simp)]

/-- The first 32 bytes of the record. -/
def State.qsampHead (s : State) : List Byte :=
  leBytes 8 s.hearth.histFrom ++ leBytes 4 (s.getF fabQsampCtrl_Interval) ++ leBytes 1 s.hearth.hist.length ++ List.replicate 19 0

theorem length_qsampHead (s : State) : s.qsampHead.length = 32 := by simp [State.qsampHead]

theorem qsampBytes_eq (s : State) :
    s.qsampBytes = (s.qsampHead ++ (s.hearth.hist.flatMap binBytes ++ List.replicate 8192 0)).take 8192 :=
  congrArg (List.take 8192) (List.append_assoc ..)

theorem length_qsampBytes (s : State) : s.qsampBytes.length = 8192 := by
  rw [qsampBytes_eq, List.length_take, List.length_append, List.length_append, List.length_replicate]
  omega

theorem qsampBytes_head (s : State) : s.qsampBytes.take 32 = s.qsampHead := by
  rw [qsampBytes_eq, List.take_take, Nat.min_eq_left (by decide), List.take_left' (length_qsampHead s)]

theorem qsampBytes_bin {k : Nat} {h : List Nat} (hk : s.hearth.hist[k]? = some h) (hlen : h.length = 16) (hlt : k < 255) {j : Nat}
    (hj : j < 16) : (s.qsampBytes.drop (32 + 32 * k + 2 * j)).take 2 = leBytes 2 (listGet 0 h j) := by
  have hrow := window_flatMap binBytes (d := 2 * j) (m := 2) (by omega) (fun x _ => length_binBytes x) (List.replicate 8192 0) hk
  rw [qsampBytes_eq, List.drop_take, List.take_take, Nat.min_eq_left (by omega), Nat.add_assoc, ← length_qsampHead s,
    List.drop_length_add_append, length_qsampHead, hrow, binBytes_bin hlen hj]

/-! ## A sample -/

/-- The histogram of a selected queue after a sample. -/
def State.sampledBins (s : State) (old : List (List Nat)) (g q i : Nat) : List Nat :=
  binUp (listGet (List.replicate 16 0) old i) (min 15 (16 * ((s.grate g).queue q).toks.length / s.qDepth g q))

/-- The state after a sample. -/
def State.histSampled (s : State) : State :=
  let old := if s.hearth.histTicks = 0 then [] else s.hearth.hist
  { s with hearth := { s.hearth with
    hist := s.qsampSel.zipIdx.map fun p => s.sampledBins old p.1.1 p.1.2 p.2
    histFrom := if s.hearth.histTicks = 0 then s.tick else s.hearth.histFrom
    histTicks := s.hearth.histTicks + 1 } }

theorem exec_qsampSample (hen : s.flag fabQsampCtrl_En = true) (hcyc : s.cycle = s.getF fabQsampCtrl_Cycle) :
    exec .qsampSample s = .next s.histSampled := by
  have h : exec .qsampSample s = .next (qsampSample s) := rfl
  rw [h, qsampSample, if_neg (by simp [hen, hcyc])]
  rfl

theorem sampledBins_eq (s : State) (g q i : Nat) :
    let old := if s.hearth.histTicks = 0 then List.replicate 16 0 else listGet (List.replicate 16 0) s.hearth.hist i
    let b := min 15 (16 * ((s.grate g).queue q).toks.length / s.qDepth g q)
    s.sampledBins (if s.hearth.histTicks = 0 then [] else s.hearth.hist) g q i = listSet old b (min 65535 (listGet 0 old b + 1)) := by
  intro old b
  have hold : listGet (List.replicate 16 0) (if s.hearth.histTicks = 0 then [] else s.hearth.hist) i = old := by
    unfold old
    split <;> rfl
  have hsat (v : Nat) : satAdd 16 v 1 = min 65535 (v + 1) := Nat.min_comm _ _
  rw [State.sampledBins, hold, binUp, hsat]

theorem length_histSampled (s : State) : s.histSampled.hearth.hist.length = s.qsampSel.length := by simp [State.histSampled]

theorem hist_histSampled {k g q : Nat} (hk : s.qsampSel[k]? = some (g, q)) :
    listGet [] s.histSampled.hearth.hist k = s.sampledBins (if s.hearth.histTicks = 0 then [] else s.hearth.hist) g q k := by
  rw [listGet_eq_getD]
  simp [State.histSampled, hk]

/-! ## The record's end -/

/-- The histograms cleared. -/
def State.histCleared (s : State) : State := { s with hearth := { s.hearth with hist := [], histTicks := 0 } }

theorem getF_histCleared (s : State) (f : Fld) : s.histCleared.getF f = s.getF f := rfl

theorem mem_histCleared (s : State) : s.histCleared.mem = s.mem := rfl

theorem exec_qsampRecord (hen : s.flag fabQsampCtrl_En = true) (hticks : s.getF fabQsampCtrl_Interval ≤ s.hearth.histTicks)
    (hsome : s.hearth.histTicks ≠ 0) (hrecs : s.getF fabQsampRing_Records ≠ 0) :
    let next := (s.getF fabQsampWr_Index + 1) % s.getF fabQsampRing_Records
    exec .qsampRecord s = .next (if next = s.getF fabQsampRd_Index then (s.bump fabQsampDropF 1).histCleared
      else ((s.hbmWrite 8 0x1FF (8192 * s.getF fabQsampBase_Addr + 8192 * s.getF fabQsampWr_Index) s.qsampBytes false).setF
        fabQsampWr_Index next).histCleared) := by
  have h : exec .qsampRecord s = .next (qsampRecord s) := rfl
  intro next
  rw [h, qsampRecord, if_neg (by simp [hen, hticks, hsome])]
  simp only [if_neg hrecs]
  rfl

/-- Settles O28, command by command. -/
theorem queueSamplingAndCounters : Obligations.QueueSamplingAndCounters := by
  refine ⟨fun s hen hcyc => ⟨_, exec_qsampSample hen hcyc, rfl, length_histSampled s, rfl, fun k g q hk => ?_, frame_hearth s _⟩,
    fun s hen hticks hsome hrecs => ⟨_, exec_qsampRecord hen hticks hsome hrecs, ?_⟩,
    fun s _ => ⟨length_qsampBytes s, qsampBytes_head s, fun k h hk hlen _ hlt j hj => qsampBytes_bin hk hlen hlt hj⟩,
    fun s => ⟨_, rfl, word_clearCounters s _, frame_clearCounters s _⟩⟩
  · exact (hist_histSampled hk).trans (sampledBins_eq s g q k)
  · by_cases hfull : (s.getF fabQsampWr_Index + 1) % s.getF fabQsampRing_Records = s.getF fabQsampRd_Index
    · rw [if_pos hfull, getF_histCleared, mem_histCleared]
      exact ⟨rfl, rfl, fun _ => ⟨getF_bump_same s fabQsampDropF 1 (by decide), mem_bump ..⟩, fun hroom => absurd hfull hroom⟩
    · rw [if_neg hfull, getF_histCleared, getF_histCleared, mem_histCleared]
      exact ⟨rfl, rfl, fun h => absurd h hfull, fun _ => ⟨getF_setF_same _ fabQsampWr_Index _ (by decide), mem_setF ..⟩⟩

end Sys2Proof.Machine
end

section
/-!
# Reception on a Zhevvel Link (R344, R346, R347, R349, R351, R352)

What a frame's reception does to the counters, the lock and the frames of its link: each operation either leaves all of them alone, for
which there is one lemma per operation, as `Keeps` has, or updates one of them.
-/

set_option autoImplicit false

namespace Sys2Proof.Machine

variable {s₀ s t : State} {n : Nat}

/-! ## The view of a link -/

/-- The words of a link that hold its lock, its freeze and its counters of received frames. -/
def linkWords (n : Nat) : List Nat := [zlLinkStatus n, zlLinkFecCe n, zlLinkFecUe n, zlLinkLate n]

/-- The counters, the lock, the freeze and the frames of a link. -/
structure LinkView where
  ce : Nat
  ue : Nat
  late : Nat
  lock : Nat
  frozen : Nat
  frames : List RxFrame

def State.linkView (s : State) (n : Nat) : LinkView :=
  ⟨s.getF (zlLinkFecCeF n), s.getF (zlLinkFecUeF n), s.getF (zlLinkLateF n), s.getF (zlLinkStatus_FrameLock n),
    s.getF (zlLinkStatus_Frozen n), (s.zlink n).frames⟩

/-- The view of link n is the same in s and t. -/
structure LinkKept (n : Nat) (s t : State) : Prop where
  view : t.linkView n = s.linkView n

theorem zlink_congr {s t : State} (h : t.zl.links = s.zl.links) (n : Nat) : t.zlink n = s.zlink n := by simp only [State.zlink, h]

@[simp] theorem zlink_setZlink (s : State) (n : Nat) (x : ZlLink) : (s.setZlink n x).zlink n = x := mget_mput_same ..

theorem zlink_setZlink_ne (s : State) {n m : Nat} (x : ZlLink) (h : m ≠ n) : (s.setZlink n x).zlink m = s.zlink m := mget_mput_ne _ _ _ h

theorem LinkKept.refl (n : Nat) (s : State) : LinkKept n s s := ⟨rfl⟩

theorem LinkKept.trans (h : LinkKept n s₀ s) (ht : LinkKept n s t) : LinkKept n s₀ t := ⟨ht.view.trans h.view⟩

theorem LinkKept.ite {c : Prop} [Decidable c] {a b : State} (ha : LinkKept n s₀ a) (hb : LinkKept n s₀ b) :
    LinkKept n s₀ (if c then a else b) := by
  split <;> assumption

/-- The registers' fields of the view. -/
def linkFields (n : Nat) : List Fld :=
  [zlLinkFecCeF n, zlLinkFecUeF n, zlLinkLateF n, zlLinkStatus_FrameLock n, zlLinkStatus_Frozen n]

theorem linkFields_inWords {f : Fld} (h : f ∈ linkFields n) : f.off ∈ linkWords n ∧ f.lsb + f.width ≤ 32 := by
  simp only [linkFields, List.mem_cons, List.not_mem_nil, or_false] at h
  rcases h with rfl | rfl | rfl | rfl | rfl <;>
    simp [linkWords, zlLinkFecCeF, zlLinkFecUeF, zlLinkLateF, zlLinkStatus_FrameLock, zlLinkStatus_Frozen]

theorem LinkKept.of_getF (h : LinkKept n s₀ s) (hg : ∀ f ∈ linkFields n, t.getF f = s.getF f)
    (hf : (t.zlink n).frames = (s.zlink n).frames) : LinkKept n s₀ t := by
  refine h.trans ?_
  constructor
  unfold State.linkView
  rw [hf, hg (zlLinkFecCeF n) (by simp [linkFields]), hg (zlLinkFecUeF n) (by simp [linkFields]),
    hg (zlLinkLateF n) (by simp [linkFields]), hg (zlLinkStatus_FrameLock n) (by simp [linkFields]),
    hg (zlLinkStatus_Frozen n) (by simp [linkFields])]

/-- A change that leaves the words of the view and the frames alone. -/
theorem LinkKept.outside (h : LinkKept n s₀ s) (hw : ∀ off ∈ linkWords n, t.word off = s.word off)
    (hf : (t.zlink n).frames = (s.zlink n).frames) : LinkKept n s₀ t :=
  h.of_getF (fun f hm => by
    obtain ⟨hoff, hle⟩ := linkFields_inWords hm
    simp only [State.getF, State.regNat, if_pos hle, hw f.off hoff]) hf

/-- A change of components other than the registers and the links. -/
theorem LinkKept.update (h : LinkKept n s₀ s) (hr : t.regs = s.regs := by rfl) (hp : t.part = s.part := by rfl)
    (hz : t.zl.links = s.zl.links := by rfl) : LinkKept n s₀ t :=
  h.outside (fun off _ => word_congr hr hp off) (by rw [zlink_congr hz])

/-! ## Registers -/

/-- A field shares no word with the view of link n. -/
def OffLink (n : Nat) (f : Fld) : Prop := ∀ off ∈ linkWords n, off ≠ f.off ∧ (f.lsb + f.width ≤ 32 ∨ off ≠ f.off + 4)

theorem offLink_of_notMem {f : Fld} (hw : f.lsb + f.width ≤ 32) (ho : f.off ∉ linkWords n) : OffLink n f :=
  fun _ hm => ⟨fun he => ho (he ▸ hm), .inl hw⟩

/-- The words of the links lie in one window. -/
theorem linkWords_window (hn : n < 24) {off : Nat} (h : off ∈ linkWords n) : 0x180104 ≤ off ∧ off < 0x181000 := by
  simp only [linkWords, zlLinkStatus, zlLinkFecCe, zlLinkFecUe, zlLinkLate, List.mem_cons, List.not_mem_nil, or_false] at h
  omega

theorem offLink_of_far (hn : n < 24) {f : Fld} (h : f.off + 4 < 0x180104 ∨ 0x181000 ≤ f.off) : OffLink n f := fun off hm => by
  have := linkWords_window hn hm
  omega

theorem word_setF_offLink {f : Fld} (hf : OffLink n f) (v : Nat) {off : Nat} (hm : off ∈ linkWords n) :
    (s.setF f v).word off = s.word off := by
  obtain ⟨h1, h32 | h2⟩ := hf off hm
  · exact word_setF_ne32 s f v h32 h1
  · exact word_setF_ne s f v h1 h2

section
variable {f : Fld} {v : Nat}

theorem LinkKept.setF (h : LinkKept n s₀ s) (hf : OffLink n f) : LinkKept n s₀ (s.setF f v) :=
  h.outside (fun _ hm => word_setF_offLink hf v hm) (by simp [State.zlink])

theorem LinkKept.bump (h : LinkKept n s₀ s) (hf : OffLink n f) : LinkKept n s₀ (s.bump f v) :=
  h.outside (fun off hm => (word_congr rfl rfl off).trans (word_setF_offLink hf _ hm)) (by simp [State.zlink])

theorem LinkKept.raise (h : LinkKept n s₀ s) (hf : OffLink n f) : LinkKept n s₀ (s.raise f) :=
  h.outside (fun off hm => (word_congr rfl rfl off).trans (word_setF_offLink hf _ hm)) (by simp [State.zlink])

/-- A field of the status word beside FRAME_LOCK and FROZEN. -/
theorem LinkKept.setStatus (h : LinkKept n s₀ s) {lsb width : Nat} (hw : lsb + width ≤ 32)
    (hb : lsb + width ≤ 2 ∨ (lsb = 3 ∧ width = 1) ∨ 5 ≤ lsb) : LinkKept n s₀ (s.setF ⟨zlLinkStatus n, lsb, width⟩ v) := by
  refine h.of_getF (fun g hg => ?_) (by simp [State.zlink])
  simp only [linkFields, List.mem_cons, List.not_mem_nil, or_false] at hg
  rcases hg with rfl | rfl | rfl | rfl | rfl
  · exact getF_setF_ne_off s _ _ v hw (by simp [zlLinkFecCeF]) (by simp only [zlLinkFecCeF, zlLinkFecCe, zlLinkStatus]; omega)
  · exact getF_setF_ne_off s _ _ v hw (by simp [zlLinkFecUeF]) (by simp only [zlLinkFecUeF, zlLinkFecUe, zlLinkStatus]; omega)
  · exact getF_setF_ne_off s _ _ v hw (by simp [zlLinkLateF]) (by simp only [zlLinkLateF, zlLinkLate, zlLinkStatus]; omega)
  · exact getF_setF_ne_bits s _ _ v hw (by simp [zlLinkStatus_FrameLock]) rfl (by simp only [zlLinkStatus_FrameLock]; omega)
  · exact getF_setF_ne_bits s _ _ v hw (by simp [zlLinkStatus_Frozen]) rfl (by simp only [zlLinkStatus_Frozen]; omega)

end

/-! ## The counters of received frames -/

theorem getF_bump_linkField (s : State) {f g : Fld} (e : Nat) (hf : f ∈ [zlLinkFecCeF n, zlLinkFecUeF n, zlLinkLateF n])
    (hg : g ∈ linkFields n) (hne : g ≠ f) : (s.bump f e).getF g = s.getF g := by
  have hfm : f ∈ linkFields n := by
    simp only [linkFields, List.mem_cons, List.not_mem_nil, or_false] at hf ⊢
    tauto
  have hoff : g.off ≠ f.off := by
    simp only [linkFields, List.mem_cons, List.not_mem_nil, or_false, zlLinkFecCeF, zlLinkFecCe, zlLinkFecUeF, zlLinkFecUe, zlLinkLateF,
      zlLinkLate, zlLinkStatus_FrameLock, zlLinkStatus_Frozen, zlLinkStatus] at hf hg
    rcases hf with rfl | rfl | rfl <;> rcases hg with rfl | rfl | rfl | rfl | rfl <;> simp at hne ⊢
  exact getF_bump_ne s f g e (linkFields_inWords hfm).2 (linkFields_inWords hg).2 hoff

/-- The fields of the view are five. -/
theorem linkFields_nodup (n : Nat) : (linkFields n).Nodup := by
  simp [linkFields, zlLinkFecCeF, zlLinkFecCe, zlLinkFecUeF, zlLinkFecUe, zlLinkLateF, zlLinkLate, zlLinkStatus_FrameLock,
    zlLinkStatus_Frozen, zlLinkStatus]

section
variable (s : State) (n e : Nat)

theorem frames_bump (f : Fld) : ((s.bump f e).zlink n).frames = (s.zlink n).frames := by simp [State.zlink]

theorem linkView_bump_ce : (s.bump (zlLinkFecCeF n) e).linkView n = { s.linkView n with ce := satAdd 32 (s.linkView n).ce e } := by
  have hkept : ∀ g ∈ linkFields n, g ≠ zlLinkFecCeF n → (s.bump (zlLinkFecCeF n) e).getF g = s.getF g :=
    fun g => getF_bump_linkField s e (by simp)
  have hsame : (s.bump (zlLinkFecCeF n) e).getF (zlLinkFecCeF n) = satAdd 32 (s.getF (zlLinkFecCeF n)) e :=
    getF_bump_same s _ e (by simp [zlLinkFecCeF])
  have hnodup := linkFields_nodup n
  simp only [linkFields, List.nodup_cons, List.mem_cons, List.not_mem_nil, or_false, not_or] at hnodup hkept
  grind [State.linkView, frames_bump]

theorem linkView_bump_ue : (s.bump (zlLinkFecUeF n) e).linkView n = { s.linkView n with ue := satAdd 32 (s.linkView n).ue e } := by
  have hkept : ∀ g ∈ linkFields n, g ≠ zlLinkFecUeF n → (s.bump (zlLinkFecUeF n) e).getF g = s.getF g :=
    fun g => getF_bump_linkField s e (by simp)
  have hsame : (s.bump (zlLinkFecUeF n) e).getF (zlLinkFecUeF n) = satAdd 32 (s.getF (zlLinkFecUeF n)) e :=
    getF_bump_same s _ e (by simp [zlLinkFecUeF])
  have hnodup := linkFields_nodup n
  simp only [linkFields, List.nodup_cons, List.mem_cons, List.not_mem_nil, or_false, not_or] at hnodup hkept
  grind [State.linkView, frames_bump]

theorem linkView_bump_late : (s.bump (zlLinkLateF n) e).linkView n = { s.linkView n with late := satAdd 32 (s.linkView n).late e } := by
  have hkept : ∀ g ∈ linkFields n, g ≠ zlLinkLateF n → (s.bump (zlLinkLateF n) e).getF g = s.getF g :=
    fun g => getF_bump_linkField s e (by simp)
  have hsame : (s.bump (zlLinkLateF n) e).getF (zlLinkLateF n) = satAdd 32 (s.getF (zlLinkLateF n)) e :=
    getF_bump_same s _ e (by simp [zlLinkLateF])
  have hnodup := linkFields_nodup n
  simp only [linkFields, List.nodup_cons, List.mem_cons, List.not_mem_nil, or_false, not_or] at hnodup hkept
  grind [State.linkView, frames_bump]

end

/-! ## Operations that leave the view alone -/

theorem LinkKept.setZlink (h : LinkKept n s₀ s) {x : ZlLink} (hx : x.frames = (s.zlink n).frames := by rfl) :
    LinkKept n s₀ (s.setZlink n x) :=
  h.outside (fun _ _ => by simp) (by rw [zlink_setZlink, hx])

theorem LinkKept.assertSrc (h : LinkKept n s₀ s) {k info rank} : LinkKept n s₀ (s.assertSrc k info rank) :=
  h.update (by simp) (by simp) (by simp)

theorem LinkKept.setEdge (h : LinkKept n s₀ s) {k x} : LinkKept n s₀ (s.setEdge k x) := h.update

theorem frames_acked (l : ZlLink) (a : Nat) : (l.acked a).frames = l.frames := by
  unfold ZlLink.acked
  split <;> rfl

theorem LinkKept.halfTrip (h : LinkKept n s₀ s) {rtt asym} : LinkKept n s₀ (s.halfTrip rtt asym).2 := by
  unfold State.halfTrip
  dsimp only
  split
  · exact h
  · exact h.update

theorem zlink_halfTrip (s : State) (rtt : Nat) (asym : Int) : (s.halfTrip rtt asym).2.zlink n = s.zlink n := by
  unfold State.halfTrip
  dsimp only
  split <;> rfl

theorem LinkKept.zlReliable (h : LinkKept n s₀ s) {ok} : LinkKept n s₀ (s.zlReliable n ok) := by
  have hcrc : OffLink n (zlLinkCrcErrF n) := offLink_of_notMem (by simp [zlLinkCrcErrF])
    (by simp [linkWords, zlLinkCrcErrF, zlLinkCrcErr, zlLinkStatus, zlLinkFecCe, zlLinkFecUe, zlLinkLate])
  exact h.ite (LinkKept.ite h.setZlink (h.setZlink.bump hcrc))

theorem LinkKept.echoReceive (h : LinkKept n s₀ s) {rx w} : LinkKept n s₀ (s.echoReceive n rx w) := by
  have hrtt : OffLink n (zlLinkRtt_Rtt n) := offLink_of_notMem (by simp [zlLinkRtt_Rtt])
    (by simp [linkWords, zlLinkRtt_Rtt, zlLinkRtt, zlLinkStatus, zlLinkFecCe, zlLinkFecUe, zlLinkLate])
  have hdz : OffLink n (zlLinkDz_Dz n) := offLink_of_notMem (by simp [zlLinkDz_Dz])
    (by simp [linkWords, zlLinkDz_Dz, zlLinkDz, zlLinkStatus, zlLinkFecCe, zlLinkFecUe, zlLinkLate])
  unfold State.echoReceive
  extract_lets l q
  split
  · exact h.setZlink
  split
  · split
    · exact h
    · exact h.ite (((h.halfTrip.setZlink (by rw [zlink_halfTrip])).setF hrtt).setF hdz |>.setStatus (lsb := 3) (width := 1)
        (by decide) (by decide))
  · exact h

section
variable (hn : n < 24)
include hn

theorem LinkKept.hand (h : LinkKept n s₀ s) {q e} : LinkKept n s₀ (s.hand q e) :=
  LinkKept.ite ((h.bump (offLink_of_far hn (.inr (by simp only [stkCqLostF, stkCqLost]; omega)))).raise
    (offLink_of_far hn (.inr (by simp only [stkCqStat_Ovf, stkCqStat]; omega)))).assertSrc h.update

theorem LinkKept.evtLost (h : LinkKept n s₀ s) : LinkKept n s₀ s.evtLost :=
  (h.bump (offLink_of_far hn (.inr (by decide)))).assertSrc

theorem LinkKept.linkEvent (h : LinkKept n s₀ s) {tick link cause detail arg} :
    LinkKept n s₀ (s.linkEvent tick link cause detail arg) :=
  LinkKept.ite (LinkKept.ite (h.hand hn) (h.evtLost hn)) (h.evtLost hn)

theorem LinkKept.portFault (h : LinkKept n s₀ s) {k code} : LinkKept n s₀ (s.portFault k code) := by
  have hnote : Notes .sansGrates (grFaultRegs (edgeSite k)) s (s.portFault k code) := (Notes.refl s).grFaultK (List.Subset.refl _)
  have hzl : (s.portFault k code).zl = s.zl := hnote.frame .zl (by decide)
  refine h.outside (fun off hm => hnote.words off ?_) (by simp only [State.zlink, hzl])
  have := linkWords_window hn hm
  simp only [grFaultRegs, grFaultInfo0, grFaultInfo1, grStatus, List.mem_cons, List.not_mem_nil, or_false]
  omega

/-! ### The header of a frame -/

theorem LinkKept.goBack (h : LinkKept n s₀ s) : LinkKept n s₀ (s.goBack n) := by
  have hretry : OffLink n (zlLinkRetryF n) := offLink_of_notMem (by simp [zlLinkRetryF])
    (by simp [linkWords, zlLinkRetryF, zlLinkRetry, zlLinkStatus, zlLinkFecCe, zlLinkFecUe, zlLinkLate])
  unfold State.goBack
  extract_lets l s1
  have h1 : LinkKept n s₀ s1 := h.setZlink.bump hretry
  clear_value s1
  exact h.ite (h1.ite ((h1.setZlink.setStatus (lsb := 5) (width := 1) (by decide) (by decide)).linkEvent hn))

theorem LinkKept.portCredits (h : LinkKept n s₀ s) {k c} : LinkKept n s₀ (s.portCredits k c) := by
  induction c generalizing s with
  | zero => exact h
  | succ c ih =>
    have hover : OffLink n (grCreditOverF (edgeSite k)) := offLink_of_far hn (.inr (by simp only [grCreditOverF, grCreditOver]; omega))
    exact ih (LinkKept.ite h.setEdge ((h.bump hover).portFault hn))

theorem LinkKept.linkCredits (h : LinkKept n s₀ s) {xs} : LinkKept n s₀ (s.linkCredits xs) := by
  induction xs generalizing s with
  | nil => exact h
  | cons x xs ih => exact ih (LinkKept.ite (h.portCredits hn) h)

theorem LinkKept.zlHeader (h : LinkKept n s₀ s) {data} : LinkKept n s₀ (s.zlHeader n data) := by
  unfold State.zlHeader
  extract_lets l ack s1 s2
  have h1 : LinkKept n s₀ s1 := LinkKept.ite (h.setZlink (frames_acked ..)) h
  have h2 : LinkKept n s₀ s2 := (h1.goBack hn).ite h1
  exact h2.linkCredits hn

/-! ### Synchronisation and echoes -/

theorem LinkKept.syncReceive (h : LinkKept n s₀ s) {rx c} : LinkKept n s₀ (s.syncReceive n rx c) :=
  h.ite (LinkKept.ite (h.raise (offLink_of_far hn (.inl (by decide)))) (h.ite h.update))

/-! ### Twins -/

theorem LinkKept.diverge (h : LinkKept n s₀ s) {tick cause own peer} : LinkKept n s₀ (s.diverge tick cause own peer) :=
  have hlow : ∀ f : Fld, f.off + 4 < 0x180104 → OffLink n f := fun _ hf => offLink_of_far hn (.inl hf)
  ((h.setF (hlow _ (by decide))).setF (hlow _ (by decide)) |>.setF (hlow _ (by decide)) |>.setF (hlow _ (by decide))
    |>.setF (hlow _ (by decide))).assertSrc.linkEvent hn

theorem LinkKept.twinCompare (h : LinkKept n s₀ s) {t c} : LinkKept n s₀ (s.twinCompare t c) := by
  unfold State.twinCompare
  extract_lets st peer k join s1
  have hmiss : LinkKept n s₀ (s.bump zlDigMissF 1) := h.bump (offLink_of_far hn (.inl (by decide)))
  have hdiff : LinkKept n s₀ (s.bump zlSettleDiffF 1) := h.bump (offLink_of_far hn (.inl (by decide)))
  have h1 : LinkKept n s₀ s1 := by
    unfold s1
    split
    · exact hmiss.ite (h.ite (hdiff.ite (h.diverge hn)))
    · exact hmiss
  clear_value s1
  refine h.ite (h1.ite ?_)
  split
  · exact h1
  · exact (h1.diverge hn).ite ((h1.diverge hn).ite ((h1.diverge hn).ite h1))

theorem LinkKept.twinReceive (h : LinkKept n s₀ s) {t c} : LinkKept n s₀ (s.twinReceive t c) := by
  have hlow : ∀ f : Fld, f.off + 4 < 0x180104 → OffLink n f := fun _ hf => offLink_of_far hn (.inl hf)
  have hdual : OffLink n zlTwinStatus_DualLead := hlow _ (by decide)
  have hstate : OffLink n zlTwinStatus_State := hlow _ (by decide)
  unfold State.twinReceive
  extract_lets role z1 s1 st z2 s2
  have h1 : LinkKept n s₀ s1 := LinkKept.ite ((h.update.raise hdual).assertSrc.linkEvent hn) h
  have h2 : LinkKept n s₀ s2 := LinkKept.ite (h1.update.setF hstate) h1
  exact h2.twinCompare hn

end

/-! ## A received frame -/

/-- A frame of TICK next goes on from the frames before it. -/
def goesOn (l : ZlLink) (decodes : Bool) (t24 : Nat) : Prop := decodes = true ∧ 1 ≤ l.lastTick ∧ t24 = l.lastTick % 2 ^ 24

/-- A link in frame lock stays so on a frame that goes on, and on one that does not unless it is the fourth in a row. -/
theorem zlSync_locked {decodes : Bool} {t24 : Nat} (hlock : s.flag (zlLinkStatus_FrameLock n) = true)
    (h : goesOn (s.zlink n) decodes t24 ∨ (s.zlink n).failRun + 1 < 4) :
    ∃ l : ZlLink, l.frames = (s.zlink n).frames ∧ s.zlSync n decodes t24 = ((s.zlink n).lastTick % 2 ^ 24, s.setZlink n l) := by
  unfold State.zlSync
  extract_lets l next good l1
  have hkeep : (good || decide (l1.failRun < 4)) = true := by
    rcases h with ⟨hdec, hlast, htick⟩ | hrun
    · have hgood : good = true := by simp [good, next, l, hdec, hlast, htick]
      rw [hgood, Bool.true_or]
    · have hlt : l1.failRun < 4 := by
        unfold l1
        dsimp only
        split <;> omega
      simp [hlt]
  rw [if_pos hlock, if_pos hkeep]
  exact ⟨l1, rfl, rfl⟩

/-- The release of a frame of tick t lies behind, or too far ahead (R349). -/
def State.lateFrame (s : State) (n t : Nat) : Bool :=
  decide (64 * t + s.getF (zlLinkLz_Lz n) < s.frc.toNat) || decide (s.frc.toNat + 256 < 64 * t + s.getF (zlLinkLz_Lz n))

/-- The view when a codeword has been corrected, with its symbol errors, or has not. -/
def LinkView.decoded (v : LinkView) : Option Nat → LinkView
  | some e => { v with ce := satAdd 32 v.ce e }
  | none => { v with ue := satAdd 32 v.ue 1 }

/-- The view when a frame that is late has been counted while the link is frozen. -/
def LinkView.counted (v : LinkView) : Bool → LinkView
  | true => { v with late := satAdd 32 v.late v.frozen }
  | false => v

/-- The view when a frame has been held, or was late. -/
def LinkView.taken (v : LinkView) (late : Bool) (f : RxFrame) : LinkView :=
  if late then v.counted true else { v with frames := v.frames ++ [f] }

theorem flag_frameLock_iff (s : State) (n : Nat) : s.flag (zlLinkStatus_FrameLock n) = true ↔ (s.linkView n).lock ≠ 0 := by
  simp [State.flag, State.linkView]

/-- A frame's line bits, LANE_LOCK and SIGNAL are noted, and the lock machine takes the frame (R346). -/
def State.frameStart (s : State) (n : Nat) (hist : List Nat) (headers decodes : Bool) (t24 : Nat) : Nat × State :=
  (((s.setZlink n { s.zlink n with rxHist := hist }).setF (zlLinkStatus_LaneLock n) (b2n headers)).setF (zlLinkStatus_Signal n) 1).zlSync n
    decodes t24

theorem frameStart_locked (hist : List Nat) (headers : Bool) {decodes : Bool} {t24 : Nat}
    (hlock : s.flag (zlLinkStatus_FrameLock n) = true) (h : goesOn (s.zlink n) decodes t24 ∨ (s.zlink n).failRun + 1 < 4) :
    let y := s.frameStart n hist headers decodes t24
    y.1 = (s.zlink n).lastTick % 2 ^ 24 ∧ LinkKept n s y.2 ∧ y.2.frc = s.frc ∧ y.2.getF (zlLinkLz_Lz n) = s.getF (zlLinkLz_Lz n) := by
  let s0 := s.setZlink n { s.zlink n with rxHist := hist }
  let s1 := (s0.setF (zlLinkStatus_LaneLock n) (b2n headers)).setF (zlLinkStatus_Signal n) 1
  have h1 : LinkKept n s s1 := ((LinkKept.refl n s).setZlink.setStatus (by decide) (by decide)).setStatus (by decide) (by decide)
  have hz : s1.zlink n = { s.zlink n with rxHist := hist } := (zlink_congr (s := s0) (by simp [s1]) n).trans (zlink_setZlink ..)
  have hlz : s1.getF (zlLinkLz_Lz n) = s.getF (zlLinkLz_Lz n) := by
    unfold s1
    rw [getF_setF_ne_off, getF_setF_ne_off, getF_setZlink] <;>
      simp [zlLinkLz_Lz, zlLinkLz, zlLinkStatus_Signal, zlLinkStatus_LaneLock, zlLinkStatus]
  have hlock1 : s1.flag (zlLinkStatus_FrameLock n) = true := by rwa [flag_frameLock_iff, h1.view, ← flag_frameLock_iff]
  obtain ⟨l, hframes, hsync⟩ := zlSync_locked (s := s1) hlock1 (by rw [hz]; exact h)
  have hy : s.frameStart n hist headers decodes t24 = s1.zlSync n decodes t24 := rfl
  rw [hy, hsync, hz]
  exact ⟨rfl, h1.setZlink hframes, by simp [s1, s0], by rw [getF_setZlink, hlz]⟩

/-- A codeword's counter and, where it decodes, the header of its frame. -/
theorem linkView_decoded (hn : n < 24) (s : State) (x : Option Nat) (d : Nat) :
    (if x.isSome then (s.bump (zlLinkFecCeF n) (x.getD 0)).zlHeader n d else s.bump (zlLinkFecUeF n) 1).linkView n =
      (s.linkView n).decoded x := by
  cases x with
  | none => exact linkView_bump_ue s n 1
  | some e => exact ((LinkKept.refl n _).zlHeader hn).view.trans (linkView_bump_ce s n e)

theorem satAdd_zero {w v : Nat} (h : v < 2 ^ w) : satAdd w v 0 = v := by
  unfold satAdd
  omega

theorem getF_lt (s : State) (f : Fld) : s.getF f < 2 ^ f.width := bitsAt_lt ..

/-- A late frame of a frozen link is counted, with its fault and its event. -/
theorem linkView_late (hn : n < 24) (s : State) (late : Bool) (t : Nat) :
    (if late && s.flag (zlLinkStatus_Frozen n) then ((s.bump (zlLinkLateF n) 1).linkSrc n 1).linkEvent t n 4 0 0 else s).linkView n =
      (s.linkView n).counted late := by
  cases late with
  | false => rfl
  | true =>
    have hbit : s.getF (zlLinkStatus_Frozen n) < 2 ^ 1 := getF_lt ..
    have hlate : s.getF (zlLinkLateF n) < 2 ^ 32 := getF_lt ..
    by_cases hz : s.getF (zlLinkStatus_Frozen n) = 0
    · have hfrozen : (s.linkView n).frozen = 0 := hz
      have hsame : satAdd 32 (s.linkView n).late 0 = (s.linkView n).late := satAdd_zero hlate
      rw [if_neg (by simp [State.flag, hz]), LinkView.counted, hfrozen, hsame, ← hfrozen]
    · have hfrozen : (s.linkView n).frozen = 1 := by
        change s.getF (zlLinkStatus_Frozen n) = 1
        omega
      have hkept : LinkKept n (s.bump (zlLinkLateF n) 1) (((s.bump (zlLinkLateF n) 1).linkSrc n 1).linkEvent t n 4 0 0) :=
        (LinkKept.refl n _).assertSrc.linkEvent hn
      have hone : satAdd 32 (s.linkView n).late (s.linkView n).frozen = satAdd 32 (s.linkView n).late 1 := by rw [hfrozen]
      rw [if_pos (by simp [State.flag, hz]), hkept.view, linkView_bump_late, LinkView.counted, hone]

/-- A frame in time is held, and one that is not is counted as late. -/
theorem linkView_taken (hn : n < 24) {t : Nat} {late ok : Bool} {s1 s2 : State} {conts : List (BitVec 528 × Bool × Bool)}
    (h1 : s1 = if late && s.flag (zlLinkStatus_Frozen n) then ((s.bump (zlLinkLateF n) 1).linkSrc n 1).linkEvent t n 4 0 0 else s)
    (h2 : s2 = s1.zlReliable n ok) :
    (if late then s2 else s2.setZlink n { s2.zlink n with frames := (s2.zlink n).frames ++ [⟨t, conts⟩] }).linkView n =
      (s.linkView n).taken late ⟨t, conts⟩ := by
  have hview : s2.linkView n = (s.linkView n).counted late := by
    rw [h2, (LinkKept.refl n s1).zlReliable.view, h1, linkView_late hn]
  cases late with
  | true => exact hview
  | false =>
    have hput : ∀ fs, (s2.setZlink n { s2.zlink n with frames := fs }).linkView n = { s2.linkView n with frames := fs } := fun fs => by
      simp [State.linkView]
    have hs : s2.linkView n = s.linkView n := hview
    have hframes : (s2.zlink n).frames = (s.linkView n).frames := by rw [← hs]; rfl
    exact (hput _).trans (by rw [hs, hframes]; rfl)

theorem zlFrameReceive_view (hn : n < 24) {lanes : List (BitVec 2640)} (age : Nat) {x : Bool × Option Nat × Nat}
    (hx : s.zlDecode n lanes = x) (hlisten : s.zlListens n = true) (hlock : s.flag (zlLinkStatus_FrameLock n) = true)
    (hkeep : goesOn (s.zlink n) (x.1 && x.2.1.isSome) (bitsAt x.2.2 86 24) ∨ (s.zlink n).failRun + 1 < 4) :
    ∃ f : RxFrame, f.tick = nearTick s.tick ((s.zlink n).lastTick % 2 ^ 24) ∧
      f.conts.map (fun c => (c.1, c.2.1)) = (List.range 39).map (fun j => (dataContainer x.2.2 j, !x.2.1.isSome)) ∧
      (zlFrameReceive n lanes age s).linkView n = ((s.linkView n).decoded x.2.1).taken (s.lateFrame n f.tick) f := by
  have hstart := frameStart_locked (lanesFrame (s.zlink n).rxHist lanes).2.1 x.1 hlock hkeep
  unfold State.frameStart at hstart
  unfold zlFrameReceive
  rw [hx]
  split
  · rename_i hoff
    simp [hlisten] at hoff
  extract_lets x' d decodes symErrs l0 t0 y t1 t lz late t2 t3 ok t4 rel l conts t5 c rx t6 v t7 t8
  obtain ⟨hy, h1, hfrc, hlz⟩ : y.1 = _ ∧ LinkKept n s t1 ∧ t1.frc = s.frc ∧
    t1.getF (zlLinkLz_Lz n) = s.getF (zlLinkLz_Lz n) := hstart
  have ht : t = nearTick s.tick ((s.zlink n).lastTick % 2 ^ 24) := by
    simp only [t, hy, State.tick, hfrc]
  have hlate : late = s.lateFrame n t := by
    simp only [late, State.lateFrame, lz, hlz, hfrc]
  have hl1 : t1.flag (zlLinkStatus_FrameLock n) = true := by rwa [flag_frameLock_iff, h1.view, ← flag_frameLock_iff]
  have h2 : t2.linkView n = (s.linkView n).decoded x.2.1 := (linkView_decoded hn t1 x.2.1 x.2.2).trans (by rw [h1.view])
  have h5 : t5.linkView n = (t2.linkView n).taken late ⟨t, conts⟩ := by
    have hl : l = t4.zlink n := rfl
    have ht5 : t5 = if late then t4 else t4.setZlink n { l with frames := l.frames ++ [⟨t, conts⟩] } := rfl
    rw [hl] at ht5
    rw [ht5]
    exact linkView_taken hn (s1 := t3) (s2 := t4) rfl rfl
  have h8 : LinkKept n t5 (if !decodes then t5 else if n = 23 ∧ late = false then t8.twinReceive t c else t8) := by
    have h6 : LinkKept n t5 t6 := ((LinkKept.refl n t5).setStatus (by decide) (by decide)).setStatus (by decide) (by decide)
    have h7 : LinkKept n t5 t7 := (h6.syncReceive hn).ite h6
    have h8 : LinkKept n t5 t8 := h7.echoReceive.ite h7
    exact (LinkKept.refl n t5).ite ((h8.twinReceive hn).ite h8)
  refine ⟨⟨t, conts⟩, ht, ?_, ?_⟩
  · unfold conts
    rw [List.map_map]
    rfl
  · rw [hl1, if_neg (by simp), h8.view, h5, h2, hlate]

end Sys2Proof.Machine
end

section
/-!
# Sending, release and the switches of a Zhevvel Link (R118, R344 to R352, R357)

A token survives its container; a link builds its frame container by container; what is held of a frame is released slot by slot; and
retries, echoes, FREEZE and disabling each follow one rule.
-/

set_option autoImplicit false

namespace Sys2Proof.Machine

variable {s : State} {n : Nat}

/-! ## Tokens in containers (R118) -/

theorem side_lt (k : Token) : k.side < 2 ^ 16 := by
  unfold Token.side b2n
  have h1 : k.epoch % 16 < 16 := Nat.mod_lt _ (by decide)
  have h2 : k.seq % 256 < 256 := Nat.mod_lt _ (by decide)
  split <;> split <;> split <;> split <;> omega

theorem container_toNat (k : Token) : k.container.toNat = k.data.toNat + k.side * 2 ^ 512 := by
  have hlt : k.data.toNat + k.side * 2 ^ 512 < 2 ^ 528 := calc
    _ < 2 ^ 512 + k.side * 2 ^ 512 := Nat.add_lt_add_right k.data.isLt _
    _ = (k.side + 1) * 2 ^ 512 := by rw [Nat.succ_mul, Nat.add_comm]
    _ ≤ 2 ^ 16 * 2 ^ 512 := Nat.mul_le_mul_right _ (side_lt k)
    _ = 2 ^ 528 := by rw [← pow_add]
  rw [Token.container, BitVec.toNat_ofNat, Nat.mod_eq_of_lt hlt]

/-- The bits of a container above its data are those of the sideband. -/
theorem bitsAt_container (k : Token) (lsb w : Nat) : bitsAt k.container.toNat (512 + lsb) w = bitsAt k.side lsb w := by
  unfold bitsAt
  rw [Nat.shiftRight_add, container_toNat, Nat.shiftRight_eq_div_pow _ 512, Nat.add_mul_div_right _ _ (Nat.two_pow_pos 512),
    Nat.div_eq_of_lt k.data.isLt, Nat.zero_add]

theorem testBit_container (k : Token) (lsb : Nat) : k.container.toNat.testBit (512 + lsb) = k.side.testBit lsb := by
  have h := bitsAt_container k lsb 1
  rw [bitsAt_one, bitsAt_one] at h
  revert h
  cases k.container.toNat.testBit (512 + lsb) <;> cases k.side.testBit lsb <;> simp [b2n]

theorem data_container (k : Token) : BitVec.ofNat 512 k.container.toNat = k.data := by
  apply BitVec.eq_of_toNat_eq
  rw [BitVec.toNat_ofNat, container_toNat, Nat.add_mul_mod_self_right, BitVec.toNat_mod_cancel]

/-- The fields of the sideband. -/
theorem side_fields {k : Token} (hepoch : k.epoch < 16) (hseq : k.seq < 256) :
    bitsAt k.side 12 4 = k.epoch ∧ bitsAt k.side 4 8 = k.seq ∧ k.side.testBit 3 = k.poison ∧ k.side.testBit 2 = k.suspect ∧
      k.side.testBit 1 = k.mark ∧ k.side.testBit 0 = k.void := by
  simp only [Token.side, bitsAt, Nat.shiftRight_eq_div_pow, Nat.testBit_eq_decide_div_mod_eq, Nat.mod_eq_of_lt hepoch,
    Nat.mod_eq_of_lt hseq]
  cases k.poison <;> cases k.suspect <;> cases k.mark <;> cases k.void <;> simp only [b2n] <;> simp <;> omega

theorem tokenOf_container (k : Token) (hepoch : k.epoch < 16) (hseq : k.seq < 256) (hport : k.port = none) :
    tokenOf k.container = k := by
  obtain ⟨hep, hsq, hpoison, hsuspect, hmark, hvoid⟩ := side_fields hepoch hseq
  have h12 : bitsAt k.container.toNat 524 4 = k.epoch := (bitsAt_container k 12 4).trans hep
  have h4 : bitsAt k.container.toNat 516 8 = k.seq := (bitsAt_container k 4 8).trans hsq
  have h3 : k.container.toNat.testBit 515 = k.poison := (testBit_container k 3).trans hpoison
  have h2 : k.container.toNat.testBit 514 = k.suspect := (testBit_container k 2).trans hsuspect
  have h1 : k.container.toNat.testBit 513 = k.mark := (testBit_container k 1).trans hmark
  have h0 : k.container.toNat.testBit 512 = k.void := (testBit_container k 0).trans hvoid
  simp only [tokenOf, data_container, h12, h4, h3, h2, h1, h0, ← hport]

/-! ## Sending (R345, R352) -/

theorem exec_zlFrameSend (hn : n < 24) (s : State) : exec (.zlFrameSend n) s = .next (zlFrameSend n s) := by
  have h : exec (.zlFrameSend n) s = .next (s.when (decide (n < 24)) (zlFrameSend n s)) := rfl
  rw [h, State.when, if_pos (decide_eq_true hn)]

/-- The link is enabled, the chip is not in the safe state, and the Flue's crossing passes data. -/
def State.zlSends (s : State) (n : Nat) : Prop :=
  s.flag (zlLinkCfg_En n) = true ∧ s.txSafeNow = false ∧ s.flueDead (txFlue n) = false

theorem zlFrameSend_silent (h : s.flag (zlLinkCfg_En n) = false ∨ s.txSafeNow = true ∨ s.flueDead (txFlue n) = true) :
    zlFrameSend n s = s := by
  unfold zlFrameSend
  exact if_pos (by rcases h with h | h | h <;> simp [h])

theorem zlFrameSend_first (h : s.zlSends n) (hcycle : s.cycle = 0) : ((zlFrameSend n s).zlink n).build.length = 1 := by
  obtain ⟨hen, hsafe, hdead⟩ := h
  simp [zlFrameSend, hen, hsafe, hdead, hcycle]

theorem zlFrameSend_data (h : s.zlSends n) (hpos : 0 < s.cycle) (hlt : s.cycle < 39) (hbuild : (s.zlink n).build.length = s.cycle) :
    ∃ c, ((zlFrameSend n s).zlink n).build = (s.zlink n).build ++ [c] := by
  obtain ⟨hen, hsafe, hdead⟩ := h
  simp [zlFrameSend, hen, hsafe, hdead, hpos.ne', hlt, hbuild]

theorem zlFrameSend_last (h : s.zlSends n) (hcycle : s.cycle = 39) (hbuild : (s.zlink n).build.length = 39) :
    zlFrameSend n s = s.zlLaunch n := by
  obtain ⟨hen, hsafe, hdead⟩ := h
  simp [zlFrameSend, hen, hsafe, hdead, hcycle, hbuild]

/-- A launch takes the containers and keeps every frame that was kept, with its containers. -/
theorem zlLaunch_link (s : State) (n : Nat) :
    let l := (s.zlLaunch n).zlink n
    l.build = [] ∧ l.sentTick = s.tick ∧ l.nak = false ∧
      ∀ k ∈ (s.zlink n).kept, ∃ k' ∈ l.kept, k'.fseq = k.fseq ∧ k'.conts = k.conts := by
  unfold State.zlLaunch
  extract_lets l rel conts fresh r fseq cr crc ack head data kept blocks out
  have hout : out = _ := zlink_setZlink ..
  rw [hout]
  refine ⟨rfl, rfl, rfl, fun k hk => ?_⟩
  change ∃ k' ∈ kept, _
  unfold kept
  split
  · exact ⟨k, List.mem_append_left _ hk, rfl, rfl⟩
  · refine ⟨_, List.mem_map_of_mem hk, ?_⟩
    split
    · exact ⟨rfl, rfl⟩
    · exact ⟨rfl, rfl⟩

/-! ## Release (R349, R351, R352, R357) -/

/-- A container of the frame of tick k, where the frame is there. -/
def State.heldContainer (s : State) (n j k : Nat) : Option (BitVec 528 × Bool × Bool) :=
  ((s.zlink n).frames.find? fun f => f.tick == k).bind fun f => f.conts[j]?

/-- In its cycle the container of a data slot is released; of the Hearth nothing else changes. -/
theorem exec_zlContainerRelease {j k : Nat} (hn : n < 24) (hj : 0 < j) (hj' : j < 39) (hen : s.flag (zlLinkCfg_En n) = true)
    (htime : s.frc.toNat = 64 * k + j + s.getF (zlLinkLz_Lz n)) :
    ∃ t, exec (.zlContainerRelease n j) s = .next t ∧ t.hearth = (s.releaseSlot n j (s.heldContainer n j k)).hearth := by
  have h : exec (.zlContainerRelease n j) s = .next (s.when (decide (n < 24 ∧ j < 39)) (zlContainerRelease n j s)) := rfl
  refine ⟨_, h, ?_⟩
  have hat : (s.frc.toNat : Int) - j - s.getF (zlLinkLz_Lz n) = 64 * (k : Int) := by omega
  have hpast : (!s.flag (zlLinkCfg_En n) || decide (64 * (k : Int) < 0) || 64 * (k : Int) % 64 != 0) = false := by
    simp [hen]
  have htick : (64 * (k : Int)).toNat / 64 = k := by omega
  rw [State.when, if_pos (decide_eq_true ⟨hn, hj'⟩), zlContainerRelease]
  simp only [hat, hpast, htick, Bool.false_eq_true, if_false, hj.ne', false_and, State.heldContainer]
  split
  · rw [hearth_setZlink]
  · rfl

theorem edge_congr {s t : State} (h : t.hearth = s.hearth) (k : Nat) : t.edge k = s.edge k := by simp only [State.edge, h]

/-- A token enters a receive queue with room behind the others. -/
theorem crossIn_room {b : Binding} (t : Token) (h : (s.edge (edgeCross b.port)).rx.toks.length < edgeDepth (edgeCross b.port)) :
    ((s.crossIn b t).edge (edgeCross b.port)).rx.toks = (s.edge (edgeCross b.port)).rx.toks ++ [t] := by
  simp [State.crossIn, State.crossArrive, h]

section
variable {j : Nat} {b : Binding}

theorem releaseSlot_halted (hrun : s.running = false) (c : Option (BitVec 528 × Bool × Bool)) : s.releaseSlot n j c = s := by
  unfold State.releaseSlot
  split
  · rfl
  · exact if_pos (by simp [hrun])

variable (hb : s.bindingAt n j true = some b) (hrun : s.running = true)
  (hroom : (s.edge (edgeCross b.port)).rx.toks.length < edgeDepth (edgeCross b.port))
include hb hrun hroom

/-- A container that is delivered gives its token to the crossing port. -/
theorem releaseSlot_given {x : BitVec 528} {sus : Bool} (hvoid : (tokenOf x).void = false) :
    ((s.releaseSlot n j (some (x, sus, true))).edge (edgeCross b.port)).rx.toks =
      (s.edge (edgeCross b.port)).rx.toks ++ [{ tokenOf x with suspect := (tokenOf x).suspect || sus }] := by
  have hedge : (s.setRxSeq n b.port ((tokenOf x).seq + 1)).edge (edgeCross b.port) = s.edge (edgeCross b.port) := rfl
  simp only [State.releaseSlot, hb, hrun, hvoid]
  exact (crossIn_room _ (by rwa [hedge])).trans (by rw [hedge])

/-- For the container of an absent frame a suspect zero token enters, with the SEQ that is due. -/
theorem releaseSlot_absent (hrel : j ∉ s.reliableSlots n) :
    ((s.releaseSlot n j none).edge (edgeCross b.port)).rx.toks = (s.edge (edgeCross b.port)).rx.toks ++
      [⟨0, (s.edge (edgeCross b.port)).rx.epoch, mget (fun _ => 0) (s.zlink n).rxSeq b.port, false, true, false, false, none⟩] := by
  have hedge : (s.setRxSeq n b.port (mget (fun _ => 0) (s.zlink n).rxSeq b.port + 1)).edge (edgeCross b.port) =
    s.edge (edgeCross b.port) := rfl
  simp only [State.releaseSlot, hb, hrun, hrel]
  exact (crossIn_room _ (by rwa [hedge])).trans (by rw [hedge])

end

/-! ## Retries and echoes (R347, R352) -/

theorem frame_setZlink (s : State) (n : Nat) (x : ZlLink) : Frame [.zl] s (s.setZlink n x) := by
  intro c hc
  cases c <;> simp_all [Comp.same]

/-- A go-back that is not the 32nd without progress puts every kept frame on the list of those to send again. -/
theorem goBack_resends (hkept : (s.zlink n).kept ≠ []) (hdown : s.flag (zlLinkStatus_LinkDown n) = false)
    (hturns : (s.zlink n).goBacks + 1 < 32) :
    let t := s.goBack n
    (t.zlink n).resend = (s.zlink n).kept.map (fun k => k.fseq) ∧ (t.zlink n).kept = (s.zlink n).kept ∧
      t.getF (zlLinkRetryF n) = satAdd 32 (s.getF (zlLinkRetryF n)) 1 ∧ Frame [.regs, .incNow, .zl] s t := by
  let l : ZlLink := { s.zlink n with resend := (s.zlink n).kept.map fun k => k.fseq, goBacks := (s.zlink n).goBacks + 1 }
  have ht : s.goBack n = (s.setZlink n l).bump (zlLinkRetryF n) 1 := by
    simp [State.goBack, hkept, hdown, hturns, l]
  have hl : (s.goBack n).zlink n = l := by
    rw [ht, zlink_congr (s := s.setZlink n l) (by simp), zlink_setZlink]
  refine ⟨by rw [hl], by rw [hl], ?_, ?_⟩
  · rw [ht, getF_bump_same _ _ _ (by simp [zlLinkRetryF]), getF_setZlink]
    rfl
  · rw [ht]
    exact ((frame_setZlink s n l).trans (frame_bump _ _ _)).mono (by decide)

theorem exec_zlRetryTimeout (hn : n < 24) {k : KeptFrame} {ks : List KeptFrame} (hkept : (s.zlink n).kept = k :: ks)
    (hresend : (s.zlink n).resend.head? ≠ some k.fseq) (hturn : (s.zlink n).turn ≠ some k.fseq)
    (hage : k.sentTick + 2 * ((s.getF (zlLinkLz_Lz n) + 63) / 64) + 4 ≤ s.tick) :
    exec (.zlRetryTimeout n) s = .next (s.goBack n) := by
  have h : exec (.zlRetryTimeout n) s = .next (s.when (decide (n < 24)) (zlRetryTimeout n s)) := rfl
  simp [h, State.when, hn, zlRetryTimeout, hkept, hresend, hturn, hage]

theorem exec_zlEchoGo (hn : n < 24) (s : State) : exec (.zlEchoGo n) s = .next (s.setZlink n { s.zlink n with reqOut := true }) := by
  have h : exec (.zlEchoGo n) s = .next (s.when (decide (n < 24)) (zlEchoGo n s)) := rfl
  rw [h, State.when, if_pos (decide_eq_true hn), zlEchoGo]

/-- An echo request that has had no answer is given up, and EchoTimeout tells it. -/
theorem echoTimedOut_spec (s : State) (n : Nat) :
    let t := (s.setZlink n { s.zlink n with echo := none }).raise (zlLinkStatus_EchoTimeout n)
    t.getF (zlLinkStatus_EchoTimeout n) = 1 ∧ (t.zlink n).echo = none ∧ WordsKept [zlLinkStatus n] s t ∧
      Frame [.regs, .setNow, .zl] s t := by
  intro t
  have hz : t.zlink n = { s.zlink n with echo := none } := (zlink_congr (by simp only [t, zl_raise]) n).trans (zlink_setZlink s n _)
  refine ⟨getF_raise_same _ _ (by simp [zlLinkStatus_EchoTimeout]), by rw [hz], fun off hoff => ?_,
    ((frame_setZlink s n _).trans (frame_raise _ _)).mono (by decide)⟩
  exact (wordsKept_raise _ (zlLinkStatus_EchoTimeout n) (by simp [zlLinkStatus_EchoTimeout]) off hoff).trans (word_setZlink ..)

theorem exec_zlEchoTimeout (hn : n < 24) {x : Nat × Nat × Nat} (hecho : (s.zlink n).echo = some x) (hage : x.2.2 + 1024 ≤ s.tick) :
    exec (.zlEchoTimeout n) s =
      .next ((s.setZlink n { s.zlink n with echo := none }).raise (zlLinkStatus_EchoTimeout n)) := by
  have h : exec (.zlEchoTimeout n) s = .next (s.when (decide (n < 24)) (zlEchoTimeout n s)) := rfl
  simp [h, State.when, hn, zlEchoTimeout, hecho, hage]

/-! ## FREEZE (R348) -/

theorem wrRefused_zl {off : Nat} (h : 0x180000 ≤ off) (h' : off ≤ 0x1fffff) : wrRefused off = some zlStatus_WrRefused := by
  simp (disch := omega) only [wrRefused, if_neg, if_pos]

theorem exec_zlFreeze (hn : n < 24) (s : State) : exec (.zlFreeze n) s = .next (zlFreeze n s) := by
  have h : exec (.zlFreeze n) s = .next (s.when (decide (n < 24)) (zlFreeze n s)) := rfl
  rw [h, State.when, if_pos (decide_eq_true hn)]

/-- LZ is frozen within its bounds. -/
theorem zlFreeze_bounded (hvalid : s.flag (zlLinkStatus_EchoValid n) = true)
    (hlow : (sint 32 (s.getF (zlLinkDz_Dz n)) + 255) / 256 + 320 ≤ (s.getF (zlLinkLz_Lz n) : Int))
    (hhigh : (s.getF (zlLinkLz_Lz n) : Int) ≤ (sint 32 (s.getF (zlLinkDz_Dz n)) + 255) / 256 + 575) :
    zlFreeze n s = (s.setF (zlLinkCfg_Freeze n) 1).setF (zlLinkStatus_Frozen n) 1 := by
  simp [zlFreeze, hvalid, hlow, hhigh]

/-- FREEZE and FROZEN are set, each in a word of its own. -/
theorem frozen_spec (s : State) (n : Nat) :
    let t := (s.setF (zlLinkCfg_Freeze n) 1).setF (zlLinkStatus_Frozen n) 1
    t.getF (zlLinkStatus_Frozen n) = 1 ∧ t.getF (zlLinkCfg_Freeze n) = 1 ∧ WordsKept [zlLinkCfg n, zlLinkStatus n] s t ∧
      Frame [.regs] s t := by
  have hcfg := wordsKept_setF s (zlLinkCfg_Freeze n) 1 (by simp [zlLinkCfg_Freeze])
  have hstat := wordsKept_setF (s.setF (zlLinkCfg_Freeze n) 1) (zlLinkStatus_Frozen n) 1 (by simp [zlLinkStatus_Frozen])
  have hkept : ((s.setF (zlLinkCfg_Freeze n) 1).setF (zlLinkStatus_Frozen n) 1).getF (zlLinkCfg_Freeze n) = _ :=
    hstat.getF (by simp [zlLinkCfg_Freeze]) (by simp [zlLinkCfg_Freeze, zlLinkStatus_Frozen, zlLinkCfg, zlLinkStatus])
  exact ⟨getF_setF_same _ _ _ (by simp [zlLinkStatus_Frozen]), hkept.trans (getF_setF_same _ _ _ (by simp [zlLinkCfg_Freeze])),
    hcfg.trans hstat, ((frame_setF s _ 1).trans (frame_setF _ _ 1)).mono (by decide)⟩

theorem zlFreeze_refused (hn : n < 24) (h : s.flag (zlLinkStatus_EchoValid n) = false ∨
      (s.getF (zlLinkLz_Lz n) : Int) < (sint 32 (s.getF (zlLinkDz_Dz n)) + 255) / 256 + 320 ∨
      (sint 32 (s.getF (zlLinkDz_Dz n)) + 255) / 256 + 575 < (s.getF (zlLinkLz_Lz n) : Int)) :
    zlFreeze n s = s.raise zlStatus_WrRefused := by
  have hcfg : s.refuse (zlLinkCfg n) = s.raise zlStatus_WrRefused := by
    rw [State.refuse, wrRefused_zl (by simp only [zlLinkCfg]; omega) (by simp only [zlLinkCfg]; omega)]
  rw [← hcfg]
  refine if_neg ?_
  rcases h with h | h | h
  · simp [h]
  · simp only [Bool.and_eq_true, decide_eq_true_eq]
    omega
  · simp only [Bool.and_eq_true, decide_eq_true_eq]
    omega

/-! ## Disabling (R348) -/

/-- Two fields share no bit of a word of 32 bits. -/
def FieldsApart (f g : Fld) : Prop := g.off ≠ f.off ∨ g.lsb + g.width ≤ f.lsb ∨ f.lsb + f.width ≤ g.lsb

theorem getF_setF_apart (s : State) {f g : Fld} (v : Nat) (hf : f.lsb + f.width ≤ 32) (hg : g.lsb + g.width ≤ 32)
    (h : FieldsApart f g) :
    (s.setF f v).getF g = s.getF g := by
  by_cases ho : g.off = f.off
  · exact getF_setF_ne_bits s f g v hf hg ho (h.resolve_left fun hne => hne ho)
  · exact getF_setF_ne_off s f g v hf hg ho

/-- The fields that disabling a link clears, in its order. -/
def disabledFields (n : Nat) : List Fld :=
  [zlLinkCfg_En n, zlLinkCfg_Freeze n, zlLinkStatus_Frozen n, zlLinkStatus_EchoValid n, zlLinkStatus_LinkDown n,
    zlLinkStatus_FrameLock n, zlLinkStatus_LaneLock n, zlLinkStatus_Signal n]

/-- The state with fields cleared one after another. -/
def State.clearFields (s : State) : List Fld → State
  | [] => s
  | f :: fs => (s.setF f 0).clearFields fs

theorem getF_clearFields {fs : List Fld} {g : Fld} (hg : g.lsb + g.width ≤ 32) (hfs : ∀ f ∈ fs, f.lsb + f.width ≤ 32)
    (h : ∀ f ∈ fs, FieldsApart f g) : (s.clearFields fs).getF g = s.getF g := by
  induction fs generalizing s with
  | nil => rfl
  | cons f fs ih =>
    rw [State.clearFields, ih (fun f hf => hfs f (List.mem_cons_of_mem _ hf)) fun f hf => h f (List.mem_cons_of_mem _ hf),
      getF_setF_apart s 0 (hfs f List.mem_cons_self) hg (h f List.mem_cons_self)]

/-- Of fields that are apart each reads 0. -/
theorem getF_clearFields_mem {fs : List Fld} {g : Fld} (hfs : ∀ f ∈ fs, f.lsb + f.width ≤ 32)
    (h : fs.Pairwise fun g f => FieldsApart f g) (hg : g ∈ fs) : (s.clearFields fs).getF g = 0 := by
  induction fs generalizing s with
  | nil => simp at hg
  | cons f fs ih =>
    have hrest : ∀ f ∈ fs, f.lsb + f.width ≤ 32 := fun f hf => hfs f (List.mem_cons_of_mem _ hf)
    obtain ⟨hhead, htail⟩ := List.pairwise_cons.mp h
    rcases List.mem_cons.mp hg with rfl | hg
    · have hw := hfs g List.mem_cons_self
      rw [State.clearFields, getF_clearFields hw hrest hhead, getF_setF_same s g 0 (by omega), Nat.zero_mod]
    · exact ih hrest htail hg

theorem frame_clearFields (s : State) (fs : List Fld) : Frame [.regs] s (s.clearFields fs) := by
  induction fs generalizing s with
  | nil => exact .refl _ _
  | cons f fs ih => exact ((frame_setF s f 0).trans (ih _)).mono (by decide)

theorem disabledFields_width : ∀ f ∈ disabledFields n, f.lsb + f.width ≤ 32 := by
  simp [disabledFields, zlLinkCfg_En, zlLinkCfg_Freeze, zlLinkStatus_Frozen, zlLinkStatus_EchoValid, zlLinkStatus_LinkDown,
    zlLinkStatus_FrameLock, zlLinkStatus_LaneLock, zlLinkStatus_Signal]

theorem disabledFields_apart (n : Nat) : (disabledFields n).Pairwise fun g f => FieldsApart f g := by
  simp [disabledFields, FieldsApart, zlLinkCfg_En, zlLinkCfg_Freeze, zlLinkStatus_Frozen, zlLinkStatus_EchoValid, zlLinkStatus_LinkDown,
    zlLinkStatus_FrameLock, zlLinkStatus_LaneLock, zlLinkStatus_Signal, zlLinkCfg, zlLinkStatus]

theorem zlLinkDisable_eq (s : State) (n : Nat) :
    zlLinkDisable n s = ((s.clearFields (disabledFields n)).setZlink n ZlLink.init).txUpdate n := rfl

/-! ### The transmitter of a link -/

theorem frame_setTx (s : State) (k : Nat) (x : Tx) : Frame [.pwr] s (s.setTx k x) := by
  intro c hc
  cases c <;> simp_all [Comp.same]

theorem frame_txEnter (s : State) (k st : Nat) : Frame [.regs, .pwr] s (s.txEnter k st) := by
  unfold State.txEnter
  split
  · exact .refl _ _
  · exact ((frame_setF s _ st).trans (frame_setTx _ k _)).mono (by decide)

theorem wordsKept_txEnter (s : State) (k st : Nat) : WordsKept [optTxState k] s (s.txEnter k st) := by
  unfold State.txEnter
  split
  · exact .refl _ _
  · intro off hoff
    rw [word_setTx]
    exact wordsKept_setF s (optTxState_State k) st (by simp [optTxState_State]) off hoff

theorem getF_txEnter (s : State) (k : Nat) {st : Nat} (hst : st < 8) : (s.txEnter k st).getF (optTxState_State k) = st := by
  unfold State.txEnter
  split
  · assumption
  · rw [getF_setTx, getF_setF_same s _ st (by simp [optTxState_State])]
    exact Nat.mod_eq_of_lt hst

/-- A transmitter whose port is not enabled goes dark, or to the safe state. -/
theorem txUpdate_unwanted {k : Nat} (h : s.txWanted k = false) : ∃ st, st < 8 ∧ st ≠ txOn ∧ s.txUpdate k = s.txEnter k st := by
  unfold State.txUpdate State.txSettle
  dsimp only
  split
  · exact ⟨txFault, by decide, by decide, rfl⟩
  split
  · exact ⟨txSafe, by decide, by decide, rfl⟩
  · exact ⟨txOff, by decide, by decide, if_pos (by simp [h])⟩

/-- Disabling starts the link anew and turns its transmitter off. -/
theorem zlLinkDisable_spec (hn : n < 24) (s : State) :
    let t := zlLinkDisable n s
    (∀ f ∈ disabledFields n, t.getF f = 0) ∧ t.zlink n = ZlLink.init ∧ (∀ m, m ≠ n → t.zlink m = s.zlink m) ∧
      t.getF (optTxState_State n) ≠ txOn ∧ Frame [.regs, .zl, .pwr] s t := by
  let s1 := s.clearFields (disabledFields n)
  let s2 := s1.setZlink n ZlLink.init
  have hwidth : ∀ f ∈ disabledFields n, f.lsb + f.width ≤ 32 := disabledFields_width
  have hzero : ∀ f ∈ disabledFields n, s1.getF f = 0 := fun f hf => getF_clearFields_mem hwidth (disabledFields_apart n) hf
  have hen : s1.getF (zlLinkCfg_En n) = 0 := hzero _ (by simp [disabledFields])
  have hwanted : s2.txWanted n = false := by
    simp [State.txWanted, hn, State.flag, s2, hen]
  obtain ⟨st, hst, hoff, htx⟩ := txUpdate_unwanted hwanted
  have ht : zlLinkDisable n s = s2.txEnter n st := (zlLinkDisable_eq s n).trans htx
  have htx2 : Frame [.regs, .pwr] s2 (s2.txEnter n st) := frame_txEnter s2 n st
  have hzl : (s2.txEnter n st).zl = s2.zl := htx2 .zl (by decide)
  have hlinks : ∀ m, (s2.txEnter n st).zlink m = s2.zlink m := zlink_congr (by rw [hzl])
  have hzl1 : s1.zl = s.zl := frame_clearFields s _ .zl (by decide)
  rw [ht]
  refine ⟨fun f hf => ?_, ?_, fun m hm => ?_, by rwa [getF_txEnter _ _ hst], ?_⟩
  · have ho : f.off ∉ [optTxState n] := by
      simp only [disabledFields, zlLinkCfg_En, zlLinkCfg_Freeze, zlLinkStatus_Frozen, zlLinkStatus_EchoValid, zlLinkStatus_LinkDown,
        zlLinkStatus_FrameLock, zlLinkStatus_LaneLock, zlLinkStatus_Signal, List.mem_cons, List.not_mem_nil, or_false] at hf
      rcases hf with rfl | rfl | rfl | rfl | rfl | rfl | rfl | rfl <;> simp [zlLinkCfg, zlLinkStatus, optTxState] <;> omega
    rw [(wordsKept_txEnter s2 n st).getF (hwidth f hf) ho, getF_setZlink, hzero f hf]
  · exact (hlinks n).trans (zlink_setZlink ..)
  · exact (hlinks m).trans ((zlink_setZlink_ne s1 _ hm).trans (zlink_congr (by rw [hzl1]) m))
  · exact (((frame_clearFields s _).trans (frame_setZlink s1 n _)).trans htx2).mono (by decide)

/-! ## The obligation -/

theorem exec_zlLinkDisable (hn : n < 24) (s : State) : exec (.zlLinkDisable n) s = .next (zlLinkDisable n s) := by
  have h : exec (.zlLinkDisable n) s = .next (s.when (decide (n < 24)) (zlLinkDisable n s)) := rfl
  rw [h, State.when, if_pos (decide_eq_true hn)]

theorem exec_zlFrameReceive (hn : n < 24) (lanes : List (BitVec 2640)) (age : Nat) (s : State) :
    exec (.zlFrameReceive n lanes age) s = .next (zlFrameReceive n lanes age s) := by
  have h : exec (.zlFrameReceive n lanes age) s = .next (s.when (decide (n < 24)) (zlFrameReceive n lanes age s)) := rfl
  rw [h, State.when, if_pos (decide_eq_true hn)]

/-- The release of a frame lies in the cycles in which it is held. -/
theorem lateFrame_eq_false (s : State) (n t : Nat) : s.lateFrame n t = false ↔
    s.frc.toNat ≤ 64 * t + s.getF (zlLinkLz_Lz n) ∧ 64 * t + s.getF (zlLinkLz_Lz n) ≤ s.frc.toNat + 256 := by
  simp [State.lateFrame]

/-- Neither lateness nor what is held changes the counts of codewords and the lock. -/
theorem taken_counts (v : LinkView) (late : Bool) (f : RxFrame) :
    (v.taken late f).ce = v.ce ∧ (v.taken late f).ue = v.ue ∧ (v.taken late f).lock = v.lock := by
  cases late
  · exact ⟨rfl, rfl, rfl⟩
  · exact ⟨rfl, rfl, rfl⟩

section
variable {lanes : List (BitVec 2640)} {x : Bool × Option Nat × Nat} (hn : n < 24) (age : Nat) (hx : s.zlDecode n lanes = x)
  (hlisten : s.zlListens n = true) (hlock : s.flag (zlLinkStatus_FrameLock n) = true)
include hn hx hlisten hlock

/-- A frame whose codeword is corrected. -/
theorem zlFrameReceive_corrected {e : Nat} (he : x.2.1 = some e)
    (hkeep : goesOn (s.zlink n) x.1 (bitsAt x.2.2 86 24) ∨ (s.zlink n).failRun + 1 < 4) :
    let t := zlFrameReceive n lanes age s
    t.getF (zlLinkFecCeF n) = satAdd 32 (s.getF (zlLinkFecCeF n)) e ∧ t.getF (zlLinkFecUeF n) = s.getF (zlLinkFecUeF n) ∧
      t.flag (zlLinkStatus_FrameLock n) = true ∧ ∃ f : RxFrame, f.tick = nearTick s.tick ((s.zlink n).lastTick % 2 ^ 24) ∧
        f.conts.map (fun c => (c.1, c.2.1)) = ((List.range 39).map fun j => (dataContainer x.2.2 j, false)) ∧
        (s.lateFrame n f.tick = false → (t.zlink n).frames = (s.zlink n).frames ++ [f]) ∧
        (s.lateFrame n f.tick = true → (t.zlink n).frames = (s.zlink n).frames ∧
          t.getF (zlLinkLateF n) = satAdd 32 (s.getF (zlLinkLateF n)) (s.getF (zlLinkStatus_Frozen n))) := by
  have hkeep : goesOn (s.zlink n) (x.1 && x.2.1.isSome) (bitsAt x.2.2 86 24) ∨ (s.zlink n).failRun + 1 < 4 := by
    rwa [he, Option.isSome_some, Bool.and_true]
  obtain ⟨f, htick, hconts, hview⟩ := zlFrameReceive_view hn age hx hlisten hlock hkeep
  obtain ⟨hce, hue, hlk⟩ := taken_counts ((s.linkView n).decoded x.2.1) (s.lateFrame n f.tick) f
  rw [he] at hview hce hue hlk hconts
  refine ⟨(congrArg LinkView.ce hview).trans hce, (congrArg LinkView.ue hview).trans hue, ?_, f, htick, hconts, fun hin => ?_,
    fun hout => ⟨?_, ?_⟩⟩
  · rw [flag_frameLock_iff, hview, hlk]
    exact (flag_frameLock_iff s n).mp hlock
  · rw [hin] at hview
    exact congrArg LinkView.frames hview
  · rw [hout] at hview
    exact congrArg LinkView.frames hview
  · rw [hout] at hview
    exact congrArg LinkView.late hview

/-- A frame whose codeword cannot be corrected: its containers are suspect. -/
theorem zlFrameReceive_uncorrectable (he : x.2.1 = none) (hrun : (s.zlink n).failRun + 1 < 4) :
    let t := zlFrameReceive n lanes age s
    t.getF (zlLinkFecUeF n) = satAdd 32 (s.getF (zlLinkFecUeF n)) 1 ∧ t.getF (zlLinkFecCeF n) = s.getF (zlLinkFecCeF n) ∧
      ∃ f : RxFrame, f.tick = nearTick s.tick ((s.zlink n).lastTick % 2 ^ 24) ∧ (∀ c ∈ f.conts, c.2.1 = true) ∧
        (s.lateFrame n f.tick = false → (t.zlink n).frames = (s.zlink n).frames ++ [f]) := by
  obtain ⟨f, htick, hconts, hview⟩ := zlFrameReceive_view hn age hx hlisten hlock (.inr hrun)
  obtain ⟨hce, hue, -⟩ := taken_counts ((s.linkView n).decoded x.2.1) (s.lateFrame n f.tick) f
  rw [he] at hview hce hue hconts
  refine ⟨(congrArg LinkView.ue hview).trans hue, (congrArg LinkView.ce hview).trans hce, f, htick, fun c hc => ?_, fun hin => ?_⟩
  · have hmem : (c.1, c.2.1) ∈ f.conts.map fun c => (c.1, c.2.1) := List.mem_map_of_mem hc
    rw [hconts] at hmem
    obtain ⟨j, -, hj⟩ := List.mem_map.mp hmem
    exact (congrArg Prod.snd hj).symm
  · rw [hin] at hview
    exact congrArg LinkView.frames hview

end

/-- Settles O59, from one lemma for each command of a link. -/
theorem linksSendReceiveAndRelease : Obligations.LinksSendReceiveAndRelease := by
  refine ⟨tokenOf_container, fun s n hn => ⟨_, exec_zlFrameSend hn s, zlFrameSend_silent, fun hen hsafe hdead => ?_⟩,
    fun s n lanes age hn hlisten hlock => ?_, fun s n j k b hn hj hj' hen htime hb => ?_, fun s n hn => ?_⟩
  · have hsends : s.zlSends n := ⟨hen, hsafe, hdead⟩
    refine ⟨zlFrameSend_first hsends, zlFrameSend_data hsends, fun hcycle hbuild => ?_⟩
    rw [zlFrameSend_last hsends hcycle hbuild]
    exact zlLaunch_link s n
  · intro l x good at' inTime
    have hlate : ∀ f : RxFrame, f.tick = nearTick s.tick (l.lastTick % 2 ^ 24) → (s.lateFrame n f.tick = false ↔ inTime) :=
      fun f hf => by rw [hf]; exact lateFrame_eq_false ..
    refine ⟨fun e he hkeep => ⟨_, exec_zlFrameReceive hn lanes age s, ?_⟩,
      fun he hrun => ⟨_, exec_zlFrameReceive hn lanes age s, ?_⟩⟩
    · obtain ⟨hce, hue, hlk, f, htick, hconts, hheld, hlost⟩ := zlFrameReceive_corrected (x := x) hn age rfl hlisten hlock he hkeep
      exact ⟨hce, hue, hlk, fun hin => ⟨f, hheld ((hlate f htick).mpr hin), htick, hconts⟩,
        fun hout => hlost (Bool.eq_true_of_not_eq_false (mt (hlate f htick).mp hout))⟩
    · obtain ⟨hue, hce, f, htick, hsus, hheld⟩ := zlFrameReceive_uncorrectable (x := x) hn age rfl hlisten hlock he hrun
      exact ⟨hue, hce, fun hin => ⟨f, hheld ((hlate f htick).mpr hin), hsus⟩⟩
  · intro q
    obtain ⟨t, ht, hhearth⟩ := exec_zlContainerRelease hn hj hj' hen htime
    refine ⟨t, ht, fun hrun => by rw [hhearth, releaseSlot_halted hrun], fun hrun hroom => ⟨fun f x sus hf hx hvoid => ?_, fun hf hrel => ?_⟩⟩
    · have hc : s.heldContainer n j k = some (x, sus, true) := by simp [State.heldContainer, hf, hx]
      rw [edge_congr hhearth, hc]
      exact releaseSlot_given hb hrun hroom hvoid
    · have hc : s.heldContainer n j k = none := by simp [State.heldContainer, hf]
      rw [edge_congr hhearth, hc]
      exact ⟨_, releaseSlot_absent hb hrun hroom hrel, rfl, rfl, rfl⟩
  · intro l
    refine ⟨fun k ks hkept hresend hturn hdown hturns hage => ⟨_, exec_zlRetryTimeout hn hkept hresend hturn hage,
      goBack_resends (ne_of_eq_of_ne hkept (List.cons_ne_nil k ks)) hdown hturns⟩,
      ⟨_, exec_zlEchoGo hn s, zlink_setZlink .., frame_setZlink s n _⟩,
      fun x hecho hage => ⟨_, exec_zlEchoTimeout hn hecho hage, echoTimedOut_spec s n⟩,
      ⟨fun hvalid hlow hhigh => ⟨_, exec_zlFreeze hn s, ?_⟩, fun hbad => ⟨_, exec_zlFreeze hn s, ?_⟩⟩,
      ⟨_, exec_zlLinkDisable hn s, ?_⟩⟩
    · rw [zlFreeze_bounded hvalid hlow hhigh]
      exact frozen_spec s n
    · rw [zlFreeze_refused hn hbad]
      exact ⟨getF_raise_same _ _ (by decide), wordsKept_raise s zlStatus_WrRefused (by decide), frame_raise s _⟩
    · obtain ⟨hzero, hrest⟩ := zlLinkDisable_spec hn s
      exact ⟨hzero _ (by simp [disabledFields]), hzero _ (by simp [disabledFields]), hzero _ (by simp [disabledFields]),
        hzero _ (by simp [disabledFields]), hrest⟩

end Sys2Proof.Machine
end

section
/-!
# Registers that no access to HBM touches

An access to HBM by any master changes registers of the MEM block alone, so that no register above that block, and with it no mode of a
unit, changes. `HighKept` says so, with one lemma per operation, as `HbmOp` has.
-/

set_option autoImplicit false

namespace Sys2Proof.Machine

/-- The register words above the MEM block are as they were. -/
structure HighKept (s t : State) : Prop where
  words : ∀ off, 0x300000 ≤ off → t.word off = s.word off

variable {s₀ s t : State}

theorem HighKept.refl (s : State) : HighKept s s := ⟨fun _ _ => rfl⟩

theorem HighKept.trans (h : HighKept s₀ s) (ht : HighKept s t) : HighKept s₀ t :=
  ⟨fun off ho => (ht.words off ho).trans (h.words off ho)⟩

/-- A field of a word above the MEM block is as it was. -/
theorem HighKept.getF (h : HighKept s t) {f : Fld} (hw : f.lsb + f.width ≤ 32) (ho : 0x300000 ≤ f.off) : t.getF f = s.getF f := by
  simp only [State.getF, State.regNat, if_pos hw, h.words f.off ho]

theorem HighKept.ite {c : Prop} [Decidable c] {a b : State} (ha : HighKept s₀ a) (hb : HighKept s₀ b) :
    HighKept s₀ (if c then a else b) := by
  split
  · exact ha
  · exact hb

/-! ## Registers -/

theorem HighKept.setWord (h : HighKept s₀ s) {off v} (ho : off < 0x300000) : HighKept s₀ (s.setWord off v) :=
  h.trans ⟨fun _ hge => word_setWord_ne s v (by omega)⟩

theorem HighKept.setF (h : HighKept s₀ s) {f v} (ho : f.off + 4 < 0x300000) : HighKept s₀ (s.setF f v) :=
  h.trans ⟨fun _ hge => word_setF_ne s f v (by omega) (by omega)⟩

theorem HighKept.bump (h : HighKept s₀ s) {f k} (ho : f.off + 4 < 0x300000) : HighKept s₀ (s.bump f k) :=
  (h.setF (f := f) (v := satAdd f.width (s.getF f) k) ho).trans ⟨fun _ _ => rfl⟩

theorem HighKept.raise (h : HighKept s₀ s) {f} (ho : f.off + 4 < 0x300000) : HighKept s₀ (s.raise f) :=
  (h.setF (f := f) (v := 2 ^ f.width - 1) ho).trans ⟨fun _ _ => rfl⟩

theorem HighKept.assertSrc (h : HighKept s₀ s) {n info rank} : HighKept s₀ (s.assertSrc n info rank) := h.trans ⟨fun _ _ => by simp⟩

theorem HighKept.update (h : HighKept s₀ s) {mem} : HighKept s₀ { s with mem } := h.trans ⟨fun _ _ => rfl⟩

theorem HighKept.setPool (h : HighKept s₀ s) {c p} : HighKept s₀ (s.setPool c p) := h.trans ⟨fun _ _ => by simp⟩

theorem HighKept.drawBytes (h : HighKept s₀ s) {n} : HighKept s₀ (s.drawBytes n).2 := h.trans ⟨fun _ _ => rfl⟩

theorem stackOf_lt (sec : Nat) : stackOf sec < 6 := Nat.mod_lt _ (by decide)

/-- The registers of a stack stand below the end of the MEM block. -/
theorem stackReg_lt {base st : Nat} (hst : st < 6) (h : base + 0x200 < 0x300000) : base + 0x40 * st + 4 < 0x300000 := by omega

/-! ## Sectors -/

theorem HighKept.bucketLeak (h : HighKept s₀ s) {st} (hst : st < 6) : HighKept s₀ (s.bucketLeak st) :=
  HighKept.ite h (h.update.setF (stackReg_lt hst (by decide)))

theorem HighKept.corrected (h : HighKept s₀ s) {st} (hst : st < 6) : HighKept s₀ (s.corrected st) := by
  have h1 := (h.bucketLeak hst).bump (f := memStackCeF st) (k := 1) (stackReg_lt hst (by decide))
  have hlvl {t : State} {x : Nat} (ht : HighKept s₀ t) : HighKept s₀ (t.setF (memStackBucket_Level st) x) :=
    ht.setF (stackReg_lt hst (by decide))
  exact HighKept.ite ((hlvl h1).bump (stackReg_lt hst (by decide))).assertSrc (hlvl h1)

theorem HighKept.feCapture (h : HighKept s₀ s) {kind acc master site sec} : HighKept s₀ (s.feCapture kind acc master site sec) :=
  HighKept.ite h ((((h.raise (by decide)).setF (by decide)).setWord (by decide)).setF (by decide))

theorem HighKept.decodeError (h : HighKept s₀ s) {acc master site sec} : HighKept s₀ (s.decodeError acc master site sec) :=
  ((h.bump (by decide)).raise (by decide)).feCapture.assertSrc

theorem HighKept.countRead (h : HighKept s₀ s) {r acc master site sec} : HighKept s₀ (s.countRead r acc master site sec) := by
  cases r with
  | clean => exact h
  | corrected i e => exact h.corrected (stackOf_lt sec)
  | uncorrectable => exact (h.bump (stackReg_lt (stackOf_lt sec) (by decide))).feCapture

theorem HighKept.storeSector (h : HighKept s₀ s) {sec bs poison} : HighKept s₀ (s.storeSector sec bs poison) := by
  unfold State.storeSector
  extract_lets st hit mode inj diff hbm check src s1 s2
  have h2 : HighKept s₀ s2 := (h.update.setF (by decide)).ite h.update
  exact (h2.bump (stackReg_lt (stackOf_lt sec) (by decide))).ite h2

theorem HighKept.rmw (h : HighKept s₀ s) {sec data mask poison master site err} :
    HighKept s₀ (s.rmw sec data mask poison master site err) :=
  ((h.countRead.bump (stackReg_lt (stackOf_lt sec) (by decide))).ite h.countRead).storeSector

theorem HighKept.dropHeld (h : HighKept s₀ s) {sec} : HighKept s₀ (s.dropHeld sec) := h.update

theorem HighKept.writeBack (h : HighKept s₀ s) {e master site err} : HighKept s₀ (s.writeBack e master site err) :=
  HighKept.ite h.dropHeld.decodeError h.dropHeld.rmw

theorem HighKept.flushFor (h : HighKept s₀ s) {sec master site} : HighKept s₀ (s.flushFor sec master site) := by
  unfold State.flushFor
  split
  · exact h
  · exact (h.bump (stackReg_lt (stackOf_lt sec) (by decide))).writeBack

theorem HighKept.makeRoom (h : HighKept s₀ s) {sec master site} : HighKept s₀ (s.makeRoom sec master site) := by
  unfold State.makeRoom
  split
  · exact (h.bump (stackReg_lt (stackOf_lt sec) (by decide))).writeBack
  · exact h

theorem HighKept.getSector (h : HighKept s₀ s) {master site sec err} : HighKept s₀ (s.getSector master site sec err).1 := by
  unfold State.getSector
  split
  · exact h.decodeError
  · exact h.flushFor.countRead

theorem HighKept.putSector (h : HighKept s₀ s) {master site sec data mask poison} :
    HighKept s₀ (s.putSector master site sec data mask poison) :=
  HighKept.ite h.decodeError <| h.ite <| h.dropHeld.storeSector.ite <| h.dropHeld.rmw.ite <| h.dropHeld.storeSector.ite <|
    h.update.ite h.makeRoom.update

theorem HighKept.acqPut {put : Nat → List Byte → BitVec 32 → State → State}
    (hput : ∀ sec data mask s, HighKept s₀ s → HighKept s₀ (put sec data mask s)) (h : HighKept s₀ s) {c n k : Nat} :
    HighKept s₀ (s.acqPut put c n k) := by
  induction k generalizing s n with
  | zero => exact h
  | succ k ih => exact HighKept.ite h (ih (hput _ _ _ _ h.setPool))

/-! ## Whole accesses -/

theorem HighKept.arbMove (h : HighKept s₀ s) {pc master} : HighKept s₀ (s.arbMove pc master) := HighKept.ite h.update h.update

theorem HighKept.hbmServe (h : HighKept s₀ s) {r} : HighKept s₀ (s.hbmServe r) := by
  unfold State.hbmServe
  extract_lets sec mem s1 q mem'
  have h1 : HighKept s₀ s1 := h.update.arbMove
  split
  · exact h1.putSector
  · exact h1.getSector.update

theorem HighKept.hbmServeAll (h : HighKept s₀ s) {pc zero n} : HighKept s₀ (s.hbmServeAll pc zero n) := by
  induction n generalizing s with
  | zero => exact h
  | succ n ih =>
    unfold State.hbmServeAll
    split
    · exact h
    · exact h.ite (ih h.hbmServe)

theorem HighKept.hbmServeAhead (h : HighKept s₀ s) {pc master n} : HighKept s₀ (s.hbmServeAhead pc master n) := by
  induction n generalizing s with
  | zero => exact h
  | succ n ih =>
    unfold State.hbmServeAhead
    split
    · exact h
    · exact HighKept.ite (ih h.hbmServe) h

theorem HighKept.acqTurn (h : HighKept s₀ s) {pc} : HighKept s₀ (s.acqTurn pc) := by
  unfold State.acqTurn
  split
  · exact h
  · exact (HighKept.acqPut (fun _ _ _ _ h => h.putSector) h).arbMove

theorem HighKept.acqAll (h : HighKept s₀ s) {pc n} : HighKept s₀ (s.acqAll pc n) := by
  induction n generalizing s with
  | zero => exact h
  | succ n ih => exact HighKept.ite (ih h.acqTurn) h

theorem HighKept.hbmGrant (h : HighKept s₀ s) {pc master} : HighKept s₀ (s.hbmGrant pc master) := by
  have h1 := h.hbmServeAll (pc := pc) (zero := true) (n := (s.waitsAt pc).length)
  exact HighKept.update (HighKept.arbMove (HighKept.ite h1.acqAll.hbmServeAhead (h1.acqTurn.ite h1)))

theorem HighKept.readSector (h : HighKept s₀ s) {master site sec err} : HighKept s₀ (s.readSector master site sec err).1 :=
  (h.ite h.hbmGrant).getSector

theorem HighKept.hbmRead (h : HighKept s₀ s) {master site a n} : HighKept s₀ (s.hbmRead master site a n).1 := by
  unfold State.hbmRead
  dsimp only
  generalize sectorSpan a n = k
  generalize a / 32 = sec
  induction k generalizing s sec with
  | zero => exact h
  | succ k ih => exact ih h.readSector _

end Sys2Proof.Machine
end

section
/-!
# RUNs of warm graphs (R130, R133, R314 to R317, R319, R432)

A RUN is replaced in the list of those in progress by one of its tag; what a command of the Stoker does besides that, to memory, to
units or to ports, leaves the list alone.
-/

set_option autoImplicit false

namespace Sys2Proof.Machine

variable {s₀ s t : State} {tag port key j c : Nat} {f : Fly} {r : Run} {k : Token} {ks : List Token} {p : Replica}

/-! ## Completions (R306) -/

theorem fly_tag (h : s.fly tag = some f) : f.tag = tag := by
  simpa using List.find?_some h

theorem frame_stk (s : State) (k : Stk) : Frame [.stk] s { s with stk := k } := by
  intro c hc
  cases c <;> simp_all [Comp.same]

@[simp] theorem cq_setCq (s : State) (q : Nat) (c : Cq) : (s.setCq q c).cq q = c := mget_mput_same ..

/-- The completion of a descriptor that owes its queue an entry. -/
theorem complete_runs (h : Runs s tag f) (status result : Nat) : s.complete tag status result =
    (s.setFly { f with begun := true, ended := true }).setCq (dCq f.bytes)
      { s.cq (dCq f.bytes) with held := (s.cq (dCq f.bytes)).held ++ [f.entry status s.tick result] } := by
  obtain ⟨hfly, hended, horphan, hquiet⟩ := h
  have htag := fly_tag hfly
  subst htag
  simp [State.complete, hfly, hended, horphan, hquiet, State.hand, Fly.entry, State.cq, State.setFly]

theorem complete_spec (h : Runs s tag f) (status result : Nat) :
    let t := s.complete tag status result
    Ended f status result s t ∧ t.stk.runs = s.stk.runs ∧ Frame [.stk] s t := by
  rw [complete_runs h]
  exact ⟨by rw [Ended, cq_setCq], rfl, frame_stk s _⟩

/-! ## Reads of memory by the Stoker -/

/-- What a read by the Stoker leaves alone. -/
structure StkRead (s t : State) : Prop where
  frame : Frame (.freeIx :: hbmParts) s t
  high : HighKept s t

theorem StkRead.refl (s : State) : StkRead s s := ⟨.refl _ _, .refl _⟩

theorem StkRead.trans (h : StkRead s₀ s) (ht : StkRead s t) : StkRead s₀ t :=
  ⟨(h.frame.trans ht.frame).mono (by decide), h.high.trans ht.high⟩

theorem frame_drawBytes (s : State) (n : Nat) : Frame [.freeIx] s (s.drawBytes n).2 := by
  intro c hc
  cases c <;> simp_all [Comp.same, State.drawBytes]

theorem stkRead_drawBytes (s : State) (n : Nat) : StkRead s (s.drawBytes n).2 :=
  ⟨(frame_drawBytes s n).mono (by decide), (HighKept.refl s).drawBytes⟩

theorem stkRead_awRead (s : State) (master aw n : Nat) : StkRead s (s.awRead master aw n).1 := by
  unfold State.awRead
  split
  · split
    · exact stkRead_drawBytes s n
    · exact .refl s
  · exact ⟨(frame_hbmRead _ _ _ _).mono (by decide), (HighKept.refl s).hbmRead⟩

theorem stkRead_readTokens (s : State) (aw n bytes : Nat) : StkRead s (s.readTokens aw n bytes).1 := by
  induction n generalizing s aw bytes with
  | zero => exact .refl s
  | succ n ih => exact (stkRead_awRead s 4 aw _).trans (ih ..)

theorem StkRead.unitMode (h : StkRead s t) (u : Nat) : t.unitMode u = s.unitMode u :=
  h.high.getF (by simp [hrtUnitCfg_Mode]) (by simp only [hrtUnitCfg_Mode, hrtUnitCfg]; omega)

/-! ## Units at the start of their graph (R97, R184) -/

/-- A warm unit stands at bundle 0 of step 0 of its graph, with no window closed. -/
structure AtStart (x : HUnit) : Prop where
  graphOn : x.graphOn = true
  bundle : x.bundle = 0
  step : x.step = 0
  wins : x.wins = 0

theorem AtStart.setScalar {x : HUnit} (h : AtStart x) (i : Nat) (v : W32) : AtStart (x.setScalar i v) := by
  unfold HUnit.setScalar
  split
  · exact h
  · exact ⟨h.graphOn, h.bundle, h.step, h.wins⟩

theorem AtStart.publish {x : HUnit} (h : AtStart x) : AtStart x.publish := by
  unfold HUnit.publish
  generalize List.range 32 = is
  induction is generalizing x with
  | nil => exact h
  | cons i is ih =>
    rw [List.foldl_cons]
    dsimp only
    split
    · exact ih h
    · exact ih ((h.setScalar _ _).setScalar _ _)

theorem atStart_graphStart (x : HUnit) (mu : Bool) : AtStart (x.graphStart mu) := by
  unfold HUnit.graphStart
  extract_lets v y
  have hy : AtStart y := ⟨rfl, rfl, rfl, rfl⟩
  split
  · exact hy
  · exact hy.publish

/-- A unit that has started stays so while the others of a list start. -/
theorem atStart_startUnits_of {u : Nat} (us : List Nat) (h : AtStart (s.unit u)) : AtStart ((s.startUnits us).unit u) := by
  induction us generalizing s with
  | nil => exact h
  | cons v us ih =>
    refine ih ?_
    split
    · by_cases hv : u = v
      · rw [hv, unit_setUnit]
        exact atStart_graphStart ..
      · rwa [unit_setUnit_ne s _ hv]
    · exact h

/-- Every warm unit of a list starts. -/
theorem atStart_startUnits {u : Nat} {us : List Nat} (hu : u ∈ us) (hmode : s.unitMode u = 2) : AtStart ((s.startUnits us).unit u) := by
  induction us generalizing s with
  | nil => simp at hu
  | cons v us ih =>
    rw [State.startUnits]
    by_cases hv : u = v
    · subst hv
      rw [if_pos hmode]
      exact atStart_startUnits_of us (by rw [unit_setUnit]; exact atStart_graphStart ..)
    · refine ih ((List.mem_cons.mp hu).resolve_left hv) ?_
      split
      · exact (getF_setUnit ..).trans hmode
      · exact hmode

theorem frame_startUnits (s : State) (us : List Nat) : Frame [.hearth] s (s.startUnits us) := by
  induction us generalizing s with
  | nil => exact .refl _ _
  | cons v us ih =>
    refine Frame.mono (Frame.trans ?_ (ih _)) (a := [.hearth] ++ [.hearth]) (by decide)
    split
    · exact frame_setUnit s v _
    · exact .refl _ _

/-! ## RUN begins (R314) -/

theorem startable_waits {op : Nat} (h : Waits s tag op f) : s.startable tag op = some f.bytes := by
  obtain ⟨⟨hfly, -⟩, hop, hbegun⟩ := h
  simp [State.startable, hfly, hop, hbegun]

theorem begin_runs (s : State) (tag : Nat) : (s.begin tag).stk.runs = s.stk.runs ∧ Frame [.stk] s (s.begin tag) := by
  unfold State.begin
  split
  · exact ⟨rfl, .refl _ _⟩
  · exact ⟨rfl, frame_stk s _⟩

/-- The RUN that begins has its chunks all to assign, and the units of its graph start. -/
theorem beginRun_spec (s : State) (tag : Nat) (d : List Byte) (g : GraphEnt) (decoded : List (BitVec 16 × Tags)) :
    let t := s.beginRun tag d g decoded
    ∃ r, t.stk.runs = s.stk.runs ++ [r] ∧ r.tag = tag ∧ r.graph = g ∧ r.nextChunk = 0 ∧
      r.chunks = (dfield d 12 4 + g.chunk - 1) / g.chunk ∧ r.choices = 0 ∧
      ∀ u ∈ s.graphUnits g, s.unitMode u = 2 → AtStart (t.unit u) := by
  unfold State.beginRun
  extract_lets n bytes st r s1 t
  have hread : StkRead s st.1 := stkRead_readTokens ..
  obtain ⟨hruns, hbegin⟩ := begin_runs st.1 tag
  have hstart := frame_startUnits (st.1.begin tag) (s.graphUnits g)
  have hstk : s1.stk = (st.1.begin tag).stk := hstart .stk (by decide)
  have hread_stk : st.1.stk = s.stk := hread.frame .stk (by decide)
  refine ⟨r, ?_, rfl, rfl, rfl, rfl, rfl, fun u hu hmode => ?_⟩
  · change s1.stk.runs ++ [r] = _
    rw [hstk, hruns, hread_stk]
  · have hmode1 : (st.1.begin tag).unitMode u = 2 := by
      have hregs : (st.1.begin tag).unitMode u = st.1.unitMode u :=
        getF_congr (hbegin .regs (by decide)) (hbegin .part (by decide)) _
      rw [hregs, hread.unitMode, hmode]
    exact atStart_startUnits hu hmode1

theorem exec_runDesc (s : State) (tag : Nat) : exec (.runDesc tag) s = .next (runDesc tag s) := rfl

theorem runDesc_noGraph (h : Waits s tag 0x03 f)
    (hg : ∀ i, s.hearth.img = some i → i.graphs.find? (fun g => g.graph == dfield f.bytes 8 2) = none) :
    runDesc tag s = s.complete tag stNoGraph 0 := by
  cases hi : s.hearth.img with
  | none => simp only [runDesc, startable_waits h, hi]
  | some i => simp only [runDesc, startable_waits h, hi, hg i hi]

section
variable {i : ImgInfo} {g : GraphEnt} (h : Waits s tag 0x03 f) (hi : s.hearth.img = some i)
  (hg : i.graphs.find? (fun g => g.graph == dfield f.bytes 8 2) = some g)
include h hi hg

theorem runDesc_badOperand (hops : runOperands f.bytes = false) : runDesc tag s = s.complete tag stBadOperand 0 := by
  simp [runDesc, startable_waits h, hi, hg, hops]

theorem runDesc_held (hops : runOperands f.bytes = true) (hheld : s.dmaHeld = true) (hcomb : g.comb.isSome = true)
    (hstate : 0 < g.stateBytes) : runDesc tag s = s := by
  simp [runDesc, startable_waits h, hi, hg, hops, hheld, hcomb, hstate]

theorem runDesc_begins (hops : runOperands f.bytes = true) (hmode : dfield f.bytes 10 1 = 0)
    (hfree : s.dmaHeld = false ∨ g.comb = none ∨ g.stateBytes = 0) : runDesc tag s = s.beginRun tag f.bytes g [] := by
  rcases hfree with hfree | hfree | hfree
  · simp [runDesc, startable_waits h, hi, hg, hops, hmode, hfree]
  · simp [runDesc, startable_waits h, hi, hg, hops, hmode, hfree]
  · simp [runDesc, startable_waits h, hi, hg, hops, hmode, hfree]

end

/-! ## RUNs in progress -/

theorem runOf_tag (h : s.runOf tag = some r) : r.tag = tag := by
  simpa using List.find?_some h

theorem runOf_mem (h : s.runOf tag = some r) : r ∈ s.stk.runs := List.mem_of_find?_eq_some h

/-- A RUN that is replaced by one of its tag is found as that. -/
theorem runOf_setRun {q : Run} (hq : q ∈ s.stk.runs) (htag : q.tag = r.tag) : (s.setRun r).runOf r.tag = some r := by
  unfold State.setRun State.runOf
  dsimp only
  generalize s.stk.runs = qs at hq ⊢
  induction qs with
  | nil => simp at hq
  | cons p ps ih =>
    rw [List.map_cons, List.find?_cons]
    by_cases hp : p.tag = r.tag
    · simp [hp]
    · have hne : (p.tag == r.tag) = false := beq_false_of_ne hp
      simp only [hne, Bool.false_eq_true, if_false]
      exact ih ((List.mem_cons.mp hq).resolve_left fun he => hp (he ▸ htag))

/-- A choice is counted by the RUN and in CHOICES. -/
theorem choice_spec (s : State) (r : Run) (is : Bool) : (s.choice r is).2 = { r with choices := r.choices + b2n is } ∧
    (s.choice r is).1.getF stkChoicesF = satAdd stkChoicesF.width (s.getF stkChoicesF) (b2n is) ∧
    Frame [.regs, .incNow] s (s.choice r is).1 := by
  cases is with
  | false => exact ⟨rfl, (satAdd_zero (getF_lt s _)).symm, .refl _ _⟩
  | true => exact ⟨rfl, getF_bump_same s _ 1 (by decide), frame_bump s _ 1⟩

theorem frame_setRun (s : State) (r : Run) : Frame [.stk] s (s.setRun r) := frame_stk s _

/-! ## The distributor (R316, R317) -/

/-- The replicas of a RUN when its next chunk has gone to replica j. -/
def Run.given (r : Run) (j : Nat) : List Replica :=
  r.replicas.zipIdx.map fun p =>
    if p.2 = j then { p.1 with chunk := some r.nextChunk, sent := 0, outChunks := p.1.outChunks ++ [r.nextChunk] } else p.1

theorem getElem?_given {j : Nat} {p : Replica} (h : r.replicas[j]? = some p) :
    (r.given j)[j]? = some { p with chunk := some r.nextChunk, sent := 0, outChunks := p.outChunks ++ [r.nextChunk] } := by
  simp [Run.given, List.getElem?_zipIdx, h]

theorem exec_chunkAssign {j : Nat} (hrun : s.runOf tag = some r) (hpick : r.pick = some j) :
    let c := s.choice { r with replicas := r.given j, nextChunk := r.nextChunk + 1 } (j != r.nextChunk % r.graph.replicas)
    exec (.chunkAssign tag) s = .next (c.1.setRun c.2) := by
  have h : exec (.chunkAssign tag) s = .next (chunkAssign tag s) := rfl
  rw [h, chunkAssign]
  simp only [hrun, hpick]
  rfl

/-! ## Summaries (R316, R317) -/

/-- A RUN when the summary of a chunk has entered. -/
def Run.summarised (r : Run) (c : Nat) (ts : List (BitVec 512 × Tags)) : Run :=
  { r with arrived := r.arrived.filter fun a => a.2.1 != c, entered := r.entered ++ [c], combQueue := r.combQueue ++ ts }

theorem exec_summaryEnter {c : Nat} {ts : List (BitVec 512 × Tags)} (hrun : s.runOf tag = some r) (hnext : r.nextSummary = some (c, ts)) :
    let x := s.choice (r.summarised c ts) ((List.range c).any fun i => !r.entered.contains i)
    exec (.summaryEnter tag) s = .next (x.1.setRun x.2) := by
  have h : exec (.summaryEnter tag) s = .next (summaryEnter tag s) := rfl
  simp only [h, summaryEnter, hrun, hnext]
  rfl

/-- A RUN of the tag that a choice and a replacement leave. -/
theorem runOf_choice {q : Run} (hrun : s.runOf tag = some r) (htag : q.tag = r.tag) (is : Bool) :
    ((s.choice q is).1.setRun (s.choice q is).2).runOf tag = some { q with choices := q.choices + b2n is } := by
  obtain ⟨hchoice, -, hframe⟩ := choice_spec s q is
  have hstk : (s.choice q is).1.stk = s.stk := hframe .stk (by decide)
  have hmem : r ∈ (s.choice q is).1.stk.runs := by rw [hstk]; exact runOf_mem hrun
  rw [hchoice, ← runOf_tag hrun, ← htag]
  exact runOf_setRun (r := { q with choices := q.choices + b2n is }) hmem htag.symm

/-! ## The end of a RUN (R315, R317) -/

theorem frame_stopUnits (s : State) (us : List Nat) : Frame [.hearth] s (s.stopUnits us) := by
  induction us generalizing s with
  | nil => exact .refl _ _
  | cons v us ih =>
    refine Frame.mono (Frame.trans ?_ (ih _)) (a := [.hearth] ++ [.hearth]) (by decide)
    split
    · exact frame_setUnit s v _
    · exact .refl _ _

theorem graphOn_stopUnits_of {u : Nat} (us : List Nat) (h : (s.unit u).graphOn = false) : ((s.stopUnits us).unit u).graphOn = false := by
  induction us generalizing s with
  | nil => exact h
  | cons v us ih =>
    refine ih ?_
    split
    · by_cases hv : u = v
      · rw [hv, unit_setUnit]
      · rwa [unit_setUnit_ne s _ hv]
    · exact h

/-- Every unit of a list stops. -/
theorem graphOn_stopUnits {u : Nat} {us : List Nat} (hu : u ∈ us) : ((s.stopUnits us).unit u).graphOn = false := by
  induction us generalizing s with
  | nil => simp at hu
  | cons v us ih =>
    by_cases hv : u = v
    · subst hv
      refine graphOn_stopUnits_of us ?_
      split
      · rw [unit_setUnit]
      · exact Bool.eq_false_iff.mpr ‹_›
    · exact ih ((List.mem_cons.mp hu).resolve_left hv)

/-- A RUN and its units leave the state. -/
def State.runDropped (s : State) (tag : Nat) (us : List Nat) : State :=
  { s.stopUnits us with stk := { (s.stopUnits us).stk with runs := (s.stopUnits us).stk.runs.filter fun q => q.tag != tag } }

theorem exec_runComplete (hrun : s.runOf tag = some r) (hended : r.ended = true) :
    exec (.runComplete tag) s = .next ((s.runDropped tag (s.graphUnits r.graph)).complete tag r.status r.result) := by
  have h : exec (.runComplete tag) s = .next (runComplete tag s) := rfl
  simp only [h, runComplete, hrun, hended, if_true]
  rfl

theorem runComplete_spec (hf : Runs s tag f) (us : List Nat) (status result : Nat) :
    let t := (s.runDropped tag us).complete tag status result
    Ended f status result s t ∧ t.runOf tag = none ∧ (∀ u ∈ us, (t.unit u).graphOn = false) ∧ Frame [.stk, .hearth] s t := by
  have hstop := frame_stopUnits s us
  have hstk : (s.stopUnits us).stk = s.stk := hstop .stk (by decide)
  have hdrop : Frame [.stk, .hearth] s (s.runDropped tag us) := (hstop.trans (frame_stk _ _)).mono (by decide)
  have hflights : (s.runDropped tag us).stk.flights = s.stk.flights := (congrArg Stk.flights hstk :)
  have hcqs : (s.runDropped tag us).stk.cqs = s.stk.cqs := (congrArg Stk.cqs hstk :)
  have htick : (s.runDropped tag us).tick = s.tick := by
    have hfrc : (s.runDropped tag us).frc = s.frc := hdrop .frc (by decide)
    rw [State.tick, hfrc, State.tick]
  obtain ⟨hfly, hrest⟩ := hf
  have hruns : Runs (s.runDropped tag us) tag f := ⟨by rw [State.fly, hflights]; exact hfly, hrest⟩
  obtain ⟨hend, hsame, hcomplete⟩ := complete_spec hruns status result
  refine ⟨?_, ?_, fun u hu => ?_, (hdrop.trans hcomplete).mono (by decide)⟩
  · have hcq : (s.runDropped tag us).cq (dCq f.bytes) = s.cq (dCq f.bytes) := by simp only [State.cq, hcqs]
    rwa [Ended, htick, hcq] at hend
  · rw [State.runOf, hsame, List.find?_eq_none]
    intro q hq
    have hne := (List.mem_filter.mp hq).2
    simpa using hne
  · have hhearth : ((s.runDropped tag us).complete tag status result).hearth = (s.stopUnits us).hearth := hcomplete .hearth (by decide)
    rw [unit_congr (s := s.stopUnits us) (by rw [hhearth])]
    exact graphOn_stopUnits hu

theorem getElem?_listSet {α : Type} {l : List α} {i : Nat} {x : α} (v : α) (h : l[i]? = some x) : (listSet l i v)[i]? = some v := by
  induction l generalizing i with
  | nil => simp at h
  | cons y l ih =>
    cases i with
    | zero => rfl
    | succ i => exact ih h

/-- The RUN that a port serves is one in progress. -/
theorem portRole_mem {o : Option Nat} (h : s.portRole key = some (r, o)) : r ∈ s.stk.runs := by
  obtain ⟨q, hq, hrole⟩ := List.exists_of_findSome?_eq_some h
  have hqr : q = r := by
    split at hrole
    · exact congrArg Prod.fst (Option.some.inj hrole)
    · split at hrole
      · rw [Option.ite_none_right_eq_some] at hrole
        exact congrArg Prod.fst (Option.some.inj hrole.2)
      · exact absurd hrole (by simp)
  exact hqr ▸ hq

/-! ## A port that feeds (R130, R133, R314) -/

theorem stkRead_inputToken (s : State) (r : Run) (chunk k : Nat) : StkRead s (s.inputToken r chunk k).1 := by
  unfold State.inputToken
  extract_lets b n x z es tags
  have hx : StkRead s x.1 := stkRead_awRead ..
  split
  · exact .refl s
  split
  · split
    · exact hx.trans (stkRead_drawBytes ..)
    · exact hx
  · exact .refl s

/-- The head of a port's transmit queue crosses where the slot table takes it and the queue may send (R133). -/
def State.portCross (s : State) (key input : Nat) : State :=
  match (s.edge key).tx.toks with
  | [] => s
  | t :: _ =>
    if slotMask (s.grate (edgeSite key)) (edgeSite key) input (s.grEntry (edgeSite key) 0) = 0 || mayWait (s.edge key).txWord (s.edge key).tx then s
    else
      let s2 := s.setEdge key { s.edge key with tx := sentFrom (s.edge key).txWord (s.edge key).tx }
      { s2 with hearth := { s2.hearth with present := s2.hearth.present ++ [(edgeSite key, input, { t with port := some key })] } }

theorem stk_portCross (s : State) (key input : Nat) : (s.portCross key input).stk = s.stk := by
  unfold State.portCross
  split
  · rfl
  · split
    · rfl
    · rfl

theorem portCross_takes {input : Nat} (htoks : (s.edge key).tx.toks = k :: ks)
    (hmask : slotMask (s.grate (edgeSite key)) (edgeSite key) input (s.grEntry (edgeSite key) 0) ≠ 0)
    (hsend : mayWait (s.edge key).txWord (s.edge key).tx = false) :
    ((s.portCross key input).edge key).tx = sentFrom (s.edge key).txWord (s.edge key).tx ∧
      (s.portCross key input).hearth.present = s.hearth.present ++ [(edgeSite key, input, { k with port := some key })] := by
  have hgo : ¬ ((decide (slotMask (s.grate (edgeSite key)) (edgeSite key) input (s.grEntry (edgeSite key) 0) = 0) ||
      mayWait (s.edge key).txWord (s.edge key).tx) = true) := by
    simp [hmask, hsend]
  unfold State.portCross
  simp only [htoks]
  rw [if_neg hgo]
  exact ⟨congrArg EdgePort.tx (edge_setEdge s key _), rfl⟩

theorem exec_streamPortSend (hport : port < 50) (hrun : s.running = true) (hrelay : s.relay (edgeSite (portKey port)) = false)
    (hmode : s.grMode (edgeSite (portKey port)) = 2) : exec (.streamPortSend port) s =
      .next ((if port % 2 = 0 then s.portFeed (portKey port) else s).portCross (portKey port) (port % 2)) := by
  have h : exec (.streamPortSend port) s = .next (s.when (decide (port < 50)) (streamPortSend port s)) := rfl
  rw [h, State.when, if_pos (decide_eq_true hport)]
  simp only [streamPortSend, hrun, hrelay, hmode]
  rfl

/-- Without room, or while the hold line holds, a port takes nothing. -/
theorem portFeed_stays (h : s.dmaHeld = true ∨ 64 ≤ (s.edge key).tx.toks.length) : s.portFeed key = s := by
  unfold State.portFeed
  exact if_pos (by rcases h with h | h <;> simp [h])

/-- A port takes the next token of the chunk of its replica. -/
theorem portFeed_replica (hheld : s.dmaHeld = false) (hroom : (s.edge key).tx.toks.length < 64) (hrole : s.portRole key = some (r, some j))
    (hp : r.replicas[j]? = some p) (hc : p.chunk = some c) (hsent : p.sent < r.graph.chunkTokens) :
    ∃ r', (s.portFeed key).runOf r.tag = some r' ∧ r'.replicas[j]? = some { p with sent := p.sent + 1 } := by
  let x := s.inputToken r c p.sent
  let r' : Run := { r with replicas := listSet r.replicas j { p with sent := p.sent + 1 }, busOff := r.busOff || x.2.2.2 }
  have hfeed : s.portFeed key = (x.1.portPush key x.2.1 x.2.2.1).setRun r' := by
    simp [State.portFeed, hheld, Nat.not_le.mpr hroom, hrole, hp, hc, Nat.not_le.mpr hsent, x, r']
  have hstk : (x.1.portPush key x.2.1 x.2.2.1).stk = s.stk := (stkRead_inputToken s r c p.sent).frame .stk (by decide)
  have hmem : r ∈ (x.1.portPush key x.2.1 x.2.2.1).stk.runs := by rw [hstk]; exact portRole_mem hrole
  refine ⟨r', ?_, getElem?_listSet _ hp⟩
  rw [hfeed]
  exact runOf_setRun (r := r') hmem rfl

/-! ## A port that drains (R137, R315, R319) -/

theorem takeEdge_cons (h : ((s.edge key).inQ key).toks = k :: ks) : ∃ hearth, s.takeEdge key = ({ s with hearth := hearth }, some k) := by
  unfold State.takeEdge State.giveCredit State.creditBack
  simp only [h]
  split
  · exact ⟨_, rfl⟩
  split
  · split
    · exact ⟨_, rfl⟩
    · exact ⟨_, rfl⟩
  · exact ⟨_, rfl⟩

section
variable (hport : port < 50) (hrun : s.running = true) (hheld : s.dmaHeld = false)
  (htoks : ((s.edge (portKey port)).inQ (portKey port)).toks = k :: ks)
include hport hrun hheld htoks

/-- A MARK sets the epoch of the queue and nothing of the Stoker. -/
theorem streamPortDrain_mark (hmark : k.mark = true) : ∃ t, exec (.streamPortDrain port) s = .next t ∧
    (t.edge (portKey port)).rx.epoch = k.epoch ∧ t.stk = s.stk := by
  have h : exec (.streamPortDrain port) s = .next (s.when (decide (port < 50)) (streamPortDrain port s)) := rfl
  obtain ⟨hearth, htake⟩ := takeEdge_cons htoks
  refine ⟨_, h, ?_⟩
  rw [State.when, if_pos (decide_eq_true hport)]
  simp [streamPortDrain, hrun, hheld, htake, hmark]

/-- A token of a replica goes to its place. -/
theorem exec_streamPortDrain_replica {cs : List Nat} (hmark : k.mark = false) (hrole : s.portRole (portKey port) = some (r, some j))
    (hp : r.replicas[j]? = some p) (hchunks : p.outChunks = c :: cs) : ∃ hearth,
      exec (.streamPortDrain port) s = .next (({ s with hearth := hearth } : State).replicaOut r j p c k) := by
  have h : exec (.streamPortDrain port) s = .next (s.when (decide (port < 50)) (streamPortDrain port s)) := rfl
  obtain ⟨hearth, htake⟩ := takeEdge_cons htoks
  refine ⟨hearth, ?_⟩
  rw [h, State.when, if_pos (decide_eq_true hport)]
  simp [streamPortDrain, hrun, hheld, htake, hmark, hrole, hp, hchunks]

end

theorem stk_awWrite (s : State) (master aw : Nat) (bs : List Byte) (poison data : Bool) : (s.awWrite master aw bs poison data).1.stk = s.stk := by
  unfold State.awWrite
  split
  · split
    · rfl
    · rfl
  · exact frame_hbmWrite _ _ _ _ _ .stk (by decide)

/-- An output token of a chunk is written at its place, and counted. -/
theorem replicaOut_eq (s : State) (r : Run) (j : Nat) {p : Replica} (c : Nat) (k : Token) (hout : p.drained < r.graph.outChunk) :
    ∃ rs, s.replicaOut r j p c k = (s.portWrite r (r.outAddr + 64 * (r.graph.outChunk * c + p.drained)) k 64).1.setRun
      { (s.portWrite r (r.outAddr + 64 * (r.graph.outChunk * c + p.drained)) k 64).2 with replicas := rs, written := r.written + 1 } :=
  ⟨_, if_pos hout⟩

theorem replicaOut_output (hmem : r ∈ s.stk.runs) (hout : p.drained < r.graph.outChunk) :
    ∃ r', (s.replicaOut r j p c k).runOf r.tag = some r' ∧ r'.written = r.written + 1 ∧ r'.sawPoison = (r.sawPoison || k.poison) := by
  let w := s.portWrite r (r.outAddr + 64 * (r.graph.outChunk * c + p.drained)) k 64
  obtain ⟨rs, hrs⟩ := replicaOut_eq s r j c k hout
  have hstk : w.1.stk = s.stk := stk_awWrite ..
  have hmem' : r ∈ w.1.stk.runs := by rwa [hstk]
  refine ⟨{ w.2 with replicas := rs, written := r.written + 1 }, ?_, rfl, rfl⟩
  rw [hrs]
  exact runOf_setRun (r := { w.2 with replicas := rs, written := r.written + 1 }) hmem' rfl

/-- To host memory the 64 bytes of a token's data go as a data write. -/
theorem portWrite_host (r : Run) {aw : Nat} (hhost : isHostAddr aw = true) (hbus : s.busOff = false) (hvoid : k.void = false) :
    (s.portWrite r aw k 64).1 = s.hostPut (aw % 2 ^ 63) (leBytes 64 k.data.toNat) true := by
  have htake : (leBytes 64 k.data.toNat).take 64 = leBytes 64 k.data.toNat := List.take_of_length_le (length_leBytes ..).le
  simp only [State.portWrite, State.awWrite, hhost, hbus, hvoid, htake, if_true, Bool.false_eq_true, if_false]

theorem hostBytes_hostPut (s : State) (a : Nat) (bs : List Byte) (data : Bool) : (s.hostPut a bs data).hostBytes a bs.length = bs :=
  mgetRange_mputRange_same ..

@[simp] theorem hostBytes_setRun (s : State) (r : Run) (a n : Nat) : (s.setRun r).hostBytes a n = s.hostBytes a n := rfl

theorem replicaOut_host (hout : p.drained < r.graph.outChunk) (hvoid : k.void = false)
    (hhost : isHostAddr (r.outAddr + 64 * (r.graph.outChunk * c + p.drained)) = true) (hbus : s.busOff = false) :
    (s.replicaOut r j p c k).hostBytes ((r.outAddr + 64 * (r.graph.outChunk * c + p.drained)) % 2 ^ 63) 64 = leBytes 64 k.data.toNat ∧
      (s.replicaOut r j p c k).pcie.posted =
        some ((r.outAddr + 64 * (r.graph.outChunk * c + p.drained)) % 2 ^ 63, 64, s.pcie.relaxOn) := by
  obtain ⟨rs, hrs⟩ := replicaOut_eq s r j c k hout
  have hput := portWrite_host r hhost hbus hvoid
  generalize r.outAddr + 64 * (r.graph.outChunk * c + p.drained) = aw at hrs hput ⊢
  have hbytes := hostBytes_hostPut s (aw % 2 ^ 63) (leBytes 64 k.data.toNat) true
  rw [length_leBytes] at hbytes
  rw [hrs, hostBytes_setRun, pcie_setRun, hput]
  refine ⟨hbytes, ?_⟩
  simp only [State.hostPut, length_leBytes, Bool.true_and]

/-! ## The obligation -/

/-- Settles O49, from one lemma for each step of a RUN. -/
theorem runsFeedDrainAndEnd : Obligations.RunsFeedDrainAndEnd := by
  refine ⟨fun s tag f hwaits => ⟨_, exec_runDesc s tag, fun hnone => ?_, fun i g hi hg => ⟨fun hops => ?_, fun hops hheld hcomb hstate => ?_,
      fun hops hmode hfree => ?_⟩⟩, fun s tag j r p hrun hpick hp => ?_, fun s port hport => ?_, fun s port k ks hport hrun hheld => ?_,
    fun s tag c r ts hrun hnext => ?_, fun s tag r f hrun hended hf => ⟨_, exec_runComplete hrun hended, runComplete_spec hf _ _ _⟩⟩
  · obtain ⟨hend, -, hframe⟩ := complete_spec hwaits.1 stNoGraph 0
    rw [runDesc_noGraph hwaits hnone]
    exact ⟨hend, hframe⟩
  · obtain ⟨hend, -, hframe⟩ := complete_spec hwaits.1 stBadOperand 0
    rw [runDesc_badOperand hwaits hi hg hops]
    exact ⟨hend, hframe⟩
  · exact runDesc_held hwaits hi hg hops hheld hcomb hstate
  · obtain ⟨r, hruns, htag, hgraph, hnext, hchunks, hchoices, hunits⟩ := beginRun_spec s tag f.bytes g []
    rw [runDesc_begins hwaits hi hg hops hmode hfree]
    refine ⟨r, hruns, htag, hgraph, hnext, hchunks, hchoices, fun u hu hwarm => ?_⟩
    obtain ⟨hon, hbundle, hstep, hwins⟩ := hunits u hu hwarm
    exact ⟨hon, hbundle, hstep, hwins⟩
  · intro is
    let q : Run := { r with replicas := r.given j, nextChunk := r.nextChunk + 1 }
    obtain ⟨-, hcount, hframe⟩ := choice_spec s q is
    exact ⟨_, _, exec_chunkAssign hrun hpick, runOf_choice (q := q) hrun rfl is, rfl, getElem?_given hp, rfl,
      by rw [getF_setRun, hcount], (hframe.trans (frame_setRun _ _)).mono (by decide)⟩
  · intro key e hrun hrelay hmode
    refine ⟨_, exec_streamPortSend hport hrun hrelay hmode, fun r j p c hwest hheld hroom hrole hp hc hsent => ?_,
      fun k ks hstays htoks hmask hsend => ?_⟩
    · obtain ⟨r', hr', hp'⟩ := portFeed_replica hheld hroom hrole hp hc hsent
      rw [if_pos hwest, State.runOf, stk_portCross]
      exact ⟨r', hr', hp'⟩
    · have hfeed : (if port % 2 = 0 then s.portFeed key else s) = s := by
        split
        · exact portFeed_stays (hstays.resolve_left (by omega))
        · rfl
      rw [hfeed]
      exact portCross_takes htoks hmask hsend
  · intro key htoks
    refine ⟨streamPortDrain_mark hport hrun hheld htoks, fun r j p c cs hmark hvoid hrole hp hchunks hout => ?_⟩
    obtain ⟨hearth, hexec⟩ := exec_streamPortDrain_replica hport hrun hheld htoks hmark hrole hp hchunks
    obtain ⟨r', hr', hwritten, hpoison⟩ :=
      replicaOut_output (s := { s with hearth := hearth }) (j := j) (c := c) (k := k) (portRole_mem hrole) hout
    exact ⟨_, r', hexec, hr', hwritten, hpoison, fun hhost hbus => replicaOut_host (s := { s with hearth := hearth }) hout hvoid hhost hbus⟩
  · exact ⟨_, _, exec_summaryEnter hrun hnext, runOf_choice (q := r.summarised c ts) hrun rfl _, rfl, rfl, rfl⟩

end Sys2Proof.Machine
end

section
/-!
# SYNCs and FRC loads (R290 to R294)

`FieldsKept fs s t` says that of the registers nothing but the fields `fs` has changed. Sending SYNCs changes SKIPPED and links, a
release for START changes RELEASE_PENDING, START_LATE and the Hearth, so that what an FRC load has stored before it acts on START and
FORWARD stands after it.
-/

set_option autoImplicit false

namespace Sys2Proof.Machine

variable {s₀ s t : State}

/-! ## Fields that share no bit -/

/-- The offsets of the register words in which a field lies (R12). -/
def Fld.words (f : Fld) : List Nat := if f.lsb + f.width ≤ 32 then [f.off] else [f.off, f.off + 4]

/-- Two fields share no bit: other bits of one register, or registers of which no word meets. -/
abbrev Fld.Apart (f g : Fld) : Prop :=
  (g.lsb + g.width ≤ 64 ∧ g.off = f.off ∧ (g.lsb + g.width ≤ f.lsb ∨ f.lsb + f.width ≤ g.lsb)) ∨ ∀ off ∈ g.words, off ∉ f.words

theorem WordsKept.getF_words {offs : List Nat} (h : WordsKept offs s t) {g : Fld} (hg : ∀ off ∈ g.words, off ∉ offs) :
    t.getF g = s.getF g := by
  by_cases hw : g.lsb + g.width ≤ 32
  · exact h.getF hw (hg _ (by simp [Fld.words, hw]))
  · exact h.getF_pair g (hg _ (by simp [Fld.words, hw])) (hg _ (by simp [Fld.words, hw]))

theorem wordsKept_setF_words (s : State) (f : Fld) (v : Nat) : WordsKept f.words s (s.setF f v) := by
  unfold Fld.words
  split
  next hw => exact wordsKept_setF s f v hw
  next => exact wordsKept_setF_pair s f v

theorem getF_setF_of_apart (s : State) {f g : Fld} (v : Nat) (h : f.Apart g) : (s.setF f v).getF g = s.getF g := by
  rcases h with ⟨hw, ho, hb⟩ | hwords
  · exact getF_setF_disjoint s f g v hw ho hb
  · exact (wordsKept_setF_words s f v).getF_words hwords

theorem getF_raise_of_apart (s : State) {f g : Fld} (h : f.Apart g) : (s.raise f).getF g = s.getF g :=
  (getF_congr rfl rfl g).trans (getF_setF_of_apart s _ h)

/-! ## Registers of which only the fields named change -/

/-- Every field that shares no bit with the fields named is the same in s and t. -/
def FieldsKept (fs : List Fld) (s t : State) : Prop := ∀ g : Fld, (∀ f ∈ fs, f.Apart g) → t.getF g = s.getF g

theorem FieldsKept.refl (fs : List Fld) (s : State) : FieldsKept fs s s := fun _ _ => rfl

theorem FieldsKept.trans {fs : List Fld} (h : FieldsKept fs s₀ s) (ht : FieldsKept fs s t) : FieldsKept fs s₀ t :=
  fun g hg => (ht g hg).trans (h g hg)

theorem FieldsKept.mono {fs gs : List Fld} (h : FieldsKept fs s t) (hsub : fs ⊆ gs) : FieldsKept gs s t :=
  fun g hg => h g fun f hf => hg f (hsub hf)

theorem FieldsKept.of_regs {fs : List Fld} (hr : t.regs = s.regs) (hp : t.part = s.part) : FieldsKept fs s t :=
  fun g _ => getF_congr hr hp g

theorem fieldsKept_setF (s : State) {f : Fld} {fs : List Fld} (v : Nat) (hf : f ∈ fs) : FieldsKept fs s (s.setF f v) :=
  fun _ hg => getF_setF_of_apart s v (hg f hf)

theorem fieldsKept_raise (s : State) {f : Fld} {fs : List Fld} (hf : f ∈ fs) : FieldsKept fs s (s.raise f) :=
  fun _ hg => getF_raise_of_apart s (hg f hf)

theorem FieldsKept.flag {fs : List Fld} (h : FieldsKept fs s t) {g : Fld} (hg : ∀ f ∈ fs, f.Apart g) : t.flag g = s.flag g :=
  flag_congr (h g hg)

/-- A word of a number of 96 bits is a field of 32 bits. -/
theorem word96_congr {off : Nat} (h : ∀ o ∈ [off, off + 4, off + 8], t.getF ⟨o, 0, 32⟩ = s.getF ⟨o, 0, 32⟩) :
    t.word96 off = s.word96 off := by
  have hword (u : State) (o : Nat) : u.getF ⟨o, 0, 32⟩ = (u.word o).toNat := Nat.mod_eq_of_lt (u.word o).isLt
  simp only [hword, List.forall_mem_cons] at h
  obtain ⟨h0, h4, h8, -⟩ := h
  rw [State.word96, State.word96, h0, h4, h8]

/-! ## Sending SYNCs (R290, R354) -/

/-- What sending SYNCs does with one link. -/
def State.syncTo (s : State) (valid : Bool) (start n : Nat) : State :=
  if !(s.getF timSyncTx_Links).testBit n then s
  else if s.flag (zlLinkStatus_Frozen n) then s.setZlink n { s.zlink n with syncOut := some (valid, start) }
  else s.raise timSyncStat_Skipped

section
variable (valid : Bool) (start : Nat)

theorem sendSync_cons (s : State) (n : Nat) (ns : List Nat) :
    s.sendSync valid start (n :: ns) = (s.syncTo valid start n).sendSync valid start ns := rfl

/-- Sending to a link: it is not named, it is frozen and takes the SYNC, or it is skipped. -/
theorem syncTo_cases (s : State) (n : Nat) :
    ((s.getF timSyncTx_Links).testBit n = false ∧ s.syncTo valid start n = s) ∨
    ((s.getF timSyncTx_Links).testBit n = true ∧ s.flag (zlLinkStatus_Frozen n) = true ∧
      s.syncTo valid start n = s.setZlink n { s.zlink n with syncOut := some (valid, start) }) ∨
    ((s.getF timSyncTx_Links).testBit n = true ∧ s.flag (zlLinkStatus_Frozen n) = false ∧
      s.syncTo valid start n = s.raise timSyncStat_Skipped) := by
  unfold State.syncTo
  cases (s.getF timSyncTx_Links).testBit n <;> cases s.flag (zlLinkStatus_Frozen n) <;> simp

theorem frame_syncTo (s : State) (n : Nat) : Frame [.regs, .setNow, .zl] s (s.syncTo valid start n) := by
  obtain ⟨-, he⟩ | ⟨-, -, he⟩ | ⟨-, -, he⟩ := syncTo_cases valid start s n <;> rw [he]
  · exact Frame.refl _ s
  · exact (frame_setZlink s n _).mono (by decide)
  · exact (frame_raise s _).mono (by decide)

theorem fieldsKept_syncTo (s : State) (n : Nat) : FieldsKept [timSyncStat_Skipped] s (s.syncTo valid start n) := by
  obtain ⟨-, he⟩ | ⟨-, -, he⟩ | ⟨-, -, he⟩ := syncTo_cases valid start s n <;> rw [he]
  · exact FieldsKept.refl _ s
  · exact FieldsKept.of_regs rfl rfl
  · exact fieldsKept_raise s List.mem_cons_self

/-- The FROZEN bit of a link is not in TIM. -/
theorem frozen_apart (n : Nat) : ∀ f ∈ [timSyncStat_Skipped], f.Apart (zlLinkStatus_Frozen n) := by
  simp only [List.forall_mem_singleton]
  refine .inr fun off hoff => ?_
  simp only [Fld.words, zlLinkStatus_Frozen, zlLinkStatus, timSyncStat_Skipped, timSyncStat] at hoff ⊢
  simp at hoff ⊢
  omega

theorem links_syncTo (s : State) (n : Nat) : (s.syncTo valid start n).getF timSyncTx_Links = s.getF timSyncTx_Links :=
  fieldsKept_syncTo valid start s n _ (by decide)

theorem frozen_syncTo (s : State) (n m : Nat) :
    (s.syncTo valid start n).flag (zlLinkStatus_Frozen m) = s.flag (zlLinkStatus_Frozen m) :=
  (fieldsKept_syncTo valid start s n).flag (frozen_apart m)

theorem skipped_syncTo_of_skipped {n : Nat} (h : s.getF timSyncStat_Skipped = 1) :
    (s.syncTo valid start n).getF timSyncStat_Skipped = 1 := by
  obtain ⟨-, he⟩ | ⟨-, -, he⟩ | ⟨-, -, he⟩ := syncTo_cases valid start s n <;> rw [he]
  · exact h
  · exact h
  · exact getF_raise_same s _ (by decide)

/-- A link is as it was, but for a SYNC sent to the link itself. -/
theorem zlink_syncTo_of_ne {n m : Nat} (h : m ≠ n) : (s.syncTo valid start n).zlink m = s.zlink m := by
  obtain ⟨-, he⟩ | ⟨-, -, he⟩ | ⟨-, -, he⟩ := syncTo_cases valid start s n <;> rw [he]
  · exact zlink_setZlink_ne s _ h
  · exact zlink_congr (by simp) m

/-- A link that is not named or not frozen is as it was. -/
theorem zlink_syncTo_of_silent {n : Nat} (h : (s.getF timSyncTx_Links).testBit n = false ∨ s.flag (zlLinkStatus_Frozen n) = false)
    (m : Nat) : (s.syncTo valid start n).zlink m = s.zlink m := by
  obtain ⟨-, he⟩ | ⟨hl, hf, -⟩ | ⟨-, -, he⟩ := syncTo_cases valid start s n
  · rw [he]
  · simp [hl, hf] at h
  · rw [he]
    exact zlink_congr (by simp) m

theorem frame_sendSync (s : State) (ns : List Nat) : Frame [.regs, .setNow, .zl] s (s.sendSync valid start ns) := by
  induction ns generalizing s with
  | nil => exact Frame.refl _ s
  | cons n ns ih => exact ((frame_syncTo valid start s n).trans (ih _)).mono (by decide)

theorem fieldsKept_sendSync (s : State) (ns : List Nat) : FieldsKept [timSyncStat_Skipped] s (s.sendSync valid start ns) := by
  induction ns generalizing s with
  | nil => exact FieldsKept.refl _ s
  | cons n ns ih => exact (fieldsKept_syncTo valid start s n).trans (ih _)

theorem zlink_sendSync_of_silent {ns : List Nat} {n : Nat}
    (h : n ∈ ns → (s.getF timSyncTx_Links).testBit n = false ∨ s.flag (zlLinkStatus_Frozen n) = false) :
    (s.sendSync valid start ns).zlink n = s.zlink n := by
  induction ns generalizing s with
  | nil => rfl
  | cons m ns ih =>
    have htail : ((s.syncTo valid start m).sendSync valid start ns).zlink n = (s.syncTo valid start m).zlink n := ih fun hn => by
      rw [links_syncTo, frozen_syncTo]
      exact h (List.mem_cons_of_mem m hn)
    rw [sendSync_cons, htail]
    by_cases hnm : n = m
    · subst hnm
      exact zlink_syncTo_of_silent valid start (h List.mem_cons_self) n
    · exact zlink_syncTo_of_ne valid start hnm

/-- Every frozen link that is named carries the SYNC. -/
theorem syncOut_sendSync {ns : List Nat} {n : Nat} (hn : n ∈ ns) (hlink : (s.getF timSyncTx_Links).testBit n = true)
    (hfrozen : s.flag (zlLinkStatus_Frozen n) = true) :
    ((s.sendSync valid start ns).zlink n).syncOut = some (valid, start) := by
  induction ns generalizing s with
  | nil => simp at hn
  | cons m ns ih =>
    rw [sendSync_cons]
    by_cases hmem : n ∈ ns
    · exact ih hmem (by rw [links_syncTo, hlink]) (by rw [frozen_syncTo, hfrozen])
    · obtain rfl : n = m := (List.mem_cons.mp hn).resolve_right hmem
      have hsent : s.syncTo valid start n = s.setZlink n { s.zlink n with syncOut := some (valid, start) } := by
        simp [State.syncTo, hlink, hfrozen]
      rw [zlink_sendSync_of_silent valid start fun h => absurd h hmem, hsent, zlink_setZlink]

theorem skipped_sendSync_of_skipped {ns : List Nat} (h : s.getF timSyncStat_Skipped = 1) :
    (s.sendSync valid start ns).getF timSyncStat_Skipped = 1 := by
  induction ns generalizing s with
  | nil => exact h
  | cons m ns ih => exact ih (skipped_syncTo_of_skipped valid start h)

/-- A link that is named and not frozen sets SKIPPED. -/
theorem skipped_sendSync {ns : List Nat} {n : Nat} (hn : n ∈ ns) (hlink : (s.getF timSyncTx_Links).testBit n = true)
    (hfrozen : s.flag (zlLinkStatus_Frozen n) = false) : (s.sendSync valid start ns).getF timSyncStat_Skipped = 1 := by
  induction ns generalizing s with
  | nil => simp at hn
  | cons m ns ih =>
    rw [sendSync_cons]
    rcases List.mem_cons.mp hn with rfl | hmem
    · have hskip : s.syncTo valid start n = s.raise timSyncStat_Skipped := by simp [State.syncTo, hlink, hfrozen]
      rw [hskip]
      exact skipped_sendSync_of_skipped valid start (getF_raise_same s _ (by decide))
    · exact ih hmem (by rw [links_syncTo, hlink]) (by rw [frozen_syncTo, hfrozen])

end

/-! ## Releases for START (R290, R292, R403, R451) -/

theorem noRelease_congr {fs : List Fld} (h : FieldsKept fs s t) (hsafe : ∀ f ∈ fs, f.Apart fltStatus_Safe)
    (hhold : ∀ f ∈ fs, f.Apart pwrStatus_Holdover) : t.noRelease = s.noRelease := by
  simp only [State.noRelease, State.safe, h.flag hsafe, h.flag hhold]

/-- A release for START sets START_LATE, is armed, or does nothing. -/
theorem runOrLate_cases (s : State) (start : Nat) :
    s.runOrLate start = s ∨ s.runOrLate start = s.raise timSyncStat_StartLate ∨ s.runOrLate start = s.armRun start := by
  unfold State.runOrLate
  split
  · exact .inr (.inl rfl)
  split
  · exact .inl rfl
  split
  · exact .inr (.inl rfl)
  split
  · exact .inr (.inr rfl)
  · exact .inl rfl

theorem runOrLate_late {start : Nat} (hrun : s.running = false) (h : s.noRelease = true ∨ start < s.tick + 2) :
    s.runOrLate start = s.raise timSyncStat_StartLate := by
  rcases h with h | h <;> simp [State.runOrLate, hrun, h]

theorem runOrLate_arms {start : Nat} (hrun : s.running = false) (himg : s.hearth.img ≠ none) (hrel : s.noRelease = false)
    (hstart : s.tick + 2 ≤ start) : s.runOrLate start = s.armRun start := by
  have hcan : s.canRun start = true := by simp [State.canRun, hrun, hrel, hstart, Option.isSome_iff_ne_none.mpr himg]
  simp [State.runOrLate, hrun, hrel, hcan, Nat.not_lt.mpr hstart]

theorem frame_runOrLate (s : State) (start : Nat) : Frame [.regs, .setNow, .hearth] s (s.runOrLate start) := by
  obtain he | he | he := runOrLate_cases s start <;> rw [he]
  · exact Frame.refl _ s
  · exact (frame_raise s _).mono (by decide)
  · intro c hc
    cases c <;> simp_all [Comp.same, State.armRun]

theorem fieldsKept_runOrLate (s : State) (start : Nat) :
    FieldsKept [timSyncStat_StartLate, glbImgState_ReleasePending] s (s.runOrLate start) := by
  obtain he | he | he := runOrLate_cases s start <;> rw [he]
  · exact FieldsKept.refl _ s
  · exact fieldsKept_raise s (by decide)
  · exact FieldsKept.trans (FieldsKept.of_regs (t := { s with hearth := { s.hearth with runAt := some start } }) rfl rfl)
      (fieldsKept_setF _ 1 (by decide))

/-! ## SYNC_CTRL writes (R290) -/

/-- The state with the stored fields of SYNC_CTRL written. -/
def State.syncCtrlStored (s : State) (v : Nat) : State :=
  ((s.setF timSyncCtrl_Forward (bitsAt v 3 1)).setF timSyncCtrl_Self (bitsAt v 2 1)).setF timSyncCtrl_Start (bitsAt v 1 1)

theorem wordsKept_syncCtrlStored (s : State) (v : Nat) : WordsKept [timSyncCtrl] s (s.syncCtrlStored v) :=
  (((wordsKept_setF s _ _ (by decide)).trans (wordsKept_setF _ _ _ (by decide))).trans (wordsKept_setF _ _ _ (by decide))).mono
    (by decide)

theorem frame_syncCtrlStored (s : State) (v : Nat) : Frame [.regs] s (s.syncCtrlStored v) :=
  (((frame_setF s _ _).trans (frame_setF _ _ _)).trans (frame_setF _ _ _)).mono (by decide)

theorem getF_syncCtrlStored (s : State) (v : Nat) : (s.syncCtrlStored v).getF timSyncCtrl_Forward = bitsAt v 3 1 ∧
    (s.syncCtrlStored v).getF timSyncCtrl_Self = bitsAt v 2 1 ∧ (s.syncCtrlStored v).getF timSyncCtrl_Start = bitsAt v 1 1 := by
  have hbit (u : State) (f : Fld) (lsb : Nat) (hf : f.width = 1) (hl : f.lsb + f.width ≤ 64) :
      (u.setF f (bitsAt v lsb 1)).getF f = bitsAt v lsb 1 := by
    rw [getF_setF_same u f _ hl, hf, Nat.mod_eq_of_lt (bitsAt_lt ..)]
  unfold State.syncCtrlStored
  refine ⟨?_, ?_, hbit _ _ _ rfl (by decide)⟩
  · rw [getF_setF_of_apart _ _ (by decide), getF_setF_of_apart _ _ (by decide), hbit _ _ _ rfl (by decide)]
  · rw [getF_setF_of_apart _ _ (by decide), hbit _ _ _ rfl (by decide)]

/-- What a write of SYNC_CTRL with GO sends. -/
def State.syncsSent (s : State) (v : Nat) : State :=
  (s.syncCtrlStored v).sendSync (v.testBit 1) (s.getF timSyncStart_Tick) (List.range 24)

theorem syncSend_idle {v : W32} (h : v.toNat.testBit 0 = false) : syncSend v s = s.syncCtrlStored v.toNat := by
  simp only [syncSend, h, Bool.not_false, if_true, State.syncCtrlStored]

theorem syncSend_go {v : W32} (h : v.toNat.testBit 0 = true) : syncSend v s =
    if v.toNat.testBit 2 || (v.toNat.testBit 1 && s.noRelease) then (s.syncsSent v.toNat).runOrLate (s.getF timSyncStart_Tick)
    else s.syncsSent v.toNat := by
  simp only [syncSend, h, Bool.not_true, Bool.false_eq_true, if_false, State.syncsSent, State.syncCtrlStored]

/-- After it has sent SYNCs, a write with GO changes nothing but what a release for START does. -/
theorem syncSend_keeps_sent {v : W32} (h : v.toNat.testBit 0 = true) :
    Frame [.regs, .setNow, .hearth] (s.syncsSent v.toNat) (syncSend v s) ∧
    FieldsKept [timSyncStat_StartLate, glbImgState_ReleasePending] (s.syncsSent v.toNat) (syncSend v s) := by
  rw [syncSend_go h]
  split
  · exact ⟨frame_runOrLate _ _, fieldsKept_runOrLate _ _⟩
  · exact ⟨Frame.refl _ _, FieldsKept.refl _ _⟩

/-- With GO or without, FRC stays and the fields of SYNC_CTRL are as stored. -/
theorem syncSend_stores (s : State) (v : W32) : (syncSend v s).frc = s.frc ∧
    FieldsKept [timSyncStat_Skipped, timSyncStat_StartLate, glbImgState_ReleasePending] (s.syncCtrlStored v.toNat) (syncSend v s) := by
  have hstored : (s.syncCtrlStored v.toNat).frc = s.frc := frame_syncCtrlStored s v.toNat .frc (by decide)
  cases hgo : v.toNat.testBit 0 with
  | false =>
    rw [syncSend_idle hgo]
    exact ⟨hstored, FieldsKept.refl _ _⟩
  | true =>
    obtain ⟨hframe, hfields⟩ := syncSend_keeps_sent (s := s) hgo
    refine ⟨?_, ((fieldsKept_sendSync _ _ _ _).mono (by decide)).trans (hfields.mono (by decide))⟩
    calc (syncSend v s).frc = (s.syncsSent v.toNat).frc := hframe .frc (by decide)
      _ = (s.syncCtrlStored v.toNat).frc := frame_sendSync _ _ _ _ .frc (by decide)
      _ = s.frc := hstored

/-- What a write with GO does with each link (R290, R354). -/
theorem syncSend_links {v : W32} (hgo : v.toNat.testBit 0 = true) {n : Nat} (hn : n < 24) :
    ((s.getF timSyncTx_Links).testBit n = true → s.flag (zlLinkStatus_Frozen n) = true →
      ((syncSend v s).zlink n).syncOut = some (v.toNat.testBit 1, s.getF timSyncStart_Tick)) ∧
    ((s.getF timSyncTx_Links).testBit n = true → s.flag (zlLinkStatus_Frozen n) = false →
      (syncSend v s).zlink n = s.zlink n ∧ (syncSend v s).getF timSyncStat_Skipped = 1) ∧
    ((s.getF timSyncTx_Links).testBit n = false → (syncSend v s).zlink n = s.zlink n) := by
  obtain ⟨hframe, hfields⟩ := syncSend_keeps_sent (s := s) hgo
  have hmem : n ∈ List.range 24 := List.mem_range.mpr hn
  have hwords := wordsKept_syncCtrlStored s v.toNat
  have hlinks : (s.syncCtrlStored v.toNat).getF timSyncTx_Links = s.getF timSyncTx_Links := hwords.getF_words (by decide)
  have hfrozen : (s.syncCtrlStored v.toNat).flag (zlLinkStatus_Frozen n) = s.flag (zlLinkStatus_Frozen n) :=
    flag_congr (hwords.getF (by simp [zlLinkStatus_Frozen]) (by simp [zlLinkStatus_Frozen, zlLinkStatus, timSyncCtrl]; omega))
  have hsent : (syncSend v s).zlink n = (s.syncsSent v.toNat).zlink n := zlink_congr (by rw [hframe .zl (by decide)]) n
  have hstored : (s.syncCtrlStored v.toNat).zlink n = s.zlink n :=
    zlink_congr (by rw [frame_syncCtrlStored s v.toNat .zl (by decide)]) n
  have hsilent (h : (s.getF timSyncTx_Links).testBit n = false ∨ s.flag (zlLinkStatus_Frozen n) = false) :
      (syncSend v s).zlink n = s.zlink n := by
    rw [hsent, State.syncsSent, zlink_sendSync_of_silent _ _ fun _ => by rwa [hlinks, hfrozen], hstored]
  refine ⟨fun hl hf => ?_, fun hl hf => ⟨hsilent (.inr hf), ?_⟩, fun hl => hsilent (.inl hl)⟩
  · rw [hsent]
    exact syncOut_sendSync _ _ hmem (by rw [hlinks, hl]) (by rw [hfrozen, hf])
  · rw [hfields _ (by decide)]
    exact skipped_sendSync _ _ hmem (by rw [hlinks, hl]) (by rw [hfrozen, hf])

/-! ## FRC loads (R291 to R294) -/

/-- The number of cycles by which an accepted SYNC moves FRC. -/
def SyncLoad.jump (l : SyncLoad) : Int := (l.target - l.rx + 128) / 256

/-- FRC moved by k cycles, with what moves beside it, and the SYNC taken. -/
def State.frcMoved (s : State) (k : Int) : State :=
  State.trgMoved { s.keepTime with
    frc := BitVec.ofNat 64 (unsint 64 (s.frc.toNat + k)), tim := { s.keepTime.tim with load := none } } k

/-- REF moved, and the load recorded in SYNC_JUMP, SYNC_STAT and SYNC_ACCEPT. -/
def State.loadRecorded (s : State) (l : SyncLoad) : State :=
  ((((((s.setF timRefFrc_Ref (unsint 64 (s.getF timRefFrc_Ref + l.jump))).setF timSyncJump_K (unsint 64 l.jump)).setF
    timSyncStat_Resid (unsint 8 (l.target - (l.rx + 256 * l.jump)))).setF timSyncStat_Link l.link).raise timSyncStat_Loaded).setF
    timSyncAccept_Links 0)

/-- The START of a load acted on. -/
def State.startActed (s : State) (l : SyncLoad) : State := if l.startValid then s.runOrLate l.start else s

/-- The SYNC of a load sent on, or not. -/
def State.forwarded (s : State) (l : SyncLoad) (forward : Bool) : State :=
  if forward then s.sendSync l.startValid l.start (List.range 24) else s

theorem unsint_lt (w : Nat) (x : Int) : unsint w x < 2 ^ w := by
  have hpos : (0 : Int) < (2 ^ w : Nat) := by positivity
  have := Int.emod_nonneg x hpos.ne'
  have := Int.emod_lt_of_pos x hpos
  unfold unsint
  omega

theorem regs_keepTime (s : State) : s.keepTime.regs = s.regs := by unfold State.keepTime; split <;> rfl

theorem part_keepTime (s : State) : s.keepTime.part = s.part := by unfold State.keepTime; split <;> rfl

theorem hearth_keepTime (s : State) : s.keepTime.hearth = s.hearth := by unfold State.keepTime; split <;> rfl

theorem trg_keepTime (s : State) : s.keepTime.trg = s.trg := by unfold State.keepTime; split <;> rfl

theorem trgLat_congr (hh : t.hearth = s.hearth) (hr : t.regs = s.regs) (hp : t.part = s.part) : t.trgLat = s.trgLat := by
  simp only [State.trgLat, State.hotImage, hh, getF_congr hr hp]

/-- The registers are not moved with FRC. -/
theorem getF_frcMoved (s : State) (k : Int) (f : Fld) : (s.frcMoved k).getF f = s.getF f :=
  getF_congr (regs_keepTime s) (part_keepTime s) f

theorem frc_frcMoved (s : State) (k : Int) : (s.frcMoved k).frc = BitVec.ofNat 64 (unsint 64 (s.frc.toNat + k)) := rfl

theorem load_frcMoved (s : State) (k : Int) : (s.frcMoved k).tim.load = none := rfl

theorem hearth_frcMoved (s : State) (k : Int) : (s.frcMoved k).hearth =
    { s.hearth with
      haltFrc := movedBy k s.hearth.haltFrc
      halts := s.hearth.halts.map fun h => (movedBy k h.1, movedBy k h.2) } := by
  rw [State.frcMoved, State.trgMoved, hearth_keepTime]

theorem trg_frcMoved (s : State) (k : Int) : (s.frcMoved k).trg =
    { s.trg with
      next := ((s.frcMoved k).frc.toNat + 63 - s.trgLat) / 64
      edgeAt := s.trg.edgeAt.map fun e => (e.1, movedEdge k e.2)
      edges := s.trg.edges.map fun e => (e.1, movedEdge k e.2) } := by
  have hlat : State.trgLat { s.keepTime with
      frc := BitVec.ofNat 64 (unsint 64 (s.frc.toNat + k)), tim := { s.keepTime.tim with load := none } } = s.trgLat :=
    trgLat_congr (hearth_keepTime s) (regs_keepTime s) (part_keepTime s)
  rw [State.frcMoved, State.trgMoved, hlat, trg_keepTime]

theorem frame_loadRecorded (s : State) (l : SyncLoad) : Frame [.regs, .setNow] s (s.loadRecorded l) :=
  ((((((frame_setF s _ _).trans (frame_setF _ _ _)).trans (frame_setF _ _ _)).trans (frame_setF _ _ _)).trans
    (frame_raise _ _)).trans (frame_setF _ _ _)).mono (by decide)

/-- The fields in which a load is recorded. -/
def loadFields : List Fld :=
  [timRefFrc_Ref, timSyncJump_K, timSyncStat_Resid, timSyncStat_Link, timSyncStat_Loaded, timSyncAccept_Links]

theorem fieldsKept_loadRecorded (s : State) (l : SyncLoad) : FieldsKept loadFields s (s.loadRecorded l) :=
  (((((fieldsKept_setF s _ (by decide)).trans (fieldsKept_setF _ _ (by decide))).trans (fieldsKept_setF _ _ (by decide))).trans
    (fieldsKept_setF _ _ (by decide))).trans (fieldsKept_raise _ (by decide))).trans (fieldsKept_setF _ _ (by decide))

theorem getF_loadRecorded (s : State) (l : SyncLoad) :
    (s.loadRecorded l).getF timRefFrc_Ref = unsint 64 (s.getF timRefFrc_Ref + l.jump) ∧
    (s.loadRecorded l).getF timSyncJump_K = unsint 64 l.jump ∧
    (s.loadRecorded l).getF timSyncStat_Resid = unsint 8 (l.target - (l.rx + 256 * l.jump)) ∧
    (s.loadRecorded l).getF timSyncStat_Link = l.link % 128 ∧ (s.loadRecorded l).getF timSyncStat_Loaded = 1 ∧
    (s.loadRecorded l).getF timSyncAccept_Links = 0 := by
  have hsame (u : State) (f : Fld) (x : Int) (hl : f.lsb + f.width ≤ 64) : (u.setF f (unsint f.width x)).getF f = unsint f.width x := by
    rw [getF_setF_same u f _ hl, Nat.mod_eq_of_lt (unsint_lt ..)]
  unfold State.loadRecorded
  refine ⟨?_, ?_, ?_, ?_, ?_, getF_setF_same _ _ 0 (by decide)⟩ <;>
    simp (disch := decide) only [getF_setF_of_apart, getF_raise_of_apart]
  · exact hsame s timRefFrc_Ref _ (by decide)
  · exact hsame _ timSyncJump_K _ (by decide)
  · exact hsame _ timSyncStat_Resid _ (by decide)
  · exact getF_setF_same _ timSyncStat_Link _ (by decide)
  · exact getF_raise_same _ timSyncStat_Loaded (by decide)

/-- The state of a halted chip as a load leaves it before START and FORWARD. -/
def State.frcLoaded (s : State) (l : SyncLoad) : State := (s.frcMoved l.jump).loadRecorded l

theorem fieldsKept_frcLoaded (s : State) (l : SyncLoad) : FieldsKept loadFields s (s.frcLoaded l) :=
  FieldsKept.trans (fun g _ => getF_frcMoved s l.jump g) (fieldsKept_loadRecorded _ l)

theorem frame_frcLoaded (s : State) (l : SyncLoad) : Frame [.regs, .setNow] (s.frcMoved l.jump) (s.frcLoaded l) :=
  frame_loadRecorded _ l

theorem hearth_frcLoaded (s : State) (l : SyncLoad) : (s.frcLoaded l).hearth = (s.frcMoved l.jump).hearth :=
  frame_frcLoaded s l .hearth (by decide)

theorem running_frcLoaded (s : State) (l : SyncLoad) : (s.frcLoaded l).running = s.running :=
  (fieldsKept_frcLoaded s l).flag (by decide)

theorem noRelease_frcLoaded (s : State) (l : SyncLoad) : (s.frcLoaded l).noRelease = s.noRelease :=
  noRelease_congr (fieldsKept_frcLoaded s l) (by decide) (by decide)

theorem img_frcLoaded (s : State) (l : SyncLoad) : (s.frcLoaded l).hearth.img = s.hearth.img := by
  rw [hearth_frcLoaded, hearth_frcMoved]

theorem frcLoad_running {l : SyncLoad} (hload : s.tim.load = some l) (hrun : s.running = true) :
    frcLoad s = State.raise { s with tim := { s.tim with load := none } } timSyncStat_Refused := by
  simp only [frcLoad, hload, hrun, if_true]

theorem frame_startActed (s : State) (l : SyncLoad) : Frame [.regs, .setNow, .hearth] s (s.startActed l) := by
  unfold State.startActed
  split
  · exact frame_runOrLate s _
  · exact Frame.refl _ s

theorem fieldsKept_startActed (s : State) (l : SyncLoad) :
    FieldsKept [timSyncStat_StartLate, glbImgState_ReleasePending] s (s.startActed l) := by
  unfold State.startActed
  split
  · exact fieldsKept_runOrLate s _
  · exact FieldsKept.refl _ s

theorem frame_forwarded (s : State) (l : SyncLoad) (fwd : Bool) : Frame [.regs, .setNow, .zl] s (s.forwarded l fwd) := by
  unfold State.forwarded
  split
  · exact frame_sendSync _ _ s _
  · exact Frame.refl _ s

theorem fieldsKept_forwarded (s : State) (l : SyncLoad) (fwd : Bool) : FieldsKept [timSyncStat_Skipped] s (s.forwarded l fwd) := by
  unfold State.forwarded
  split
  · exact fieldsKept_sendSync _ _ s _
  · exact FieldsKept.refl _ s

/-- A START that is valid and early enough arms the release of a loaded Hearth. -/
theorem startActed_arms {l : SyncLoad} (hvalid : l.startValid = true) (hrun : s.running = false) (himg : s.hearth.img ≠ none)
    (hrel : s.noRelease = false) (hstart : s.tick + 2 ≤ l.start) :
    (s.startActed l).hearth = { s.hearth with runAt := some l.start } ∧ (s.startActed l).getF glbImgState_ReleasePending = 1 := by
  rw [State.startActed, if_pos hvalid, runOrLate_arms hrun himg hrel hstart, State.armRun]
  exact ⟨hearth_setF _ _ _, getF_setF_same _ _ 1 (by decide)⟩

theorem startActed_late {l : SyncLoad} (hvalid : l.startValid = true) (hrun : s.running = false)
    (h : s.noRelease = true ∨ l.start < s.tick + 2) :
    (s.startActed l).hearth = s.hearth ∧ (s.startActed l).getF timSyncStat_StartLate = 1 := by
  rw [State.startActed, if_pos hvalid, runOrLate_late hrun h]
  exact ⟨hearth_raise _ _, getF_raise_same _ _ (by decide)⟩

/-- A load moves FRC, records what it did, and then acts on START and FORWARD. -/
theorem frcLoad_halted {l : SyncLoad} (hload : s.tim.load = some l) (hrun : s.running = false) :
    frcLoad s = ((s.frcLoaded l).startActed l).forwarded l (s.flag timSyncCtrl_Forward) := by
  have href : (s.frcMoved l.jump).getF timRefFrc_Ref = s.getF timRefFrc_Ref := getF_frcMoved s _ _
  rw [State.frcLoaded, State.loadRecorded, href]
  simp only [frcLoad, hload, hrun, Bool.false_eq_true, if_false, State.frcMoved, State.startActed, State.forwarded,
    SyncLoad.jump]

section
variable {l : SyncLoad} (hload : s.tim.load = some l) (hrun : s.running = false)
include hload hrun

/-- A load keeps what it has moved and recorded when it acts on START and FORWARD. -/
theorem frcLoad_keeps_loaded : Frame [.regs, .setNow, .zl, .hearth] (s.frcLoaded l) (frcLoad s) ∧
    FieldsKept [timSyncStat_Skipped, timSyncStat_StartLate, glbImgState_ReleasePending] (s.frcLoaded l) (frcLoad s) := by
  rw [frcLoad_halted hload hrun]
  exact ⟨((frame_startActed _ l).trans (frame_forwarded _ l _)).mono (by decide),
    ((fieldsKept_startActed _ l).mono (by decide)).trans ((fieldsKept_forwarded _ l _).mono (by decide))⟩

theorem frcLoad_frc : (frcLoad s).frc = BitVec.ofNat 64 (unsint 64 (s.frc.toNat + l.jump)) := by
  obtain ⟨hframe, -⟩ := frcLoad_keeps_loaded hload hrun
  exact (hframe .frc (by decide)).trans (frame_frcLoaded s l .frc (by decide))

theorem frcLoad_load : (frcLoad s).tim.load = none := by
  obtain ⟨hframe, -⟩ := frcLoad_keeps_loaded hload hrun
  rw [hframe .tim (by decide), frame_frcLoaded s l .tim (by decide), load_frcMoved]

/-- The decisions still to come and the edges of TRIG_IN after a load (R256, R474). -/
theorem frcLoad_trg : (frcLoad s).trg =
    { s.trg with
      next := ((frcLoad s).frc.toNat + 63 - s.trgLat) / 64
      edgeAt := s.trg.edgeAt.map fun e => (e.1, movedEdge l.jump e.2)
      edges := s.trg.edges.map fun e => (e.1, movedEdge l.jump e.2) } := by
  obtain ⟨hframe, -⟩ := frcLoad_keeps_loaded hload hrun
  rw [frcLoad_frc hload hrun, hframe .trg (by decide), frame_frcLoaded s l .trg (by decide), trg_frcMoved, frc_frcMoved]

/-- The registers in which a load is recorded (R291 to R293). -/
theorem frcLoad_records : (frcLoad s).getF timRefFrc_Ref = unsint 64 (s.getF timRefFrc_Ref + l.jump) ∧
    (frcLoad s).getF timSyncJump_K = unsint 64 l.jump ∧
    (frcLoad s).getF timSyncStat_Resid = unsint 8 (l.target - (l.rx + 256 * l.jump)) ∧
    (frcLoad s).getF timSyncStat_Link = l.link % 128 ∧ (frcLoad s).getF timSyncStat_Loaded = 1 ∧
    (frcLoad s).getF timSyncAccept_Links = 0 := by
  obtain ⟨-, hkept⟩ := frcLoad_keeps_loaded hload hrun
  obtain ⟨href, hjump, hresid, hlink, hloaded, haccept⟩ := getF_loadRecorded (s.frcMoved l.jump) l
  rw [getF_frcMoved] at href
  exact ⟨(hkept _ (by decide)).trans href, (hkept _ (by decide)).trans hjump, (hkept _ (by decide)).trans hresid,
    (hkept _ (by decide)).trans hlink, (hkept _ (by decide)).trans hloaded, (hkept _ (by decide)).trans haccept⟩

theorem frcLoad_base : (frcLoad s).word96 (timBaseTime 0) = s.word96 (timBaseTime 0) := by
  obtain ⟨-, hkept⟩ := frcLoad_keeps_loaded hload hrun
  refine word96_congr fun o ho => (hkept _ ?_).trans (fieldsKept_frcLoaded s l _ ?_) <;> (revert o; decide)

theorem frcLoad_tick : (s.frcLoaded l).tick = (frcLoad s).tick := by
  obtain ⟨hframe, -⟩ := frcLoad_keeps_loaded hload hrun
  rw [State.tick, State.tick, hframe .frc (by decide)]

/-- Sending the SYNC on leaves the Hearth and the registers of a release alone. -/
theorem frcLoad_after_start : (frcLoad s).hearth = ((s.frcLoaded l).startActed l).hearth ∧
    (frcLoad s).getF glbImgState_ReleasePending = ((s.frcLoaded l).startActed l).getF glbImgState_ReleasePending ∧
    (frcLoad s).getF timSyncStat_StartLate = ((s.frcLoaded l).startActed l).getF timSyncStat_StartLate := by
  rw [frcLoad_halted hload hrun]
  exact ⟨frame_forwarded _ l _ .hearth (by decide), fieldsKept_forwarded _ l _ _ (by decide), fieldsKept_forwarded _ l _ _ (by decide)⟩

/-- A valid START at least two ticks ahead arms the release of a loaded Hearth (R292). -/
theorem frcLoad_arms (hvalid : l.startValid = true) (himg : s.hearth.img ≠ none) (hrel : s.noRelease = false)
    (hstart : (frcLoad s).tick + 2 ≤ l.start) :
    (frcLoad s).hearth = { (s.frcMoved l.jump).hearth with runAt := some l.start } ∧
    (frcLoad s).getF glbImgState_ReleasePending = 1 := by
  obtain ⟨hhearth, hpending, -⟩ := frcLoad_after_start hload hrun
  rw [← frcLoad_tick hload hrun] at hstart
  obtain ⟨hh, hp⟩ := startActed_arms hvalid ((running_frcLoaded s l).trans hrun) (by rwa [img_frcLoaded])
    ((noRelease_frcLoaded s l).trans hrel) hstart
  exact ⟨by rw [hhearth, hh, hearth_frcLoaded], hpending.trans hp⟩

/-- A valid START that has passed, or that nothing may follow, sets START_LATE (R292, R403, R451). -/
theorem frcLoad_late (hvalid : l.startValid = true) (hlate : s.noRelease = true ∨ l.start < (frcLoad s).tick + 2) :
    (frcLoad s).hearth = (s.frcMoved l.jump).hearth ∧ (frcLoad s).getF timSyncStat_StartLate = 1 := by
  obtain ⟨hhearth, -, hstartLate⟩ := frcLoad_after_start hload hrun
  rw [← frcLoad_tick hload hrun, ← noRelease_frcLoaded s l] at hlate
  obtain ⟨hh, hp⟩ := startActed_late hvalid ((running_frcLoaded s l).trans hrun) hlate
  exact ⟨by rw [hhearth, hh, hearth_frcLoaded], hstartLate.trans hp⟩

end

/-- A load that comes when the Hearth runs is dropped and sets REFUSED (R147, log entry 96). -/
theorem frcLoad_refused {l : SyncLoad} (hload : s.tim.load = some l) (hrun : s.running = true) : (frcLoad s).frc = s.frc ∧
    (frcLoad s).tim = { s.tim with load := none } ∧ (frcLoad s).getF timSyncStat_Refused = 1 ∧ (frcLoad s).hearth = s.hearth ∧
    WordsKept [timSyncStat] s (frcLoad s) := by
  rw [frcLoad_running hload hrun]
  exact ⟨frc_raise _ _, tim_raise _ _, getF_raise_same _ _ (by decide), hearth_raise _ _,
    fun off hoff => (wordsKept_raise _ timSyncStat_Refused (by decide) off hoff).trans (word_congr rfl rfl off)⟩

/-! ## The obligation -/

/-- Settles O45: a SYNC_CTRL write from the lemmas on storing and sending, an FRC load from those on its three parts, of which the
second keeps what the first has moved and the third what the second has recorded. -/
theorem syncsAndFrcLoads : Obligations.SyncsAndFrcLoads := by
  refine ⟨fun s v => ?_, fun s l hload hrun => ⟨_, rfl, frcLoad_refused hload hrun⟩, fun s l hload hrun => ⟨_, rfl, ?_⟩⟩
  · obtain ⟨hfrc, hkept⟩ := syncSend_stores s v
    obtain ⟨hfwd, hself, hstart⟩ := getF_syncCtrlStored s v.toNat
    refine ⟨_, rfl, hfrc, (hkept _ (by decide)).trans hfwd, (hkept _ (by decide)).trans hself, (hkept _ (by decide)).trans hstart,
      fun hidle => ?_, fun hgo n hn => syncSend_links hgo hn⟩
    rw [syncSend_idle hidle]
    exact ⟨frame_syncCtrlStored s v.toNat .zl (by decide), wordsKept_syncCtrlStored s v.toNat⟩
  · obtain ⟨href, hjump, hresid, hlink, hloaded, haccept⟩ := frcLoad_records hload hrun
    refine ⟨frcLoad_frc hload hrun, href, hjump, hresid, hlink, hloaded, haccept, frcLoad_load hload hrun, frcLoad_trg hload hrun,
      frcLoad_base hload hrun, fun hvalid himg hrel hstart => ?_, fun hvalid hlate => ?_⟩
    · rw [← SyncLoad.jump, ← hearth_frcMoved]
      exact frcLoad_arms hload hrun hvalid himg hrel hstart
    · rw [← SyncLoad.jump, ← hearth_frcMoved]
      exact frcLoad_late hload hrun hvalid hlate

end Sys2Proof.Machine
end

section
/-!
# Statistics windows and scales of the RQT (R184, R187, R190, R193)

Windows close and scales come into force entry by entry, and the step of one entry leaves the others alone. So what one step does
to its own entry is what the whole round does to it.
-/

set_option autoImplicit false

namespace Sys2Proof.Machine

variable {s : State} {u : Nat}

/-! ## Rounds over entries -/

section
variable {α β : Type} {f : α → Nat → α} {view : α → Nat → β}

theorem view_foldl_of_notMem (hother : ∀ x i j, j ≠ i → view (f x i) j = view x j) {is : List Nat} {i : Nat} (hi : i ∉ is)
    (x : α) : view (is.foldl f x) i = view x i := by
  induction is generalizing x with
  | nil => rfl
  | cons k ks ih =>
    rw [List.mem_cons, not_or] at hi
    exact (ih hi.2 (f x k)).trans (hother x k i hi.1)

/-- In a round over distinct entries, of which no step touches another's, every entry of the round has taken its own step. -/
theorem view_foldl_of_mem {R : β → β → Prop} (hown : ∀ x i, R (view x i) (view (f x i) i))
    (hother : ∀ x i j, j ≠ i → view (f x i) j = view x j) {is : List Nat} (hnodup : is.Nodup) {i : Nat} (hi : i ∈ is) (x : α) :
    R (view x i) (view (is.foldl f x) i) := by
  induction is generalizing x with
  | nil => exact absurd hi List.not_mem_nil
  | cons k ks ih =>
    obtain ⟨hk, hks⟩ := List.nodup_cons.mp hnodup
    by_cases hik : i = k
    · subst hik
      have hrest : view (ks.foldl f (f x i)) i = view (f x i) i := view_foldl_of_notMem hother hk _
      rw [List.foldl_cons, hrest]
      exact hown x i
    · have hkept : view (f x k) i = view x i := hother x k i hik
      rw [List.foldl_cons, ← hkept]
      exact ih hks ((List.mem_cons.mp hi).resolve_left hik) (f x k)

end

/-! ## Entries of a unit -/

section
variable (x : HUnit)

@[simp] theorem rqt_setRqt (i : Nat) (r : Rqt) : (x.setRqt i r).rqt i = r := mget_mput_same ..

theorem rqt_setRqt_ne {i j : Nat} (r : Rqt) (h : j ≠ i) : (x.setRqt i r).rqt j = x.rqt j := mget_mput_ne _ _ _ h

@[simp] theorem entry_setRqt (i : Nat) (r : Rqt) (table index : Nat) : (x.setRqt i r).entry table index = x.entry table index := rfl

@[simp] theorem rqt_setEntry (table index : Nat) (d : BitVec 256) (i : Nat) : (x.setEntry table index d).rqt i = x.rqt i := rfl

@[simp] theorem entry_setEntry (table index : Nat) (d : BitVec 256) : (x.setEntry table index d).entry table index = d := mget_mput_same ..

theorem entry_setEntry_ne {table index table' index' : Nat} (d : BitVec 256)
    (h : table' * 2 ^ 17 + index' ≠ table * 2 ^ 17 + index) : (x.setEntry table index d).entry table' index' = x.entry table' index' :=
  mget_mput_ne _ _ _ h

/-- What a move keeps of the entry as last written is no part of the tables. -/
@[simp] theorem entry_moveEntry (i : Nat) (d : BitVec 256) (table index : Nat) :
    (x.moveEntry i d).entry table index = (x.setEntry 2 i d).entry table index := by
  unfold HUnit.moveEntry
  dsimp only
  split <;> rfl

@[simp] theorem rqt_moveEntry (i : Nat) (d : BitVec 256) (j : Nat) : (x.moveEntry i d).rqt j = x.rqt j := by
  unfold HUnit.moveEntry
  dsimp only
  split <;> rfl

@[simp] theorem rqt_setScalar (r : Nat) (v : W32) (i : Nat) : (x.setScalar r v).rqt i = x.rqt i := by
  unfold HUnit.setScalar
  split <;> rfl

/-- Scalar registers are entries of table 4 (R488), beyond every entry of the RQT. -/
theorem rqtEntry_setScalar (r : Nat) (v : W32) {i : Nat} (hi : i < 32) : (x.setScalar r v).entry 2 i = x.entry 2 i := by
  unfold HUnit.setScalar
  split
  · rfl
  · exact entry_setEntry_ne _ _ (by omega)

end

/-! ## Windows close (R184) -/

/-- An entry's statistics after its window has closed: the window is empty, and what it held is closed under its number. -/
def Rqt.ClosedAs (window : Nat) (r r' : Rqt) : Prop :=
  r'.win = Win.empty ∧ r'.closed.window = window ∧ r'.closed.q = r.win.q

theorem closedAs_closeWindow (x : HUnit) (window i : Nat) : (x.rqt i).ClosedAs window ((x.closeWindow window i).rqt i) := by
  unfold HUnit.closeWindow
  extract_lets r e a held clamped flags
  rw [rqt_setRqt]
  exact ⟨rfl, rfl, rfl⟩

theorem rqt_closeWindow_ne (x : HUnit) (window : Nat) {i j : Nat} (h : j ≠ i) : (x.closeWindow window i).rqt j = x.rqt j :=
  rqt_setRqt_ne _ _ h

theorem rqt_closeWindows (x : HUnit) (window i : Nat) :
    (x.closeWindows window).rqt i = ((List.range 32).foldl (fun x i => x.closeWindow window i) x).rqt i := by
  rw [HUnit.rqt, HUnit.closeWindows, HUnit.rqt]

theorem closedAs_closeWindows (x : HUnit) (window : Nat) {i : Nat} (hi : i < 32) :
    (x.rqt i).ClosedAs window ((x.closeWindows window).rqt i) := by
  rw [rqt_closeWindows]
  exact view_foldl_of_mem (R := Rqt.ClosedAs window) (view := HUnit.rqt) (fun x i => closedAs_closeWindow x window i)
    (fun x _ _ h => rqt_closeWindow_ne x window h) List.nodup_range (List.mem_range.mpr hi) x

theorem closedFor_closeWindows (x : HUnit) (window : Nat) : (x.closeWindows window).closedFor window = true := beq_self_eq_true _

theorem exec_hotWindowClose (hon : s.cuOn u = true) (hmode : s.unitMode u = 1) (hcycle : s.cycle = 56)
    (hopen : (s.unit u).closedFor s.tick = false) :
    exec (.hotWindowClose u) s = .next (s.setUnit u ((s.unit u).closeWindows s.tick)) := by
  have h : exec (.hotWindowClose u) s = .next (hotWindowClose u s) := rfl
  rw [h, hotWindowClose, if_pos (by simp [hon, hmode, hcycle, hopen])]

/-- At the place where window k closes, bundles counted on through the steps (R184). -/
theorem exec_warmWindowClose {k : Nat} (hon : s.cuOn u = true) (hmode : s.unitMode u = 2) (hgraph : (s.unit u).graphOn = true)
    (hplace : (s.unit u).step * (s.getF (hrtUnitCfg_Plen u) + 1) + (s.unit u).bundle + 7 =
      s.getF (hrtUnitCfg_Plen u) + k * (s.getF (hrtUnitCfg_Plen u) + 1)) (hopen : (s.unit u).closedFor k = false) :
    exec (.warmWindowClose u) s = .next (s.setUnit u ((s.unit u).closeWindows k)) := by
  have h : exec (.warmWindowClose u) s = .next (warmWindowClose u s) := rfl
  rw [h, warmWindowClose, hplace, Nat.add_sub_cancel_left, Nat.mul_div_cancel _ (Nat.succ_pos _)]
  exact congrArg _ (if_pos (by simp [hon, hmode, hgraph, hopen]))

/-! ## Scales come into force (R187, R190) -/

/-- An RQT entry: its statistics and its table entry. -/
def HUnit.rqtAt (x : HUnit) (i : Nat) : Rqt × BitVec 256 := (x.rqt i, x.entry 2 i)

/-- Between two views of an RQT entry the scales that waited have come into force. -/
def ScalesTaken (a b : Rqt × BitVec 256) : Prop :=
  b.1.next = none ∧ (a.1.next = none → b.2 = a.2) ∧ ∀ sc, a.1.next = some sc → b.2 = rqSetScales a.2 sc

/-- The scales of one entry come into force. -/
def HUnit.scaleIn (x : HUnit) (i : Nat) : HUnit :=
  match (x.rqt i).next with
  | none => x
  | some sc => (x.moveEntry i (rqSetScales (x.entry 2 i) sc)).setRqt i { x.rqt i with next := none }

theorem scalesIn_eq_foldl (x : HUnit) : x.scalesIn = (List.range 32).foldl HUnit.scaleIn x := rfl

theorem scalesTaken_scaleIn (x : HUnit) (i : Nat) : ScalesTaken (x.rqtAt i) ((x.scaleIn i).rqtAt i) := by
  unfold HUnit.scaleIn
  cases hnext : (x.rqt i).next with
  | none => exact ⟨hnext, fun _ => rfl, fun sc hsc => absurd (hnext.symm.trans hsc) (by simp)⟩
  | some sc => simp [ScalesTaken, HUnit.rqtAt, hnext]

theorem rqtAt_scaleIn_ne (x : HUnit) {i j : Nat} (h : j ≠ i) : (x.scaleIn i).rqtAt j = x.rqtAt j := by
  unfold HUnit.scaleIn
  cases (x.rqt i).next with
  | none => rfl
  | some sc =>
    have hentry : (x.moveEntry i (rqSetScales (x.entry 2 i) sc)).entry 2 j = x.entry 2 j :=
      (entry_moveEntry ..).trans (entry_setEntry_ne x _ (by omega))
    simp [HUnit.rqtAt, rqt_setRqt_ne _ _ h, hentry]

theorem scalesTaken_scalesIn (x : HUnit) {i : Nat} (hi : i < 32) : ScalesTaken (x.rqtAt i) (x.scalesIn.rqtAt i) := by
  rw [scalesIn_eq_foldl]
  exact view_foldl_of_mem scalesTaken_scaleIn (fun x _ _ h => rqtAt_scaleIn_ne x h) List.nodup_range (List.mem_range.mpr hi) x

theorem rqtAt_setScalar (x : HUnit) (r : Nat) (v : W32) {i : Nat} (hi : i < 32) : (x.setScalar r v).rqtAt i = x.rqtAt i := by
  rw [HUnit.rqtAt, HUnit.rqtAt, rqt_setScalar, rqtEntry_setScalar x r v hi]

/-- PUB writes scalar registers only (R190). -/
theorem rqtAt_publish (x : HUnit) {i : Nat} (hi : i < 32) : x.publish.rqtAt i = x.rqtAt i := by
  unfold HUnit.publish
  refine List.foldlRecOn (motive := fun y : HUnit => y.rqtAt i = x.rqtAt i) _ _ rfl fun y hy k _ => ?_
  dsimp only
  split
  · exact hy
  · rw [rqtAt_setScalar _ _ _ hi, rqtAt_setScalar _ _ _ hi, hy]

theorem exec_scalePublish_hot (hon : s.cuOn u = true) (hmode : s.unitMode u = 1) (hcycle : s.cycle = 0) :
    exec (.scalePublish u) s = .next (s.setUnit u (s.unit u).scalesIn.publish) := by
  have h : exec (.scalePublish u) s = .next (scalePublish u s) := rfl
  rw [h, scalePublish, if_pos (by simp [hon, hmode, hcycle])]

/-! ## AMX_SEL (R193) -/

theorem frame_setWords (s : State) (off : Nat) (ws : List W32) : Frame [.regs] s (s.setWords off ws) := by
  induction ws generalizing s off with
  | nil => exact .refl _ _
  | cons w ws ih => exact ((frame_setWord s off w).trans (ih _ _)).mono (by decide)

/-- The registers before AMX_Q stand when AMX_Q and AMX_FLAGS are written. -/
theorem getF_setAmxQ_setAmxFlags {f : Fld} (hw : f.lsb + f.width ≤ 32) (h : f.off < hrtAmxQ u 0) (s : State) (ws : List W32) (w : W32) :
    ((s.setWords (hrtAmxQ u 0) ws).setWord (hrtAmxFlags u) w).getF f = s.getF f := by
  have hne : f.off ≠ hrtAmxFlags u := by simp only [hrtAmxQ, hrtAmxFlags] at h ⊢; omega
  have hword : ((s.setWords (hrtAmxQ u 0) ws).setWord (hrtAmxFlags u) w).word f.off = s.word f.off :=
    (word_setWord_ne _ w hne).trans (word_setWords_lt s ws h)
  simp only [State.getF, State.regNat, if_pos hw, hword]

/-- The registers of a capture before the quarters: AMX_SEL, AMX_PERIOD and AMX_TENSOR. -/
def State.amxHead (s : State) (u i : Nat) (c : Closed) : State :=
  ((s.setF (hrtAmxSel_Entry u) i).setF (hrtAmxPeriod_Window u) c.window).setF (hrtAmxTensor_Absmax u) (c.q.foldl max 0)

theorem exec_amxSelWrite (hsite : s.siteOn u = true) (hmu : isMu u = false) (v : W32) :
    let i := bitsAt v.toNat 0 5
    let c := ((s.unit u).rqt i).closed
    exec (.amxSelWrite u v) s = .next (((s.amxHead u i c).setWords (hrtAmxQ u 0) (c.q.map (BitVec.ofNat 32 ·))).setWord
      (hrtAmxFlags u) (BitVec.ofNat 32 c.flags)) := by
  have h : exec (.amxSelWrite u v) s = .next (s.when (s.siteOn u && !isMu u) (amxSelWrite u v s)) := rfl
  rw [h, State.when, if_pos (by simp [hsite, hmu])]
  rfl

theorem getF_amxHead (s : State) (u : Nat) {i : Nat} (hi : i < 32) (c : Closed) :
    (s.amxHead u i c).getF (hrtAmxSel_Entry u) = i ∧
    (s.amxHead u i c).getF (hrtAmxPeriod_Window u) = c.window % 2 ^ (hrtAmxPeriod_Window u).width ∧
    (s.amxHead u i c).getF (hrtAmxTensor_Absmax u) = c.q.foldl max 0 % 2 ^ (hrtAmxTensor_Absmax u).width := by
  have hsel : (hrtAmxSel_Entry u).lsb + (hrtAmxSel_Entry u).width ≤ 32 := by simp [hrtAmxSel_Entry]
  have hper : (hrtAmxPeriod_Window u).lsb + (hrtAmxPeriod_Window u).width ≤ 32 := by simp [hrtAmxPeriod_Window]
  have hten : (hrtAmxTensor_Absmax u).lsb + (hrtAmxTensor_Absmax u).width ≤ 32 := by simp [hrtAmxTensor_Absmax]
  have hst : (hrtAmxSel_Entry u).off ≠ (hrtAmxTensor_Absmax u).off := by
    simp [hrtAmxSel_Entry, hrtAmxTensor_Absmax, hrtAmxSel, hrtAmxTensor]
  have hsp : (hrtAmxSel_Entry u).off ≠ (hrtAmxPeriod_Window u).off := by
    simp [hrtAmxSel_Entry, hrtAmxPeriod_Window, hrtAmxSel, hrtAmxPeriod]
  have hpt : (hrtAmxPeriod_Window u).off ≠ (hrtAmxTensor_Absmax u).off := by
    simp [hrtAmxPeriod_Window, hrtAmxTensor_Absmax, hrtAmxPeriod, hrtAmxTensor]
  unfold State.amxHead
  refine ⟨?_, ?_, getF_setF_same _ _ _ (by omega)⟩
  · rw [getF_setF_ne_off _ _ _ _ hten hsel hst, getF_setF_ne_off _ _ _ _ hper hsel hsp, getF_setF_same _ _ _ (by omega)]
    exact Nat.mod_eq_of_lt hi
  · rw [getF_setF_ne_off _ _ _ _ hten hper hpt, getF_setF_same _ _ _ (by omega)]

theorem frame_amxHead (s : State) (u i : Nat) (c : Closed) : Frame [.regs] s (s.amxHead u i c) :=
  (((frame_setF s _ _).trans (frame_setF _ _ _)).trans (frame_setF _ _ _)).mono (by decide)

/-- AMX_Q holds the quarters: its four words lie below AMX_FLAGS. -/
theorem word_amxQ (s : State) (u : Nat) {q : List Nat} (hq : q.length ≤ 4) (w : W32) {k : Nat} (hk : k < q.length) :
    ((s.setWords (hrtAmxQ u 0) (q.map (BitVec.ofNat 32 ·))).setWord (hrtAmxFlags u) w).word (hrtAmxQ u k) =
      BitVec.ofNat 32 (listGet 0 q k) := by
  have hoff : hrtAmxQ u k = hrtAmxQ u 0 + 4 * k := by simp [hrtAmxQ]
  have hne : hrtAmxQ u k ≠ hrtAmxFlags u := by simp only [hrtAmxQ, hrtAmxFlags]; omega
  rw [word_setWord_ne _ _ hne, hoff, word_setWords _ _ _ (by simpa using hk), List.getElem_map, listGet_eq_getD,
    List.getD_eq_getElem _ _ hk]

/-- Settles O24, command by command: each round over the 32 entries gives each entry its own step. -/
theorem windowsCloseAndScalesPublish : Obligations.WindowsCloseAndScalesPublish := by
  refine ⟨fun s u hon hmode hcycle hopen => ?_, fun s u k hon hmode hgraph => ?_, fun s u hon hmode hcycle => ?_,
    fun s u v hsite hmu => ?_⟩
  · refine ⟨_, exec_hotWindowClose hon hmode hcycle hopen, fun i hi => ?_, ?_, frame_setUnit s u _⟩
    · rw [unit_setUnit]
      exact closedAs_closeWindows _ _ hi
    · rw [unit_setUnit]
      exact closedFor_closeWindows ..
  · intro n hplace hopen
    refine ⟨_, exec_warmWindowClose hon hmode hgraph hplace hopen, fun i hi => ?_, frame_setUnit s u _⟩
    obtain ⟨hwin, hwindow, -⟩ := closedAs_closeWindows (s.unit u) k hi
    rw [unit_setUnit]
    exact ⟨hwin, hwindow⟩
  · refine ⟨_, exec_scalePublish_hot hon hmode hcycle, fun i hi => ?_, frame_setUnit s u _⟩
    have htaken : ScalesTaken ((s.unit u).rqtAt i) ((s.unit u).scalesIn.publish.rqtAt i) := by
      rw [rqtAt_publish _ hi]
      exact scalesTaken_scalesIn _ hi
    rw [unit_setUnit]
    exact htaken
  · intro c hq
    obtain ⟨hsel, hperiod, htensor⟩ := getF_amxHead s u (bitsAt_lt v.toNat 0 5) c
    refine ⟨_, exec_amxSelWrite hsite hmu v, ?_, ?_, ?_, fun k hk => word_amxQ _ u hq _ hk, word_setWord_same .., ?_⟩
    · exact (getF_setAmxQ_setAmxFlags (by simp [hrtAmxSel_Entry]) (by simp [hrtAmxSel_Entry, hrtAmxSel, hrtAmxQ]) ..).trans hsel
    · exact (getF_setAmxQ_setAmxFlags (by simp [hrtAmxPeriod_Window])
        (by simp [hrtAmxPeriod_Window, hrtAmxPeriod, hrtAmxQ]) ..).trans hperiod
    · exact (getF_setAmxQ_setAmxFlags (by simp [hrtAmxTensor_Absmax])
        (by simp [hrtAmxTensor_Absmax, hrtAmxTensor, hrtAmxQ]) ..).trans htensor
    · exact (((frame_amxHead s u _ c).trans (frame_setWords _ _ _)).trans (frame_setWord _ _ _)).mono (by decide)

end Sys2Proof.Machine
end

section
/-!
# Descriptors of the loader (R207 to R211, R226)

A descriptor that begins, that waits for its data, or that ends changes the Stoker's records; its end writes LOAD_STATUS and
LOAD_LOC besides. What a loader command does to the Hearth is therefore what stands after those.
-/

set_option autoImplicit false

namespace Sys2Proof.Machine

variable {s t : State} {tag : Nat} {f : Fly}

/-! ## Descriptors in flight -/

theorem frame_setFly (s : State) (g : Fly) : Frame [.stk] s (s.setFly g) := frame_stk s _

theorem fly_setFly {g : Fly} (h : s.fly tag = some f) (hg : g.tag = tag) : (s.setFly g).fly tag = some g := by
  have htag : ((fun x : Fly => x.tag == tag) ∘ fun x => if x.tag == g.tag then g else x) = fun x => x.tag == tag := by
    funext x
    by_cases hx : x.tag = tag <;> simp [hg, hx]
  have hfind : s.stk.flights.find? (fun x => x.tag == tag) = some f := h
  rw [State.fly, State.setFly, List.find?_map, htag, hfind, Option.map_some, if_pos (by simp [hg, fly_tag h])]

theorem begin_fly (h : s.fly tag = some f) : s.begin tag = s.setFly { f with begun := true } := by simp only [State.begin, h]

theorem runs_begin (h : Runs s tag f) : Runs (s.begin tag) tag { f with begun := true } := by
  obtain ⟨hfly, hended, horphan, hquiet⟩ := h
  rw [begin_fly hfly]
  exact ⟨fly_setFly hfly (fly_tag (f := f) hfly), hended, horphan, hquiet⟩

theorem Runs.frame {cs : List Comp} (h : Runs s tag f) (ht : Frame cs s t) (hs : Comp.stk ∉ cs) : Runs t tag f := by
  have hstk : t.stk = s.stk := ht .stk hs
  exact ⟨by rw [State.fly, hstk]; exact h.1, h.2⟩

theorem frame_begin (s : State) (tag : Nat) : Frame [.stk] s (s.begin tag) := (begin_runs s tag).2

theorem frame_landing (s : State) (tag status result : Nat) : Frame [.stk] s (s.landing tag status result) := by
  unfold State.landing
  split
  · exact .refl _ s
  · exact frame_setFly s _

theorem fly_landing (h : s.fly tag = some f) (status result : Nat) :
    (s.landing tag status result).fly tag = some { f with begun := true, outcome := some (status, result) } := by
  simp only [State.landing, h]
  exact fly_setFly h (fly_tag (f := f) h)

/-! ## The end of a loader's descriptor -/

/-- An end is seen from a state with the same tick and completion queues. -/
theorem Ended.of_same {s' : State} {status result : Nat} (h : Ended f status result s t) (hcqs : s.stk.cqs = s'.stk.cqs)
    (htick : s.frc = s'.frc) : Ended f status result s' t := by
  simpa only [Ended, State.cq, State.tick, hcqs, htick] using h

theorem frame_complete (s : State) (tag status result : Nat) : Frame [.stk] s (s.complete tag status result) := by
  unfold State.complete
  split
  · exact .refl _ s
  split
  · exact .refl _ s
  split
  · exact frame_stk s _
  · rw [State.hand, if_neg (by simp)]
    exact frame_stk s _

/-- The registers of the loader with the code of a load's end. -/
def State.loadShown (s : State) (code : Nat) : State :=
  (((s.setF glbLoadStatus_Code code).setF glbLoadStatus_Section 0xFF).setF glbLoadLoc_SrcSite 0x1FF).setF glbLoadLoc_ConsSite 0x1FF

theorem loaderDone_eq (s : State) (tag code result : Nat) :
    s.loaderDone tag code result = (s.loadShown code).complete tag (0x100 + code) result := rfl

theorem frame_loadShown (s : State) (code : Nat) : Frame [.regs] s (s.loadShown code) :=
  ((((frame_setF s _ _).trans (frame_setF _ _ _)).trans (frame_setF _ _ _)).trans (frame_setF _ _ _)).mono (by decide)

theorem frame_loaderDone (s : State) (tag code result : Nat) : Frame [.regs, .stk] s (s.loaderDone tag code result) :=
  (frame_loadShown s code).trans (frame_complete _ _ _ _)

theorem getF_loaderDone (s : State) (tag code result : Nat) (g : Fld) :
    (s.loaderDone tag code result).getF g = (s.loadShown code).getF g :=
  getF_congr (frame_complete _ _ _ _ .regs (by decide)) (frame_complete _ _ _ _ .part (by decide)) g

theorem fieldsKept_loaderDone (s : State) (tag code result : Nat) :
    FieldsKept [glbLoadStatus_Code, glbLoadStatus_Section, glbLoadLoc_SrcSite, glbLoadLoc_ConsSite] s (s.loaderDone tag code result) :=
  fun g hg => (getF_loaderDone s tag code result g).trans
    (((((fieldsKept_setF s _ (by simp)).trans (fieldsKept_setF _ _ (by simp))).trans (fieldsKept_setF _ _ (by simp))).trans
      (fieldsKept_setF _ _ (by simp))) g hg)

theorem getF_code_loaderDone (s : State) (tag code result : Nat) :
    (s.loaderDone tag code result).getF glbLoadStatus_Code = code % 256 := by
  rw [getF_loaderDone]
  unfold State.loadShown
  rw [getF_setF_of_apart _ _ (by decide), getF_setF_of_apart _ _ (by decide), getF_setF_of_apart _ _ (by decide),
    getF_setF_same _ _ _ (by decide)]
  rfl

theorem ended_loaderDone (h : Runs s tag f) (code result : Nat) : Ended f (0x100 + code) result s (s.loaderDone tag code result) :=
  (complete_spec (h.frame (frame_loadShown s code) (by decide)) _ _).1.of_same
    (congrArg Stk.cqs (frame_loadShown s code .stk (by decide))) (frame_loadShown s code .frc (by decide))

/-- The descriptor that has begun in `s` ends as one of `s` does. -/
theorem ended_begin_loaderDone (h : Runs s tag f) (code result : Nat) :
    Ended f (0x100 + code) result s ((s.begin tag).loaderDone tag code result) := by
  have hcqs : (s.begin tag).stk.cqs = s.stk.cqs := by rw [begin_fly h.1]; rfl
  exact (ended_loaderDone (f := { f with begun := true }) (runs_begin h) code result).of_same hcqs (frame_begin s tag .frc (by decide))

theorem hearth_loaderDone (s : State) (tag code result : Nat) : (s.loaderDone tag code result).hearth = s.hearth :=
  frame_loaderDone s tag code result .hearth (by decide)

theorem hearth_begin (s : State) (tag : Nat) : (s.begin tag).hearth = s.hearth := frame_begin s tag .hearth (by decide)

end Sys2Proof.Machine
end

section
/-!
# The passes of a load (R207 to R210)
-/

set_option autoImplicit false

namespace Sys2Proof.Machine

variable {s t : State} {tag : Nat} {f : Fly}

/-- What holds of the unlisted value and of every value listed holds of every value read. -/
theorem mget_of_forall {α : Type} {p : α → Prop} {d : Nat → α} {m : SMap α} {k : Nat} (h0 : p (d k)) (h : ∀ e ∈ m, p e.2) :
    p (mget d m k) := by
  induction m with
  | nil => exact h0
  | cons e m ih =>
    obtain ⟨j, v⟩ := e
    rw [mget]
    split
    · exact h (j, v) List.mem_cons_self
    · exact ih fun e he => h e (List.mem_cons_of_mem _ he)

theorem shadow_dropShadows (s : State) (u : Nat) : (s.dropShadows.unit u).shadow = [] := by
  refine mget_of_forall (p := fun x : HUnit => x.shadow = []) rfl fun e he => ?_
  obtain ⟨y, -, hy⟩ := List.mem_filterMap.mp he
  dsimp only at hy
  split at hy
  · cases hy
  · cases hy
    rfl

theorem startLoad_waits (h : Waits s tag 0x01 f) (hload : s.hearth.load = none) {full : Bool}
    (hmode : dfield f.bytes 32 1 = if full then 0 else 1) :
    s.startLoad tag full = (s.begin tag).setLoad (some ⟨tag, full, 1, f.bytes, [], none⟩) := by
  simp [State.startLoad, startable_waits h, hload, hmode]

theorem startLoad_spec (h : Waits s tag 0x01 f) (hload : s.hearth.load = none) {full : Bool}
    (hmode : dfield f.bytes 32 1 = if full then 0 else 1) :
    (s.startLoad tag full).hearth = { s.hearth with load := some ⟨tag, full, 1, f.bytes, [], none⟩ } ∧
      Frame [.stk, .hearth] s (s.startLoad tag full) := by
  rw [startLoad_waits h hload hmode]
  exact ⟨by rw [State.setLoad, hearth_begin], (frame_begin s tag).trans (frame_hearth _ _)⟩

/-- A load with what its first pass has found. -/
def State.checkedLoad (s : State) (l : Load) (i : Image) (pass : Nat) : Load :=
  { l with place := (s.loadBytes l.desc).2.2.1, info := some i.info, pass := pass }

section
variable {l : Load} {i : Image} (hbus : (s.loadBytes l.desc).2.2.2.2 = false) (hpoison : (s.loadBytes l.desc).2.2.2.1 = false)
  (hcheck : (s.loadBytes l.desc).1.checkImage (s.loadBytes l.desc).2.1 (s.loadBytes l.desc).2.2.1 l.full = .ok i)
include hbus hpoison hcheck

/-- A first pass without poison and without a refused access of which every check passes, by the mode of its load. -/
theorem firstPass_full (hfull : l.full = true) : let r := (s.loadBytes l.desc).1
    s.firstPass l = (r.setLoad (some (s.checkedLoad l i 2))).armHalt (r.tick + 1) := by
  rw [hfull] at hcheck
  simp [State.firstPass, State.checkedLoad, hbus, hpoison, hcheck, hfull]

theorem firstPass_stage (hfull : l.full = false) : let r := (s.loadBytes l.desc).1
    s.firstPass l = r.dropShadows.setLoad (some (s.checkedLoad l i 3)) := by
  rw [hfull] at hcheck
  simp [State.firstPass, State.checkedLoad, hbus, hpoison, hcheck, hfull]

end

theorem haltAt_armHalt (s : State) (k : Nat) :
    ∃ j, (s.armHalt k).hearth.haltAt = some j ∧ j ≤ k ∧ (s.hearth.haltAt = none → j = k) := by
  cases h : s.hearth.haltAt with
  | none => exact ⟨k, by simp [State.armHalt, h], le_rfl, fun _ => rfl⟩
  | some j => exact ⟨min j k, by simp [State.armHalt, h], min_le_right .., fun hn => by cases hn⟩

theorem exec_loaderPassEnd_first {l : Load} (hload : s.hearth.load = some l) (hpass : l.pass = 1) :
    exec .loaderPassEnd s = .next (s.firstPass l) := by
  have h : exec .loaderPassEnd s = .next (loaderPassEnd s) := rfl
  rw [h, loaderPassEnd, hload]
  simp [hpass]

theorem exec_loaderPassEnd_landed {code res : Nat} (hload : s.hearth.load = none) (hland : s.scanLanding = some (tag, code, res)) :
    exec .loaderPassEnd s = .next (s.loaderDone tag code res) := by
  have h : exec .loaderPassEnd s = .next (loaderPassEnd s) := rfl
  rw [h, loaderPassEnd, hload, hland]

/-- Settles O30: a load that begins, a first pass by the mode of its load, and a scan that has landed. -/
theorem loadsBeginAndPass : Obligations.LoadsBeginAndPass := by
  refine ⟨fun s tag f hwaits hload => ⟨fun hmode => ?_, fun hmode => ?_⟩, fun s l i hload hpass => ?_,
    fun s tag code res f hload hland hruns => ?_⟩
  · exact ⟨_, rfl, startLoad_spec (full := true) hwaits hload hmode⟩
  · exact ⟨_, rfl, startLoad_spec (full := false) hwaits hload hmode⟩
  · intro r hbus hpoison hcheck
    refine ⟨_, exec_loaderPassEnd_first hload hpass, fun hfull => ?_, fun hfull => ?_⟩
    · obtain ⟨k, hk, hle, -⟩ := haltAt_armHalt (r.1.setLoad (some (s.checkedLoad l i 2))) (r.1.tick + 1)
      rw [firstPass_full hbus hpoison hcheck hfull]
      exact ⟨rfl, k, hk, hle⟩
    · rw [firstPass_stage hbus hpoison hcheck hfull]
      exact ⟨rfl, fun u => shadow_dropShadows r.1 u⟩
  · exact ⟨_, exec_loaderPassEnd_landed hload hland, ended_loaderDone hruns code res, getF_code_loaderDone ..⟩

end Sys2Proof.Machine
end

section
/-!
# MARKs of a swap (R119, R217, R218)

A MARK joins the tokens of a queue as its last one, so that a queue that takes several MARKs of one epoch ends in one as well.
-/

set_option autoImplicit false

namespace Sys2Proof.Machine

variable {s t : State} {epoch : Nat}

/-- The last token of a queue is a MARK of an epoch. -/
def Queue.EndsInMark (q : Queue) (epoch : Nat) : Prop := ∃ m, q.toks.getLast? = some m ∧ m.mark = true ∧ m.epoch = epoch

theorem endsInMark_mark (q : Queue) (epoch : Nat) : (q.mark epoch).EndsInMark epoch :=
  ⟨markToken epoch q.sent, by simp [Queue.mark], rfl, rfl⟩

theorem edge_setEdge_ne (s : State) {k j : Nat} (x : EdgePort) (h : j ≠ k) : (s.setEdge k x).edge j = s.edge j := mget_mput_ne _ _ _ h

/-- What sending MARKs does with one edge port. -/
def State.markEdge (s : State) (epoch k : Nat) : State :=
  if qwCredited (s.edge k).txWord then s.setEdge k { s.edge k with tx := (s.edge k).tx.mark epoch } else s

theorem markEdges_cons (s : State) (epoch k : Nat) (ks : List Nat) :
    s.markEdges epoch (k :: ks) = (s.markEdge epoch k).markEdges epoch ks := rfl

theorem edge_markEdge_ne (s : State) (epoch : Nat) {k j : Nat} (h : j ≠ k) : (s.markEdge epoch k).edge j = s.edge j := by
  unfold State.markEdge
  split
  · exact edge_setEdge_ne s _ h
  · rfl

theorem edge_markEdge (s : State) (epoch : Nat) {k : Nat} (h : qwCredited (s.edge k).txWord = true) :
    (s.markEdge epoch k).edge k = { s.edge k with tx := (s.edge k).tx.mark epoch } := by
  rw [State.markEdge, if_pos h, edge_setEdge]

/-- Sending MARKs changes edge ports and nothing else. -/
theorem markEdges_edges (s : State) (epoch : Nat) (ks : List Nat) :
    ∃ es, s.markEdges epoch ks = { s with hearth := { s.hearth with edges := es } } := by
  induction ks generalizing s with
  | nil => exact ⟨s.hearth.edges, rfl⟩
  | cons k ks ih =>
    obtain ⟨es, hes⟩ := ih (s.markEdge epoch k)
    refine ⟨es, ?_⟩
    rw [markEdges_cons, hes]
    unfold State.markEdge
    split <;> rfl

/-- A credited port that is named, or that ends in a MARK already, ends in a MARK. -/
theorem endsInMark_markEdges {k : Nat} {ks : List Nat} (hk : k ∈ ks ∨ (s.edge k).tx.EndsInMark epoch)
    (hword : qwCredited (s.edge k).txWord = true) : ((s.markEdges epoch ks).edge k).tx.EndsInMark epoch := by
  induction ks generalizing s with
  | nil => exact hk.resolve_left (by simp)
  | cons j ks ih =>
    rw [markEdges_cons]
    by_cases hj : k = j
    · subst hj
      refine ih (.inr ?_) ?_ <;> rw [edge_markEdge s epoch hword]
      · exact endsInMark_mark ..
      · exact hword
    · refine ih ?_ ?_ <;> rw [edge_markEdge_ne s epoch hj]
      · exact hk.imp_left fun h => (List.mem_cons.mp h).resolve_left hj
      · exact hword

/-- What sending the MARKs of a swap can do: nothing, or the swap has sent its MARKs and edge ports have changed. -/
theorem sendMarks_cases (s : State) : s.sendMarks = s ∨ ∃ w es, s.hearth.swap = some w ∧
    s.sendMarks = { s with hearth := { s.hearth with swap := some { w with marksSent := true }, edges := es } } := by
  unfold State.sendMarks
  split
  next => exact .inl rfl
  next w hswap =>
    split
    · exact .inl rfl
    split
    · exact .inl rfl
    · obtain ⟨es, hes⟩ := markEdges_edges (s.setSwap (some { w with marksSent := true }))
        (if w.hotDone then s.getF glbImgState_Epoch else s.nextEpoch) (ImgInfo.markKeys _ (s.vmap _ _))
      exact .inr ⟨w, es, hswap, hes⟩

theorem sendMarks_due {w : Swap} {x : ImgInfo} (hswap : s.hearth.swap = some w) (himg : s.swapImage w = some x)
    (hmarks : w.marksSent = false) (hruns : s.stk.runs.all (fun r => r.sentAll (r.graph.chunk / 32)) = true) :
    s.sendMarks = (s.setSwap (some { w with marksSent := true })).markEdges (s.swapTo w) (x.markKeys (s.vmap x.base x.v)) := by
  rw [State.swapImage] at himg
  simp [State.sendMarks, hswap, himg, hmarks, hruns, State.swapTo]

end Sys2Proof.Machine
end

section
/-!
# Swaps start, and the hot region switches (R212 to R217, R221)

What the hot switch does to sites, edge ports, triggers and pools comes before it writes EPOCH and T0 and puts the staged image in
force, so that these stand after it whatever came before.
-/

set_option autoImplicit false

namespace Sys2Proof.Machine

variable {s t : State} {tag : Nat} {f : Fly} {w : Swap} {x o : ImgInfo}

/-! ## SWAP_EPOCH -/

theorem exec_swapEpoch (s : State) (tag : Nat) : exec (.swapEpoch tag) s = .next (swapEpoch tag s) := rfl

theorem swapEpoch_late (h : Waits s tag 0x02 f) (hlate : dfield f.bytes 8 8 < s.tick + 16 ∨ s.hearth.staged = none) :
    swapEpoch tag s = (s.begin tag).loaderDone tag 0x1B (dfield f.bytes 8 8) := by
  simp only [swapEpoch, startable_waits h, if_pos hlate]

theorem swapEpoch_missed (h : Waits s tag 0x02 f) (hk : s.tick + 16 ≤ dfield f.bytes 8 8) (hstaged : s.hearth.staged ≠ none)
    (hrun : s.running = false) : swapEpoch tag s = (s.begin tag).loaderDone tag 0x1D (dfield f.bytes 8 8) := by
  have hlate : ¬ (dfield f.bytes 8 8 < s.tick + 16 ∨ s.hearth.staged = none) := by simp [hstaged, hk]
  simp [swapEpoch, startable_waits h, hlate, hrun]

/-- A swap that has started, before its MARKs. -/
def State.swapStarted (s : State) (tag k : Nat) : State :=
  (((s.begin tag).setSwap (some ⟨tag, k, s.tick, false, false, false⟩)).setF glbImgState_SwapPending 1).setF glbSwapGap_Discarded 0

theorem swapEpoch_starts (h : Waits s tag 0x02 f) (hk : s.tick + 16 ≤ dfield f.bytes 8 8) (hstaged : s.hearth.staged ≠ none)
    (hrun : s.running = true) : swapEpoch tag s = if s.stk.runs.isEmpty then (s.swapStarted tag (dfield f.bytes 8 8)).sendMarks
      else s.swapStarted tag (dfield f.bytes 8 8) := by
  have hlate : ¬ (dfield f.bytes 8 8 < s.tick + 16 ∨ s.hearth.staged = none) := by simp [hstaged, hk]
  simp [swapEpoch, startable_waits h, hlate, hrun, State.swapStarted]

/-- A swap that has started is in progress, with or without its MARKs. -/
def SwapStarted (tag k : Nat) (s t : State) : Prop :=
  ∃ w, t.hearth.swap = some w ∧ w.tag = tag ∧ w.k = k ∧ w.startTick = s.tick ∧ w.hotDone = false ∧
    t.getF glbImgState_SwapPending = 1 ∧ t.hearth.units = s.hearth.units

theorem swapStarted_spec (s : State) (tag k : Nat) : SwapStarted tag k s (s.swapStarted tag k) := by
  refine ⟨⟨tag, k, s.tick, false, false, false⟩, ?_, rfl, rfl, rfl, rfl, ?_, ?_⟩ <;> unfold State.swapStarted
  · simp [State.setSwap]
  · rw [getF_setF_of_apart _ _ (by decide), getF_setF_same _ _ _ (by decide)]
    rfl
  · simp [State.setSwap, hearth_begin]

theorem SwapStarted.sendMarks {k : Nat} (h : SwapStarted tag k s t) : SwapStarted tag k s t.sendMarks := by
  obtain he | ⟨w', es, hswap', he⟩ := sendMarks_cases t <;> rw [he]
  · exact h
  · obtain ⟨w, hswap, htag, hk, hstart, hhot, hpending, hunits⟩ := h
    obtain rfl : w' = w := Option.some.inj (hswap'.symm.trans hswap)
    exact ⟨{ w' with marksSent := true }, rfl, htag, hk, hstart, hhot, hpending, hunits⟩

/-! ## The hot switch -/

theorem switchDue_tick (h : s.switchDue = some (w, x, o)) : w.k = s.tick := by
  unfold State.switchDue at h
  split at h
  · split at h
    next hdue =>
      cases h
      simp only [Bool.and_eq_true, beq_iff_eq] at hdue
      exact hdue.1.2
    · cases h
  · cases h

theorem hotEpochSwitch_due (h : s.switchDue = some (w, x, o)) :
    hotEpochSwitch s = (hotDigestWindowClose s).hotSwitch w x ((hotDigestWindowClose s).hearth.img.getD o) := by
  simp only [hotEpochSwitch, h]

theorem tick_lt (s : State) : s.tick < 2 ^ 58 := by
  have := s.frc.isLt
  unfold State.tick
  omega

theorem frame_dropShares (s : State) (points : List Nat) (window : Nat) (us : List Nat) :
    Frame [.hearth] s (s.dropShares points window us) := by
  induction us generalizing s with
  | nil => exact .refl _ s
  | cons u us ih =>
    rw [State.dropShares]
    refine Frame.mono (Frame.trans (a := [.hearth]) ?_ (ih _)) (by decide)
    split
    · exact .refl _ s
    · exact frame_setUnit s u _

theorem frame_closePoints (s : State) (us : List Nat) (window : Nat) (p : DigPoint → Bool) :
    Frame [.hearth] s (s.closePoints us window p) := by
  unfold State.closePoints
  split
  · exact .refl _ s
  · exact ((frame_hearth s _).trans (frame_dropShares _ _ _ _)).mono (by decide)

theorem fieldsKept_twinClose (s : State) (ran : Bool) : FieldsKept [glbTwinDig_Digest] s (s.twinClose ran) := by
  unfold State.twinClose
  extract_lets k d z s1
  have h1 : FieldsKept [glbTwinDig_Digest] s s1 := .of_regs rfl rfl
  split
  · exact h1.trans (fieldsKept_setF s1 _ List.mem_cons_self)
  · exact h1

/-- Of the registers, the close of the hot windows of a tick changes TWIN_DIG alone. -/
theorem fieldsKept_hotDigestWindowClose (s : State) : FieldsKept [glbTwinDig_Digest] s (hotDigestWindowClose s) := by
  have hclose (r : State) (us : List Nat) (n : Nat) (p : DigPoint → Bool) : FieldsKept [glbTwinDig_Digest] r (r.closePoints us n p) :=
    .of_regs (frame_closePoints r us n p .regs (by decide)) (frame_closePoints r us n p .part (by decide))
  unfold hotDigestWindowClose
  extract_lets k done ran s1 n
  split
  · exact .refl _ s
  split
  · exact .refl _ s
  have h1 : FieldsKept [glbTwinDig_Digest] s s1 := fieldsKept_twinClose s ran
  split
  · exact h1
  · exact h1.trans (hclose s1 _ _ _)

/-! ## T0 -/

theorem hearth_setT0 (s : State) (epoch t0 : Nat) :
    (s.setT0 epoch t0).hearth = { s.hearth with t0s := mput (fun _ => 0) s.hearth.t0s epoch (t0 % 2 ^ 58) } := by
  unfold State.setT0
  extract_lets h s1
  split
  · rw [hearth_setF]
  · rfl

theorem t0s_setT0 (s : State) (epoch t0 : Nat) : mget (fun _ => 0) (s.setT0 epoch t0).hearth.t0s epoch = t0 % 2 ^ 58 := by
  rw [hearth_setT0]
  exact mget_mput_same ..

theorem fieldsKept_setT0 (s : State) (epoch t0 : Nat) : FieldsKept [glbHotT0_T0] s (s.setT0 epoch t0) := by
  unfold State.setT0
  extract_lets h s1
  have h1 : FieldsKept [glbHotT0_T0] s s1 := .of_regs rfl rfl
  split
  · exact h1.trans (fieldsKept_setF s1 _ List.mem_cons_self)
  · exact h1

/-- The registers of the epoch in force, as a hot switch writes them. -/
def State.epochShown (s : State) (epoch : Nat) (hot : Bool) : State :=
  let s1 := ((s.setF glbImgState_Epoch epoch).setF glbImgState_Staged 0).setF glbImgState_StagedEpoch 0
  if hot then s1.setF glbHotSched_Epoch epoch else s1

theorem getF_epochShown (s : State) {epoch : Nat} (hlt : epoch < 16) (hot : Bool) :
    (s.epochShown epoch hot).getF glbImgState_Epoch = epoch := by
  have h1 : (((s.setF glbImgState_Epoch epoch).setF glbImgState_Staged 0).setF glbImgState_StagedEpoch 0).getF glbImgState_Epoch =
      epoch := by
    rw [getF_setF_of_apart _ _ (by decide), getF_setF_of_apart _ _ (by decide), getF_setF_same _ _ _ (by decide)]
    exact Nat.mod_eq_of_lt hlt
  unfold State.epochShown
  split
  · rw [getF_setF_of_apart _ _ (by decide), h1]
  · exact h1

/-- The state that a hot switch has reached when it writes the registers of the new epoch. -/
def State.regionSwitched (s : State) (w : Swap) (x o : ImgInfo) : State :=
  let vm := s.vmap x.base x.v
  let s1 := if x.h = 0 then s else (s.swapGap o x w.k).switchRegion x s.nextEpoch vm
  (s1.showImage x (mapOf vm)).writeTrigger x.trigger

theorem hotSwitch_eq (s : State) (w : Swap) (x o : ImgInfo) :
    let s4 := ((s.regionSwitched w x o).epochShown s.nextEpoch (decide (x.h ≠ 0))).setT0 s.nextEpoch w.k
    s.hotSwitch w x o = { s4 with
      hearth := { s4.hearth with
        img := some { x with points := keepWarmHist o.points x.points }, staged := none, swap := some { w with hotDone := true } }
      zl := s4.zl.rebind x.cross } := by
  by_cases hh : x.h = 0 <;> simp [State.hotSwitch, State.regionSwitched, State.epochShown, hh]

theorem nextEpoch_lt (s : State) : s.nextEpoch < 16 := Nat.mod_lt _ (by decide)

/-- What stands after a hot switch. -/
theorem hotSwitch_spec (s : State) (w : Swap) (x o : ImgInfo) : let t := s.hotSwitch w x o
    t.hearth.img = some { x with points := keepWarmHist o.points x.points } ∧ t.hearth.staged = none ∧
      t.hearth.swap = some { w with hotDone := true } ∧ t.getF glbImgState_Epoch = s.nextEpoch ∧
      mget (fun _ => 0) t.hearth.t0s s.nextEpoch = w.k % 2 ^ 58 := by
  intro t
  have ht := hotSwitch_eq s w x o
  extract_lets s4 at ht
  have hepoch : t.getF glbImgState_Epoch = s4.getF glbImgState_Epoch := by rw [show t = _ from ht]; rfl
  have ht0s : t.hearth.t0s = s4.hearth.t0s := by rw [show t = _ from ht]
  refine ⟨by rw [show t = _ from ht], by rw [show t = _ from ht], by rw [show t = _ from ht], ?_, ?_⟩
  · rw [hepoch, fieldsKept_setT0 _ _ _ _ (by decide), getF_epochShown _ (nextEpoch_lt s)]
  · rw [ht0s, t0s_setT0]

theorem nextEpoch_congr (h : t.getF glbImgState_Epoch = s.getF glbImgState_Epoch) : t.nextEpoch = s.nextEpoch := by
  rw [State.nextEpoch, State.nextEpoch, h]

/-- Settles O31: SWAP_EPOCH by when and in what state of the Hearth it comes, the hot switch after the digest windows, and the
MARKs. -/
theorem swapStartsAndSwitchesHot : Obligations.SwapStartsAndSwitchesHot := by
  refine ⟨fun s tag f hwaits => ⟨fun hk hstaged hrun => ?_, fun hlate => ?_, fun hk hstaged hrun => ?_⟩, fun s w x o hdue => ?_,
    fun s w x hswap hmarks himg hruns => ?_⟩
  · have hstarted := swapStarted_spec s tag (dfield f.bytes 8 8)
    have hexec : SwapStarted tag (dfield f.bytes 8 8) s (swapEpoch tag s) := by
      rw [swapEpoch_starts hwaits hk hstaged hrun]
      split
      · exact hstarted.sendMarks
      · exact hstarted
    obtain ⟨w, hw⟩ := hexec
    exact ⟨_, w, exec_swapEpoch s tag, hw⟩
  · rw [exec_swapEpoch, swapEpoch_late hwaits hlate]
    exact ⟨_, rfl, ended_begin_loaderDone hwaits.1 _ _, (hearth_loaderDone ..).trans (hearth_begin s tag)⟩
  · rw [exec_swapEpoch, swapEpoch_missed hwaits hk hstaged hrun]
    exact ⟨_, rfl, ended_begin_loaderDone hwaits.1 _ _, (hearth_loaderDone ..).trans (hearth_begin s tag)⟩
  · have hexec : exec .hotEpochSwitch s = .next (hotEpochSwitch s) := rfl
    rw [hexec, hotEpochSwitch_due hdue]
    have hepoch : (hotDigestWindowClose s).nextEpoch = s.nextEpoch :=
      nextEpoch_congr (fieldsKept_hotDigestWindowClose s _ (by decide))
    obtain ⟨himg, hstaged, hswap, hnow, ht0⟩ :=
      hotSwitch_spec (hotDigestWindowClose s) w x ((hotDigestWindowClose s).hearth.img.getD o)
    rw [hepoch] at hnow ht0
    rw [switchDue_tick hdue, Nat.mod_eq_of_lt (tick_lt s)] at ht0
    exact ⟨_, rfl, himg, hstaged, hswap, hnow, ht0.trans (switchDue_tick hdue).symm⟩
  · have hexec : exec .stokerMarkEnqueue s = .next s.sendMarks := rfl
    rw [hexec, sendMarks_due hswap himg hmarks hruns]
    obtain ⟨es, hes⟩ := markEdges_edges (s.setSwap (some { w with marksSent := true })) (s.swapTo w) (x.markKeys (s.vmap x.base x.v))
    refine ⟨_, rfl, by rw [hes]; rfl, by rw [hes]; exact frame_hearth s _, fun k hk hword => ?_⟩
    exact endsInMark_markEdges (s := s.setSwap (some { w with marksSent := true })) (.inl hk) hword

end Sys2Proof.Machine
end

section
/-!
# The warm region switches, and the swap ends (R218 to R221)
-/

set_option autoImplicit false

namespace Sys2Proof.Machine

variable {s t : State} {u g k n : Nat} {f : Fly} {w : Swap} {x : ImgInfo}

theorem unit_setF (s : State) (f : Fld) (v u : Nat) : (s.setF f v).unit u = s.unit u := unit_congr (by simp) u

theorem grate_setF (s : State) (f : Fld) (v g : Nat) : (s.setF f v).grate g = s.grate g := grate_congr (by simp) g

theorem swapTo_lt (s : State) (w : Swap) : s.swapTo w < 16 := by
  unfold State.swapTo
  split
  · exact getF_lt s glbImgState_Epoch
  · exact nextEpoch_lt s

/-! ## Warm units (R218) -/

theorem exec_warmUnitSwitch (u : Nat) (s : State) : exec (.warmUnitSwitch u) s = .next (warmUnitSwitch u s) := rfl

/-- A queue of the grate that is named, or that ends in a MARK already, ends in a MARK once MARKs have joined the queues named. -/
theorem endsInMark_putMarks {epoch q : Nat} {qs : List Nat} (hq : q ∈ qs ∨ ((s.grate u).queue q).EndsInMark epoch) :
    (((s.putMarks u epoch qs).grate u).queue q).EndsInMark epoch := by
  induction qs generalizing s with
  | nil => exact hq.resolve_left (by simp)
  | cons r qs ih =>
    rw [State.putMarks]
    refine ih ?_
    rw [grate_setGrate]
    by_cases hr : q = r
    · subst hr
      exact .inr (by rw [queue_setQueue]; exact endsInMark_mark ..)
    · exact hq.imp (fun h => (List.mem_cons.mp h).resolve_left hr) fun h => by rwa [queue_setQueue_ne _ _ hr]

/-- Writing a scalar register leaves accumulators and the bundle counter alone. -/
theorem setScalar_keeps (x : HUnit) (r : Nat) (v : W32) : (x.setScalar r v).accs = x.accs ∧ (x.setScalar r v).bundle = x.bundle := by
  unfold HUnit.setScalar
  split <;> exact ⟨rfl, rfl⟩

theorem publish_keeps (x : HUnit) : x.publish.accs = x.accs ∧ x.publish.bundle = x.bundle := by
  unfold HUnit.publish
  generalize List.range 32 = is
  induction is generalizing x with
  | nil => exact ⟨rfl, rfl⟩
  | cons i is ih =>
    rw [List.foldl_cons]
    dsimp only
    split
    · exact ih x
    · obtain ⟨haccs, hbundle⟩ := ih ((x.setScalar _ _).setScalar _ _)
      exact ⟨by rw [haccs, (setScalar_keeps _ _ _).1, (setScalar_keeps _ _ _).1],
        by rw [hbundle, (setScalar_keeps _ _ _).2, (setScalar_keeps _ _ _).2]⟩

/-- A unit that switches is idle at bundle 0 (R214). -/
theorem switch_idle (x : HUnit) (mu : Bool) : (x.switch mu).accs = [] ∧ (x.switch mu).bundle = 0 := by
  unfold HUnit.switch
  extract_lets y v
  split
  · exact ⟨rfl, rfl⟩
  · exact publish_keeps v

/-- The state in which a warm unit has passed on its MARKs and taken its shadow state. -/
def State.warmUnitTaken (s : State) (u epoch : Nat) : State :=
  let s1 := (s.dropMarks u (s.usedIq u)).putMarks u epoch (s.usedOq u)
  s1.setUnit u { (s1.unit u).switch (isMu u) with graphOn := false, netMark := false }

theorem warmUnitSwitch_ready (hswap : s.hearth.swap = some w) (himg : s.swapImage w = some x) (hmarks : w.marksSent = true)
    (hready : s.warmReady u (s.swapTo w) (x.mode (s.vcourse (courseOf u)) (columnOf u)) = true) :
    ∃ mode plog plen pad, warmUnitSwitch u s = (((((s.warmUnitTaken u (s.swapTo w)).setF (hrtUnitCfg_Mode u) mode).setF
      (hrtUnitCfg_Plog u) plog).setF (hrtUnitCfg_Plen u) plen).setF (hrtUnitCfg_Epoch u) (s.swapTo w)).setF (hrtLatPad_V3pad u) pad := by
  refine ⟨x.mode (s.vcourse (courseOf u)) (columnOf u), x.plog, listGet 0 x.plens (12 * s.vcourse (courseOf u) + columnOf u),
    if isMu u then 0 else x.v3pad, ?_⟩
  simp only [warmUnitSwitch, hswap, himg, hmarks, hready, State.warmUnitTaken]
  rfl

theorem warmUnitTaken_spec (s : State) (u epoch : Nat) : let t := s.warmUnitTaken u epoch
    (t.unit u).graphOn = false ∧ (t.unit u).netMark = false ∧ (t.unit u).accs = [] ∧ (t.unit u).bundle = 0 ∧
      ∀ q ∈ s.usedOq u, ((t.grate u).queue q).EndsInMark epoch := by
  unfold State.warmUnitTaken
  extract_lets s1 y t
  have hunit : t.unit u = { y with graphOn := false, netMark := false } := unit_setUnit ..
  obtain ⟨haccs, hbundle⟩ := switch_idle (s1.unit u) (isMu u)
  rw [hunit]
  exact ⟨rfl, rfl, haccs, hbundle, fun q hq => endsInMark_putMarks (.inl hq)⟩

/-! ## Warm grates (R218) -/

theorem warmGrateSwitch_passed (hswap : s.hearth.swap = some w) (himg : s.swapImage w = some x) (hmarks : w.marksSent = true)
    (hrun : s.running = true) (hg : g < 300) (hrelay : s.relay g = false) (hmode : s.grMode g = 2)
    (hepoch : s.getF (grCfg_Epoch g) ≠ s.swapTo w) (hroutes : (s.grRoutes g).all (s.grate g).marked.contains = true) :
    warmGrateSwitch g s =
      ((s.setGrate g (s.grate g).switch).setF (grCfg_Plog g) x.plog).setF (grCfg_Epoch g) (s.swapTo w) := by
  simp only [warmGrateSwitch, hswap, himg, hmarks, hrun, hrelay, hmode, hroutes]
  simp [hg, hepoch]

/-! ## Senders that wait after their MARK (R219) -/

theorem exec_creditEpochStart (hk : k < 4984) (s : State) : exec (.creditEpochStart k) s = .next (creditEpochStart k s) := by
  have h : exec (.creditEpochStart k) s = .next (s.when (decide (k < 4984)) (creditEpochStart k s)) := rfl
  rw [h, State.when, if_pos (decide_eq_true hk)]

theorem creditStart_due {q : Queue} (hhold : q.hold = some n) (hn : n ≤ q.credits) (init : Nat) :
    q.creditStart init = { q with credits := init, hold := none } := by
  simp [Queue.creditStart, hhold, hn]

theorem creditEpochStart_grate (hk : k < 4800) (hhold : ((s.grate (k / 16)).queue (inputQueue (k % 16))).hold = some n)
    (hn : n ≤ ((s.grate (k / 16)).queue (inputQueue (k % 16))).credits) :
    let q := (s.grate (k / 16)).queue (inputQueue (k % 16))
    let epoch := match s.hearth.swap with | some w => s.swapTo w | none => s.getF glbImgState_Epoch
    creditEpochStart k s = s.setGrate (k / 16) ((s.grate (k / 16)).setQueue (inputQueue (k % 16))
      { q with credits := qwInit (s.newWord (k / 16) (inputQueue (k % 16)) epoch), hold := none }) := by
  intro q epoch
  rw [← creditStart_due hhold hn]
  simp only [creditEpochStart, if_pos hk, hhold, if_pos hn]
  rfl

theorem creditEpochStart_free (hk : k < 4800) (hhold : ((s.grate (k / 16)).queue (inputQueue (k % 16))).hold = none) :
    creditEpochStart k s = s := by
  simp only [creditEpochStart, if_pos hk, hhold]

/-- A key above those of the grates names the transmit queue of a port of the mesh's edge, or of a crossing port. -/
theorem creditEpochStart_transmit {j : Nat}
    (hj : (4800 ≤ k ∧ k < 4928 ∧ j = k - 4800) ∨ (4960 ≤ k ∧ k < 4984 ∧ j = edgeCross (k - 4960)))
    (hhold : (s.edge j).tx.hold = some n) (hn : n ≤ (s.edge j).tx.credits) :
    let e := s.edge j
    creditEpochStart k s = s.setEdge j { e with
      tx := { e.tx with credits := qwInit e.txShadow, hold := none }, txWord := e.txShadow, edge := e.edgeShadow } := by
  intro e
  have hlow : ¬ k < 4800 := by omega
  have hkey : (if k < 4960 then k - 4800 else k - 4960 + 128) = j := by
    rcases hj with ⟨-, h, hj⟩ | ⟨h, -, hj⟩
    · rw [if_pos (by omega), hj]
    · rw [if_neg (by omega), hj]
      exact Nat.add_comm ..
  have hmesh : ¬ (k < 4960 ∧ j / 32 = 4) := by
    clear hhold hn
    rcases hj with ⟨-, h, hj⟩ | ⟨h, -⟩ <;> omega
  rw [← creditStart_due hhold hn]
  simp only [creditEpochStart, if_neg hlow, hkey, if_neg hmesh, hhold, if_pos hn]
  rfl

theorem creditEpochStart_crossing {p : Nat} (hp : p < 24) (hhold : (s.edge (edgeCross p)).rx.hold = some n)
    (hn : n ≤ (s.edge (edgeCross p)).rx.credits) :
    let e := s.edge (edgeCross p)
    creditEpochStart (senderEdge (edgeCross p)) s = s.setEdge (edgeCross p) { e with
      rx := { e.rx with credits := qwInit e.rxShadow, hold := none }, rxWord := e.rxShadow } := by
  intro e
  have hkey : senderEdge (edgeCross p) - 4800 = edgeCross p := Nat.add_sub_cancel_left ..
  have hlow : ¬ senderEdge (edgeCross p) < 4800 := by simp [senderEdge]
  have hhigh : senderEdge (edgeCross p) < 4960 := by simp only [senderEdge, edgeCross]; omega
  have hmesh : senderEdge (edgeCross p) < 4960 ∧ edgeCross p / 32 = 4 := ⟨hhigh, by simp only [edgeCross]; omega⟩
  rw [← creditStart_due hhold hn]
  simp only [creditEpochStart, if_neg hlow, if_pos hhigh, hkey, if_pos hmesh, hhold, if_pos hn]
  rfl

/-! ## The end of a swap (R220, R221) -/

theorem Ended.of_stk {t' : State} {status result : Nat} (h : Ended f status result s t) (hstk : t'.stk = t.stk) :
    Ended f status result s t' := by
  simpa only [Ended, State.cq, hstk] using h

theorem frame_endSwap (s : State) (w : Swap) (code result : Nat) : Frame [.regs, .stk, .hearth] s (s.endSwap w code result) :=
  (((frame_hearth s _).trans (frame_setF _ _ _)).trans (frame_loaderDone _ _ _ _)).mono (by decide)

theorem endSwap_spec (h : Runs s w.tag f) (code result : Nat) : let t := s.endSwap w code result
    t.hearth = { s.hearth with swap := none } ∧ t.getF glbImgState_SwapPending = 0 ∧ Ended f (0x100 + code) result s t := by
  have hframe : Frame [.regs, .hearth] s ((s.setSwap none).setF glbImgState_SwapPending 0) :=
    ((frame_hearth s _).trans (frame_setF _ _ _)).mono (by decide)
  refine ⟨?_, ?_, ?_⟩
  · rw [State.endSwap, hearth_loaderDone, hearth_setF]
    rfl
  · rw [State.endSwap, fieldsKept_loaderDone _ _ _ _ _ (by decide), getF_setF_same _ _ _ (by decide)]
    rfl
  · exact (ended_loaderDone (h.frame hframe (by decide)) code result).of_same (congrArg Stk.cqs (hframe .stk (by decide)))
      (hframe .frc (by decide))

theorem swapTimeout_late (hswap : s.hearth.swap = some w) (himg : s.swapImage w = some x) (hwarm : s.warmDone x (s.swapTo w) = false)
    (hlate : w.startTick + s.getF glbSwapCtrl_Timeout ≤ s.tick) : swapTimeout s = (s.endSwap w 0x1C w.k).assertSrc 19 := by
  simp only [swapTimeout, hswap, himg, hwarm]
  simp [hlate]

/-- A source that asserts after the Ashpit's release is the last that waits to be collected. -/
theorem last_assertSrc (s : State) (n : Nat) (h : s.flt.released = true) :
    ((s.assertSrc n).flt.pend.map Assertion.src).getLast? = some n := by
  simp [State.assertSrc, h]

theorem newRxWords_edges (s : State) (ks : List Nat) : ∃ es, s.newRxWords ks = { s with hearth := { s.hearth with edges := es } } := by
  induction ks generalizing s with
  | nil => exact ⟨s.hearth.edges, rfl⟩
  | cons k ks ih => exact ih _

theorem swapEpochComplete_done (hswap : s.hearth.swap = some w) (himg : s.hearth.img = some x) (hhot : w.hotDone = true)
    (hwarm : s.warmDone x (s.getF glbImgState_Epoch) = true) :
    ∃ es, swapEpochComplete s = State.endSwap { s with hearth := { s.hearth with edges := es } } w 0 w.k := by
  obtain ⟨es, hes⟩ := newRxWords_edges s (((s.vmap x.base x.v).drop x.h).flatMap fun p => [edgeWest p, edgeEast p])
  refine ⟨es, ?_⟩
  simp only [swapEpochComplete, hswap, himg, hhot, hwarm, Bool.and_self, if_true, hes]

/-- Settles O32: one lemma for each kind of sender and for each end of a swap, and for a unit and a grate that are ready. -/
theorem warmRegionSwitches : Obligations.WarmRegionSwitches := by
  refine ⟨fun s u => ⟨_, exec_warmUnitSwitch u s⟩, fun s u hswap => ?_, fun s u w x hswap himg hmarks hready => ?_,
    fun s g w x hswap himg hmarks hrun hg hrelay hmode hepoch hroutes => ?_, fun s k n hk hhold hn => ?_, fun s k hk hhold => ?_,
    fun s k j n hj hhold hn => ?_, fun s p n hp hhold hn => ?_, fun s w x f hswap himg hruns hwarm hlate => ?_,
    fun s w x f hswap himg hhot hwarm hruns => ?_⟩
  · rw [exec_warmUnitSwitch, warmUnitSwitch, hswap]
  · obtain ⟨mode, plog, plen, pad, he⟩ := warmUnitSwitch_ready hswap himg hmarks hready
    obtain ⟨hgraph, hmark, haccs, hbundle, hqueues⟩ := warmUnitTaken_spec s u (s.swapTo w)
    have hpad : (hrtUnitCfg_Epoch u).off ≠ (hrtLatPad_V3pad u).off := by
      simp only [hrtUnitCfg_Epoch, hrtLatPad_V3pad, hrtUnitCfg, hrtLatPad]; omega
    rw [exec_warmUnitSwitch, he]
    refine ⟨_, rfl, ?_, ?_⟩
    · rw [getF_setF_ne_off _ _ _ _ (by simp [hrtLatPad_V3pad]) (by simp [hrtUnitCfg_Epoch]) hpad,
        getF_setF_same _ _ _ (by simp [hrtUnitCfg_Epoch])]
      exact Nat.mod_eq_of_lt (swapTo_lt s w)
    · simp only [unit_setF, grate_setF]
      exact ⟨hgraph, hmark, haccs, hbundle, hqueues⟩
  · have hexec : exec (.warmGrateSwitch g) s = .next (warmGrateSwitch g s) := rfl
    rw [hexec, warmGrateSwitch_passed hswap himg hmarks hrun hg hrelay hmode hepoch hroutes]
    refine ⟨_, rfl, ?_⟩
    rw [grate_setF, grate_setF, grate_setGrate, getF_setF_same _ _ _ (by simp [grCfg_Epoch])]
    exact ⟨rfl, rfl, rfl, Nat.mod_eq_of_lt (swapTo_lt s w),
      (((frame_setGrate s g _).trans (frame_setF _ _ _)).trans (frame_setF _ _ _)).mono (by decide)⟩
  · intro epoch
    rw [exec_creditEpochStart (by omega), creditEpochStart_grate hk hhold hn]
    exact ⟨_, rfl, by rw [grate_setGrate, queue_setQueue] <;> rfl, frame_setGrate s _ _⟩
  · rw [exec_creditEpochStart (by omega), creditEpochStart_free hk hhold]
  · rw [exec_creditEpochStart (by omega), creditEpochStart_transmit hj hhold hn]
    refine ⟨_, rfl, ?_⟩
    rw [edge_setEdge]
    exact ⟨rfl, rfl, rfl, rfl, frame_hearth s _⟩
  · rw [exec_creditEpochStart (by simp only [senderEdge, edgeCross]; omega), creditEpochStart_crossing hp hhold hn]
    refine ⟨_, rfl, ?_⟩
    rw [edge_setEdge]
    exact ⟨rfl, rfl, rfl, rfl, frame_hearth s _⟩
  · have hexec : exec .swapTimeout s = .next (swapTimeout s) := rfl
    obtain ⟨hhearth, hpending, hended⟩ := endSwap_spec hruns 0x1C w.k
    have hflt : (s.endSwap w 0x1C w.k).flt = s.flt := frame_endSwap s w 0x1C w.k .flt (by decide)
    rw [hexec, swapTimeout_late hswap himg hwarm hlate]
    refine ⟨_, rfl, ?_, ?_, hended.of_stk (by simp), fun hrel => last_assertSrc _ 19 (by rwa [hflt]), ?_⟩
    · rw [hearth_assertSrc, hhearth]
    · rw [getF_assertSrc, hpending]
    · rw [hearth_assertSrc, hhearth]
  · have hexec : exec .swapEpochComplete s = .next (swapEpochComplete s) := rfl
    obtain ⟨es, he⟩ := swapEpochComplete_done hswap himg hhot hwarm
    obtain ⟨hhearth, hpending, hended⟩ := endSwap_spec (s := { s with hearth := { s.hearth with edges := es } }) hruns 0 w.k
    rw [hexec, he]
    exact ⟨_, rfl, by rw [hhearth], hpending, hended, by rw [hhearth]⟩

end Sys2Proof.Machine
end

section
/-!
# Halts and releases (R226, R227)
-/

set_option autoImplicit false

namespace Sys2Proof.Machine

variable {s t : State} {f : Fly}

/-! ## Commands -/

theorem exec_haltWrite (s : State) : exec .haltWrite s = .next (haltWrite s) := rfl

theorem cancelRelease_spec (s : State) : let t := s.cancelRelease
    t.hearth = { s.hearth with runAt := none, runTag := none } ∧ t.getF glbImgState_ReleasePending = 0 ∧
      ∀ tag f, s.hearth.runTag = some tag → Runs s tag f → Ended f 0x100 0 s t := by
  let s1 : State := { s with hearth := { s.hearth with runAt := none, runTag := none } }
  let s2 := s1.setF glbImgState_ReleasePending 0
  have hframe : Frame [.regs, .hearth] s s2 := ((frame_hearth s _).trans (frame_setF s1 _ _)).mono (by decide)
  have hhearth : s2.hearth = { s.hearth with runAt := none, runTag := none } := hearth_setF ..
  have hpending : s2.getF glbImgState_ReleasePending = 0 := getF_setF_same _ _ _ (by decide)
  cases htag : s.hearth.runTag with
  | none =>
    have ht : s.cancelRelease = s2 := by simp only [State.cancelRelease, htag]; rfl
    rw [ht]
    exact ⟨hhearth, hpending, fun _ _ h => by cases h⟩
  | some tag =>
    have ht : s.cancelRelease = s2.loaderDone tag 0 0 := by simp only [State.cancelRelease, htag]; rfl
    rw [ht]
    refine ⟨by rw [hearth_loaderDone, hhearth], ?_, fun tag' f hsome hruns => ?_⟩
    · rw [fieldsKept_loaderDone _ _ _ _ _ (by decide), hpending]
    · cases hsome
      exact (ended_loaderDone (hruns.frame hframe (by decide)) 0 0).of_same (congrArg Stk.cqs (hframe .stk (by decide)))
        (hframe .frc (by decide))

theorem exec_runWrite (s : State) : exec .runWrite s = .next (runWrite s) := rfl

theorem canRun_iff (s : State) (r : Nat) : s.canRun r = true ↔
    s.hearth.img ≠ none ∧ s.running = false ∧ s.tick + 2 ≤ r ∧ s.noRelease = false := by
  simp [State.canRun, Option.isSome_iff_ne_none, and_assoc]

theorem armRun_spec (s : State) (r : Nat) : let t := s.armRun r
    t.hearth = { s.hearth with runAt := some r } ∧ t.getF glbImgState_ReleasePending = 1 ∧ Frame [.regs, .hearth] s t :=
  ⟨hearth_setF .., getF_setF_same _ _ _ (by decide), ((frame_hearth s _).trans (frame_setF _ _ _)).mono (by decide)⟩

/-! ## The halt -/

theorem frame_poolPut (s : State) (c : Nat) (p : Pool) : Frame [.regs, .incNow, .flt, .pools] s (s.poolPut c p) := by
  unfold State.poolPut
  extract_lets n s1
  have h1 : Frame [.pools] s s1 := frame_setPool s c p
  split
  · exact h1.mono (by decide)
  · exact ((h1.trans (frame_bump s1 _ _)).trans (frame_assertSrc _ _ _ _)).mono (by decide)

/-- What a stop of a pool counts stands in TRG. -/
theorem word_poolPut (s : State) (c : Nat) (p : Pool) {off : Nat} (h : off < 0x100000) : (s.poolPut c p).word off = s.word off := by
  unfold State.poolPut
  extract_lets n s1
  have h1 : s1.word off = s.word off := rfl
  split
  · exact h1
  · have hoff : off ∉ [(trgPoolOverflowF c).off] := by
      simp only [List.mem_singleton, trgPoolOverflowF, trgPoolOverflow]; omega
    rw [word_assertSrc, wordsKept_bump s1 (trgPoolOverflowF c) _ (by simp [trgPoolOverflowF]) off hoff, h1]

theorem breakPools_keeps (s : State) (cause flag : Nat) (cs : List Nat) :
    Frame [.regs, .incNow, .flt, .pools] s (s.breakPools cause flag cs) ∧
      ∀ off, off < 0x100000 → (s.breakPools cause flag cs).word off = s.word off := by
  induction cs generalizing s with
  | nil => exact ⟨.refl _ s, fun _ _ => rfl⟩
  | cons c cs ih =>
    rw [State.breakPools]
    obtain ⟨hframe, hword⟩ := ih (if (s.pool c).on then s.poolPut c ((s.pool c).interrupt (s.ringSize c) cause flag) else s)
    refine ⟨Frame.mono (Frame.trans (a := [.regs, .incNow, .flt, .pools]) ?_ hframe) (by decide), fun off h => (hword off h).trans ?_⟩
    · split
      · exact frame_poolPut s c _
      · exact .refl _ s
    · split
      · exact word_poolPut _ _ _ h
      · rfl

/-- A field of which every word lies below TRG. -/
theorem getF_breakPools (s : State) (cause flag : Nat) (cs : List Nat) {g : Fld} (h : g.off + 4 < 0x100000) :
    (s.breakPools cause flag cs).getF g = s.getF g := by
  have hword := (breakPools_keeps s cause flag cs).2
  simp only [State.getF, State.regNat, hword g.off (by omega), hword (g.off + 4) h]

/-- The registers of a Hearth that has halted. -/
def State.haltShown (s : State) : State :=
  ((s.setF glbImgState_Running 0).setF glbImgState_Halted 1).setF glbHaltTick_Tick s.tick

theorem haltShown_spec (s : State) : s.haltShown.getF glbImgState_Running = 0 ∧ s.haltShown.getF glbImgState_Halted = 1 ∧
    s.haltShown.getF glbHaltTick_Tick = s.tick := by
  unfold State.haltShown
  refine ⟨?_, ?_, ?_⟩
  · rw [getF_setF_of_apart _ _ (by decide), getF_setF_of_apart _ _ (by decide), getF_setF_same _ _ _ (by decide)]
    rfl
  · rw [getF_setF_of_apart _ _ (by decide), getF_setF_same _ _ _ (by decide)]
    rfl
  · rw [getF_setF_same _ _ _ (by decide)]
    exact Nat.mod_eq_of_lt (tick_lt s)

theorem hotEpochSwitch_noSwap (h : s.hearth.swap = none) : hotEpochSwitch s = s := by
  simp only [hotEpochSwitch, State.switchDue, h]

theorem stopHearth_noSwap (h : s.hearth.swap = none) :
    let s2 := s.haltShown.breakPools 1 8 (List.range 16)
    s.stopHearth = { s2 with hearth := { s2.hearth with haltFrc := s.frc.toNat } } := by
  have hswap : s.swapAtHalt = s := by simp only [State.swapAtHalt, hotEpochSwitch_noSwap h, h]
  simp only [State.stopHearth, hswap, State.haltShown]

/-- With no swap in progress the halt changes registers, pools and the Hearth's record of the halt. -/
theorem stopHearth_spec (h : s.hearth.swap = none) : let t := s.stopHearth
    t.getF glbImgState_Running = 0 ∧ t.getF glbImgState_Halted = 1 ∧ t.getF glbHaltTick_Tick = s.tick ∧
      t.hearth = { s.hearth with haltFrc := s.frc.toNat } ∧ t.frc = s.frc ∧ t.mem = s.mem := by
  rw [stopHearth_noSwap h]
  have hshown : Frame [.regs] s s.haltShown := (((frame_setF s _ _).trans (frame_setF _ _ _)).trans (frame_setF _ _ _)).mono (by decide)
  have hframe : Frame [.regs, .incNow, .flt, .pools] s (s.haltShown.breakPools 1 8 (List.range 16)) :=
    (hshown.trans (breakPools_keeps s.haltShown _ _ _).1).mono (by decide)
  have hgetF (g : Fld) (hg : g.off + 4 < 0x100000) : (s.haltShown.breakPools 1 8 (List.range 16)).getF g = s.haltShown.getF g :=
    getF_breakPools _ _ _ _ hg
  obtain ⟨hrunning, hhalted, htick⟩ := haltShown_spec s
  generalize s.haltShown.breakPools 1 8 (List.range 16) = s2 at hframe hgetF ⊢
  exact ⟨(hgetF _ (by decide)).trans hrunning, (hgetF _ (by decide)).trans hhalted, (hgetF _ (by decide)).trans htick,
    congrArg (fun x : Hearth => { x with haltFrc := s.frc.toNat }) (hframe .hearth (by decide)), hframe .frc (by decide),
    hframe .mem (by decide)⟩

theorem waitingLoad_none (h : s.hearth.load = none) : s.waitingLoad = none := by simp only [State.waitingLoad, h]

theorem hearthHalt_due {k : Nat} (hk : s.hearth.haltAt = some k) (hcycle : s.cycle = 0) (hle : k ≤ s.tick) (hrun : s.running = true)
    (hswap : s.hearth.swap = none) (hsafe : s.safe = false) (hload : s.hearth.load = none) :
    hearthHalt s = State.stopHearth { s with hearth := { s.hearth with haltAt := none } } := by
  have hnow : ¬ (s.cycle ≠ 0 ∨ s.tick < k) := by omega
  unfold hearthHalt
  rw [hk]
  dsimp -zeta only
  rw [if_neg hnow]
  extract_lets h s1 s2 s3
  have h2 : s2 = s1.stopHearth := if_pos hrun
  have hwait : s2.waitingLoad = none := by
    obtain ⟨-, -, -, hhearth, -⟩ := stopHearth_spec (s := s1) hswap
    exact waitingLoad_none (by rw [h2, hhearth]; exact hload)
  have h3 : s3 = s2 := if_neg (by simp [hsafe, hwait])
  rw [h3, hwait, h2]

/-! ## The release -/

/-- A store of which every value listed is replaced by another, entry by entry, holds the replaced values. -/
theorem mget_filterMap {α : Type} [DecidableEq α] {i : α} {m : SMap α} (g : Nat → α → α) (hm : mwf (fun _ => i) m)
    (hg : ∀ k, g k i = i) (k : Nat) :
    mget (fun _ => i) (m.filterMap fun e => if g e.1 e.2 = i then none else some (e.1, g e.1 e.2)) k = g k (mget (fun _ => i) m k) := by
  induction m with
  | nil => exact (hg k).symm
  | cons e m ih =>
    obtain ⟨j, v⟩ := e
    have hlater := mwf_key_lt hm
    have ih := ih (mwf_tail hm)
    by_cases hj : j = k
    · subst hj
      have hunlisted : mget (fun _ => i) m j = i := mget_unlisted _ _ _ fun e he => (hlater e he).ne'
      by_cases hv : g j v = i
      · rw [List.filterMap_cons_none (by simp [hv]), ih, hunlisted, hg]
        simp [mget, hv]
      · rw [List.filterMap_cons_some (b := (j, g j v)) (by simp [hv])]
        simp [mget]
    · have hhead : mget (fun _ => i) ((j, v) :: m) k = mget (fun _ => i) m k := by simp [mget, hj]
      rw [hhead, ← ih]
      by_cases hv : g j v = i
      · rw [List.filterMap_cons_none (by simp [hv])]
      · rw [List.filterMap_cons_some (b := (j, g j v)) (by simp [hv])]
        simp [mget, hj]

/-- A store of the values of another, each replaced, over one that is there. -/
def replaced {α : Type} [DecidableEq α] (d : Nat → α) (g : α → α) (es acc : SMap α) : SMap α :=
  es.foldl (fun m e => mput d m e.1 (g e.2)) acc

theorem mget_replaced_notMem {α : Type} [DecidableEq α] {d : Nat → α} {g : α → α} {es acc : SMap α} {k : Nat}
    (h : ∀ e ∈ es, e.1 ≠ k) : mget d (replaced d g es acc) k = mget d acc k := by
  induction es generalizing acc with
  | nil => rfl
  | cons e es ih =>
    have hk : e.1 ≠ k := h e List.mem_cons_self
    exact (ih fun e he => h e (List.mem_cons_of_mem _ he)).trans (mget_mput_ne _ _ _ hk.symm)

theorem mget_replaced {α : Type} [DecidableEq α] {d : Nat → α} {g : α → α} {es acc : SMap α} {k : Nat} {v : α}
    (hes : mwf d es) (h : (k, v) ∈ es) : mget d (replaced d g es acc) k = g v := by
  induction es generalizing acc with
  | nil => cases h
  | cons e es ih =>
    obtain ⟨j, x⟩ := e
    rcases List.mem_cons.mp h with heq | hmem
    · cases heq
      have hlater : ∀ e ∈ es, e.1 ≠ k := fun e he => (mwf_key_lt hes e he).ne'
      exact (mget_replaced_notMem (acc := mput d acc k (g v)) hlater).trans (mget_mput_same ..)
    · exact ih (mwf_tail hes) hmem

theorem hearth_shiftT0 (s : State) (halt release : Nat) : (s.shiftT0 halt release).hearth =
    { s.hearth with t0s := replaced (fun _ => 0) (fun t0 => movedTick t0 halt release) s.hearth.t0s [] } := by
  unfold State.shiftT0
  extract_lets moved h s1
  split
  · rw [hearth_setF]
    rfl
  · rfl

theorem frame_shiftT0 (s : State) (halt release : Nat) : Frame [.regs, .hearth] s (s.shiftT0 halt release) := by
  unfold State.shiftT0
  extract_lets moved h s1
  have h1 : Frame [.hearth] s s1 := frame_hearth s _
  split
  · exact (h1.trans (frame_setF s1 _ _)).mono (by decide)
  · exact h1.mono (by decide)

theorem fieldsKept_shiftT0 (s : State) (halt release : Nat) : FieldsKept [glbHotT0_T0] s (s.shiftT0 halt release) := by
  unfold State.shiftT0
  extract_lets moved h s1
  have h1 : FieldsKept [glbHotT0_T0] s s1 := .of_regs rfl rfl
  split
  · exact h1.trans (fieldsKept_setF s1 _ List.mem_cons_self)
  · exact h1

/-- The registers of a Hearth that runs. -/
def State.runShown (s : State) : State :=
  ((s.setF glbImgState_Running 1).setF glbImgState_Halted 0).setF glbImgState_ReleasePending 0

/-- The registers and T0 as a release leaves them. -/
def State.t0Released (s : State) : State :=
  if s.hearth.runTag.isSome then s.runShown else s.runShown.shiftT0 (s.getF glbHaltTick_Tick) s.tick

/-- The fields that a release writes. -/
def releaseFields : List Fld := [glbImgState_Running, glbImgState_Halted, glbImgState_ReleasePending, glbHotT0_T0]

theorem runShown_spec (s : State) : s.runShown.getF glbImgState_Running = 1 ∧ s.runShown.getF glbImgState_Halted = 0 ∧
    s.runShown.getF glbImgState_ReleasePending = 0 := by
  unfold State.runShown
  refine ⟨?_, ?_, ?_⟩
  · rw [getF_setF_of_apart _ _ (by decide), getF_setF_of_apart _ _ (by decide), getF_setF_same _ _ _ (by decide)]
    rfl
  · rw [getF_setF_of_apart _ _ (by decide), getF_setF_same _ _ _ (by decide)]
    rfl
  · rw [getF_setF_same _ _ _ (by decide)]
    rfl

theorem hearth_runShown (s : State) : s.runShown.hearth = s.hearth := by simp [State.runShown]

theorem fieldsKept_t0Released (s : State) : FieldsKept [glbHotT0_T0] s.runShown s.t0Released := by
  unfold State.t0Released
  split
  · exact .refl _ _
  · exact fieldsKept_shiftT0 s.runShown _ _

theorem fieldsKept_release (s : State) : FieldsKept releaseFields s s.t0Released :=
  (((fieldsKept_setF s _ (by simp [releaseFields])).trans (fieldsKept_setF _ _ (by simp [releaseFields]))).trans
    (fieldsKept_setF _ _ (by simp [releaseFields]))).trans ((fieldsKept_t0Released s).mono (by simp [releaseFields]))

theorem frame_t0Released (s : State) : Frame [.regs, .hearth] s s.t0Released := by
  have h1 : Frame [.regs] s s.runShown := (((frame_setF s _ _).trans (frame_setF _ _ _)).trans (frame_setF _ _ _)).mono (by decide)
  unfold State.t0Released
  split
  · exact h1.mono (by decide)
  · exact (h1.trans (frame_shiftT0 _ _ _)).mono (by decide)

/-- T0 of every epoch as a release leaves it. -/
def State.t0sReleased (s : State) : SMap Nat :=
  if s.hearth.runTag.isSome then s.hearth.t0s
  else replaced (fun _ => 0) (fun t0 => movedTick t0 (s.getF glbHaltTick_Tick) s.tick) s.hearth.t0s []

theorem hearth_t0Released (s : State) : s.t0Released.hearth = { s.hearth with t0s := s.t0sReleased } := by
  unfold State.t0Released State.t0sReleased
  split
  · exact hearth_runShown s
  · rw [hearth_shiftT0, hearth_runShown]

theorem unitMode_t0Released (s : State) (u : Nat) : s.t0Released.unitMode u = s.unitMode u := by
  refine fieldsKept_release s _ fun f hf => .inr ?_
  simp only [releaseFields, List.mem_cons, List.not_mem_nil, or_false] at hf
  rcases hf with rfl | rfl | rfl | rfl <;>
    simp [Fld.words, hrtUnitCfg_Mode, hrtUnitCfg, glbImgState_Running, glbImgState_Halted, glbImgState_ReleasePending, glbImgState,
      glbHotT0_T0, glbHotT0] <;> omega

/-- The state in which the Hearth runs again, before the descriptor of a FULL load that waited for it ends. -/
def State.released (s : State) : State :=
  let s2 := s.t0Released
  { s2 with hearth :=
    { s2.hearth with
      units := s2.reopenWindows
      runAt := none
      runTag := none
      halts := ((s.hearth.haltFrc, s.frc.toNat) :: s2.hearth.halts).take 16 } }

theorem releaseHearth_eq (s : State) : s.releaseHearth =
    match s.hearth.runTag with | none => s.released | some t => s.released.loaderDone t 0 s.tick := rfl

theorem hearth_releaseHearth (s : State) : s.releaseHearth.hearth = s.released.hearth := by
  rw [releaseHearth_eq]
  split
  · rfl
  · exact hearth_loaderDone ..

theorem getF_releaseHearth (s : State) {g : Fld}
    (h : ∀ f ∈ [glbLoadStatus_Code, glbLoadStatus_Section, glbLoadLoc_SrcSite, glbLoadLoc_ConsSite], f.Apart g)
    (ht0 : ∀ f ∈ [glbHotT0_T0], f.Apart g) : s.releaseHearth.getF g = s.runShown.getF g := by
  have hreleased : s.released.getF g = s.runShown.getF g := (getF_congr rfl rfl g).trans (fieldsKept_t0Released s g ht0)
  rw [releaseHearth_eq]
  split
  · exact hreleased
  · exact (fieldsKept_loaderDone _ _ _ _ g h).trans hreleased

theorem frame_released (s : State) : Frame [.regs, .hearth] s s.released :=
  ((frame_t0Released s).trans (frame_hearth _ _)).mono (by decide)

/-- A hot unit has no window closed for a tick to come. -/
theorem unit_released (s : State) (hwf : mwf (fun _ => HUnit.init) s.hearth.units = true) (u : Nat) :
    s.released.unit u = if s.unitMode u = 1 then { s.unit u with wins := 0 } else s.unit u := by
  have hunits : s.t0Released.hearth.units = s.hearth.units := by rw [hearth_t0Released]
  have h := mget_filterMap (i := HUnit.init) (fun v x => if s.t0Released.unitMode v = 1 then { x with wins := 0 } else x)
    (hunits ▸ hwf) (fun k => by split <;> rfl) u
  rw [← unitMode_t0Released s u]
  exact h.trans (by rw [hunits]; rfl)

theorem hearthRelease_due {r : Nat} (hr : s.hearth.runAt = some r) (hcycle : s.cycle = 0) (hle : r ≤ s.tick) (hrun : s.running = false)
    (hrel : s.noRelease = false) : hearthRelease s = s.releaseHearth := by
  have hnow : ¬ (s.cycle ≠ 0 ∨ s.tick < r) := by omega
  simp [hearthRelease, hr, hcycle, Nat.not_lt.mpr hle, hrun, hrel]

/-- Settles O33: the three commands by the state of the Hearth, and both events from what the halt and the release leave. -/
theorem haltAndRelease : Obligations.HaltAndRelease := by
  refine ⟨fun s hrun => ?_, fun s hrun => ?_, fun s => ?_, fun s k hk hcycle hle hrun hswap hsafe hload => ?_,
    fun s r hr hcycle hle hrun hrel => ?_⟩
  · obtain ⟨k, hk, hle, hnone⟩ := haltAt_armHalt s (s.tick + 1)
    refine ⟨_, k, exec_haltWrite s, ?_, hle, hnone, ?_⟩ <;> rw [haltWrite, if_pos hrun]
    · rw [← hk]
      rfl
    · exact frame_hearth s _
  · have he : haltWrite s = s.cancelRelease := if_neg (by simp [hrun])
    exact ⟨_, exec_haltWrite s, by rw [he]; exact cancelRelease_spec s⟩
  · refine ⟨_, exec_runWrite s, fun himg hrun htick hrel => ?_, fun hno => ?_⟩ <;> rw [runWrite]
    · rw [if_pos ((canRun_iff s _).mpr ⟨himg, hrun, htick, hrel⟩)]
      exact armRun_spec s _
    · refine if_neg fun hcan => ?_
      obtain ⟨himg, hrun, htick, hrel⟩ := (canRun_iff s _).mp hcan
      rcases hno with h | h | h | h
      · exact himg h
      · rw [hrun] at h; cases h
      · omega
      · rw [hrel] at h; cases h
  · have hexec : exec .hearthHalt s = .next (hearthHalt s) := rfl
    rw [hexec, hearthHalt_due hk hcycle hle hrun hswap hsafe hload]
    exact ⟨_, rfl, stopHearth_spec (s := { s with hearth := { s.hearth with haltAt := none } }) hswap⟩
  · have hexec : exec .hearthRelease s = .next (hearthRelease s) := rfl
    obtain ⟨hrunning, hhalted, hpending⟩ := runShown_spec s
    have hhearth := hearth_releaseHearth s
    have hfrozen : s.t0Released.hearth = { s.hearth with t0s := s.t0sReleased } := hearth_t0Released s
    have ht0s : s.releaseHearth.hearth.t0s = s.t0sReleased := by rw [hhearth]; exact congrArg Hearth.t0s hfrozen
    rw [hexec, hearthRelease_due hr hcycle hle hrun hrel]
    refine ⟨_, rfl, (getF_releaseHearth s (by decide) (by decide)).trans hrunning,
      (getF_releaseHearth s (by decide) (by decide)).trans hhalted, (getF_releaseHearth s (by decide) (by decide)).trans hpending,
      by rw [hhearth]; rfl, fun hwf u => ?_, ?_, ?_, fun htag hwf e t0 hmem => ?_, fun tag f htag hruns => ⟨?_, ?_⟩⟩
    · rw [unit_congr (congrArg Hearth.units hhearth), unit_released s hwf]
    · rw [hhearth]
      change s.t0Released.hearth.grates = _
      rw [hfrozen]
    · rw [hhearth]
      change s.t0Released.hearth.flights = _
      rw [hfrozen]
    · rw [ht0s, State.t0sReleased, if_neg (by simp [htag])]
      exact mget_replaced (g := fun t0 => movedTick t0 (s.getF glbHaltTick_Tick) s.tick) hwf hmem
    · rw [ht0s, State.t0sReleased, if_pos (by simp [htag])]
    · rw [releaseHearth_eq, htag]
      exact (ended_loaderDone (hruns.frame (frame_released s) (by decide)) 0 s.tick).of_same
        (congrArg Stk.cqs (frame_released s .stk (by decide))) (frame_released s .frc (by decide))

end Sys2Proof.Machine
end

section
/-!
# Scans of the halted Hearth (R228, R229)

Writing and reading the blocks of a scan goes through HBM, which leaves the Hearth and the Stoker's records alone.
-/

set_option autoImplicit false

namespace Sys2Proof.Machine

variable {s t : State} {tag : Nat} {f : Fly} {x : ImgInfo}

theorem frame_scanContents (s : State) (x : ImgInfo) : Frame [.freeIx] s (s.scanContents x).1 := by
  unfold State.scanContents
  extract_lets n r iv
  have hr : Frame [.freeIx] s r.2 := ((frame_draw s 32).trans (frame_drawBytes n.2 _)).mono (by decide)
  have hiv : Frame [.freeIx] s iv.2 := (hr.trans (frame_drawBytes r.2 _)).mono (by decide)
  split
  · split
    · exact (hiv.trans (frame_drawBytes iv.2 _)).mono (by decide)
    · exact hiv
  · exact hr

theorem frame_scanBlocks (s : State) (x : ImgInfo) (base len : Nat) (ps : List (Nat × Nat × Nat)) :
    Frame (.freeIx :: hbmParts) s (s.scanBlocks x base len ps).1 := by
  induction ps generalizing s with
  | nil => exact .refl _ s
  | cons p ps ih =>
    rw [State.scanBlocks]
    refine Frame.mono (Frame.trans (a := .freeIx :: hbmParts) ?_ (ih _)) (by decide)
    split
    · exact (frame_scanContents s x).mono (by decide)
    · exact ((frame_scanContents s x).trans (frame_hbmWrite _ _ _ _ _)).mono (by decide)

theorem frame_readBlocks (s : State) (base len : Nat) (ps : List (Nat × Nat × Nat)) :
    Frame hbmParts s (s.readBlocks base len ps).1 := by
  induction ps generalizing s with
  | nil => exact .refl _ s
  | cons p ps ih =>
    rw [State.readBlocks]
    exact ((frame_hbmRead _ _ _ _).hbm (frame_hbmRead _ _ _ _)).hbm (ih _)

/-! ## Scans of a running Hearth -/

theorem scanOut_running (h : Waits s tag 0x0A f) (hrun : s.running = true) : scanOut tag s = (s.begin tag).loaderDone tag 0x1E 0 := by
  simp only [scanOut, startable_waits h, hrun, if_true]

theorem scanIn_running (h : Waits s tag 0x0B f) (hrun : s.running = true) : scanIn tag s = (s.begin tag).loaderDone tag 0x1E 0 := by
  simp only [scanIn, startable_waits h, hrun, if_true]

/-! ## SCAN_OUT -/

/-- The virtual and physical sites of an image that is in force. -/
def State.scanSites (s : State) (x : ImgInfo) : List (Nat × Nat × Nat) := siteList (s.vmap x.base x.v)

/-- The blocks that SCAN_OUT writes for a descriptor. -/
def State.scanWritten (s : State) (tag : Nat) (x : ImgInfo) (d : List Byte) : State × List (List Byte) × Nat :=
  (s.begin tag).scanBlocks x (dfield d 8 8 % 2 ^ 40) (dfield d 16 8) (s.scanSites x)

/-- The frozen state that SCAN_OUT keeps with the contents of its blocks. -/
def State.scanRec (s : State) (x : ImgInfo) (contents : List (List Byte)) : ScanRec :=
  let us := (s.scanSites x).map fun p => p.2.2
  ⟨contents, onSites us s.hearth.units, onSites us s.hearth.grates, s.hearth.edges, s.hearth.present, s.hearth.flights,
    s.hearth.credits, s.hcyc, s.sinceT0 (s.getF glbImgState_Epoch) (s.getF glbHaltTick_Tick)⟩

/-- A scan that SCAN_OUT has written is kept with the others. -/
def State.scanKept (s : State) (c : ScanRec) : State := { s with hearth := { s.hearth with scans := c :: s.hearth.scans } }

theorem scanOut_halted (h : Waits s tag 0x0A f) (hrun : s.running = false) (himg : s.hearth.img = some x) :
    let r := s.scanWritten tag x f.bytes
    scanOut tag s = (r.1.scanKept (s.scanRec x r.2.1)).landing tag 0x00 r.2.2 := by
  simp only [scanOut, startable_waits h, hrun, himg]
  rfl

theorem frame_scanWritten (s : State) (tag : Nat) (x : ImgInfo) (d : List Byte) :
    Frame (.freeIx :: hbmParts) (s.begin tag) (s.scanWritten tag x d).1 := frame_scanBlocks _ _ _ _ _

/-! ## SCAN_IN -/

/-- The blocks that SCAN_IN reads for a descriptor. -/
def State.scanRead (s : State) (tag : Nat) (x : ImgInfo) (d : List Byte) : State × List (List Byte × List Byte) × Bool × Nat :=
  (s.begin tag).readBlocks (dfield d 8 8 % 2 ^ 40) (dfield d 16 8) (s.scanSites x)

theorem frame_scanEpochs (s : State) (es : List ((Nat × Nat × Nat) × Nat)) : Frame [.regs] s (s.scanEpochs es) := by
  induction es generalizing s with
  | nil => exact .refl _ s
  | cons e es ih =>
    obtain ⟨p, n⟩ := e
    exact (((frame_setF s _ _).trans (frame_setF _ _ _)).trans (ih _)).mono (by decide)

/-- A scan that is taken is restored, registers follow, and T0 lies before the halt by the ticks of the scan, where the phase of its
first block says so. -/
theorem scanIn_taken {c : ScanRec} (h : Waits s tag 0x0B f) (hrun : s.running = false) (himg : s.hearth.img = some x)
    (hpoison : (s.scanRead tag x f.bytes).2.2.1 = false)
    (hforeign : ((s.scanRead tag x f.bytes).2.1.map fun b => b.1).any (s.blockForeign x) = false)
    (hplace : dfield (listGet [] ((s.scanRead tag x f.bytes).2.1.map fun b => b.1) 0) 24 4 = s.getF glbPlaceMap_Map)
    (hopen : (s.scanRead tag x f.bytes).1.scanFor x ((s.scanRead tag x f.bytes).2.1.map fun b => b.2) = some c) :
    let r := s.scanRead tag x f.bytes
    let h0 := listGet [] (r.2.1.map fun b => b.1) 0
    ∃ s1 ran, Frame [.regs] (r.1.restore c ((s.scanSites x).map fun p => p.2.2)) s1 ∧
      (c.ran % 2 ^ x.plog = dfield h0 10 1 % 2 ^ x.plog → ran = c.ran) ∧
      scanIn tag s = (s1.setT0 (dfield h0 9 1 % 16) (movedTick 0 ran (s.getF glbHaltTick_Tick))).landing tag 0x00 r.2.2.2 := by
  intro r h0
  let heads := r.2.1.map fun b => b.1
  let s0 := r.1.restore c ((s.scanSites x).map fun p => p.2.2)
  let s2 := s0.scanEpochs ((s.scanSites x).zip (heads.map fun h => dfield h 9 1 % 16))
  let s3 := s2.setF glbImgState_Epoch (dfield h0 9 1 % 16)
  have h3 : Frame [.regs] s0 s3 := ((frame_scanEpochs s0 _).trans (frame_setF s2 _ _)).mono (by decide)
  refine ⟨if x.h = 0 then s3 else s3.setF glbHotSched_Epoch (dfield h0 9 1 % 16),
    if c.ran % 2 ^ x.plog = dfield h0 10 1 % 2 ^ x.plog then c.ran else dfield h0 10 1 % 2 ^ x.plog, ?_, fun heq => if_pos heq, ?_⟩
  · split
    · exact h3
    · exact (h3.trans (frame_setF s3 _ _)).mono (by decide)
  · have hfits : ¬ (heads.any (s.blockForeign x) || dfield h0 24 4 != s.getF glbPlaceMap_Map) = true := by
      simp only [heads, h0, r, hforeign, hplace]
      simp
    simp only [scanIn, startable_waits h, hrun, himg]
    change (if r.2.2.1 = true then _ else if (heads.any (s.blockForeign x) || dfield h0 24 4 != s.getF glbPlaceMap_Map) = true then _
      else match r.1.scanFor x (r.2.1.map fun b => b.2) with | none => _ | some c => _) = _
    rw [show r.2.2.1 = false from hpoison, if_neg Bool.false_ne_true, if_neg hfits, show r.1.scanFor x _ = some c from hopen]
    rfl

theorem movedTick_lt (n from' to' : Nat) : movedTick n from' to' < 2 ^ 58 := by
  unfold movedTick
  omega

/-- What a scan that is taken leaves of the Hearth. -/
theorem scanIn_restores {c : ScanRec} (h : Waits s tag 0x0B f) (hrun : s.running = false) (himg : s.hearth.img = some x)
    (hpoison : (s.scanRead tag x f.bytes).2.2.1 = false)
    (hforeign : ((s.scanRead tag x f.bytes).2.1.map fun b => b.1).any (s.blockForeign x) = false)
    (hplace : dfield (listGet [] ((s.scanRead tag x f.bytes).2.1.map fun b => b.1) 0) 24 4 = s.getF glbPlaceMap_Map)
    (hopen : (s.scanRead tag x f.bytes).1.scanFor x ((s.scanRead tag x f.bytes).2.1.map fun b => b.2) = some c) :
    let h0 := listGet [] ((s.scanRead tag x f.bytes).2.1.map fun b => b.1) 0
    let t := scanIn tag s
    t.hearth.present = c.present ∧
      (c.ran % 2 ^ x.plog = dfield h0 10 1 % 2 ^ x.plog →
        mget (fun _ => 0) t.hearth.t0s (dfield h0 9 1 % 16) = movedTick 0 c.ran (s.getF glbHaltTick_Tick)) ∧
      t.hearth.flights.map Flight.act = c.flights.map Flight.act ∧ t.hearth.img = some x := by
  intro h0 t
  obtain ⟨s1, ran, h1, hran, he⟩ := scanIn_taken h hrun himg hpoison hforeign hplace hopen
  have hframe : Frame hbmParts (s.begin tag) (s.scanRead tag x f.bytes).1 := frame_readBlocks _ _ _ _
  have hkept : (s.scanRead tag x f.bytes).1.hearth = s.hearth := (hframe .hearth (by decide)).trans (hearth_begin s tag)
  have hland : t.hearth = (s1.setT0 (dfield h0 9 1 % 16) (movedTick 0 ran (s.getF glbHaltTick_Tick))).hearth := by
    rw [show t = _ from he]
    exact frame_landing _ tag 0 _ .hearth (by decide)
  have hrestored : s1.hearth = _ := h1 .hearth (by decide)
  refine ⟨?_, fun hphase => ?_, ?_, ?_⟩ <;> rw [hland]
  · rw [hearth_setT0, hrestored]
    rfl
  · rw [t0s_setT0, Nat.mod_eq_of_lt (movedTick_lt ..), hran hphase]
  · rw [hearth_setT0, hrestored]
    simp [State.restore, Function.comp_def]
  · rw [hearth_setT0, hrestored]
    exact (congrArg Hearth.img hkept).trans himg

/-- Settles O34: a running Hearth, a scan out, and a scan that fits. -/
theorem scansOfTheHaltedHearth : Obligations.ScansOfTheHaltedHearth := by
  refine ⟨fun s tag op f hwaits hrun => ⟨?_, ?_⟩, fun s tag f x hwaits hrun himg => ?_,
    fun s tag f x c hwaits hrun himg => ?_⟩
  · rintro rfl
    have hexec : exec (.scanOut tag) s = .next (scanOut tag s) := rfl
    rw [hexec, scanOut_running hwaits hrun]
    exact ⟨_, rfl, ended_begin_loaderDone hwaits.1 _ _, (hearth_loaderDone ..).trans (hearth_begin s tag)⟩
  · rintro rfl
    have hexec : exec (.scanIn tag) s = .next (scanIn tag s) := rfl
    rw [hexec, scanIn_running hwaits hrun]
    exact ⟨_, rfl, ended_begin_loaderDone hwaits.1 _ _, (hearth_loaderDone ..).trans (hearth_begin s tag)⟩
  · have hexec : exec (.scanOut tag) s = .next (scanOut tag s) := rfl
    have hframe := frame_scanWritten s tag x f.bytes
    have hhearth := (hframe .hearth (by decide)).trans (hearth_begin s tag)
    rw [hexec, scanOut_halted hwaits hrun himg]
    generalize s.scanWritten tag x f.bytes = r at hframe hhearth ⊢
    have hkept : Frame [.hearth] r.1 (r.1.scanKept (s.scanRec x r.2.1)) := frame_hearth _ _
    have hruns : Runs (r.1.scanKept (s.scanRec x r.2.1)) tag { f with begun := true } :=
      (runs_begin hwaits.1).frame (hframe.trans hkept) (by decide)
    refine ⟨_, s.scanRec x r.2.1, r.2.2, rfl, ?_, rfl, rfl, rfl, fly_landing hruns.1 0 r.2.2⟩
    rw [frame_landing _ tag 0 r.2.2 .hearth (by decide), State.scanKept, hhearth]
  · intro r heads hpoison hforeign hplace hopen
    exact ⟨_, rfl, scanIn_restores hwaits hrun himg hpoison hforeign hplace hopen⟩

end Sys2Proof.Machine
end

section
/-!
# Takes of the hot edge ports (R215, R246 to R248, R267 to R269, R340)

A take changes its queue, the credits on their way and the twin digest; the entries of a clean score token then add hits and marks to
TRG and change nothing else, so that every entry is judged as the first one is.
-/

set_option autoImplicit false

namespace Sys2Proof.Machine

variable {s t : State} {c n x : Nat} {k : Token} {ks : List Token}

/-! ## The token that a take takes -/

theorem giveCredit_credits (s : State) (site word : Nat) (k : Token) :
    ∃ cr, s.giveCredit site word k = { s with hearth := { s.hearth with credits := cr } } := by
  unfold State.giveCredit State.creditBack
  split
  · exact ⟨_, rfl⟩
  split
  · split <;> exact ⟨_, rfl⟩
  · exact ⟨_, rfl⟩

/-- The port of a course with a take's queue shortened by its head. -/
def State.trgTaken (s : State) (c : Nat) (ks : List Token) : State :=
  s.setEdge (edgeTrg c) { s.edge (edgeTrg c) with rx := { (s.edge (edgeTrg c)).rx with toks := ks } }

/-- What a take leaves alone: all but its queue, the credits on their way and the twin digest. -/
structure Taken (c : Nat) (ks : List Token) (s t : State) : Prop where
  hearth : ∃ cr crc tick, t = { s with hearth :=
    { (s.trgTaken c ks).hearth with credits := cr, twinCrc := crc, twinTick := tick } }

theorem takeToken_cons (hc : c < 25) (h : (s.edge (edgeTrg c)).rx.toks = k :: ks) :
    ∃ t, s.takeToken c = (t, k) ∧ Taken c ks s t := by
  have hkey : ¬ edgeTrg c / 32 = 4 := by simp only [edgeTrg]; omega
  have hin : (s.edge (edgeTrg c)).inQ (edgeTrg c) = (s.edge (edgeTrg c)).rx := if_neg hkey
  have htoks : ((s.edge (edgeTrg c)).inQ (edgeTrg c)).toks = k :: ks := by rw [hin, h]
  obtain ⟨cr, hcr⟩ := giveCredit_credits (s.trgTaken c ks) (edgeSite (edgeTrg c)) ((s.edge (edgeTrg c)).inWord (edgeTrg c)) k
  have htake : s.takeEdge (edgeTrg c) =
      ((s.trgTaken c ks).giveCredit (edgeSite (edgeTrg c)) ((s.edge (edgeTrg c)).inWord (edgeTrg c)) k, some k) := by
    simp only [State.takeEdge, htoks]
    rw [hin, EdgePort.setInQ, if_neg hkey]
    rfl
  refine ⟨_, by simp only [State.takeToken, htake]; rfl, ⟨cr, ?_⟩⟩
  rw [hcr]
  exact ⟨_, _, rfl⟩

theorem Taken.toks (h : Taken c ks s t) : (t.edge (edgeTrg c)).rx.toks = ks := by
  obtain ⟨cr, crc, tick, rfl⟩ := h.hearth
  have hedge : (s.trgTaken c ks).edge (edgeTrg c) = _ := edge_setEdge ..
  exact congrArg (fun e : EdgePort => e.rx.toks) hedge

/-! ## Score takes -/

theorem exec_scoreTake (hc : c < 25) (s : State) : exec (.scoreTake c) s = .next (scoreTake c s) := by
  have h : exec (.scoreTake c) s = .next (s.when (decide (c < 25)) (scoreTake c s)) := rfl
  rw [h, State.when, if_pos (decide_eq_true hc)]

theorem scoreTake_lost (hx : s.takeEntry c 0 = some x) (hlost : s.takeLost (s.takeRel x) = true) :
    scoreTake c s = (s.takeToken c).1.discardTake := by
  simp only [scoreTake, hx, hlost, if_true]

theorem scoreTake_open (hx : s.takeEntry c 0 = some x) (hlost : s.takeLost (s.takeRel x) = false) (htake : s.takeToken c = (t, k))
    (hvoid : k.void = false) : scoreTake c s =
      (t.noteEpoch (s.takeRel x - s.effDelay)).scoreEntries k (s.takeRel x - s.effDelay) (bitsAt x 7 2) (List.range 8) := by
  simp [scoreTake, hx, hlost, htake, hvoid]

/-- TRG with hits and marks more. -/
def State.scored (s : State) (hs : List Hit) (ms : List DetMark) : State :=
  { s with trg := { s.trg with hits := s.trg.hits ++ hs, marks := s.trg.marks ++ ms } }

/-- An entry satisfies the comparison of its detector, which is enabled, and comes before the decision of its device tick. -/
structure Scores (s : State) (k : Token) (dev group j : Nat) : Prop where
  open' : s.trgDone dev = false
  ready : s.frc.toNat + 2 ≤ s.readyLimit dev
  enabled : s.flag (trgSdCfg_En (8 * group + j)) = true
  score : scoreHits (s.flag (trgSdCfg_Pol (8 * group + j))) (bitsAt (bitsAt k.data.toNat (64 * j) 64) 32 32)
    (s.trgReg dev (trgSdThresh (8 * group + j))) = true

/-- A hit of a detector waits, with the offset and the fraction of an entry. -/
def HasHit (dev n e : Nat) (s : State) : Prop :=
  ∃ h ∈ s.trg.hits, h.tick = dev ∧ h.bit = n ∧ h.tag.offset = bitsAt e 16 16 ∧ h.tag.frac = bitsAt e 8 8

theorem Scores.scored {dev group j : Nat} (h : Scores s k dev group j) (hs : List Hit) (ms : List DetMark) :
    Scores (s.scored hs ms) k dev group j := ⟨h.open', h.ready, h.enabled, h.score⟩

theorem HasHit.scored {dev e : Nat} (h : HasHit dev n e s) (hs : List Hit) (ms : List DetMark) : HasHit dev n e (s.scored hs ms) := by
  obtain ⟨y, hy, hrest⟩ := h
  exact ⟨y, List.mem_append_left _ hy, hrest⟩

/-- An entry of a clean token adds hits and marks and changes nothing else. -/
theorem scoreEntry_clean (hpoison : k.poison = false) (dev group j : Nat) : ∃ hs ms, s.scoreEntry k dev group j = s.scored hs ms := by
  unfold State.scoreEntry
  extract_lets m e open' s1 s2 ch off frac tag
  have h2 : ∃ ms, s2 = s.scored [] ms := by
    unfold s2 s1
    rw [hpoison]
    split
    · exact ⟨_, by simp [State.scored, State.markDet]; rfl⟩
    · exact ⟨[], by simp [State.scored]⟩
  obtain ⟨ms, h2⟩ := h2
  split
  · exact ⟨_, ms, by rw [h2]; simp [State.scored, State.addHit]; rfl⟩
  · exact ⟨[], ms, h2⟩

theorem scoreEntry_hit {dev group j : Nat} (hpoison : k.poison = false) (h : Scores s k dev group j) :
    HasHit dev (8 * group + j) (bitsAt k.data.toNat (64 * j) 64) (s.scoreEntry k dev group j) := by
  obtain ⟨hopen, hready, henabled, hscore⟩ := h
  unfold State.scoreEntry
  extract_lets m e open' s1 s2 ch off frac tag
  have hopen' : open' = true := by simp [open', hopen, hready]
  rw [if_pos (by simp only [hopen', hpoison, m, e, henabled, hscore]; rfl)]
  exact ⟨_, List.mem_append_right _ (List.mem_singleton.mpr rfl), rfl, rfl, rfl, rfl⟩

/-- Among the entries of a clean token each that scores leaves its hit. -/
theorem scoreEntries_hit {dev group j : Nat} {js : List Nat} (hpoison : k.poison = false)
    (h : (j ∈ js ∧ Scores s k dev group j) ∨ HasHit dev (8 * group + j) (bitsAt k.data.toNat (64 * j) 64) s) :
    HasHit dev (8 * group + j) (bitsAt k.data.toNat (64 * j) 64) (s.scoreEntries k dev group js) := by
  induction js generalizing s with
  | nil => exact h.resolve_left (by simp)
  | cons i js ih =>
    rw [State.scoreEntries]
    obtain ⟨hs, ms, he⟩ := scoreEntry_clean (s := s) hpoison dev group i
    refine ih ?_
    rcases h with ⟨hmem, hscores⟩ | hhit
    · rcases List.mem_cons.mp hmem with rfl | hmem
      · exact .inr (scoreEntry_hit hpoison hscores)
      · rw [he]
        exact .inl ⟨hmem, hscores.scored hs ms⟩
    · rw [he]
      exact .inr (hhit.scored hs ms)

theorem frame_scoreEntry (s : State) (k : Token) (dev group j : Nat) : Frame [.regs, .incNow, .trg] s (s.scoreEntry k dev group j) := by
  unfold State.scoreEntry
  extract_lets m e open' s1 s2 ch off frac tag
  have h1 : Frame [.regs, .incNow] s s1 := by
    unfold s1
    split
    · exact frame_bump s _ _
    · exact .refl _ s
  have h2 : Frame [.regs, .incNow, .trg] s s2 := by
    unfold s2
    split
    · exact (h1.trans (frame_trg s1 _)).mono (by decide)
    · exact h1.mono (by decide)
  split
  · exact (h2.trans (frame_trg s2 _)).mono (by decide)
  · exact h2

theorem frame_scoreEntries (s : State) (k : Token) (dev group : Nat) (js : List Nat) :
    Frame [.regs, .incNow, .trg] s (s.scoreEntries k dev group js) := by
  induction js generalizing s with
  | nil => exact .refl _ s
  | cons j js ih => exact ((frame_scoreEntry s k dev group j).trans (ih _)).mono (by decide)

/-- A take with its device tick noted judges an entry as the state before it does. -/
theorem Scores.taken {dev group j : Nat} (h : Scores s k dev group j) (ht : Taken c ks s t) (d : Nat) :
    Scores (t.noteEpoch d) k dev group j := by
  obtain ⟨cr, crc, tick, rfl⟩ := ht.hearth
  exact ⟨h.open', h.ready, h.enabled, h.score⟩

theorem scoreTake_toks (hx : s.takeEntry c 0 = some x) (htake : s.takeToken c = (t, k)) (ht : Taken c ks s t) :
    ((scoreTake c s).edge (edgeTrg c)).rx.toks = ks := by
  have hedge {t' : State} (h : t'.hearth = t.hearth) : (t'.edge (edgeTrg c)).rx.toks = ks := by
    rw [edge_congr h, ht.toks]
  simp only [scoreTake, hx, htake]
  split
  · exact hedge (hearth_setF ..)
  split
  · exact hedge rfl
  · exact hedge (frame_scoreEntries _ _ _ _ _ .hearth (by decide))

theorem getF_taken (ht : Taken c ks s t) (g : Fld) : t.getF g = s.getF g := by
  obtain ⟨cr, crc, tick, rfl⟩ := ht.hearth
  rfl

theorem trg_taken (ht : Taken c ks s t) : t.trg = s.trg := by
  obtain ⟨cr, crc, tick, rfl⟩ := ht.hearth
  rfl

/-! ## Capture takes -/

theorem exec_captureTake (hc : c < 25) (s : State) : exec (.captureTake c) s = .next (captureTake c s) := by
  have h : exec (.captureTake c) s = .next (s.when (decide (c < 25)) (captureTake c s)) := rfl
  rw [h, State.when, if_pos (decide_eq_true hc)]

theorem pools_taken (ht : Taken c ks s t) : t.pools = s.pools := by
  obtain ⟨cr, crc, tick, rfl⟩ := ht.hearth
  rfl

theorem captureTake_off (hx : s.takeEntry c 1 = some x) (hlost : s.takeLost (s.takeRel x) = false) (htake : s.takeToken c = (t, k))
    (ht : Taken c ks s t) (hoff : (s.pool (bitsAt x 5 4)).on = false) :
    captureTake c s = t.noteEpoch (s.takeRel x - s.effDelay) := by
  have hpool : t.pool (bitsAt x 5 4) = s.pool (bitsAt x 5 4) := pool_congr (pools_taken ht) _
  simp [captureTake, hx, hlost, htake, hpool, hoff]

/-- A take that its pool takes joins the takes that wait, which are written as far as their order allows. -/
theorem captureTake_on (hx : s.takeEntry c 1 = some x) (hlost : s.takeLost (s.takeRel x) = false) (htake : s.takeToken c = (t, k))
    (ht : Taken c ks s t) (hon : (s.pool (bitsAt x 5 4)).on = true) : let p := s.pool (bitsAt x 5 4)
    ∃ b o, captureTake c s = (t.noteEpoch (s.takeRel x - s.effDelay)).poolPut (bitsAt x 5 4)
      (({ p with later := p.later ++ [(⟨s.takeRel x, b, k.data, k.poison, k.void, k.suspect, o⟩ : CapTake)] }).drain
        (s.ringSize (bitsAt x 5 4)) (s.getF (trgPoolCtrl_Deadband (bitsAt x 5 4))) (s.getF (trgPoolCap_E (bitsAt x 5 4)))
        (fun n => n - s.effDelay) (p.later.length + 1)) := by
  have hpool : t.pool (bitsAt x 5 4) = s.pool (bitsAt x 5 4) := pool_congr (pools_taken ht) _
  refine ⟨32 * s.takesBefore c (bitsAt x 5 4) (bitsAt x 11 4),
    match s.ing.maps.find? fun m => m.1 == s.takeRel x with | some m => m.2.2.toNat.testBit (bitsAt x 5 4) | none => false, ?_⟩
  simp [captureTake, hx, hlost, htake, hpool, hon] <;> rfl

theorem pool_poolPut_ne (s : State) {a b : Nat} (p : Pool) (h : a ≠ b) : (s.poolPut b p).pool a = s.pool a := by
  unfold State.poolPut
  extract_lets n s1
  have h1 : s1.pool a = s.pool a := mget_mput_ne _ _ _ h
  split
  · exact h1
  · rw [pool_congr (s := s1) (by simp), h1]

/-! ## One element of a pool (R269) -/

theorem closeGap_none {p : Pool} (h : p.gapRun = 0) (ring : Nat) : p.closeGap ring = p := if_pos h

theorem endIfDone_none {p : Pool} (h : p.capt = none) (ring : Nat) : p.endIfDone ring = p := by
  simp only [Pool.endIfDone, h]

/-- What every element of a clean take ends with, stored or not: one more has passed, and a record that is due ends. -/
def Pool.handled (r : Pool) (ring : Nat) (sus : Bool) : Pool :=
  if r.stopped.isSome then r.lose else ({ r with susRun := sus } : Pool).advance.endIfDone ring

/-- An element of a clean take in a pool that writes and has no gap run. -/
theorem element_clean {p : Pool} {k : CapTake} (ring dead : Nat) (x : BitVec 16) (hstopped : p.stopped = none) (hgap : p.gapRun = 0)
    (hvoid : k.void = false) (hpoison : k.poison = false) : p.element ring dead k x =
      (if p.first || beyond dead x p.held || k.suspect != p.susRun then p.store ring k.ovr x k.suspect else p).handled
        ring k.suspect := by
  simp [Pool.element, Pool.handled, closeGap_none hgap, hstopped, hvoid, hpoison]

/-- Storing an element lets none pass, and begins no record. -/
theorem store_passes_none {p : Pool} (hcapt : p.capt = none) (ring : Nat) (ovr : Bool) (x : BitVec 16) (sus : Bool) :
    let q := p.store ring ovr x sus
    q.elem = p.elem ∧ q.total = p.total ∧ q.capt = none := by
  unfold Pool.store
  split
  · dsimp only
    split <;> simp [Pool.anchorSet, Pool.flagRec, Pool.put, hcapt]
  · simp [Pool.stop, Pool.endRec, hcapt]

/-- An element that finds room is the held value, in one more sample entry. -/
theorem store_room {p : Pool} {ring : Nat} (hroom : p.room ring 4 = true) (ovr : Bool) (x : BitVec 16) (sus : Bool) :
    let q := p.store ring ovr x sus
    q.stopped = p.stopped ∧ q.pos = p.pos + 4 ∧ q.held = x ∧ q.last = p.elem + 1 ∧
      q.wbuf = p.wbuf ++ leBytes 4 (sampleWord sus (p.elem - p.last) x) := by
  unfold Pool.store
  rw [if_pos hroom]
  dsimp only
  split <;> simp [Pool.anchorSet, Pool.flagRec, Pool.put]

theorem handled_writing {r : Pool} (hcapt : r.capt = none) (hstopped : r.stopped = none) (ring : Nat) (sus : Bool) :
    r.handled ring sus = ({ r with susRun := sus } : Pool).advance := by
  rw [Pool.handled, if_neg (by simp [hstopped])]
  exact endIfDone_none (p := ({ r with susRun := sus } : Pool).advance) hcapt ring

theorem handled_counts {r : Pool} (hcapt : r.capt = none) (ring : Nat) (sus : Bool) :
    (r.handled ring sus).elem = r.elem + 1 ∧ (r.handled ring sus).total = r.total + 1 := by
  cases hstopped : r.stopped with
  | none =>
    rw [handled_writing hcapt hstopped]
    exact ⟨rfl, rfl⟩
  | some _ =>
    rw [Pool.handled, hstopped]
    exact ⟨rfl, rfl⟩

section
variable {p : Pool} {ring dead : Nat} {k : CapTake} {x : BitVec 16} (hstopped : p.stopped = none) (hgap : p.gapRun = 0)
  (hcapt : p.capt = none) (hvoid : k.void = false) (hpoison : k.poison = false)
include hstopped hgap hcapt hvoid hpoison

theorem element_counts : (p.element ring dead k x).elem = p.elem + 1 ∧ (p.element ring dead k x).total = p.total + 1 := by
  rw [element_clean ring dead x hstopped hgap hvoid hpoison]
  split
  · obtain ⟨helem, htotal, hnone⟩ := store_passes_none hcapt ring k.ovr x k.suspect
    rw [← helem, ← htotal]
    exact handled_counts hnone ring k.suspect
  · exact handled_counts hcapt ring k.suspect

/-- An element within the dead band is not stored. -/
theorem element_within (hfirst : p.first = false) (hsus : k.suspect = p.susRun) (hin : beyond dead x p.held = false) :
    p.element ring dead k x = ({ p with susRun := k.suspect } : Pool).advance := by
  rw [element_clean ring dead x hstopped hgap hvoid hpoison, if_neg (by simp [hfirst, hin, hsus]), handled_writing hcapt hstopped]

/-- An element beyond the dead band that finds room is stored. -/
theorem element_beyond (hout : beyond dead x p.held = true) (hroom : p.room ring 4 = true) :
    p.element ring dead k x = ({ p.store ring k.ovr x k.suspect with susRun := k.suspect } : Pool).advance := by
  obtain ⟨hwrites, -⟩ := store_room hroom k.ovr x k.suspect
  obtain ⟨-, -, hnone⟩ := store_passes_none hcapt ring k.ovr x k.suspect
  rw [element_clean ring dead x hstopped hgap hvoid hpoison, if_pos (by simp [hout]), handled_writing hnone (hwrites.trans hstopped)]

end

/-- Settles O35: a score take by whether it is lost, a capture take by whether its pool runs, and an element by its distance from the
held value. -/
theorem takesReachDetectorsAndPools : Obligations.TakesReachDetectorsAndPools := by
  refine ⟨fun s c x k ks hc hx htoks => ?_, fun s c x k ks hc hx htoks hlost => ?_,
    fun p ring dead k x hstopped hgap hfirst hcapt hvoid hpoison hsus => ?_⟩
  · intro dev
    obtain ⟨t, htake, ht⟩ := takeToken_cons hc htoks
    refine ⟨_, exec_scoreTake hc s, scoreTake_toks hx htake ht, fun hlost => ?_,
      fun hlost hvoid hpoison hopen hready j hj => ?_⟩
    · rw [scoreTake_lost hx hlost, htake, State.discardTake, getF_setF_same _ _ _ (by decide), getF_taken ht,
        Nat.mod_eq_of_lt (b := 2 ^ glbSwapGap_Discarded.width) (satAdd_lt 16 _ 1), trg_setF, trg_taken ht]
      exact ⟨rfl, rfl⟩
    · intro n e hen hscore
      rw [scoreTake_open hx hlost htake hvoid]
      have hscores : Scores s k dev (bitsAt x 7 2) j := ⟨hopen, hready, hen, hscore⟩
      exact scoreEntries_hit hpoison (.inl ⟨List.mem_range.mpr hj, hscores.taken ht _⟩)
  · intro p
    obtain ⟨t, htake, ht⟩ := takeToken_cons hc htoks
    have hpools : (t.noteEpoch (s.takeRel x - s.effDelay)).pools = s.pools := (pools_taken ht :)
    rcases Bool.eq_false_or_eq_true p.on with hon | hon
    · obtain ⟨b, o, he⟩ := captureTake_on hx hlost htake ht hon
      rw [exec_captureTake hc, he]
      refine ⟨_, rfl, ?_, fun d hd => ?_, fun hoff => absurd hon (by simp [hoff]), fun _ => ⟨b, o, pool_poolPut ..⟩⟩
      · rw [edge_congr (hearth_poolPut ..)]
        exact ht.toks
      · rw [pool_poolPut_ne _ _ hd, pool_congr hpools]
    · rw [exec_captureTake hc, captureTake_off hx hlost htake ht hon]
      exact ⟨_, rfl, ht.toks, fun d _ => pool_congr hpools d, fun _ => hpools, fun hon' => absurd hon' (by simp [hon])⟩
  · intro q
    obtain ⟨helem, htotal⟩ := element_counts (ring := ring) (dead := dead) (x := x) hstopped hgap hcapt hvoid hpoison
    refine ⟨helem, htotal, fun hin => ?_, fun hout hroom => ?_⟩
    · rw [show q = _ from element_within hstopped hgap hcapt hvoid hpoison hfirst hsus hin]
      exact ⟨rfl, rfl, rfl⟩
    · obtain ⟨-, hpos, hheld, hlast, hwbuf⟩ := store_room hroom k.ovr x k.suspect
      rw [show q = _ from element_beyond hstopped hgap hcapt hvoid hpoison hout hroom]
      exact ⟨hpos, hheld, hlast, hwbuf⟩

end Sys2Proof.Machine
end

section
/-!
# Chimney ports: what every received block brings (R39, R40, R260, R261)

A block that arrives moves the line history and the block-lock machine of its port, and two fields of its STATUS; `Synced` says what
that leaves. A good message of the expected TYPE then acts on the state so moved, and a bad one is counted in it.
-/

set_option autoImplicit false

namespace Sys2Proof.Machine

variable {s t : State} {p : Nat} {m : W64}

/-! ## Ports -/

theorem chmPort_congr (h : t.chm = s.chm) (p : Nat) : t.chmPort p = s.chmPort p := by simp only [State.chmPort, h]

@[simp] theorem chmPort_setChm (s : State) (p : Nat) (x : ChmPort) : (s.setChm p x).chmPort p = x := mget_mput_same ..

theorem chmPort_setChm_ne (s : State) {p q : Nat} (x : ChmPort) (h : q ≠ p) : (s.setChm p x).chmPort q = s.chmPort q :=
  mget_mput_ne _ _ _ h

@[simp] theorem chmPort_setF (s : State) (f : Fld) (v p : Nat) : (s.setF f v).chmPort p = s.chmPort p := chmPort_congr (by simp) p

@[simp] theorem chmPort_bump (s : State) (f : Fld) (k p : Nat) : (s.bump f k).chmPort p = s.chmPort p := chmPort_congr (by simp) p

@[simp] theorem chmPort_raise (s : State) (f : Fld) (p : Nat) : (s.raise f).chmPort p = s.chmPort p := chmPort_congr (by simp) p

theorem frame_setChm (s : State) (p : Nat) (x : ChmPort) : Frame [.chm] s (s.setChm p x) := by
  intro c hc
  cases c <;> simp_all [Comp.same]

/-- A timestamp depends on FRC and on an FRC load of the cycle alone. -/
theorem stampFrc_of_frame {cs : List Comp} (h : Frame cs s t) (hfrc : Comp.frc ∉ cs) (htim : Comp.tim ∉ cs) :
    t.stampFrc = s.stampFrc := by
  have hf : t.frc = s.frc := h .frc hfrc
  have ht : t.tim = s.tim := h .tim htim
  simp only [State.stampFrc, hf, ht]

/-! ## A block that arrives -/

/-- The fields of STATUS that the sync header of a block sets. -/
def lockFields (p : Nat) : List Fld := [chmPortStatus_BlockLock p, chmPortStatus_Signal p]

/-- The other fields that the receiver of a port reads or writes. -/
def receiveFields (p : Nat) : List Fld :=
  [chmPortStatus_EchoValid p, chmPortRttF p, chmPortOnewayF p, chmPortCrcErrF p, chmPortLateF p, chmPortShadowDropF p,
    chmPortRxDropF p, timChmAsym_Asym p, chmCtrl_AcceptShadow, chmCtrl_RefCh, chmSyslat_Cycles, trgCtrl_NohotLat]

theorem lockFields_apart : ∀ p < 4, ∀ g ∈ receiveFields p, ∀ f ∈ lockFields p, f.Apart g := by decide

/-- What a sync header leaves of the state: but for two fields and the counts of its port all is as it was. -/
structure Synced (p : Nat) (s t : State) : Prop where
  port : ∃ hist good winCnt winBad, t.chmPort p = { s.chmPort p with hist, good, winCnt, winBad }
  others : ∀ q, q ≠ p → t.chmPort q = s.chmPort q
  fields : FieldsKept (lockFields p) s t
  frame : Frame [.regs, .chm] s t

theorem chmSync_synced (s : State) (p : Nat) (valid : Bool) (hist : Nat) : Synced p s (s.chmSync p valid hist) := by
  unfold State.chmSync
  extract_lets x k
  refine ⟨⟨hist, k.1, k.2.1, k.2.2.1, ?_⟩, fun q hq => ?_, ?_, ?_⟩
  · rw [chmPort_setF, chmPort_setF, chmPort_setChm]
  · rw [chmPort_setF, chmPort_setF, chmPort_setChm_ne s _ hq]
  · have hset (u : State) (f : Fld) (hf : f ∈ lockFields p) (v : Nat) : FieldsKept (lockFields p) u (u.setF f v) :=
      fieldsKept_setF u v hf
    exact (FieldsKept.of_regs (regs_setChm ..) (part_setChm ..)).trans
      ((hset _ _ (by simp [lockFields]) _).trans (hset _ _ (by simp [lockFields]) _))
  · exact (((frame_setChm s p _).trans (frame_setF _ _ _)).trans (frame_setF _ _ _)).mono (by decide)

section
variable (h : Synced p s t)
include h

theorem Synced.getF (hp : p < 4) {g : Fld} (hg : g ∈ receiveFields p) : t.getF g = s.getF g :=
  h.fields g (lockFields_apart p hp g hg)

theorem Synced.flag (hp : p < 4) {g : Fld} (hg : g ∈ receiveFields p) : t.flag g = s.flag g := flag_congr (h.getF hp hg)

theorem Synced.trg : t.trg = s.trg := h.frame .trg (by decide)

theorem Synced.hearth : t.hearth = s.hearth := h.frame .hearth (by decide)

theorem Synced.stampFrc : t.stampFrc = s.stampFrc := stampFrc_of_frame h.frame (by decide) (by decide)

theorem Synced.stamp (f : Byte) : t.stamp f = s.stamp f := by rw [State.stamp, h.stampFrc, State.stamp]

theorem Synced.trgDone (k : Nat) : t.trgDone k = s.trgDone k := by simp only [State.trgDone, h.trg]

theorem Synced.readyLimit (hp : p < 4) (k : Nat) : t.readyLimit k = s.readyLimit k := by
  simp only [State.readyLimit, State.trgLd, State.oldFor, State.trgLat, State.hotImage, h.trg, h.hearth,
    h.getF hp (g := trgCtrl_NohotLat) (by simp [receiveFields])]

theorem Synced.rxq : (t.chmPort p).rxq = (s.chmPort p).rxq := by
  obtain ⟨_, _, _, _, hport⟩ := h.port
  rw [hport]

theorem Synced.txq : (t.chmPort p).txq = (s.chmPort p).txq := by
  obtain ⟨_, _, _, _, hport⟩ := h.port
  rw [hport]

theorem Synced.replies : (t.chmPort p).replies = (s.chmPort p).replies := by
  obtain ⟨_, _, _, _, hport⟩ := h.port
  rw [hport]

theorem Synced.echo : (t.chmPort p).echo = (s.chmPort p).echo := by
  obtain ⟨_, _, _, _, hport⟩ := h.port
  rw [hport]

end

/-! ## Messages -/

/-- The state in which a message acts: its block has moved the line history and the lock of the port. -/
def State.lineMoved (s : State) (p : Nat) (m : W64) : State :=
  s.chmSync p true (scrambleHist (s.chmPort p).hist ((bitsLsb 64 m.toNat).reverse))

theorem lineMoved_synced (s : State) (p : Nat) (m : W64) : Synced p s (s.lineMoved p m) := chmSync_synced ..

/-- A port that receives: it listens and holds block lock. -/
structure Receives (s : State) (p : Nat) : Prop where
  port : p < 4
  listens : s.chmListens p = true
  locked : s.flag (chmPortStatus_BlockLock p) = true

/-- A good message of the TYPE that a command expects acts. -/
theorem chmMessage_good (h : Receives s p) (hgood : chmGood m.toNat = true) {ty : Nat} (hty : chmType m.toNat = ty) (hne : ty ≠ 0)
    (f : State → State) : s.chmMessage p ty m f = f (s.lineMoved p m) := by
  simp only [State.chmMessage, h.listens, h.locked, hgood, hty, if_true]
  simp [hne, State.lineMoved]

/-- A bad message is counted, whatever TYPE the command expects. -/
theorem chmMessage_bad (h : Receives s p) (hbad : chmGood m.toNat = false) (hty : chmType m.toNat ≠ 0) (ty : Nat) (f : State → State) :
    s.chmMessage p ty m f = (s.lineMoved p m).bump (chmPortCrcErrF p) 1 := by
  simp [State.chmMessage, h.listens, h.locked, hbad, hty, State.lineMoved]

/-- A counter of a port raised once, in the state that a block has moved. -/
theorem Synced.getF_bump (h : Synced p s t) (hp : p < 4) {g : Fld} (hg : g ∈ receiveFields p) (hw : g.lsb + g.width ≤ 64) :
    (t.bump g 1).getF g = satAdd g.width (s.getF g) 1 := by
  rw [getF_bump_same _ _ _ hw, h.getF hp hg]

theorem Synced.frame_bump (h : Synced p s t) (f : Fld) (k : Nat) : Frame [.regs, .incNow, .chm] s (t.bump f k) :=
  (h.frame.trans (Machine.frame_bump t f k)).mono (by decide)

/-! ## USER messages and the receive queue (R266) -/

/-- A command that names one of the n things of its kind acts. -/
theorem next_when {n i : Nat} (hi : i < n) (s t : State) : (.next (s.when (decide (i < n)) t) : Out) = .next t :=
  congrArg Host.Outcome.next (if_pos (decide_eq_true hi))

theorem exec_chmUser (hp : p < 4) (m : W64) (s : State) : exec (.chmUser p m) s = .next (chmUser p m s) := next_when hp s _

theorem exec_rxqPop (hp : p < 4) (s : State) : exec (.rxqPop p) s = .next (rxqPop p s) := next_when hp s _

/-- A good USER message joins the receive queue while that has room. -/
theorem chmUser_room (h : Receives s p) (hgood : chmGood m.toNat = true) (hty : chmType m.toNat = 4)
    (hroom : (s.chmPort p).rxq.length < 16) : chmUser p m s = (s.lineMoved p m).setChm p
      { (s.lineMoved p m).chmPort p with rxq := (s.chmPort p).rxq ++ [(m, BitVec.ofNat 64 s.stampFrc)] } := by
  have hsync := lineMoved_synced s p m
  rw [chmUser, chmMessage_good h hgood hty (by decide)]
  simp only [hsync.rxq, hsync.stampFrc, if_pos hroom]

/-- A good USER message that finds the queue full is dropped and counted. -/
theorem chmUser_full (h : Receives s p) (hgood : chmGood m.toNat = true) (hty : chmType m.toNat = 4)
    (hfull : 16 ≤ (s.chmPort p).rxq.length) : chmUser p m s = (s.lineMoved p m).bump (chmPortRxDropF p) 1 := by
  rw [chmUser, chmMessage_good h hgood hty (by decide)]
  simp only [(lineMoved_synced s p m).rxq, if_neg (Nat.not_lt.mpr hfull)]

theorem chmUser_others (h : Receives s p) (hgood : chmGood m.toNat = true) (hty : chmType m.toNat = 4) {q : Nat} (hq : q ≠ p) :
    (chmUser p m s).chmPort q = s.chmPort q := by
  have hsync := lineMoved_synced s p m
  rcases Nat.lt_or_ge (s.chmPort p).rxq.length 16 with hroom | hfull
  · rw [chmUser_room h hgood hty hroom, chmPort_setChm_ne _ _ hq, hsync.others q hq]
  · rw [chmUser_full h hgood hty hfull, chmPort_bump, hsync.others q hq]

/-- Settles O40, by whether the queue has room. -/
theorem userMessageEntersItsQueue : Obligations.UserMessageEntersItsQueue := by
  refine fun s p hp => ⟨fun m hlisten hlock hty hgood => ?_, ?_⟩
  · have hrec : Receives s p := ⟨hp, hlisten, hlock⟩
    have hsync := lineMoved_synced s p m
    refine ⟨_, exec_chmUser hp m s, fun q hq => chmUser_others hrec hgood hty hq, fun hroom => ?_, fun hfull => ?_⟩
    · rw [chmUser_room hrec hgood hty hroom, chmPort_setChm]
      exact ⟨rfl, (hsync.frame.trans (frame_setChm _ _ _)).mono (by decide)⟩
    · rw [chmUser_full hrec hgood hty hfull, chmPort_bump]
      exact ⟨hsync.rxq, hsync.getF_bump hp (by simp [receiveFields]) (by simp [chmPortRxDropF]), hsync.frame_bump _ _⟩
  · refine ⟨_, exec_rxqPop hp s, ?_⟩
    rw [rxqPop, List.drop_one]
    exact ⟨chmPort_setChm .., fun q hq => chmPort_setChm_ne s _ hq, frame_setChm _ _ _⟩

end Sys2Proof.Machine
end

section
/-!
# Messages that a Chimney port receives (R261, R263, R264, R284)

The action of each TYPE on the state in which its message acts, told by the state before its block.
-/

set_option autoImplicit false

namespace Sys2Proof.Machine

variable {s t : State} {p : Nat} {m : W64} {f : Byte}

/-! ## Events -/

/-- A lost event, its queue's overflow and its count stand in STK: every word below is as it was. -/
theorem word_event_below (s : State) (q ty src tick : Nat) (body : List Byte) {off : Nat} (h : off < stkEvtLost) :
    (s.event q ty src tick body).word off = s.word off := by
  have hbump (u : State) {g : Fld} (hw : g.lsb + g.width ≤ 32) (hg : stkEvtLost ≤ g.off) : (u.bump g 1).word off = u.word off :=
    wordsKept_bump u g 1 hw off (by simp only [List.mem_singleton]; omega)
  have hraise (u : State) {g : Fld} (hw : g.lsb + g.width ≤ 32) (hg : stkEvtLost ≤ g.off) : (u.raise g).word off = u.word off :=
    wordsKept_raise u g hw off (by simp only [List.mem_singleton]; omega)
  unfold State.event State.hand State.evtLost
  split
  · dsimp only
    split
    · rw [word_assertSrc, hraise _ (by simp [stkCqStat_Ovf]) (by simp only [stkCqStat_Ovf, stkCqStat, stkEvtLost]; omega),
        hbump _ (by simp [stkCqLostF]) (by simp only [stkCqLostF, stkCqLost, stkEvtLost]; omega)]
    · exact word_setCq ..
  · rw [word_assertSrc, hbump _ (by decide) (by decide)]

theorem getF_routed_below (s : State) (r ty src tick : Nat) (body : List Byte) {g : Fld} (hw : g.lsb + g.width ≤ 32)
    (h : g.off < stkEvtLost) : (s.routed r ty src tick body).getF g = s.getF g := by
  have hword : (s.routed r ty src tick body).word g.off = s.word g.off := by
    unfold State.routed
    dsimp only
    split
    · exact word_event_below s _ _ _ _ _ h
    · have hlost : s.evtLost.word g.off = s.word g.off := by
        rw [State.evtLost, word_assertSrc]
        exact wordsKept_bump s stkEvtLostF 1 (by decide) g.off (by simp only [List.mem_singleton, stkEvtLostF]; omega)
      exact hlost
  simp only [State.getF, State.regNat, if_pos hw, hword]

/-! ## Trigger messages (R261, R263) -/

/-- The action time of a trigger message, in 1/256 cycle (R263). -/
def State.actionTime (s : State) (p : Nat) (m : W64) (f : Byte) : Int :=
  (s.stamp f : Int) - sint 32 (s.getF (chmPortOnewayF p)) - chmTime m.toNat + 256 * s.getF chmSyslat_Cycles

/-- The device tick of the action time. -/
def State.actionTick (s : State) (p : Nat) (m : W64) (f : Byte) : Nat := (s.actionTime p m f).toNat / 16384

/-- The action time lies ahead of the decision of its device tick. -/
def State.actsInTime (s : State) (p : Nat) (m : W64) (f : Byte) : Bool :=
  !s.trgDone (s.actionTick p m f) && decide (s.stamp f + 4096 ≤ 256 * s.readyLimit (s.actionTick p m f))

theorem Synced.actionTime (h : Synced p s t) (hp : p < 4) : t.actionTime p m f = s.actionTime p m f := by
  simp only [State.actionTime, h.stamp, h.getF hp (g := chmPortOnewayF p) (by simp [receiveFields]),
    h.getF hp (g := chmSyslat_Cycles) (by simp [receiveFields])]

theorem Synced.actionTick (h : Synced p s t) (hp : p < 4) : t.actionTick p m f = s.actionTick p m f := by
  rw [State.actionTick, h.actionTime hp, State.actionTick]

theorem Synced.actsInTime (h : Synced p s t) (hp : p < 4) : t.actsInTime p m f = s.actsInTime p m f := by
  simp only [State.actsInTime, h.actionTick hp, h.trgDone, h.stamp, h.readyLimit hp]

/-- The hit that a trigger message makes. -/
def State.lineHit (s : State) (p : Nat) (m : W64) (f : Byte) : Hit :=
  ⟨s.actionTick p m f, 36 + chmLine m.toNat,
    s.tagAt (s.actionTick p m f) (s.getF chmCtrl_RefCh) ((s.actionTime p m f).toNat % 16384), s.frc.toNat + 16, false, chmSuspect m.toNat⟩

/-- A late trigger message is counted, with its event. -/
def State.lateTrigger (s : State) (p : Nat) (m : W64) (f : Byte) : State :=
  (s.bump (chmPortLateF p) 1).routed 1 0x13 3 (s.actionTick p m f)
    (body32 (leBytes 8 (s.actionTick p m f) ++ leBytes 1 p ++ leBytes 1 (chmLine m.toNat)))

section
variable (h : Receives s p) (hgood : chmGood m.toNat = true)
include h hgood

/-- A good trigger message, by the conditions of R263 in their order. -/
theorem triggerReceive_eq (hty : chmType m.toNat = 1) : chimneyTriggerReceive p m f s =
    if chmShadow m.toNat && !s.flag chmCtrl_AcceptShadow then (s.lineMoved p m).bump (chmPortShadowDropF p) 1
    else if !s.flag (chmPortStatus_EchoValid p) then (s.lineMoved p m).bump (chmPortLateF p) 1
    else if s.actsInTime p m f then (s.lineMoved p m).addHit ((s.lineMoved p m).lineHit p m f)
    else (s.lineMoved p m).lateTrigger p m f := by
  have hsync := lineMoved_synced s p m
  rw [chimneyTriggerReceive, chmMessage_good h hgood hty (by decide), ← hsync.actsInTime h.port,
    ← hsync.flag h.port (g := chmCtrl_AcceptShadow) (by simp [receiveFields]),
    ← hsync.flag h.port (g := chmPortStatus_EchoValid p) (by simp [receiveFields])]
  rfl

theorem triggerReceive_hearth (hty : chmType m.toNat = 1) : (chimneyTriggerReceive p m f s).hearth = s.hearth := by
  have hh := (lineMoved_synced s p m).hearth
  rw [triggerReceive_eq h hgood hty]
  split
  · rw [hearth_bump, hh]
  split
  · rw [hearth_bump, hh]
  split
  · exact hh
  · rw [State.lateTrigger, hearth_routed, hearth_bump, hh]

theorem triggerReceive_shadow (hty : chmType m.toNat = 1) (hshadow : chmShadow m.toNat = true)
    (hrefuse : s.flag chmCtrl_AcceptShadow = false) :
    chimneyTriggerReceive p m f s = (s.lineMoved p m).bump (chmPortShadowDropF p) 1 := by
  rw [triggerReceive_eq h hgood hty, if_pos (by simp [hshadow, hrefuse])]

theorem triggerReceive_late (hty : chmType m.toNat = 1) (haccept : chmShadow m.toNat = true → s.flag chmCtrl_AcceptShadow = true)
    (hlate : s.flag (chmPortStatus_EchoValid p) = false ∨ s.actsInTime p m f = false) :
    (chimneyTriggerReceive p m f s).getF (chmPortLateF p) = satAdd 32 (s.getF (chmPortLateF p)) 1 ∧
      (chimneyTriggerReceive p m f s).trg = s.trg := by
  have hsync := lineMoved_synced s p m
  have hcount : ((s.lineMoved p m).bump (chmPortLateF p) 1).getF (chmPortLateF p) = satAdd 32 (s.getF (chmPortLateF p)) 1 :=
    hsync.getF_bump h.port (by simp [receiveFields]) (by simp [chmPortLateF])
  have hp := h.port
  rw [triggerReceive_eq h hgood hty, if_neg (by simpa using haccept)]
  split
  next => exact ⟨hcount, by rw [trg_bump, hsync.trg]⟩
  next hvalid =>
    rw [if_neg (by simpa using hlate.resolve_left (by simpa using hvalid)), State.lateTrigger,
      getF_routed_below _ _ _ _ _ _ (by simp [chmPortLateF]) (by simp only [chmPortLateF, chmPortLate, stkEvtLost]; omega)]
    exact ⟨hcount, by rw [trg_routed, trg_bump, hsync.trg]⟩

theorem triggerReceive_inTime (hty : chmType m.toNat = 1) (haccept : chmShadow m.toNat = true → s.flag chmCtrl_AcceptShadow = true)
    (hvalid : s.flag (chmPortStatus_EchoValid p) = true) (hin : s.actsInTime p m f = true) :
    chimneyTriggerReceive p m f s = (s.lineMoved p m).addHit ((s.lineMoved p m).lineHit p m f) := by
  rw [triggerReceive_eq h hgood hty, if_neg (by simpa using haccept), if_neg (by simp [hvalid]), if_pos hin]

/-! ## Echoes (R264, R284) -/

theorem echoReq_eq (hty : chmType m.toNat = 2) : echoReq p m f s = (s.lineMoved p m).setChm p { (s.lineMoved p m).chmPort p with
    replies := (s.chmPort p).replies ++ [(chmSeq m.toNat, s.stamp f)] } := by
  have hsync := lineMoved_synced s p m
  rw [echoReq, chmMessage_good h hgood hty (by decide)]
  simp only [hsync.replies, hsync.stamp]

end

/-- Half of a round trip is cut to 32 bits, and rounded where it is odd. -/
theorem halfTrip_value (s : State) (rtt : Nat) (asym : Int) :
    ∃ r ≤ rtt % 2, (s.halfTrip rtt asym).1 = unsint 32 (((rtt / 2 + r : Nat) : Int) + asym) := by
  unfold State.halfTrip
  dsimp only
  split
  · exact ⟨0, Nat.zero_le _, rfl⟩
  · refine ⟨(s.draw 1).1.toNat, ?_, rfl⟩
    have hbit := (s.draw 1).1.isLt
    omega

theorem frame_halfTrip (s : State) (rtt : Nat) (asym : Int) : Frame [.freeIx] s (s.halfTrip rtt asym).2 := by
  unfold State.halfTrip
  dsimp only
  split
  · exact .refl _ s
  · exact frame_draw s 1

/-- A port whose echo is answered: its round trip, the half of it, and ECHO_VALID. -/
def State.echoed (s : State) (p rtt half : Nat) : State :=
  (((s.setChm p { s.chmPort p with echo := none }).setF (chmPortRttF p) rtt).setF (chmPortOnewayF p) half).setF
    (chmPortStatus_EchoValid p) 1

theorem echoFields_apart : ∀ p < 4, (chmPortOnewayF p).Apart (chmPortRttF p) ∧ (chmPortStatus_EchoValid p).Apart (chmPortRttF p) ∧
    (chmPortStatus_EchoValid p).Apart (chmPortOnewayF p) := by decide

theorem echoed_spec (hp : p < 4) (s : State) (rtt : Nat) {half : Nat} (hhalf : half < 2 ^ 32) :
    (s.echoed p rtt half).getF (chmPortRttF p) = rtt % 2 ^ 32 ∧ (s.echoed p rtt half).getF (chmPortStatus_EchoValid p) = 1 ∧
      (s.echoed p rtt half).getF (chmPortOnewayF p) = half ∧ ((s.echoed p rtt half).chmPort p).echo = none ∧
      Frame [.regs, .chm] s (s.echoed p rtt half) := by
  obtain ⟨hrtt, hrtt', honeway⟩ := echoFields_apart p hp
  unfold State.echoed
  refine ⟨?_, getF_setF_same _ _ _ (by simp [chmPortStatus_EchoValid]), ?_, by simp, ?_⟩
  · rw [getF_setF_of_apart _ _ hrtt', getF_setF_of_apart _ _ hrtt, getF_setF_same _ _ _ (by simp [chmPortRttF])]
    rfl
  · rw [getF_setF_of_apart _ _ honeway, getF_setF_same _ _ _ (by simp [chmPortOnewayF])]
    exact Nat.mod_eq_of_lt hhalf
  · exact (((frame_setChm s p _).trans (frame_setF _ _ _)).trans ((frame_setF _ _ _).trans (frame_setF _ _ _))).mono (by decide)

/-- The round trip that an answer shows. -/
def State.roundTrip (s : State) (sent : Nat) (m : W64) (f : Byte) : Nat := s.stamp f - sent - chmTime m.toNat

theorem echoRsp_eq (h : Receives s p) (hgood : chmGood m.toNat = true) (hty : chmType m.toNat = 3) {e : Nat × Nat × Nat}
    (hecho : (s.chmPort p).echo = some e) (hseq : e.1 = chmSeq m.toNat) :
    let trip := (s.lineMoved p m).halfTrip (s.roundTrip e.2.1 m f) (sint 32 (s.getF (timChmAsym_Asym p)))
    echoRsp p m f s = trip.2.echoed p (s.roundTrip e.2.1 m f) trip.1 := by
  have hsync := lineMoved_synced s p m
  intro trip
  have hchm : trip.2.chmPort p = (s.lineMoved p m).chmPort p :=
    chmPort_congr (frame_halfTrip (s.lineMoved p m) _ _ .chm (by decide)) p
  rw [echoRsp, chmMessage_good h hgood hty (by decide)]
  simp only [hsync.echo, hecho, hseq, ne_eq, not_true_eq_false, if_false, hsync.stamp,
    hsync.getF h.port (g := timChmAsym_Asym p) (by simp [receiveFields])]
  rw [State.echoed, hchm]
  rfl

/-! ## Bad messages (R261) -/

/-- Each of the four commands of a message counts a bad one. -/
theorem exec_badMessage (h : Receives s p) (hbad : chmGood m.toNat = false) (hty : chmType m.toNat ≠ 0) {i : Instr}
    (hi : i ∈ [Instr.chimneyTriggerReceive p m f, .echoReq p m f, .echoRsp p m f, .chmUser p m]) :
    exec i s = .next ((s.lineMoved p m).bump (chmPortCrcErrF p) 1) := by
  have hmsg (ty : Nat) (g : State → State) :
      (.next (s.when (decide (p < 4)) (s.chmMessage p ty m g)) : Out) = .next ((s.lineMoved p m).bump (chmPortCrcErrF p) 1) := by
    rw [next_when h.port, chmMessage_bad h hbad hty]
  simp only [List.mem_cons, List.not_mem_nil, or_false] at hi
  rcases hi with rfl | rfl | rfl | rfl
  · exact hmsg 1 _
  · exact hmsg 2 _
  · exact hmsg 3 _
  · exact hmsg 4 _

/-- The message of a block, as the descrambler gives it. -/
def State.blockMessage (s : State) (p : Nat) (w : W64) : Nat :=
  ofBitsLsb (descramble (s.chmPort p).hist ((bitsLsb 64 w.toNat).reverse)).1.reverse

/-- A block under block lock is counted where its sync header is that of a message and the message is bad. -/
theorem exec_chimneyBlockReceive (h : Receives s p) (sync : BitVec 2) (w : W64) : ∃ t, Synced p s t ∧
    exec (.chimneyBlockReceive p sync w) s = .next
      (if sync == 1 && chmType (s.blockMessage p w) != 0 && !chmGood (s.blockMessage p w) then t.bump (chmPortCrcErrF p) 1 else t) := by
  refine ⟨_, chmSync_synced s p (syncValid sync) (descramble (s.chmPort p).hist ((bitsLsb 64 w.toNat).reverse)).2, ?_⟩
  refine (next_when h.port s _).trans ?_
  rw [chimneyBlockReceive, h.listens, h.locked]
  rfl

/-! ## The obligation -/

theorem exec_triggerReceive (hp : p < 4) (m : W64) (f : Byte) (s : State) :
    exec (.chimneyTriggerReceive p m f) s = .next (chimneyTriggerReceive p m f s) := next_when hp s _

theorem exec_echoReq (hp : p < 4) (m : W64) (f : Byte) (s : State) : exec (.echoReq p m f) s = .next (echoReq p m f s) :=
  next_when hp s _

theorem exec_echoRsp (hp : p < 4) (m : W64) (f : Byte) (s : State) : exec (.echoRsp p m f) s = .next (echoRsp p m f s) :=
  next_when hp s _

/-- Settles O42, TYPE by TYPE. -/
theorem chimneyReceives : Obligations.ChimneyReceives := by
  intro s p m f hp hlisten hlock x rx act k
  have h : Receives s p := ⟨hp, hlisten, hlock⟩
  have hsync := lineMoved_synced s p m
  have hacts : s.actsInTime p m f = (!s.trgDone k && decide (rx + 4096 ≤ 256 * s.readyLimit k)) := rfl
  refine ⟨fun hgood => ⟨fun hty => ?_, fun hty => ?_, fun hty e hecho hseq => ?_⟩, fun hty hbad i hi => ?_, fun sync w => ?_⟩
  · refine ⟨_, exec_triggerReceive hp m f s, triggerReceive_hearth h hgood hty, fun hshadow hrefuse => ?_, fun haccept => ⟨?_, ?_⟩⟩
    · rw [triggerReceive_shadow h hgood hty hshadow hrefuse, trg_bump]
      exact ⟨hsync.getF_bump hp (by simp [receiveFields]) (by simp [chmPortShadowDropF]), hsync.trg⟩
    · intro hlate
      refine triggerReceive_late h hgood hty haccept (hlate.imp_right fun hlate => ?_)
      rw [hacts]
      rcases hlate with hdone | hlimit
      · rw [hdone, Bool.not_true, Bool.false_and]
      · rw [decide_eq_false (Nat.not_le.mpr hlimit), Bool.and_false]
    · intro hvalid hopen hin
      rw [triggerReceive_inTime h hgood hty haccept hvalid (by rw [hacts, hopen, decide_eq_true hin]; rfl)]
      refine ⟨(s.lineMoved p m).lineHit p m f, by rw [State.addHit, hsync.trg], hsync.actionTick hp, rfl, ?_,
        (hsync.frame.trans (frame_trg _ _)).mono (by decide)⟩
      exact congrArg (fun a : Int => a.toNat % 16384) (hsync.actionTime hp)
  · refine ⟨_, exec_echoReq hp m f s, ?_⟩
    rw [echoReq_eq h hgood hty, chmPort_setChm]
    exact ⟨rfl, (hsync.frame.trans (frame_setChm _ _ _)).mono (by decide)⟩
  · obtain ⟨r, hr, hhalf⟩ := halfTrip_value (s.lineMoved p m) (s.roundTrip e.2.1 m f) (sint 32 (s.getF (timChmAsym_Asym p)))
    refine ⟨_, exec_echoRsp hp m f s, ?_⟩
    rw [echoRsp_eq h hgood hty hecho hseq]
    obtain ⟨hrtt, hvalid, honeway, hnone, hframe⟩ := echoed_spec hp
      ((s.lineMoved p m).halfTrip (s.roundTrip e.2.1 m f) (sint 32 (s.getF (timChmAsym_Asym p)))).2 (s.roundTrip e.2.1 m f)
      (hhalf.trans_lt (unsint_lt 32 _))
    exact ⟨hrtt, hvalid, hnone, ⟨r, hr, honeway.trans hhalf⟩,
      ((hsync.frame.trans (frame_halfTrip _ _ _)).trans hframe).mono (by decide)⟩
  · refine ⟨_, exec_badMessage h hbad hty hi, ?_⟩
    rw [chmPort_bump]
    exact ⟨hsync.getF_bump hp (by simp [receiveFields]) (by simp [chmPortCrcErrF]), hsync.rxq, hsync.replies, hsync.echo,
      hsync.frame_bump _ _⟩
  · obtain ⟨t, ht, hexec⟩ := exec_chimneyBlockReceive h sync w
    intro y
    have hy : s.blockMessage p w = y := rfl
    rw [hy] at hexec
    refine ⟨_, hexec, ?_⟩
    by_cases hcount : sync = 1 ∧ chmType y ≠ 0 ∧ chmGood y = false
    · rw [if_pos (by simpa [and_assoc] using hcount), chmPort_bump]
      refine ⟨fun _ _ _ => ht.getF_bump hp (by simp [receiveFields]) (by simp [chmPortCrcErrF]), fun hno => ?_, ht.rxq, ht.txq,
        ht.frame_bump _ _⟩
      obtain ⟨hsync1, htype, hbad⟩ := hcount
      simp [hsync1, htype, hbad] at hno
    · rw [if_neg (by simpa [and_assoc] using hcount)]
      exact ⟨fun h1 h2 h3 => absurd ⟨h1, h2, h3⟩ hcount, fun _ => ht.getF hp (by simp [receiveFields]), ht.rxq, ht.txq,
        ht.frame.mono (by decide)⟩

end Sys2Proof.Machine
end

section
/-!
# Messages that a Chimney port sends (R260, R262, R264, R265, R401)

Which message leaves at the start of a block slot, one lemma for each that can own it or win it.
-/

set_option autoImplicit false

namespace Sys2Proof.Machine

variable {s : State} {p b : Nat}

theorem exec_chimneySlotLaunch (hp : p < 4) (s : State) : exec (.chimneySlotLaunch p) s = .next (chimneySlotLaunch p s) := next_when hp s _

/-! ## What a launch leaves alone -/

theorem frame_chmSent (s : State) (p : Nat) (m : W64) (x : ChmPort) : Frame [.chm] s (s.chmSent p m x) := frame_setChm _ _ _

theorem frame_chmIdle (s : State) (p : Nat) (x : ChmPort) : Frame [.freeIx, .chm] s (s.chmIdle p x) :=
  (frame_draw s 43).trans (frame_setChm _ _ _)

theorem chmPort_chmSent (s : State) (p : Nat) (m : W64) (x : ChmPort) :
    (s.chmSent p m x).chmPort p = { x with seq := (x.seq + 1) % 16, sent := m, sentAt := s.frc.toNat } := chmPort_setChm ..

/-- An IDLE message leaves and takes no SEQ. -/
theorem chmIdle_port (s : State) (p : Nat) (x : ChmPort) : ((s.chmIdle p x).chmPort p).seq = x.seq ∧
    ∃ mid time, ((s.chmIdle p x).chmPort p).sent = s.chmBuild 0 mid x.seq time := by
  rw [State.chmIdle, chmPort_setChm]
  exact ⟨rfl, _, _, rfl⟩

theorem frame_chimneySlotLaunch (s : State) (p : Nat) : Frame [.regs, .incNow, .freeIx, .chm] s (chimneySlotLaunch p s) := by
  have hidle (x : ChmPort) : Frame [.regs, .incNow, .freeIx, .chm] s (s.chmIdle p x) := (frame_chmIdle s p x).mono (by decide)
  have hdrawn (m : W64) (x : ChmPort) : Frame [.regs, .incNow, .freeIx, .chm] s ((s.draw 5).2.chmSent p m x) :=
    ((frame_draw s 5).trans (frame_chmSent _ p m x)).mono (by decide)
  unfold chimneySlotLaunch
  dsimp only
  split
  · exact .refl _ s
  split
  · exact .refl _ s
  split
  · exact (frame_chmSent s p _ _).mono (by decide)
  split
  · exact hidle _
  split
  · exact hdrawn _ _
  split
  · exact hdrawn _ _
  split
  · exact hidle _
  split
  · exact hidle _
  split
  · exact ((frame_bump s _ 1).trans (frame_chmSent _ p _ _)).mono (by decide)
  · exact (frame_chmSent s p _ _).mono (by decide)

/-! ## What leaves in a slot -/

/-- In the safe state, from its tick boundary on, a port is silent. -/
theorem slotLaunch_safe (h : s.txSafeNow = true) : chimneySlotLaunch p s = s := by
  unfold chimneySlotLaunch
  split
  · rfl
  · simp [h]

/-- A port that sends: it is enabled, alive and not silenced, and slot b starts. -/
structure Sends (s : State) (p b : Nat) : Prop where
  slot : s.slotNow = some b
  enabled : (s.getF chmCtrl_En).testBit p = true
  notSafe : s.txSafeNow = false
  alive : s.flueDead (txFlue (24 + p)) = false

/-- The TRIGGER message that waits for slot b of this tick. -/
def State.slotTrig (s : State) (p b : Nat) : Option (Nat × Nat × Nat × Nat × Bool) :=
  (s.chmPort p).trigs.find? fun y => y.1 == s.tick && y.2.1 == b

theorem slotLaunch_trigger (h : Sends s p b) {l : Nat × Nat × Nat × Nat × Bool} (hl : s.slotTrig p b = some l) :
    chimneySlotLaunch p s =
      s.chmSent p (s.chmBuild 1 (16 * b2n l.2.2.2.2 + l.2.2.2.1) (s.chmPort p).seq (256 * s.stampFrc - l.2.2.1))
        { s.chmPort p with trigs := (s.chmPort p).trigs.erase l } := by
  unfold State.slotTrig at hl
  simp [chimneySlotLaunch, h.slot, h.enabled, h.notSafe, h.alive, hl]

section
variable (h : Sends s p b) (hnone : s.slotTrig p b = none) (hfree : s.slotReserved p b = false)
include h hnone hfree

/-- In an unreserved slot without a TRIGGER message the oldest echo reply goes first. -/
theorem slotLaunch_reply {r : Nat × Nat} {rs : List (Nat × Nat)} (hreplies : (s.chmPort p).replies = r :: rs) :
    chimneySlotLaunch p s = (s.draw 5).2.chmSent p (s.chmBuild 3 (s.draw 5).1.toNat r.1 (256 * s.stampFrc - r.2))
      { s.chmPort p with replies := rs } := by
  unfold State.slotTrig at hnone
  simp [chimneySlotLaunch, h.slot, h.enabled, h.notSafe, h.alive, hnone, hfree, hreplies]

variable (hreplies : (s.chmPort p).replies = [])
include hreplies

/-- Then an echo request. -/
theorem slotLaunch_request (hreq : (s.chmPort p).reqPending = true) :
    chimneySlotLaunch p s = (s.draw 5).2.chmSent p (s.chmBuild 2 (s.draw 5).1.toNat (s.chmPort p).seq 0)
      { s.chmPort p with reqPending := false, echo := some ((s.chmPort p).seq, 256 * s.stampFrc, s.tick) } := by
  unfold State.slotTrig at hnone
  simp [chimneySlotLaunch, h.slot, h.enabled, h.notSafe, h.alive, hnone, hfree, hreplies, hreq]

variable (hreq : (s.chmPort p).reqPending = false)
include hreq

/-- Then the head of the transmit queue, from its launch time on. -/
theorem slotLaunch_entry {e : W64 × W64} {es : List (W64 × W64)} (htxq : (s.chmPort p).txq = e :: es) (hdue : e.2.toNat ≤ s.frc.toNat) :
    chimneySlotLaunch p s = (if s.slotMissed p e.2.toNat then s.bump (chmPortTxLateF p) 1 else s).chmSent p
      (s.chmBuild (chmType e.1.toNat) (bitsAt e.1.toNat 50 5) (s.chmPort p).seq (chmTime e.1.toNat)) { s.chmPort p with txq := es } := by
  unfold State.slotTrig at hnone
  simp [chimneySlotLaunch, h.slot, h.enabled, h.notSafe, h.alive, hnone, hfree, hreplies, hreq, htxq, Nat.not_lt.mpr hdue]

/-- With nothing to send an IDLE message leaves. -/
theorem slotLaunch_idle (htxq : (s.chmPort p).txq = []) : chimneySlotLaunch p s = s.chmIdle p (s.chmPort p) := by
  unfold State.slotTrig at hnone
  simp [chimneySlotLaunch, h.slot, h.enabled, h.notSafe, h.alive, hnone, hfree, hreplies, hreq, htxq]

end

/-- TX_LATE counts the queue entry whose time an unreserved slot had passed. -/
theorem getF_late (s : State) (p : Nat) (late : Bool) : (if late then s.bump (chmPortTxLateF p) 1 else s).getF (chmPortTxLateF p) =
    satAdd 32 (s.getF (chmPortTxLateF p)) (b2n late) := by
  cases late with
  | true => exact getF_bump_same s _ 1 (by simp [chmPortTxLateF])
  | false => exact (satAdd_zero (w := 32) (getF_lt s (chmPortTxLateF p))).symm

/-! ## Register writes (R264, R265) -/

theorem exec_txqPush (hp : p < 4) (s : State) : exec (.txqPush p) s = .next (txqPush p s) := next_when hp s _

theorem exec_chmEchoGo (hp : p < 4) (s : State) : exec (.chmEchoGo p) s = .next (chmEchoGo p s) := next_when hp s _

theorem exec_chmEchoTimeout (hp : p < 4) (s : State) : exec (.chmEchoTimeout p) s = .next (chmEchoTimeout p s) := next_when hp s _

theorem refuse_txqStat (hp : p < 4) (s : State) : s.refuse (chmPortTxqStat p) = s.raise chmStatus_WrRefused := by
  have hw : ∀ p < 4, wrRefused (chmPortTxqStat p) = some chmStatus_WrRefused := by decide
  rw [State.refuse, hw p hp]

/-- TXQ_PUSH, by whether it is accepted. -/
theorem txqPush_eq (hp : p < 4) (s : State) : txqPush p s =
    if (chmType (s.getF (chmPortTxqMsg_Msg p)) = 1 ∨ chmType (s.getF (chmPortTxqMsg_Msg p)) = 4) ∧ (s.chmPort p).txq.length < 16 then
      s.setChm p { s.chmPort p with txq := (s.chmPort p).txq ++
        [(BitVec.ofNat 64 (s.getF (chmPortTxqMsg_Msg p)), BitVec.ofNat 64 (s.getF (chmPortTxqLaunch_Frc p)))] }
    else s.raise chmStatus_WrRefused := by
  simp only [txqPush, refuse_txqStat hp, Bool.and_eq_true, Bool.or_eq_true, beq_iff_eq, decide_eq_true_eq]

theorem echoTimeout_due {e : Nat × Nat × Nat} (he : (s.chmPort p).echo = some e) (hdue : e.2.2 + 1024 ≤ s.tick) :
    chmEchoTimeout p s = (s.setChm p { s.chmPort p with echo := none }).raise (chmPortStatus_EchoTimeout p) := by
  simp only [chmEchoTimeout, he, if_pos hdue]

/-! ## The obligation -/

/-- Settles O41, message by message in the order in which they go first. -/
theorem chimneySlotsSend : Obligations.ChimneySlotsSend := by
  intro s p hp x
  refine ⟨fun hsafe => ?_, fun b hslot hen hnsafe halive => ?_, ⟨fun hok => ?_, fun hno => ?_⟩, ?_, fun e he hdue => ?_⟩
  · rw [exec_chimneySlotLaunch hp, slotLaunch_safe hsafe]
  · have h : Sends s p b := ⟨hslot, hen, hnsafe, halive⟩
    refine ⟨_, exec_chimneySlotLaunch hp s, frame_chimneySlotLaunch s p, fun l _ hl => ?_, fun hnone hfree => ⟨?_, ?_, ?_, ?_⟩⟩
    · rw [slotLaunch_trigger h hl, chmPort_chmSent]
      exact ⟨rfl, rfl, rfl⟩
    · intro r rs hreplies
      rw [slotLaunch_reply h hnone hfree hreplies, chmPort_chmSent]
      exact ⟨rfl, _, rfl⟩
    · intro hreplies hreq htxq
      rw [slotLaunch_idle h hnone hfree hreplies hreq htxq]
      exact chmIdle_port s p x
    · intro hreplies hreq
      rw [slotLaunch_request h hnone hfree hreplies hreq, chmPort_chmSent]
      exact ⟨rfl, rfl, _, rfl⟩
    · intro hreplies hreq e es htxq hdue
      rw [slotLaunch_entry h hnone hfree hreplies hreq htxq hdue, chmPort_chmSent]
      exact ⟨rfl, rfl, rfl, getF_late s p _⟩
  · rw [exec_txqPush hp, txqPush_eq hp, if_pos hok]
  · refine ⟨_, exec_txqPush hp s, ?_⟩
    rw [txqPush_eq hp, if_neg hno]
    exact ⟨getF_raise_same s _ (by decide), chm_raise .., wordsKept_raise s chmStatus_WrRefused (by decide), frame_raise s _⟩
  · exact ⟨_, exec_chmEchoGo hp s, chmPort_setChm .., frame_setChm _ _ _⟩
  · refine ⟨_, exec_chmEchoTimeout hp s, ?_⟩
    have hapart : ∀ p < 4, (chmPortStatus_EchoTimeout p).Apart (chmPortRttF p) := by decide
    rw [echoTimeout_due he hdue, chmPort_raise, chmPort_setChm, getF_raise_of_apart _ (hapart p hp), getF_setChm]
    exact ⟨getF_raise_same _ _ (by simp [chmPortStatus_EchoTimeout]), rfl, rfl,
      ((frame_setChm s p _).trans (frame_raise _ _)).mono (by decide)⟩

end Sys2Proof.Machine
end

section
/-!
# Inputs and outputs of the trigger (R249 to R251, R258, R259, R474)

An active edge of an input either makes no hit (`State.edgeMuted`) or adds one to those that wait; in both cases it is counted.
-/

set_option autoImplicit false

namespace Sys2Proof.Machine

variable {s : State} {i : Nat} {r : Bool} {f : Byte}

/-! ## External edges (R250, R474) -/

theorem exec_trigInEdge (hi : i < 4) (r : Bool) (f : Byte) (s : State) : exec (.trigInEdge i r f) s = .next (trigInEdge i r f s) :=
  next_when hi s _

/-- An edge that is not active changes nothing. -/
theorem trigInEdge_idle (h : r = s.flag (trgTinCfg_Fall i)) : trigInEdge i r f s = s := by
  rw [trigInEdge, h, beq_self_eq_true, Bool.or_true, if_pos rfl]

/-- An active edge is counted, and its time noted (R474). -/
def State.edgeSeen (s : State) (i : Nat) (f : Byte) : State :=
  let t := s.bump (trgTinEdgesF i) 1
  { t with trg := { t.trg with edgeAt := mput (fun _ => 0) t.trg.edgeAt i (s.stamp f + 1) } }

/-- The tick time of an edge, with the skew of its input. -/
def State.edgeTime (s : State) (i : Nat) (f : Byte) : Nat := ((s.stamp f : Int) + sint 32 (s.getF (trgTinSkew_Skew i))).toNat

/-- An edge makes no hit: it follows the one before it within 2.0 ns, or an earlier edge already is the hit of its tick. -/
def State.edgeMuted (s : State) (i : Nat) (f : Byte) : Prop :=
  let prev := mget (fun _ => 0) s.trg.edgeAt i
  let last := mget (fun _ => 0) s.trg.edges i
  (0 < prev ∧ edgesClose (s.stamp f) (prev - 1) = true) ∨
    (0 < last ∧ (last - 1) / 16384 = s.edgeTime i f / 16384 ∧ last ≤ s.edgeTime i f + 1)

/-- The state with an edge as the earliest one of its tick. -/
def State.edgeNoted (s : State) (i : Nat) (f : Byte) : State :=
  let t := s.edgeSeen i f
  { t with trg := { t.trg with edges := mput (fun _ => 0) t.trg.edges i (s.edgeTime i f + 1) } }

section
variable (hen : s.flag (trgTinCfg_En i) = true) (hactive : r ≠ s.flag (trgTinCfg_Fall i))
include hen hactive

theorem trigInEdge_muted (h : s.edgeMuted i f) : trigInEdge i r f s = s.edgeSeen i f := by
  unfold trigInEdge
  rw [if_neg (by simp [hen, hactive])]
  rcases h with ⟨hprev, hclose⟩ | ⟨hlast, htick, hle⟩
  · exact if_pos (by simp [hprev, hclose])
  · have hsame : (decide (0 < mget (fun _ => 0) s.trg.edges i) && (mget (fun _ => 0) s.trg.edges i - 1) / 16384 == s.edgeTime i f / 16384
        && decide (mget (fun _ => 0) s.trg.edges i ≤ s.edgeTime i f + 1)) = true := by simp [hlast, htick, hle]
    extract_lets raw prev s0 s1
    split
    · rfl
    · exact if_pos hsame

/-- An edge that makes a hit does so in its tick, or later when it is not ready in time. -/
theorem trigInEdge_hit (h : ¬ s.edgeMuted i f) : ∃ u x, trigInEdge i r f s = u.addHit x ∧
    (u = s.edgeNoted i f ∨ u = (s.edgeNoted i f).bump trgExtLateF 1) ∧ x.bit = 32 + i ∧ x.tag.tick = s.edgeTime i f / 16384 := by
  simp only [State.edgeMuted, State.edgeTime, not_or] at h
  obtain ⟨hprev, hlast⟩ := h
  unfold trigInEdge
  rw [if_neg (by simp [hen, hactive])]
  extract_lets raw prev s0 _ s1 time k ready tag last _ s2
  rw [if_neg (by simpa using hprev), if_neg (by simpa [and_assoc] using hlast)]
  split
  · exact ⟨s2, _, rfl, .inl rfl, rfl, rfl⟩
  · exact ⟨s2.bump trgExtLateF 1, _, rfl, .inr rfl, rfl, rfl⟩

end

theorem edgeSeen_trg (s : State) (i : Nat) (f : Byte) : (s.edgeSeen i f).trg.hits = s.trg.hits ∧
    mget (fun _ => 0) (s.edgeSeen i f).trg.edgeAt i = s.stamp f + 1 := by
  have hbump : (s.edgeSeen i f).trg.hits = (s.bump (trgTinEdgesF i) 1).trg.hits := rfl
  exact ⟨by rw [hbump, trg_bump], mget_mput_same ..⟩

theorem getF_edgeSeen (s : State) (i : Nat) (f : Byte) (g : Fld) : (s.edgeSeen i f).getF g = (s.bump (trgTinEdgesF i) 1).getF g :=
  getF_congr (s := s.bump (trgTinEdgesF i) 1) (t := s.edgeSeen i f) rfl rfl g

theorem getF_edgeNoted (s : State) (i : Nat) (f : Byte) (g : Fld) : (s.edgeNoted i f).getF g = (s.bump (trgTinEdgesF i) 1).getF g :=
  getF_congr (s := s.bump (trgTinEdgesF i) 1) (t := s.edgeNoted i f) rfl rfl g

theorem getF_addHit (s : State) (x : Hit) (g : Fld) : (s.addHit x).getF g = s.getF g :=
  getF_congr (s := s) (t := s.addHit x) rfl rfl g

/-- An active edge, whether it makes a hit or not, is counted and its time noted. -/
theorem trigInEdge_seen (hen : s.flag (trgTinCfg_En i) = true) (hactive : r ≠ s.flag (trgTinCfg_Fall i)) :
    (trigInEdge i r f s).getF (trgTinEdgesF i) = satAdd (trgTinEdgesF i).width (s.getF (trgTinEdgesF i)) 1 ∧
      mget (fun _ => 0) (trigInEdge i r f s).trg.edgeAt i = s.stamp f + 1 := by
  obtain ⟨-, htime⟩ := edgeSeen_trg s i f
  have hcount := getF_bump_same s (trgTinEdgesF i) 1 (by simp [trgTinEdgesF])
  by_cases h : s.edgeMuted i f
  · rw [trigInEdge_muted hen hactive h, getF_edgeSeen]
    exact ⟨hcount, htime⟩
  · obtain ⟨u, x, he, hu, -⟩ := trigInEdge_hit hen hactive h
    rw [he, getF_addHit, State.addHit]
    rcases hu with rfl | rfl
    · rw [getF_edgeNoted]
      exact ⟨hcount, htime⟩
    · have hne : (trgTinEdgesF i).off ≠ trgExtLateF.off := by simp only [trgTinEdgesF, trgTinEdges, trgExtLateF, trgExtLate]; omega
      rw [getF_bump_ne _ _ _ _ (by decide) (by simp [trgTinEdgesF]) hne, getF_edgeNoted, trg_bump]
      exact ⟨hcount, htime⟩

/-- The hits after an active edge. -/
theorem trigInEdge_hits (hen : s.flag (trgTinCfg_En i) = true) (hactive : r ≠ s.flag (trgTinCfg_Fall i)) :
    (s.edgeMuted i f → (trigInEdge i r f s).trg.hits = s.trg.hits) ∧
      (¬ s.edgeMuted i f → ∃ x, (trigInEdge i r f s).trg.hits = s.trg.hits ++ [x] ∧ x.bit = 32 + i ∧
        x.tag.tick = s.edgeTime i f / 16384) := by
  obtain ⟨hhits, -⟩ := edgeSeen_trg s i f
  refine ⟨fun h => ?_, fun h => ?_⟩
  · rw [trigInEdge_muted hen hactive h, hhits]
  · obtain ⟨u, x, he, hu, hbit, htick⟩ := trigInEdge_hit hen hactive h
    have hkept : u.trg.hits = s.trg.hits := by
      rcases hu with rfl | rfl
      · exact hhits
      · rw [trg_bump]
        exact hhits
    exact ⟨x, by rw [he, State.addHit, hkept], hbit, htick⟩

/-! ## Host-force, pulses and records (R251, R258, R259) -/

/-- A forced hit falls in this device tick or the next. -/
theorem forceHit_adds (s : State) : ∃ x : Hit, forceHit s = (s.draw 4).2.addHit x ∧ x.bit = 52 ∧ x.tag.tau = 0 ∧
    (x.tick = s.tick ∨ x.tick = s.tick + 1) :=
  ⟨_, rfl, rfl, rfl, ite_eq_or_eq ..⟩

theorem exec_trigOutPulseEnd (hi : i < 4) (s : State) : exec (.trigOutPulseEnd i) s = .next (trigOutPulseEnd i s) := next_when hi s _

theorem frame_event {s : State} {q ty src tick : Nat} {body : List Byte} (hen : s.flag stkCtrl_En = true)
    (hroom : (s.cq q).held.length < 256) : Frame [.stk] s (s.event q ty src tick body) := by
  rw [State.event, if_pos hen, State.hand, if_neg (by omega)]
  exact frame_stk s _

/-- Settles O37, part by part. -/
theorem triggerInputsAndOutputs : Obligations.TriggerInputsAndOutputs := by
  refine ⟨fun s i r f hi hen hactive => ?_, fun s i f hi => ?_, fun s => ?_, fun s i hi => ?_, fun s x xs hfir hen hroom => ?_⟩
  · obtain ⟨hcount, htime⟩ := trigInEdge_seen (f := f) hen hactive
    obtain ⟨hmuted, hhit⟩ := trigInEdge_hits (f := f) hen hactive
    exact ⟨_, exec_trigInEdge hi r f s, hcount, htime, hmuted, hhit⟩
  · rw [exec_trigInEdge hi, trigInEdge_idle rfl]
  · obtain ⟨x, hforce, hbit, htau, htick⟩ := forceHit_adds s
    refine ⟨_, x, rfl, ?_⟩
    rw [hforce]
    exact ⟨rfl, hbit, htau, htick, rfl, ((frame_draw s 4).trans (frame_trg _ _)).mono (by decide)⟩
  · have hleft : mget (fun _ => []) (trigOutPulseEnd i s).trg.pulses i =
        (mget (fun _ => []) s.trg.pulses i).filter fun p => decide (s.cyc < p.2) := mget_mput_same ..
    refine ⟨_, exec_trigOutPulseEnd hi s, ?_⟩
    rw [hleft]
    exact ⟨fun p hp => of_decide_eq_true (List.mem_filter.mp hp).2,
      fun p hp hlasts => List.mem_filter.mpr ⟨hp, decide_eq_true hlasts⟩, frame_trg s _⟩
  · let u : State := { s with trg := { s.trg with firings := xs } }
    have hpost : triggerRecordPost s = u.event (s.getF trgCtrl_Cq) 0x10 1 x.fired x.bytes := by rw [triggerRecordPost, hfir]
    refine ⟨_, rfl, ?_⟩
    rw [hpost, trg_event]
    exact ⟨rfl, event_held (s := u) hen hroom, ((frame_trg s _).trans (frame_event (s := u) hen hroom)).mono (by decide)⟩

end Sys2Proof.Machine
end

section
/-!
# Trigger units and decisions (R245, R252 to R254)

The modes of a unit choose among the hits of a tick: the earliest, the latest, or the first of the sorted B hits that an A event fits.
A decision then is a chain of operations of which none but the last changes the hits that wait: `Weighs` says so, with one lemma per
operation, as `Keeps` has.
-/

set_option autoImplicit false

namespace Sys2Proof.Machine

variable {s₀ s : State} {k win : Nat}

/-! ## The earliest and the latest hit (R252) -/

theorem earliest_eq_argmin (hs : List Hit) : earliest hs = hs.argmin fun h => h.tag.time := by
  unfold earliest List.argmin
  congr
  funext m h
  cases m <;> rfl

theorem latest_eq_argmax (hs : List Hit) : latest hs = hs.argmax fun h => h.tag.time := by
  unfold latest List.argmax
  congr
  funext m h
  cases m <;> rfl

/-! ## A events (R253) -/

/-- The tick time of an A event. -/
def eventTime (e : Nat × Nat) : Nat := 16384 * e.1 + e.2

/-- An event is passed over, or is the last one so far. -/
theorem lastEvent_concat (t : Nat) (es : List (Nat × Nat)) (e : Nat × Nat) :
    (lastEvent t (es ++ [e]) = lastEvent t es ∧
      (t < eventTime e ∨ ∃ b, lastEvent t es = some b ∧ eventTime e ≤ eventTime b)) ∨
    (lastEvent t (es ++ [e]) = some e ∧ eventTime e ≤ t ∧ ∀ b, lastEvent t es = some b → eventTime b ≤ eventTime e) := by
  unfold lastEvent
  rw [List.foldl_append, List.foldl_cons, List.foldl_nil]
  generalize List.foldl _ none es = m
  by_cases hlate : t < eventTime e
  · exact .inl ⟨if_pos hlate, .inl hlate⟩
  rw [if_neg (show ¬ t < 16384 * e.1 + e.2 from hlate)]
  cases m with
  | none => exact .inr ⟨rfl, Nat.not_lt.mp hlate, fun b hb => by simp at hb⟩
  | some b =>
    by_cases hle : eventTime b ≤ eventTime e
    · exact .inr ⟨if_pos hle, Nat.not_lt.mp hlate, fun c hc => Option.some.inj hc ▸ hle⟩
    · exact .inl ⟨if_neg hle, .inr ⟨b, rfl, Nat.le_of_not_le hle⟩⟩

theorem lastEvent_mem {t : Nat} {es : List (Nat × Nat)} {b : Nat × Nat} (h : lastEvent t es = some b) :
    b ∈ es ∧ eventTime b ≤ t := by
  induction es using List.reverseRecOn with
  | nil => simp [lastEvent] at h
  | append_singleton es e ih =>
    obtain ⟨hl, -⟩ | ⟨hl, hin, -⟩ := lastEvent_concat t es e <;> rw [hl] at h
    · exact (ih h).imp_left (List.mem_append_left _)
    · obtain rfl := Option.some.inj h
      exact ⟨List.mem_append_right _ (List.mem_singleton.mpr rfl), hin⟩

theorem le_lastEvent {t : Nat} {es : List (Nat × Nat)} {e : Nat × Nat} (he : e ∈ es) (ht : eventTime e ≤ t) :
    ∃ b, lastEvent t es = some b ∧ eventTime e ≤ eventTime b := by
  induction es using List.reverseRecOn with
  | nil => simp at he
  | append_singleton es c ih =>
    obtain ⟨hl, hold⟩ | ⟨hl, -, hmax⟩ := lastEvent_concat t es c <;> rw [hl]
    · rcases List.mem_append.mp he with he | he
      · exact ih he
      · obtain rfl := List.mem_singleton.mp he
        exact hold.resolve_left (Nat.not_lt.mpr ht)
    · refine ⟨c, rfl, ?_⟩
      rcases List.mem_append.mp he with he | he
      · obtain ⟨b, hb, hle⟩ := ih he
        exact hle.trans (hmax b hb)
      · rw [List.mem_singleton.mp he]

/-- An A event precedes or equals a hit that lies in its window. -/
def Fits (win : Nat) (e : Nat × Nat) (h : Hit) : Prop := eventTime e ≤ h.tag.time ∧ h.tag.tick ≤ e.1 + win

/-- The event that a B hit uses. -/
def lastFit (win : Nat) (es : List (Nat × Nat)) (h : Hit) : Option (Nat × Nat) :=
  lastEvent h.tag.time (es.filter fun e => decide (h.tag.tick ≤ e.1 + win))

theorem lastFit_mem {es : List (Nat × Nat)} {h : Hit} {e : Nat × Nat} (hl : lastFit win es h = some e) : e ∈ es ∧ Fits win e h := by
  obtain ⟨he, htime⟩ := lastEvent_mem hl
  obtain ⟨he, hwin⟩ := List.mem_filter.mp he
  exact ⟨he, htime, of_decide_eq_true hwin⟩

theorem le_lastFit {es : List (Nat × Nat)} {h : Hit} {e : Nat × Nat} (he : e ∈ es) (hfit : Fits win e h) :
    ∃ b, lastFit win es h = some b ∧ eventTime e ≤ eventTime b := by
  obtain ⟨htime, hwin⟩ := hfit
  exact le_lastEvent (List.mem_filter.mpr ⟨he, decide_eq_true hwin⟩) htime

theorem lastFit_eq_none {es : List (Nat × Nat)} {h : Hit} : lastFit win es h = none ↔ ∀ e ∈ es, ¬ Fits win e h := by
  refine ⟨fun hl e he hfit => ?_, fun hno => ?_⟩
  · obtain ⟨b, hb, -⟩ := le_lastFit he hfit
    simp [hl] at hb
  · refine Option.eq_none_iff_forall_ne_some.mpr fun e hl => ?_
    obtain ⟨he, hfit⟩ := lastFit_mem hl
    exact hno e he hfit

/-! ## Hits in order of their tags -/

theorem mem_insHit {x h : Hit} {hs : List Hit} : x ∈ insHit h hs ↔ x = h ∨ x ∈ hs := by
  induction hs with
  | nil => simp [insHit]
  | cons y ys ih =>
    unfold insHit
    split
    · simp only [List.mem_cons, ih]
      tauto
    · simp only [List.mem_cons]

theorem insHit_sorted {h : Hit} {hs : List Hit} (hsort : hs.Pairwise fun a b => a.tag.time ≤ b.tag.time) :
    (insHit h hs).Pairwise fun a b => a.tag.time ≤ b.tag.time := by
  induction hs with
  | nil => simp [insHit]
  | cons y ys ih =>
    obtain ⟨hy, hys⟩ := List.pairwise_cons.mp hsort
    unfold insHit
    split
    next hle =>
      refine List.pairwise_cons.mpr ⟨fun x hx => ?_, ih hys⟩
      rcases mem_insHit.mp hx with rfl | hx
      · exact hle
      · exact hy x hx
    next hgt =>
      refine List.pairwise_cons.mpr ⟨fun x hx => ?_, hsort⟩
      rcases List.mem_cons.mp hx with rfl | hx
      · omega
      · have := hy x hx
        omega

theorem sortHits_concat (hs : List Hit) (h : Hit) : sortHits (hs ++ [h]) = insHit h (sortHits hs) := by
  unfold sortHits
  rw [List.foldl_append]
  rfl

theorem mem_sortHits {x : Hit} {hs : List Hit} : x ∈ sortHits hs ↔ x ∈ hs := by
  induction hs using List.reverseRecOn with
  | nil => rfl
  | append_singleton hs h ih =>
    rw [sortHits_concat, mem_insHit, ih, List.mem_append, List.mem_singleton, or_comm]

theorem sortHits_sorted (hs : List Hit) : (sortHits hs).Pairwise fun a b => a.tag.time ≤ b.tag.time := by
  induction hs using List.reverseRecOn with
  | nil => exact List.Pairwise.nil
  | append_singleton hs h ih =>
    rw [sortHits_concat]
    exact insHit_sorted ih

/-! ## SEQ mode (R253) -/

theorem seqFire_cons (win : Nat) (es : List (Nat × Nat)) (b : Hit) (bs : List Hit) :
    (∃ e, lastFit win es b = some e ∧ seqFire win es (b :: bs) = some (b, e)) ∨
      (lastFit win es b = none ∧ seqFire win es (b :: bs) = seqFire win es bs) := by
  have hstep : seqFire win es (b :: bs) = ((lastFit win es b).map (Prod.mk b)).or (seqFire win es bs) := by
    rw [seqFire, ← lastFit]
    cases lastFit win es b <;> rfl
  rw [hstep]
  cases lastFit win es b with
  | none => exact .inr ⟨rfl, rfl⟩
  | some e => exact .inl ⟨e, rfl, rfl⟩

theorem seqFire_eq_none {es : List (Nat × Nat)} {bs : List Hit} :
    seqFire win es bs = none ↔ ∀ b ∈ bs, ∀ e ∈ es, ¬ Fits win e b := by
  induction bs with
  | nil => simp [seqFire]
  | cons b bs ih =>
    rw [List.forall_mem_cons, ← ih, ← lastFit_eq_none]
    obtain ⟨e, hl, hfire⟩ | ⟨hl, hfire⟩ := seqFire_cons win es b bs <;> simp [hl, hfire]

/-- The B hit that fires is the first that an event fits, and it uses the latest of those. -/
theorem seqFire_some {es : List (Nat × Nat)} {bs : List Hit} (hsort : bs.Pairwise fun a b => a.tag.time ≤ b.tag.time) {b : Hit}
    {e : Nat × Nat} (h : seqFire win es bs = some (b, e)) : b ∈ bs ∧ lastFit win es b = some e ∧
      ∀ x ∈ bs, x.tag.time < b.tag.time → ∀ e ∈ es, ¬ Fits win e x := by
  induction bs with
  | nil => simp [seqFire] at h
  | cons y ys ih =>
    obtain ⟨hy, hys⟩ := List.pairwise_cons.mp hsort
    obtain ⟨e', hl, hfire⟩ | ⟨hl, hfire⟩ := seqFire_cons win es y ys <;> rw [hfire] at h
    · obtain ⟨rfl, rfl⟩ : y = b ∧ e' = e := by simpa using h
      refine ⟨List.mem_cons_self, hl, fun x hx hlt => absurd hlt (Nat.not_lt.mpr ?_)⟩
      rcases List.mem_cons.mp hx with rfl | hx
      · exact Nat.le_refl _
      · exact hy x hx
    · obtain ⟨hb, hlb, hfirst⟩ := ih hys h
      refine ⟨List.mem_cons_of_mem _ hb, hlb, fun x hx hlt => ?_⟩
      rcases List.mem_cons.mp hx with rfl | hx
      · exact lastFit_eq_none.mp hl
      · exact hfirst x hx hlt

/-! ## The modes of a unit (R252, R253) -/

section
variable {v : TuView} {src : List Hit} {h : Hit}

/-- The A events of a unit in SEQ mode: those it has kept, and the hits of MASK_A. -/
def TuView.eventsNow (v : TuView) (k : Nat) (src : List Hit) : List (Nat × Nat) :=
  keepEvents k (v.timing / 2 ^ 16) v.tu.events ++ (src.filter fun h => v.maskA.testBit h.bit).map fun h => (h.tag.tick, h.tag.tau)

/-- The hits of MASK_B in order. -/
def TuView.hitsB (v : TuView) (src : List Hit) : List Hit := sortHits (src.filter fun h => v.maskB.testBit h.bit)

theorem mem_hitsB {h : Hit} : h ∈ v.hitsB src ↔ h ∈ src ∧ v.maskB.testBit h.bit = true := by
  rw [TuView.hitsB, mem_sortHits, List.mem_filter]

theorem hitsB_sorted (v : TuView) (src : List Hit) : (v.hitsB src).Pairwise fun a b => a.tag.time ≤ b.tag.time := sortHits_sorted _

theorem qualify_off (hmode : v.cfg % 4 = 0) : (v.qualify k src).1 = none := by simp [TuView.qualify, hmode]

theorem qualify_or (hmode : v.cfg % 4 = 1) :
    (v.qualify k src).1 = (src.filter fun h => v.maskA.testBit h.bit).argmin fun h => h.tag.time := by
  rw [TuView.qualify, if_pos hmode, earliest_eq_argmin]

theorem qualify_or_none (hmode : v.cfg % 4 = 1) : (v.qualify k src).1 = none ↔ ∀ h ∈ src, v.maskA.testBit h.bit = false := by
  rw [qualify_or hmode, List.argmin_eq_none, List.filter_eq_nil_iff]
  simp

theorem qualify_or_some (hmode : v.cfg % 4 = 1) (hq : (v.qualify k src).1 = some h) : h ∈ src ∧ v.maskA.testBit h.bit = true ∧
    ∀ h' ∈ src, v.maskA.testBit h'.bit = true → h.tag.time ≤ h'.tag.time := by
  rw [qualify_or hmode] at hq
  obtain ⟨hsrc, hmask⟩ := List.mem_filter.mp (List.argmin_mem hq)
  exact ⟨hsrc, hmask, fun h' hsrc' hmask' =>
    List.le_of_mem_argmin (f := fun h : Hit => h.tag.time) (List.mem_filter.mpr ⟨hsrc', hmask'⟩) hq⟩

theorem qualify_and_some (hmode : v.cfg % 4 = 2) (hq : (v.qualify k src).1 = some h) : v.maskA ≠ 0 ∧
    (∀ b, b < 64 → v.maskA.testBit b = true → ∃ h' ∈ src, h'.bit = b) ∧
    ∀ h' ∈ src, v.maskA.testBit h'.bit = true → h'.tag.time ≤ h.tag.time := by
  rw [TuView.qualify, if_neg (by omega), if_pos hmode, latest_eq_argmax] at hq
  dsimp only at hq
  split at hq
  next hall =>
    obtain ⟨hne, hall⟩ := hall
    refine ⟨hne, fun b hb hbit => ?_, fun h' hsrc hmask =>
      List.le_of_mem_argmax (f := fun h : Hit => h.tag.time) (List.mem_filter.mpr ⟨hsrc, hmask⟩) hq⟩
    have hb := List.all_eq_true.mp hall b (List.mem_range.mpr hb)
    simpa [hbit] using hb
  next => simp at hq

section
variable (hmode : v.cfg % 4 = 3)
include hmode

theorem qualify_seq_some {e : Nat × Nat} (hfire : seqFire (v.timing / 2 ^ 16) (v.eventsNow k src) (v.hitsB src) = some (h, e)) :
    v.qualify k src = (some h, (v.eventsNow k src).erase e) := by
  unfold TuView.eventsNow TuView.hitsB at hfire
  simp only [TuView.qualify, if_neg (show ¬ v.cfg % 4 = 1 by omega), if_neg (show ¬ v.cfg % 4 = 2 by omega), if_pos hmode, hfire]
  rfl

theorem qualify_seq_none (hfire : seqFire (v.timing / 2 ^ 16) (v.eventsNow k src) (v.hitsB src) = none) :
    v.qualify k src = (none, v.eventsNow k src) := by
  unfold TuView.eventsNow TuView.hitsB at hfire
  simp only [TuView.qualify, if_neg (show ¬ v.cfg % 4 = 1 by omega), if_neg (show ¬ v.cfg % 4 = 2 by omega), if_pos hmode, hfire]
  rfl

end

end

/-- A unit that is held off does not fire (R254). -/
theorem runTu_held {u k0 e : Nat} {src : List Hit} (hhold : (s.tuView k u).tu.hold = some (k0, e)) (hlo : k0 < k) (hhi : k ≤ e) :
    (s.runTu k src u).2 = none := by
  unfold State.runTu
  dsimp only
  rw [hhold]
  dsimp only
  rw [if_pos (decide_eq_true ⟨hlo, hhi⟩)]

/-! ## What a decision leaves alone (R245, R252) -/

/-- What a decision may change: TRG, the pools, waiting TRIGGER messages, and counters and faults. -/
def decisionParts : List Comp := [.regs, .incNow, .flt, .trg, .pools, .chm]

/-- A decision that goes from s to t with no swap under way has changed no more than its parts, and none of the hits that wait. -/
structure Weighs (s t : State) : Prop where
  frame : Frame decisionParts s t
  hits : t.trg.hits = s.trg.hits
  old : t.trg.old = none

theorem Weighs.refl (h : s.trg.old = none) : Weighs s s := ⟨.refl _ s, rfl, h⟩

theorem Weighs.then {t : State} (h : Weighs s₀ s) (hframe : Frame decisionParts s t) (hhits : t.trg.hits = s.trg.hits)
    (hold : t.trg.old = s.trg.old) : Weighs s₀ t :=
  ⟨(h.frame.trans hframe).mono (by decide), hhits.trans h.hits, hold.trans h.old⟩

/-- An operation that leaves TRG alone. -/
theorem Weighs.outside {t : State} (h : Weighs s₀ s) (hframe : Frame [.regs, .incNow, .flt, .pools, .chm] s t) : Weighs s₀ t := by
  have htrg : t.trg = s.trg := hframe .trg (by decide)
  exact h.then (hframe.mono (by decide)) (by rw [htrg]) (by rw [htrg])

theorem Weighs.ite {c : Prop} [Decidable c] {a b : State} (ha : Weighs s₀ a) (hb : Weighs s₀ b) :
    Weighs s₀ (if c then a else b) := by split <;> assumption

theorem Weighs.iteFst {α : Type} {c : Prop} [Decidable c] {a b : State × α} (ha : Weighs s₀ a.1) (hb : Weighs s₀ b.1) :
    Weighs s₀ (if c then a else b).1 := by split <;> assumption

theorem Weighs.fst {α : Type} {a : α} (h : Weighs s₀ s) : Weighs s₀ (s, a).1 := h

theorem Weighs.bump (h : Weighs s₀ s) {f n} : Weighs s₀ (s.bump f n) := h.outside ((frame_bump s f n).mono (by decide))

theorem Weighs.setF (h : Weighs s₀ s) {f n} : Weighs s₀ (s.setF f n) := h.outside ((frame_setF s f n).mono (by decide))

theorem Weighs.poolPut (h : Weighs s₀ s) {c p} : Weighs s₀ (s.poolPut c p) := h.outside ((frame_poolPut s c p).mono (by decide))

theorem Weighs.setChm (h : Weighs s₀ s) {p x} : Weighs s₀ (s.setChm p x) := h.outside ((frame_setChm s p x).mono (by decide))

theorem Weighs.setTrg (h : Weighs s₀ s) {x : Trg} (hhits : x.hits = s.trg.hits := by rfl) (hold : x.old = s.trg.old := by rfl) :
    Weighs s₀ { s with trg := x } := h.then ((frame_trg s x).mono (by decide)) hhits hold

theorem Weighs.oldFor (h : Weighs s₀ s) (k : Nat) : s.oldFor k = none := by rw [State.oldFor, h.old]

theorem Weighs.setTu (h : Weighs s₀ s) {u x} : Weighs s₀ (s.setTu k u x) := by
  rw [State.setTu, h.oldFor]
  exact h.setTrg

theorem Weighs.runTu (h : Weighs s₀ s) {src u} : Weighs s₀ (s.runTu k src u).1 := by
  unfold State.runTu
  extract_lets v q held _ kept
  clear_value held kept
  split
  · exact Weighs.ite h.setTu.bump h.setTu
  split
  · exact h.setTu
  · exact h.setTu

theorem Weighs.runTus (h : Weighs s₀ s) {src us} : Weighs s₀ (s.runTus k src us).1 := by
  induction us generalizing s with
  | nil => exact h
  | cons u us ih => exact ih h.runTu

theorem Weighs.countHits (h : Weighs s₀ s) {hs} : Weighs s₀ (s.countHits hs) := by
  induction hs generalizing s with
  | nil => exact h
  | cons x hs ih => exact ih (Weighs.ite h.bump h)

theorem Weighs.poolFire (h : Weighs s₀ s) {c f} : Weighs s₀ (s.poolFire c f).1 := by
  unfold State.poolFire
  dsimp only
  split
  · exact h.bump
  · exact Weighs.iteFst h.bump (Weighs.iteFst h.bump (Weighs.iteFst h.bump h.poolPut.setF.fst))

theorem Weighs.poolFires (h : Weighs s₀ s) {c fs} : Weighs s₀ (s.poolFires c fs).1 := by
  unfold State.poolFires
  dsimp only
  split
  · exact h
  split
  · exact h
  · exact Weighs.ite h.poolFire h.poolFire.bump

theorem Weighs.allPools (h : Weighs s₀ s) {fs cs} : Weighs s₀ (s.allPools fs cs).1 := by
  induction cs generalizing s with
  | nil => exact h
  | cons c cs ih => exact ih h.poolFires

theorem Weighs.pulse (h : Weighs s₀ s) {u ms} : Weighs s₀ (s.pulse u ms) := by
  induction ms generalizing s with
  | nil => exact h
  | cons m ms ih => exact ih (Weighs.ite h.setTrg h)

theorem Weighs.sendTrigs (h : Weighs s₀ s) {f marked ps} : Weighs s₀ (s.sendTrigs f marked ps) := by
  induction ps generalizing s with
  | nil => exact h
  | cons p ps ih => exact ih (Weighs.ite h.setChm h)

theorem Weighs.fire (h : Weighs s₀ s) {src recs f} : Weighs s₀ (s.fire k src recs f) :=
  (Weighs.ite h.bump.bump h.bump).setTrg.pulse.sendTrigs

theorem Weighs.fires (h : Weighs s₀ s) {src recs fs} : Weighs s₀ (s.fires k src recs fs) := by
  induction fs generalizing s with
  | nil => exact h
  | cons f fs ih => exact ih h.fire

/-- A decided tick is behind: the next one is due, and its hits are gone. -/
theorem tickDecided_spec (h : s.trg.old = none) (k : Nat) : (s.tickDecided k).trg.next = k + 1 ∧
    (s.tickDecided k).trg.hits = s.trg.hits.filter (fun x => x.tick != k) ∧ Frame [.trg] s (s.tickDecided k) := by
  refine ⟨?_, ?_, frame_trg s _⟩ <;> simp [State.tickDecided, h]

/-- A decision that weighs the hits of its tick, and then closes the tick. -/
theorem decideTick_weighs (h : s.trg.old = none) (k : Nat) : ∃ t, Weighs s t ∧ s.decideTick k = t.tickDecided k := by
  have hs := Weighs.refl h
  unfold State.decideTick
  split
  · exact ⟨s, hs, rfl⟩
  · exact ⟨_, (Weighs.ite hs.bump hs).countHits.runTus.allPools.fires, rfl⟩

/-! ## The decision cycle (R245) -/

/-- With no swap under way a decision is that of the tick whose decision cycle this is. -/
theorem trgDecision_eq (h : s.trg.old = none) : trgDecision s =
    if s.trgLat ≤ s.frc.toNat ∧ (s.frc.toNat - s.trgLat) % 64 = 0 ∧ s.trg.next ≤ (s.frc.toNat - s.trgLat) / 64 then
      s.decideTick ((s.frc.toNat - s.trgLat) / 64)
    else s := by
  simp [trgDecision, State.oldFor, State.trgDone, h, and_assoc]

/-- Settles O36: the modes, hold-off, and the decision cycle. -/
theorem triggerUnitsQualifyAndDecide : Obligations.TriggerUnitsQualifyAndDecide := by
  refine ⟨fun v k src => ⟨qualify_off, qualify_or_none, fun hmode h hq => qualify_or_some hmode hq,
    fun hmode h hq => qualify_and_some hmode hq, fun hmode => ?_⟩, fun s k u k0 e src hhold hlo hhi => runTu_held hhold hlo hhi,
    fun s k hold hfrc hnext => ?_, fun s hold hlat hcycle => ?_⟩
  · intro win es fits
    rcases hfire : seqFire win es (v.hitsB src) with _ | ⟨b, e⟩
    · have hno := seqFire_eq_none.mp hfire
      simp only [mem_hitsB, and_imp] at hno
      rw [qualify_seq_none hmode hfire]
      exact ⟨⟨fun _ => hno, fun _ => rfl⟩, fun _ => rfl, fun b hb => by simp at hb⟩
    · obtain ⟨hb, hlast, hfirst⟩ := seqFire_some (hitsB_sorted v src) hfire
      obtain ⟨hsrc, hmask⟩ := mem_hitsB.mp hb
      simp only [mem_hitsB, and_imp] at hfirst
      rw [qualify_seq_some hmode hfire]
      obtain ⟨he, hfit⟩ := lastFit_mem hlast
      refine ⟨⟨fun h => by simp at h, fun hno => absurd hfit (hno b hsrc hmask e he)⟩, fun h => by simp at h, fun b' hb' => ?_⟩
      obtain rfl := Option.some.inj hb'
      refine ⟨hsrc, hmask, hfirst, e, he, hfit, fun e' he' hfit' => ?_, rfl⟩
      obtain ⟨c, hc, hle⟩ := le_lastFit he' hfit'
      rwa [Option.some.inj (hlast.symm.trans hc)]
  · have hk : (s.frc.toNat - s.trgLat) / 64 = k := by omega
    obtain ⟨t, hweighs, hdecide⟩ := decideTick_weighs hold k
    obtain ⟨hnext', hhits, hframe⟩ := tickDecided_spec hweighs.old k
    have hall := hweighs.frame.trans hframe
    have hexec : trgDecision s = t.tickDecided k := by
      rw [trgDecision_eq hold, hk, if_pos ⟨by omega, by omega, hnext⟩, hdecide]
    refine ⟨_, congrArg Host.Outcome.next hexec, hnext', by rw [hhits, hweighs.hits], hall .hearth (by decide), hall .mem (by decide),
      hall .ing (by decide)⟩
  · have hexec : trgDecision s = s := by rw [trgDecision_eq hold, if_neg fun ⟨_, hcyc, _⟩ => hcycle hcyc]
    exact congrArg Host.Outcome.next hexec

end Sys2Proof.Machine
end
